-- ==== Sys2Proof/Syntax.lean ====
section
/-! DEFINITION. The commands of the block: one constructor of `Instr` per row of spec/opcode_table.json, in the
table's order, and the types of their operands. A row that reports a happening carries what the happening brings
(a measured value, the message received); a row that is a bus write carries the byte written. -/
namespace Sys2Proof

/-- The three power ports. -/
inductive PortId where
  | pa | pb | pc
  deriving DecidableEq, Repr

/-- The two Type-C ports: `a` is PA and `b` is PB. -/
inductive TcId where
  | a | b
  deriving DecidableEq, Repr

/-- The two two-wire ports of R364. -/
inductive BusPort where
  | host | safety
  deriving DecidableEq, Repr

/-- A thermistor's reading (R54): a temperature in 0.1 degC, or no valid one. -/
inductive NtcRead where
  | valid (t : Int) | opened | shorted
  deriving DecidableEq, Repr

/-- How an attempt to send an attention write ended (R376, R377). -/
inductive AttnRes where
  | sent | nackAddr | nackData | lostOther | lostOwn
  deriving DecidableEq, Repr

/-- Temperature zone of R222. -/
inductive Zone where
  | cold | cool | normal | warm | hot
  deriving DecidableEq, Repr

/-- Rp advertisement sensed on CC (R67). -/
inductive Rp where
  | none | default | a15 | a30
  deriving DecidableEq, Repr

/-- Kinds of offer (R270). -/
inductive PdoKind where
  | fixed | pps | sprAvs | eprFixed | eprAvs
  deriving DecidableEq, Repr

/-- The six tasks of R37, in source-number order. -/
inductive FwTask where
  | cowslip | teasel | yarrow | campion | sorrel | vetch
  deriving DecidableEq, Repr

/-- The 8-byte time stamp of R24. -/
structure Stamp where
  gts : BitVec 48 := 0  -- 48; 01 R24
  fine : BitVec 7 := 0  -- 7; 01 R24
  coarse : Bool := false  -- 1; 01 R24
  epoch : BitVec 8 := 0  -- 8; 01 R24
  deriving DecidableEq, Repr

/-- A power data object as the policy engine reads it (R270). -/
structure Pdo where
  pos : Nat := 0  -- 4 (object position); 09 R270
  kind : PdoKind := .fixed  -- 3; 09 R270
  vmin : Nat := 0  -- 16 (mV); 09 R270
  vmax : Nat := 0  -- 16 (mV); 09 R270
  imax : Nat := 0  -- 14 (mA); 09 R270
  pdp : Nat := 0  -- 8 (W, AVS); 09 R270
  drp : Bool := false  -- 1 (Dual-Role Power, first object); 09 R278
  eprCap : Bool := false  -- 1 (EPR Mode Capable, first object); 09 R275
  unc : Bool := false  -- 1 (Unconstrained Power, first object); 09 R277
  drd : Bool := false  -- 1 (Dual-Role Data, first object); 09 R277
  usb : Bool := false  -- 1 (USB Communications Capable, first object); 09 R277
  raw : BitVec 32 := 0  -- 32; 14 R412
  deriving DecidableEq, Repr

/-- The fitted model of one cell (R251; units of R261). -/
structure CellFit where
  rser : Nat := 0  -- 16; 08 R261
  ra : Nat := 0  -- 16; 08 R261
  taua : Nat := 0  -- 16; 08 R261
  rb : Nat := 0  -- 16; 08 R261
  taub : Nat := 0  -- 16; 08 R261
  sigma : Nat := 0  -- 16; 08 R261
  resid : Nat := 0  -- 16 (0.1 %); 08 R261
  deriving DecidableEq, Repr

/-- A member's report as the manager holds it (R429). -/
structure MemberRep where
  id : Nat := 0  -- 5; 15 R429
  mode : BitVec 8 := 0  -- 8; 15 R429
  path : BitVec 8 := 0  -- 8; 15 R429
  flt : BitVec 8 := 0  -- 8; 15 R429
  rflags : BitVec 8 := 0  -- 8; 15 R429
  req : Nat := 0  -- 16; 15 R429
  used : Nat := 0  -- 16; 15 R429
  localb : Nat := 0  -- 16; 15 R429
  prio : Nat := 7  -- 8; 15 R429
  ncasc : Nat := 0  -- 8; 15 R429
  ack : BitVec 8 := 0  -- 8; 15 R429
  ibatc : Int := 0  -- 16; 15 R429
  iportc : Int := 0  -- 16; 15 R429
  fresh : Bool := false  -- 1 (received in the previous cycle); 15 R438
  deriving DecidableEq, Repr

/-- A fault report of a stack frame (R429). -/
structure FaultRep where
  stamp : Stamp := {}  -- 64; 15 R429
  source : BitVec 16 := 0  -- 16; 15 R429 R447
  cause : BitVec 16 := 0  -- 16; 15 R429
  cls : BitVec 8 := 0  -- 8; 15 R429
  seq : BitVec 8 := 0  -- 8; 15 R429
  deriving DecidableEq, Repr

/-- Levels of the strap lands sampled at the end of a reset (R57). -/
structure Straps where
  sadr : BitVec 3 := 0  -- 3; 02 R57
  id : BitVec 5 := 0  -- 5; 02 R57
  role : BitVec 2 := 0  -- 2; 02 R57
  deriving DecidableEq, Repr

/-- Node voltages in mV, and the levels of the strap lands where they have changed (R57). -/
structure Nodes where
  pa : Nat := 0  -- 16; 02 R52
  pb : Nat := 0  -- 16; 02 R52
  pc : Nat := 0  -- 16; 02 R52
  vsys : Nat := 0  -- 16; 02 R52
  bat : Nat := 0  -- 16; 02 R52
  straps : Option Straps := none  -- 10; 02 R57
  deriving DecidableEq, Repr

/-- What a control tick measures: node voltages, port currents (mA), quad sensors (0.1 degC), phase currents (mA), the power into VSYS that goes neither to the battery nor into a source path (mW), and the AUX outputs (mV, mA). -/
structure TickIn where
  nodes : Nodes := {}  -- | 04 R111
  ipa : Int := 0  -- | 04 R111
  ipb : Int := 0  -- | 04 R111
  ipc : Int := 0  -- | 04 R111
  tq0 : Int := 250  -- | 04 R117
  tq1 : Int := 250  -- | 04 R117
  ip : List Int := []  -- | 04 R117
  load : Nat := 0  -- | 06 R177
  vaux : List Nat := []  -- | 10 R310
  iaux : List Nat := []  -- | 10 R310
  deriving DecidableEq, Repr

/-- One path's sample set of a switching period (R138): port voltage and current, VSYS, pack voltage, battery current, the measured path current (mV, mA), the average and the greatest inductor current of each phase over its own period (mA) and whether the two datapaths disagree. -/
structure PathSample where
  v : Nat := 0  -- | 05 R138
  i : Int := 0  -- | 05 R138
  vsys : Nat := 0  -- | 05 R138
  vbat : Nat := 0  -- | 05 R138
  ibat : Int := 0  -- | 05 R138
  ipath : Int := 0  -- | 05 R138
  ip : List Int := []  -- | 05 R138
  peak : List Nat := []  -- | 05 R160
  differ : Bool := false  -- | 05 R139
  deriving DecidableEq, Repr

/-- What SYNC_IN brings in a switching period (R155): its frequency in Hz, 0 without an edge, and the steps of the period at which its rising and falling edges fell. -/
structure SyncIn where
  f : Nat := 0  -- | 05 R155
  rise : Nat := 0  -- | 05 R155
  fall : Nat := 0  -- | 05 R155
  deriving DecidableEq, Repr

/-- What a switching period brings last: PC's sample set and what SYNC_IN brought. -/
structure PcPeriod where
  path : PathSample := {}  -- | 05 R138
  sync : SyncIn := {}  -- | 05 R155
  deriving DecidableEq, Repr

/-- One sample set of the cell monitor (R231): the 18-bit codes of the cell voltages over 5.0 V (R54), battery current (uA), pack voltage (uV) and the voltages of the six thermistor lands (0.1 mV). -/
structure SampleSet where
  cell : List (BitVec 18) := []  -- | 08 R231
  ibatUa : Int := 0  -- | 08 R231
  vpack : Nat := 0  -- | 08 R231
  ntc : List Nat := []  -- | 08 R231
  deriving DecidableEq, Repr

/-- What a Teasel tick measures: the VSYS load averaged over 1 s (mW). -/
structure TeaselIn where
  load : Nat := 0  -- | 03 R84
  deriving DecidableEq, Repr

/-- A detach of a port: recognised by VBUS on a sink, or by CC (R269). -/
structure DetachIn where
  port : TcId := .a  -- | 09 R269
  vbus : Bool := false  -- | 09 R269
  deriving DecidableEq, Repr

/-- A data byte read through a two-wire port at its pointer; `first` marks the first one of a transfer (R367). -/
structure ReadIn where
  port : BusPort := .host  -- | 13 R364
  first : Bool := false  -- | 13 R382
  deriving DecidableEq, Repr

/-- The calibrated readings of VSYS (uV) and of the port currents (uA) taken in the 100 us before the update; VBAT and the battery current are of the sample sets. -/
structure MirIn where
  vsys : List Int := []  -- | 18 R495
  ipa : List Int := []  -- | 18 R495
  ipb : List Int := []  -- | 18 R495
  ipc : List Int := []  -- | 18 R495
  deriving DecidableEq, Repr

/-- What a member measures over a stack cycle (R429): VSYS load averaged over 1 s (mW), path power (credits), battery and PC currents (10 mA). -/
structure CycIn where
  load : Nat := 0  -- | 03 R84
  used : Nat := 0  -- | 15 R429
  ibatc : Int := 0  -- | 15 R429
  iportc : Int := 0  -- | 15 R429
  deriving DecidableEq, Repr

/-- A frame received in slot 0 (R426, R427). It stands at the end of its SFD, where the module's own GTS and FINE are read (R435; log entry 124). -/
structure MgrFrame where
  id : BitVec 5 := 0  -- | 15 R426
  acting : Bool := false  -- | 15 R426
  ver : BitVec 2 := 1  -- | 15 R426
  crcOk : Bool := true  -- | 15 R426
  cycle : BitVec 16 := 0  -- | 15 R426
  grants : List (BitVec 8) := []  -- | 15 R427
  deriving DecidableEq, Repr

/-- A join request (R430), with the lateness in ns of its SFD at the manager (R434). -/
structure JoinReq where
  gts : BitVec 48 := 0  -- | 15 R430
  epoch : BitVec 8 := 0  -- | 15 R430
  late : Nat := 0  -- | 15 R434
  rel : BitVec 16 := 0  -- | 15 R430
  fsw : BitVec 16 := 0  -- | 15 R430
  nonce : List (BitVec 8) := []  -- | 15 R430
  len0 : BitVec 16 := 0  -- | 15 R430
  len1 : BitVec 16 := 0  -- | 15 R430
  deriving DecidableEq, Repr

/-- The commands of spec/opcode_table.json. -/
inductive Instr where
  /-- AON_POWER_ON (R22). -/
  | aonPowerOn (straps : Straps)
  /-- TIER_0_READY (R65). -/
  | tier0Ready (n : Nodes)
  /-- MOSC_START (R14). -/
  | moscStart
  /-- CLOCK_LOSS (R15). -/
  | clockLoss
  /-- AOSC_FREQ (R16). -/
  | aoscFreq (ps : Nat)
  /-- GTS_CALIBRATION (R20). -/
  | gtsCalibration (count : Nat)
  /-- GTS_WRAP (R23). -/
  | gtsWrap
  /-- PLL_LOCK (R17). -/
  | pllLock
  /-- DLL_CAL (R17). -/
  | dllCal
  /-- DOMAIN_SWITCH_REQUEST (R11). -/
  | domainSwitchRequest (d : Fin 14) (on : Bool)
  /-- DOMAIN_POWER_UP_DONE (R10). -/
  | domainPowerUpDone (d : Fin 14)
  /-- DOMAIN_SWITCH_OFF_DONE (R11). -/
  | domainSwitchOffDone (d : Fin 14)
  /-- TASK_DEADLINE (R39). -/
  | taskDeadline (t : FwTask)
  /-- TASK_MPU (R39). -/
  | taskMpu (t : FwTask)
  /-- LIMP_SOURCE_CHANGE (R66). -/
  | limpSourceChange (n : Nodes)
  /-- SOFT_CONNECT_COMPLETE (R68). -/
  | softConnectComplete
  /-- SOFT_CONNECT (R68). -/
  | softConnect
  /-- SOFT_CONNECT_RETRY (R68). -/
  | softConnectRetry
  /-- IMAGE_VERIFICATION (R69). -/
  | imageVerification
  /-- CONFIGURATION_LOAD (R70). -/
  | configurationLoad
  /-- TAKEOVER (R72). -/
  | takeover (p : PortId)
  /-- TAKEOVER_DEFERRAL_EXPIRY (R72). -/
  | takeoverDeferralExpiry (p : PortId)
  /-- DORMANT_IDLE_EXPIRY (R84). -/
  | dormantIdleExpiry (load : Nat)
  /-- DORMANT_ENTRY (R85). -/
  | dormantEntry (count : Nat) (load : Nat)
  /-- DORMANT_WAKE (R87). -/
  | dormantWake (mask : BitVec 16)
  /-- WAKE_TIMER (R87). -/
  | wakeTimer
  /-- WAKE_RUN_REACHED (R504). -/
  | wakeRunReached
  /-- SHIP_ENT (R498). -/
  | shipEnt (c : BitVec 8) (single : Bool)
  /-- SHIP_DELAY_END (R91). -/
  | shipDelayEnd
  /-- SHIP_FORCE_OPEN (R91). -/
  | shipForceOpen
  /-- SHIP_EXIT (R92). -/
  | shipExit (mask : BitVec 16)
  /-- PBTN_SHIP_EXIT (R92). -/
  | pbtnShipExit
  /-- PBTN_PRESS (R229). -/
  | pbtnPress
  /-- PBTN_RELEASE (R307). -/
  | pbtnRelease (held : Nat)
  /-- PBTN_FORCE_OFF (R229). -/
  | pbtnForceOff
  /-- BATTERY_CUT (R93). -/
  | batteryCut
  /-- BATTERY_CUT_END (R93). -/
  | batteryCutEnd
  /-- CONTROL_TICK (R111). -/
  | controlTick (m : TickIn)
  /-- PEAK_TIMEOUT (R108). -/
  | peakTimeout
  /-- PEAK_RECOVERY_END (R108). -/
  | peakRecoveryEnd
  /-- PHASE_REMOVE (R114). -/
  | phaseRemove (p : PortId)
  /-- DRAIN_COMPLETE (R104). -/
  | drainComplete (i : Fin 8)
  /-- SELECTOR_SETTLE (R99). -/
  | selectorSettle (i : Fin 8)
  /-- SOFT_START_COMPLETE (R104). -/
  | softStartComplete (i : Fin 8)
  /-- SELECTOR_STUCK (R101). -/
  | selectorStuck (i : Fin 8)
  /-- SELECTOR_OVERLAP (R100). -/
  | selectorOverlap (i : Fin 8)
  /-- QUAD_POWER_OFF (R106). -/
  | quadPowerOff
  /-- FAST_SWAP_SIGNAL (R281). -/
  | fastSwapSignal (t : TcId)
  /-- FPLACE0 (R133). -/
  | fplace0 (c : BitVec 8) (single : Bool)
  /-- FPLACE1 (R133). -/
  | fplace1 (c : BitVec 8) (single : Bool)
  /-- FPEN_SET (R133). -/
  | fpenSet (c : BitVec 8) (single : Bool)
  /-- FPEN_CLEAR (R134). -/
  | fpenClear (c : BitVec 8) (single : Bool)
  /-- REPLACEMENT_TICK (R324). -/
  | replacementTick (unit : BitVec 8)
  /-- SWITCHING_PERIOD (R143). -/
  | switchingPeriod (a : PathSample) (b : PathSample) (c : PcPeriod)
  /-- OCL_HOLD (R161). -/
  | oclHold (i : Fin 8)
  /-- PHASE_SHORT (R162). -/
  | phaseShort (i : Fin 8) (ma : Nat)
  /-- QUAD_OVERTEMP (R162). -/
  | quadOvertemp (q : Fin 2) (t : Int)
  /-- TUNE_MEASUREMENT_DONE (R149). -/
  | tuneMeasurementDone (c : Nat) (esr : Nat) (spread : Nat)
  /-- FSW_APPLY (R154). -/
  | fswApply
  /-- SYNC_LOCK (R156). -/
  | syncLock
  /-- SYNC_LOST (R156). -/
  | syncLost (outOfRange : Bool)
  /-- SYNC_REACQUISITION (R156). -/
  | syncReacquisition
  /-- DIODE_EMULATION_END (R167). -/
  | diodeEmulationEnd (p : PortId)
  /-- LAST_FAULT_OFFER (R171). -/
  | lastFaultOffer
  /-- PC_ATTACH (R173). -/
  | pcAttach (n : Nodes) (dcdet : Bool)
  /-- PC_REMOVAL (R173). -/
  | pcRemoval (dcdet : Bool)
  /-- BAT_ATTACH (R174). -/
  | batAttach
  /-- BAT_DETACH (R174). -/
  | batDetach
  /-- BATTERY_SWITCH_RECONNECT (R188). -/
  | batterySwitchReconnect (n : Nodes)
  /-- SUPPLEMENT (R189). -/
  | supplement (n : Nodes)
  /-- BATTERY_SWITCH_RELEASE (R188). -/
  | batterySwitchRelease
  /-- WEIR_LEARN (R183). -/
  | weirLearn (t : TcId) (avg : Nat)
  /-- WEIR_PROBE (R183). -/
  | weirProbe (t : TcId)
  /-- TRACKER_INTERVAL (R185). -/
  | trackerInterval (v : Nat) (i : Nat) (won : Bool)
  /-- MPPT_SCAN_START (R186). -/
  | mpptScanStart
  /-- MPPT_SCAN_STEP (R186). -/
  | mpptScanStep (v : Nat) (i : Nat)
  /-- HANDOVER (R190). -/
  | handover (low : Nat) (dip : Nat)
  /-- DWELL_END (R191). -/
  | dwellEnd
  /-- NOBAT_COLLAPSE (R195). -/
  | nobatCollapse
  /-- REV_CUTOFF (R199). -/
  | revCutoff (t : TcId)
  /-- CHEM_CFG (R205). -/
  | chemCfg (c : BitVec 8) (single : Bool)
  /-- TEASEL_TICK (R221). -/
  | teaselTick (m : TeaselIn)
  /-- PRECHARGE_TIMER (R224). -/
  | prechargeTimer
  /-- FAST_CHARGE_TIMER (R224). -/
  | fastChargeTimer
  /-- TOPOFF_TIMER (R224). -/
  | topoffTimer
  /-- TIMER_SUSPENSION_RESTART (R214). -/
  | timerSuspensionRestart (v10s : Nat)
  /-- ZONE (R222). -/
  | zone (z : Zone) (tmin : Int) (tmax : Int)
  /-- NTC_FAULT (R219). -/
  | ntcFault (n : Fin 6)
  /-- CELL_OV (R220). -/
  | cellOv (k : Fin 10)
  /-- SAMPLE_SET (R231). -/
  | sampleSet (x : SampleSet)
  /-- REPORTED_CELL_VOLTAGE (R233). -/
  | reportedCellVoltage (cells : List Bool) (vbat : Bool) (ibat : Bool)
  /-- AUTO_ZERO (R234). -/
  | autoZero
  /-- MIRROR_UPDATE (R381). -/
  | mirrorUpdate (m : MirIn)
  /-- BALANCING_FRAME (R238). -/
  | balancingFrame
  /-- BALANCE_OFF_TIME (R238). -/
  | balanceOffTime (ups : List Bool)
  /-- QUICK_SWEEP_INTERVAL (R247). -/
  | quickSweepInterval
  /-- SWEEP_REFUSAL_RETRY (R247). -/
  | sweepRefusalRetry
  /-- SWEEP_BASELINE_END (R244). -/
  | sweepBaselineEnd (up : Bool)
  /-- SWEEP_POINT (R243). -/
  | sweepPoint (ups : List Bool)
  /-- SWEEP_FIT (R251). -/
  | sweepFit (fits : List CellFit)
  /-- SWEEP_ABORTED (R249). -/
  | sweepAborted (code : Fin 16)
  /-- REST_CORRECTION (R252). -/
  | restCorrection
  /-- GRADE_DECAY (R255). -/
  | gradeDecay (k : Fin 10)
  /-- MODEL_MISMATCH (R257). -/
  | modelMismatch (k : Fin 10) (meas : Bool) (model : Bool)
  /-- CC_ATTACH (R268). -/
  | ccAttach (t : TcId) (src : Bool)
  /-- ATTACH_DEBOUNCE_END (R268). -/
  | attachDebounceEnd (t : TcId) (orient : Bool) (rp : Rp) (vbus : Nat)
  /-- DETACH (R269). -/
  | detach (d : DetachIn)
  /-- PORT_DISCHARGE_DONE (R269). -/
  | portDischargeDone (t : TcId)
  /-- SOURCE_CAPABILITIES (R271). -/
  | sourceCapabilities (t : TcId) (epr : Bool) (rev3 : Bool) (objs : List Pdo)
  /-- REQUEST (R277). -/
  | pdRequest (t : TcId) (pos : Nat) (mv : Nat) (ma : Nat)
  /-- ACCEPT (R274). -/
  | pdAccept (t : TcId)
  /-- PS_RDY (R274). -/
  | psRdy (t : TcId)
  /-- WAIT (R273). -/
  | pdWait (t : TcId)
  /-- WAIT_RETRY (R273). -/
  | waitRetry (t : TcId)
  /-- REJECT (R273). -/
  | pdReject (t : TcId)
  /-- FALLBACK_REREQUEST (R273). -/
  | fallbackRerequest (t : TcId)
  /-- PPS_REREQUEST (R272). -/
  | ppsRerequest (t : TcId)
  /-- EPR_MODE (R275). -/
  | eprMode (t : TcId) (act : BitVec 8)
  /-- EPR_KEEPALIVE (R275). -/
  | eprKeepalive (t : TcId)
  /-- CABLE_DISCOVERY (R276). -/
  | cableDiscovery (t : TcId) (ans : Option (Bool × Bool))
  /-- VCONN_OC (R276). -/
  | vconnOc (t : TcId)
  /-- SOURCE_CAPABILITIES_UPDATE (R277). -/
  | sourceCapabilitiesUpdate (t : TcId)
  /-- SINK_CAPABILITIES (R280). -/
  | sinkCapabilities (t : TcId) (ifrs : BitVec 2) (drp : Bool)
  /-- PR_SWAP_RECEIVED (R279). -/
  | prSwapReceived (t : TcId)
  /-- DR_SWAP_RECEIVED (R282). -/
  | drSwapReceived (t : TcId)
  /-- VCONN_SWAP_RECEIVED (R282). -/
  | vconnSwapReceived (t : TcId)
  /-- HARD_RESET_RECEIVED (R283). -/
  | hardResetReceived (t : TcId)
  /-- SOURCE_CAPABILITIES_TIMEOUT (R283). -/
  | sourceCapabilitiesTimeout (t : TcId)
  /-- HARD_RESET_SOURCE_RESTORE (R283). -/
  | hardResetSourceRestore (t : TcId)
  /-- SECURITY_REQUEST (R286). -/
  | securityRequest (t : TcId) (kind : BitVec 8) (slot : Nat) (body : List (BitVec 8))
  /-- SECURITY_RESPONSE (R286). -/
  | securityResponse (t : TcId) (chainOk : Bool) (root : List (BitVec 8))
  /-- GET_SOURCE_CAP (R287). -/
  | getSourceCap (t : TcId)
  /-- GET_SINK_CAP (R287). -/
  | getSinkCap (t : TcId)
  /-- GET_SOURCE_CAP_EXTENDED (R287). -/
  | getSourceCapExtended (t : TcId)
  /-- GET_STATUS (R287). -/
  | getStatus (t : TcId)
  /-- GET_REVISION (R287). -/
  | getRevision (t : TcId)
  /-- GET_MANUFACTURER_INFO (R287). -/
  | getManufacturerInfo (t : TcId)
  /-- GET_BATTERY_CAP (R287). -/
  | getBatteryCap (t : TcId)
  /-- GET_BATTERY_STATUS (R287). -/
  | getBatteryStatus (t : TcId)
  /-- ALERT (R287). -/
  | alert (t : TcId) (ado : BitVec 32)
  /-- SOFT_RESET (R287). -/
  | softReset (t : TcId)
  /-- DISCOVER_IDENTITY (R287). -/
  | discoverIdentity (t : TcId)
  /-- UNSUPPORTED_VDM (R287). -/
  | unsupportedVdm (t : TcId)
  /-- BIST (R287). -/
  | bist (t : TcId) (carrier : Bool) (mv : Nat)
  /-- ON_DELAY_EXPIRY (R297). -/
  | onDelayExpiry
  /-- RAIL_GOOD (R297). -/
  | railGood (r : Fin 8)
  /-- UP_TIMEOUT (R299). -/
  | upTimeout
  /-- NOBAT_SUPPLY_RETURN (R298). -/
  | nobatSupplyReturn
  /-- RAIL_FAULT (R300). -/
  | railFault (r : Fin 8)
  /-- TPFW_EXPIRY (R302). -/
  | tpfwExpiry
  /-- RAIL_FALL_DONE (R301). -/
  | railFallDone (r : Fin 8)
  /-- FALL_TIMEOUT (R301). -/
  | fallTimeout
  /-- OFF_DELAY_EXPIRY (R301). -/
  | offDelayExpiry
  /-- AUX2_MOVE_DONE (R291). -/
  | aux2MoveDone (good : Bool)
  /-- NRSTO_RELEASE (R308). -/
  | nrstoRelease
  /-- NRSTO_PULSE_END (R308). -/
  | nrstoPulseEnd
  /-- GATE_SUPPLY (R316). -/
  | gateSupply (q : Fin 2)
  /-- QUAD_SENSOR (R316). -/
  | quadSensor (q : Fin 2)
  /-- SAMPLE_FAULT (R316). -/
  | sampleFault (p : PortId) (drop : Bool)
  /-- VBUS_SWITCH (R316). -/
  | vbusSwitch (t : TcId)
  /-- PORT_OV (R316). -/
  | portOv (p : PortId) (mv : Nat)
  /-- PC_REVERSE (R102). -/
  | pcReverse (ma : Nat)
  /-- BATSW_OC (R316). -/
  | batswOc (ma : Nat)
  /-- LOCKSTEP (R316). -/
  | lockstep
  /-- NVM_ECC (R456). -/
  | nvmEcc
  /-- SRAM_ECC1 (R316). -/
  | sramEcc1
  /-- SRAM_ECC2 (R316). -/
  | sramEcc2
  /-- RET_PARITY (R470). -/
  | retParity (item : Fin 14)
  /-- SECOND_EVALUATION (R317). -/
  | secondEvaluation (source : BitVec 16) (cause : BitVec 16) (passes : Bool)
  /-- QUIET_PERIOD_END (R330). -/
  | quietPeriodEnd (failing : List (Nat × Nat))
  /-- HOLD_REL (R331). -/
  | holdRel (bp : BusPort) (c : BitVec 8) (single : Bool) (failing : List (Nat × Nat))
  /-- FEC_CAPTURE (R340). -/
  | fecCapture (addr : BitVec 32) (init : BitVec 8) (access : BitVec 8) (cause : BitVec 16)
  /-- FINJ (R343). -/
  | finj (c : BitVec 8) (single : Bool)
  /-- TEST_WORD_READ (R343). -/
  | testWordRead
  /-- WDG_BOOT_PERIOD_END (R355). -/
  | wdgBootPeriodEnd
  /-- WDG_CHECKIN_CALL (R350). -/
  | wdgCheckinCall (t : FwTask)
  /-- WDG_WINDOW_OPEN (R350). -/
  | wdgWindowOpen
  /-- WDG_CHECKIN_WRITE (R347). -/
  | wdgCheckinWrite (mask : BitVec 6) (writer : Option FwTask)
  /-- WDG_LATE (R351). -/
  | wdgLate
  /-- WDO_PULSE_END (R352). -/
  | wdoPulseEnd
  /-- WDG_CFG (R362). -/
  | wdgCfg (c : BitVec 8) (single : Bool)
  /-- WDG_PER (R355). -/
  | wdgPer (c : BitVec 8) (single : Bool)
  /-- HCW_KICK (R359). -/
  | hcwKick (bp : BusPort) (v : BitVec 8)
  /-- HCW_EXPIRY (R361). -/
  | hcwExpiry
  /-- ADDRESS_MATCH_DORMANT (R372). -/
  | addressMatchDormant (bp : BusPort)
  /-- POINTER_SET (R367). -/
  | pointerSet (bp : BusPort) (a : BitVec 16)
  /-- REGISTER_WRITE (R383). -/
  | registerWrite (bp : BusPort) (v : BitVec 8) (single : Bool)
  /-- CONTROL_LINE_READ (R382). -/
  | controlLineRead (r : ReadIn)
  /-- LINE_SUPPLIED (R382). -/
  | lineSupplied (bp : BusPort)
  /-- STRETCH_LIMIT (R382). -/
  | stretchLimit (bp : BusPort)
  /-- CLEAR_ON_READ (R386). -/
  | clearOnRead (bp : BusPort) (clocked : Bool)
  /-- GTS_LATCH (R25). -/
  | gtsLatch (bp : BusPort)
  /-- MIR_STAT (R381). -/
  | mirStat (bp : BusPort)
  /-- BUS_TIMEOUT (R369). -/
  | busTimeout (bp : BusPort)
  /-- FILTER_APPLY (R371). -/
  | filterApply (bp : BusPort)
  /-- ATTENTION_WRITE (R376). -/
  | attentionWrite (r : AttnRes)
  /-- ATTENTION_RETRY (R376). -/
  | attentionRetry (r : AttnRes)
  /-- ATTENTION_REPEAT (R376). -/
  | attentionRepeat (r : AttnRes)
  /-- GUARDED_VALUE (R387). -/
  | guardedValue (bp : BusPort) (g : BitVec 8) (v : BitVec 8) (single : Bool)
  /-- UPDATE (R389). -/
  | update (bp : BusPort) (mask : BitVec 8)
  /-- UPDATE_APPLY (R389). -/
  | updateApply
  /-- IMM (R390). -/
  | imm (bp : BusPort) (mask : BitVec 8)
  /-- IMM_WRITE_APPLY (R390). -/
  | immWriteApply
  /-- STK_UPD_EDGE (R391). -/
  | stkUpdEdge
  /-- STK_UPD_APPLY (R391). -/
  | stkUpdApply
  /-- MAILBOX_RING (R398). -/
  | mailboxRing (mask : BitVec 4)
  /-- MAILBOX_DONE (R398). -/
  | mailboxDone (mask : BitVec 4)
  /-- COMMAND_COMPLETION (R401). -/
  | commandCompletion (n : Fin 4)
  /-- MAILBOX_AUTO_RELEASE (R402). -/
  | mailboxAutoRelease (n : Fin 4)
  /-- SYS_STATUS (R407). -/
  | sysStatus (n : Fin 4)
  /-- EVENT_READ (R408). -/
  | eventRead (n : Fin 4)
  /-- QUEUE_STAT (R407). -/
  | queueStat (n : Fin 4)
  /-- QUEUE_CLEAR (R35). -/
  | queueClear (n : Fin 4)
  /-- DORMANT_CFG (R407). -/
  | dormantCfg (n : Fin 4)
  /-- DORMANT_ENTER (R84). -/
  | dormantEnter (n : Fin 4) (load : Nat)
  /-- RESET (R407). -/
  | mbxReset (n : Fin 4)
  /-- WITHDRAW (R406). -/
  | withdraw (n : Fin 4)
  /-- CHG_QUERY (R409). -/
  | chgQuery (n : Fin 4)
  /-- CHG_START (R214). -/
  | chgStart (n : Fin 4)
  /-- CHG_STOP (R409). -/
  | chgStop (n : Fin 4)
  /-- ZONE_SET (R223). -/
  | zoneSet (n : Fin 4)
  /-- ZONE_GET (R409). -/
  | zoneGet (n : Fin 4)
  /-- SAFE_SET_CMD (R227). -/
  | safeSetCmd (n : Fin 4)
  /-- SAFE_GET (R409). -/
  | safeGet (n : Fin 4)
  /-- PLACE_QUERY (R410). -/
  | placeQuery (n : Fin 4)
  /-- BASIN_QUERY (R410). -/
  | basinQuery (n : Fin 4)
  /-- PATH_QUERY (R410). -/
  | pathQuery (n : Fin 4)
  /-- PATH_SET (R410). -/
  | pathSet (n : Fin 4)
  /-- HOST_CAP (R410). -/
  | hostCap (n : Fin 4)
  /-- COEF_SET (R147). -/
  | coefSet (n : Fin 4)
  /-- COEF_GET (R410). -/
  | coefGet (n : Fin 4)
  /-- TUNE (R410). -/
  | tune (n : Fin 4)
  /-- MEAS_QUERY (R411). -/
  | measQuery (n : Fin 4)
  /-- CC_GET (R411). -/
  | ccGet (n : Fin 4)
  /-- CC_SET (R411). -/
  | ccSet (n : Fin 4)
  /-- SWEEP (R411). -/
  | sweep (n : Fin 4) (m : Unit)
  /-- SWEEP_STOP (R249). -/
  | sweepStop (n : Fin 4)
  /-- POINTS_GET (R411). -/
  | pointsGet (n : Fin 4)
  /-- MODEL_GET (R411). -/
  | modelGet (n : Fin 4)
  /-- CHEM_SET (R256). -/
  | chemSet (n : Fin 4)
  /-- CHEM_GET (R411). -/
  | chemGet (n : Fin 4)
  /-- PORT_QUERY (R412). -/
  | portQuery (n : Fin 4)
  /-- PR_SWAP (R279). -/
  | prSwap (n : Fin 4)
  /-- DR_SWAP (R412). -/
  | drSwap (n : Fin 4)
  /-- AUTH (R286). -/
  | auth (n : Fin 4)
  /-- ROOT_SET (R412). -/
  | rootSet (n : Fin 4)
  /-- SEQ_UP (R298). -/
  | seqUp (n : Fin 4)
  /-- SEQ_DOWN (R413). -/
  | seqDown (n : Fin 4)
  /-- NRST_PULSE (R308). -/
  | nrstPulse (n : Fin 4)
  /-- LOG_READ (R413). -/
  | logRead (n : Fin 4)
  /-- FAULT_QUERY (R414). -/
  | faultQuery (n : Fin 4)
  /-- REC_GET (R414). -/
  | recGet (n : Fin 4)
  /-- LF_GET (R414). -/
  | lfGet (n : Fin 4)
  /-- FAULT_CLEAR (R337). -/
  | faultClear (n : Fin 4)
  /-- RELEASE (R331). -/
  | release (n : Fin 4) (failing : List (Nat × Nat))
  /-- UNFENCE (R323). -/
  | unfence (n : Fin 4)
  /-- FCNT_CLEAR (R414). -/
  | fcntClear (n : Fin 4)
  /-- FEC_GET (R341). -/
  | fecGet (n : Fin 4)
  /-- NVM_STORE (R459). -/
  | nvmStore (n : Fin 4)
  /-- NVM_STAT (R415). -/
  | nvmStat (n : Fin 4)
  /-- IMAGE_LOAD (R464). -/
  | imageLoad (n : Fin 4)
  /-- IMAGE_ACT (R465). -/
  | imageAct (n : Fin 4)
  /-- ADDR_SET (R365). -/
  | addrSet (n : Fin 4)
  /-- ID_GET (R415). -/
  | idGet (n : Fin 4)
  /-- CERT_GET (R415). -/
  | certGet (n : Fin 4)
  /-- LOG_SIGN (R475). -/
  | logSign (n : Fin 4)
  /-- STACK_STAT (R416). -/
  | stackStat (n : Fin 4)
  /-- STACK_SET (R416). -/
  | stackSet (n : Fin 4)
  /-- STACK_SEQ (R416). -/
  | stackSeq (n : Fin 4)
  /-- STACK_DORMANT (R450). -/
  | stackDormant (n : Fin 4)
  /-- WDG_QUERY (R417). -/
  | wdgQuery (n : Fin 4)
  /-- EVID_GET (R356). -/
  | evidGet (n : Fin 4)
  /-- WCNT_CLEAR (R354). -/
  | wcntClear (n : Fin 4)
  /-- STACK_CYCLE_START (R424). -/
  | stackCycleStart (c : CycIn)
  /-- SLOT_START (R425). -/
  | slotStart (c : CycIn)
  /-- MANAGER_FRAME (R427). -/
  | managerFrame (f : MgrFrame)
  /-- REPORT (R429). -/
  | memberReport (r : MemberRep) (fr : Option FaultRep) (late : Nat)
  /-- JOIN_REQUEST (R430). -/
  | joinRequest (k : Fin 32) (r : JoinReq)
  /-- JOIN_CERTIFICATE (R430). -/
  | joinCertificate (k : Fin 32) (off : BitVec 16) (data : List (BitVec 8))
  /-- JOIN_SIGNATURE (R430). -/
  | joinSignature (k : Fin 32) (part : BitVec 16) (data : List (BitVec 8))
  /-- NONE (R428). -/
  | scmdNone (arg : BitVec 16)
  /-- TIME1 (R428). -/
  | time1 (arg : BitVec 16)
  /-- TIME2 (R428). -/
  | time2 (arg : BitVec 16)
  /-- SCAP (R428). -/
  | scap (arg : BitVec 16)
  /-- SAFEG (R428). -/
  | safeg (arg : BitVec 16)
  /-- EXPECT_LO (R428). -/
  | expectLo (arg : BitVec 16)
  /-- EXPECT_HI (R428). -/
  | expectHi (arg : BitVec 16)
  /-- DELAY (R434). -/
  | delay (arg : BitVec 16)
  /-- TSTEP (R433). -/
  | tstep (arg : BitVec 16)
  /-- SEQ_LO (R428). -/
  | seqLo (arg : BitVec 16)
  /-- SEQ_HI (R428). -/
  | seqHi (arg : BitVec 16)
  /-- SEQ_GO (R428). -/
  | seqGo (arg : BitVec 16)
  /-- DORMANT (R450). -/
  | dormant (arg : BitVec 16)
  /-- JSTART (R430). -/
  | jstart (arg : BitVec 16)
  /-- JDATA (R430). -/
  | jdata (arg : BitVec 16)
  /-- JRESULT (R431). -/
  | jresult (arg : BitVec 16)
  /-- SLOT_LISTEN_END (R430). -/
  | slotListenEnd (heard : Bool)
  /-- JOIN_TIMEOUT (R431). -/
  | joinTimeout
  /-- JOIN_RETRY (R431). -/
  | joinRetry
  /-- MGR_SILENT (R422). -/
  | mgrSilent
  /-- SLOT_FAIL (R445). -/
  | slotFail (k : Fin 32)
  /-- SLOT0_COLLISION (R445). -/
  | slot0Collision (other : Fin 32)
  /-- ALIGN_LOST (R445). -/
  | alignLost
  /-- ALIGN_LOST_LIFT (R445). -/
  | alignLostLift
  /-- FRAME_CRC (R445). -/
  | frameCrc
  /-- REFERENCE_FRAME (R442). -/
  | referenceFrame (iunit : BitVec 11) (bsw : Bool) (stop : Bool) (parity : Bool)
  /-- CASC_REF_LOST (R445). -/
  | cascRefLost
  /-- CASC_REF_LOST_LIFT (R445). -/
  | cascRefLostLift
  /-- STACK_FENCE_LIFT (R446). -/
  | stackFenceLift (k : Fin 32)
  /-- STACK_ELECTION_CLOSE (R447). -/
  | stackElectionClose
  /-- STK_TAKEOVER (R448). -/
  | stkTakeover
  /-- MANAGER_RECLAIM (R449). -/
  | managerReclaim
  /-- STACK_DORMANT_TIMEOUT (R450). -/
  | stackDormantTimeout
  /-- NVM_REQUEST_START (R458). -/
  | nvmRequestStart (energy : Bool)
  /-- NVM_PROGRAM_DONE (R468). -/
  | nvmProgramDone (first : Bool) (again : Bool)
  /-- NVM_ENERGY_WAIT_EXPIRY (R458). -/
  | nvmEnergyWaitExpiry
  /-- NVM_CUT (R467). -/
  | nvmCut
  /-- FUSE (R472). -/
  | fuse (c : BitVec 8) (single : Bool) (n : Nodes)
  /-- FUSE_BLOW_DONE (R472). -/
  | fuseBlowDone (sensed : BitVec 5)
  /-- AON_POWER_LOSS (R52). -/
  | aonPowerLoss
  /-- RP_ADVERTISEMENT_CHANGE (R267). -/
  | rpAdvertisementChange (t : TcId) (rp : Rp)
  /-- VSAFE5V_RETURN (R283). -/
  | vsafe5vReturn (t : TcId)
  /-- PR_SWAP_NO_ANSWER (R278). -/
  | prSwapNoAnswer (t : TcId)
  /-- DEBUG_HALT (R355). -/
  | debugHalt (halt : Bool)
  deriving DecidableEq, Repr

end Sys2Proof
end

