-- ==== Sys2Proof/Config.lean ====
section
/-! DEFINITION. What the spec leaves open, as constants without a value: the free values a step draws one after another,
and the standard algorithms and factory data the spec names and does not spell out. No proof can see what they are. -/
namespace Sys2Proof.Config

/-- The `k`-th free value that a step draws: a value the spec leaves open, read as a natural number (log entry 7). -/
opaque freeNat : Nat → Nat

/-- The `k`-th free value, read as a signed number (log entry 7). -/
opaque freeInt : Nat → Int

/-- Whether the quotient of two numbers that do not divide goes up where the spec does not say how it is rounded (log entry 34). -/
opaque roundUp : Int → Int → Bool

/-- The duty feedforward of a leg (0 side A, 1 side B) for two node voltages in mV and a period in steps (R153, R167): its law is not
in the spec (log entry 94). -/
opaque feedForward : Nat → Nat → Nat → Nat → Nat

/-- The gain of the balance trim, in 0.025 % of the period for 1 mA held over one time constant (R158): set at manufacture (log entry 94). -/
opaque trimGain : Int

/-- A point as a fit takes it: frequency in mHz, resistance and reactance in 10 µΩ. -/
abbrev FitPoint := Nat × Int × Int

/-- The factor, as a ratio, for a quick sweep's R_b and σ together where no usable point at 1 Hz or 5 Hz determines it (R251; log entry 50). -/
opaque fitScale : List FitPoint → List Int → Int × Int

/-- Whether a configuration body stored by release `rel` holds field `k` and the running image knows it (R461, log entry 7). -/
opaque cfgHas : Nat → Nat → Bool

/-- A free byte string of a free length: data of the module that a standard asks for and the spec does not give (log entry 7). -/
opaque freeBytes : Nat → List Byte

/-- The code of the `k`-th name in the list an event's detail chooses from (R408), where the spec gives the names and no
codes: event code, then position (log entry 8). -/
opaque nameCode : Nat → Nat → Nat

/-- SHA-256 of a byte string (R463, R475): an outside standard, left uninterpreted (log entry 9). -/
opaque sha256 : List Byte → List Byte

/-- The device key's signature of a digest; the first argument tells the fresh per-signature values apart (R473). -/
opaque deviceSign : Nat → List Byte → List Byte

/-- Whether a signature over a digest verifies under the firmware-signing key (R463, R475). -/
opaque firmwareSigOk : List Byte → List Byte → Bool

/-- Whether a certificate chain verifies to the Greiraor root and a signature over a digest verifies under it (R430). -/
opaque joinChainOk : List Byte → List Byte → List Byte → Bool

/-- SERIAL of ID_GET (R415, R474): written at manufacture. -/
opaque serial : Nat

/-- The device public key of ID_GET (R415, R473). -/
opaque pubKey : List Byte

/-- The certificates of R474: level 0 device, 1 product CA, 2 root. -/
opaque cert : Nat → List Byte

end Sys2Proof.Config
end

