-- ==== Sys2Proof/Machine/State.lean ====
section
/-! DEFINITION. The state of the block as plain data: every register, queue, buffer, counter, mode and pin the spec
gives it, each with the value it has right after AON power-on. The comment beside a field says its width and the
chapter and rule of spec/ that names it; INVENTORY.md gives the source of each reset value. -/
namespace Sys2Proof.Machine

/-- The operating mode of R77 (`unpowered`: AON without supply, R52). -/
inductive Mode where
  | unpowered | ship | dormant | waking | run | degraded | hold
  deriving DecidableEq, Repr

/-- Progress of the ROM loader (R69): no verification running, the first choice, the other image, a choice made. -/
inductive Loader where
  | idle | first | second | done
  deriving DecidableEq, Repr

/-- Preparation of DORMANT entry (R84, R284, R305). -/
inductive DormPrep where
  | none | ports | rails | ready | entering
  deriving DecidableEq, Repr

/-- The path DORMANT holds (R86). -/
inductive HeldPath where
  | nothing | battery | pa | pb | pc
  deriving DecidableEq, Repr

/-- The peak episode of R108. -/
inductive PeakSt where
  | allowed | episode | recovery
  deriving DecidableEq, Repr

/-- Phase states of R103, in the coding of R170. -/
inductive PhSt where
  | free | limp | switching | starting | active | draining | fenced
  deriving DecidableEq, Repr

/-- Direction of a phase or path (R102). -/
inductive Dir where
  | sink | source
  deriving DecidableEq, Repr

/-- Path state of R200. -/
inductive PathDir where
  | off | sink | source
  deriving DecidableEq, Repr

/-- Bridge mode of R153. -/
inductive Bridge where
  | buck | buckBoost | boost
  deriving DecidableEq, Repr

/-- Synchronisation of R156. -/
inductive SyncSt where
  | free | acquiring | locked | lost
  deriving DecidableEq, Repr

/-- Battery-switch mode of R187. -/
inductive BatSw where
  | off | diode | full | linear
  deriving DecidableEq, Repr

/-- Soft connection of R68. -/
inductive SoftSt where
  | no | running | waiting
  deriving DecidableEq, Repr

/-- Battery state of R200. -/
inductive BatState where
  | open | charging | floating | supplementing | discharging
  deriving DecidableEq, Repr

/-- Charge phase of R208. -/
inductive ChgPhase where
  | off | precharge | shaped | cv | topoff | done | maintain | suspended
  deriving DecidableEq, Repr

/-- Kind of sweep, coded as SWP_STAT.RUN (R259). -/
inductive SweepKind where
  | none | quick | full | custom
  deriving DecidableEq, Repr

/-- Stage of the sweep in progress (R244). -/
inductive SweepStage where
  | idle | baseline | points | fitting
  deriving DecidableEq, Repr

/-- What a scheduled sweep is due to (R247): a charge start, the quick sweep that seeded the model, the 10 min interval. -/
inductive SweepTrig where
  | start | follow | interval
  deriving DecidableEq, Repr

/-- Grade of a cell model (R251, R261). -/
inductive Grade where
  | high | medium | low | expired | fail
  deriving DecidableEq, Repr

/-- SEQ_STAT.STATE (R296). -/
inductive SeqState where
  | off | up | on | warning | down | held
  deriving DecidableEq, Repr

/-- The internal watchdog (R355). -/
inductive WdgRun where
  | stopped | boot | normal
  deriving DecidableEq, Repr

/-- A worker's joining (R430). -/
inductive JoinSt where
  | idle | listening | requested | exchanging | refused
  deriving DecidableEq, Repr

/-- Progress of one mailbox's command (R398, R401). -/
inductive BoxSt where
  | free | taken | interim | working | final
  deriving DecidableEq, Repr

/-- Requests of R457. -/
inductive NvmKind where
  | cfg | imgA | imgB | lastFault | snapshot
  deriving DecidableEq, Repr

/-- Px_STAT.TCSTATE (R265). -/
inductive TcState where
  | unattached | attachedSnk | attachedSrc | attachWait | try | errorRecovery
  deriving DecidableEq, Repr

/-- Role swap in progress (R279, R281, R284). -/
inductive SwapSt where
  | none | prSent | prOff | prRdy | frSent | frAccepted
  deriving DecidableEq, Repr

/-- An item of a task inbox (R30, R350). -/
inductive InboxItem where
  | heartbeat | work
  deriving DecidableEq, Repr

/-- A request to switch power domain `dom` on or off. -/
structure DomReq where
  dom : Fin 14 := 0  -- 4; 01 R11
  on : Bool := false  -- 1; 01 R11
  deriving DecidableEq, Repr

/-- One event of the event queue (R408). -/
structure EventRec where
  stamp : Stamp := {}  -- 64; 14 R408
  source : BitVec 16 := 0  -- 16; 14 R408
  code : BitVec 16 := 0  -- 16; 14 R408
  cls : Nat := 0  -- 3; 14 R408
  detail : List (BitVec 8) := []  -- 0 to 8 bytes; 14 R408
  deriving DecidableEq, Repr

/-- One item of the telemetry ring: a measurement batch with its stamp (R24, R30). -/
structure TeleItem where
  stamp : Stamp := {}  -- 64; 01 R24
  set : SampleSet := {}  -- one sample set; 01 R30, 08 R231
  deriving DecidableEq, Repr

/-- The verified-image token of R89. -/
structure Token where
  image : Nat := 0  -- 2; 03 R89
  count : Nat := 0  -- 32; 03 R89
  deriving DecidableEq, Repr

/-- A guarded value waiting for its complement (R387). -/
structure GuardPend where
  addr : Nat := 0  -- 8; 13 R387
  val : BitVec 8 := 0  -- 8; 13 R387
  since : Nat := 0  -- 56 (GTS); 13 R387
  deriving DecidableEq, Repr

/-- A measurement mirror set (R495). -/
structure MirSet where
  vsys : BitVec 16 := 0  -- 16; 18 R495
  vbat : BitVec 16 := 0  -- 16; 18 R495
  ibat : BitVec 16 := 0  -- 16; 18 R495
  ipa : BitVec 16 := 0  -- 16; 18 R495
  ipb : BitVec 16 := 0  -- 16; 18 R495
  ipc : BitVec 16 := 0  -- 16; 18 R495
  ts : BitVec 16 := 0  -- 16; 18 R495
  deriving DecidableEq, Repr

/-- What one two-wire port holds. -/
structure PortBus where
  ptr : Nat := 0  -- 12; 13 R367
  pend : Option GuardPend := none  -- pending pair; 13 R387
  stat : BitVec 8 := 0  -- 8 (BUS_STAT); 13 R385
  gtsL : BitVec 48 := 0  -- 48 (GTS_LATCH); 01 R25, 18 R492
  epL : BitVec 8 := 0  -- 8 (GTS_EPOCH); 01 R25, 18 R492
  mirL : MirSet := {}  -- mirror read latch; 13 R381, 18 R492
  mirStat : BitVec 8 := 0x03  -- 8 (MIR_STAT); 13 R381, 18 R490
  stretch : Option Nat := none  -- line being stretched; 13 R382
  line : Option (Nat × List (BitVec 8)) := none  -- line supplied; 13 R382
  allFF : Bool := false  -- 1 (rest of the transfer returns 0xFF); 13 R382
  rd : BitVec 8 := 0  -- 8 (byte last driven); 13 R380
  filt : BitVec 8 := 0x07  -- 5 (HP_FILT, SP_FILT); 13 R371
  filtUse : BitVec 8 := 0x07  -- 5 (in use); 13 R371
  ackHold : Bool := false  -- 1 (address acknowledged, SCL held); 13 R372
  deriving DecidableEq, Repr

/-- One phase. -/
structure Phase where
  st : PhSt := .free  -- 3; 04 R103
  port : Option PortId := none  -- 2 (selector closed to); 04 R97
  next : Option PortId := none  -- 2 (selector to close); 04 R99
  opening : Option PortId := none  -- 2 (selector opening); 04 R99
  dir : Dir := .sink  -- 1; 04 R102
  flip : Bool := false  -- 1 (draining to reverse in place); 04 R104
  hand : Bool := false  -- 1 (in a hand-off); 04 R122
  why : Nat := 0  -- 8 (reason of the placement); 04 R135
  angle : Nat := 0  -- 14 (steps); 04 R127
  angleTo : Nat := 0  -- 14 (steps); 04 R128
  weight : Nat := 0  -- weight x 16384; 04 R121
  trim : Int := 0  -- 8 (0.025 %); 05 R158
  trimTicks : Nat := 0  -- 10 (ticks at a limit); 04 R118
  suspect : Bool := false  -- 1; 04 R118
  c1At : List Nat := []  -- GTS of class 1 reports; 04 R118
  cleanAt : Nat := 0  -- 56 (GTS); 04 R118
  it : Int := 0  -- 16 (mA, average of the last control tick); 04 R117
  iref : Int := 0  -- 16 (mA); 04 R121
  wstep : Nat := 0  -- 14 (weight moved in a period); 04 R121
  tint : Int := 0  -- 32 (mA periods); 05 R158
  tune : Bool := false  -- 1 (drives the pulses of a tuning measurement); 05 R148
  ip : Int := 0  -- 16 (mA); 05 R137
  ths : Int := 250  -- 16 (0.1 degC); 04 R117
  oclMet : Bool := false  -- 1; 05 R160
  dutyA : Nat := 0  -- 14 (in the present period); 05 R152
  dutyB : Nat := 0  -- 14 (in the present period); 05 R152
  nextA : Nat := 0  -- 14 (latched at the phase's next period); 05 R152
  nextB : Nat := 0  -- 14 (latched at the phase's next period); 05 R152
  carryA : Nat := 0  -- 9 (on time of a skipped pulse); 05 R152
  carryB : Nat := 0  -- 9 (on time of a skipped pulse); 05 R152
  deadA : Nat := 16  -- 8 (steps of 62.5 ps; 1.0 ns at reset, DESIGN CHOICE, log entry 105); 05 R152
  deadB : Nat := 16  -- 8 (steps of 62.5 ps; 1.0 ns at reset, DESIGN CHOICE, log entry 105); 05 R152
  deriving DecidableEq, Repr

/-- One path (PA, PB, PC). -/
structure PathSt where
  dir : PathDir := .off  -- 2; 04 R102, 06 R200
  limp : Bool := false  -- 1 (still on the limp controller); 03 R72
  grant : Nat := 0  -- 14; 04 R111
  req : Nat := 0  -- 14; 04 R111
  used : Nat := 0  -- 14; 04 R111
  limit : Nat := 0  -- 13; 04 R110
  prio : Nat := 3  -- 3; 04 R110
  unmet : Bool := false  -- 1; 04 R111
  addTicks : Nat := 0  -- 2; 04 R114
  fresh : Bool := false  -- 1 (grant exempt from reclaim next tick); 04 R131
  vmeas : Nat := 0  -- 16 (mV); 05 R140
  imeas : Int := 0  -- 16 (mA); 05 R140
  deriving DecidableEq, Repr

/-- One compensator with its arbiter. -/
structure Comp where
  eh : List (List Int) := List.replicate 9 [0, 0, 0]  -- 9 x 3 x Q2.14; 05 R141
  uh : List Int := [0, 0, 0]  -- 3 x Q2.14; 05 R141 R143
  en : BitVec 9 := 0  -- 9 (demands enabled last period); 05 R141
  win : Nat := 15  -- 4; 05 R143
  wins : List Nat := List.replicate 9 0  -- periods won this tick; 05 R144
  rep : Nat := 15  -- 4 (winner of the last tick); 05 R144
  grantLim : Bool := false  -- 1; 05 R144
  ipath : Int := 0  -- 18 (mA); 05 R143
  bridge : Bridge := .buckBoost  -- 2; 05 R153
  diode : Bool := true  -- 1; 05 R166 R167
  vsRef : Nat := 0  -- 26 (uV, slewing reference); 05 R166
  ith : Nat := 0  -- 18 (mA); 05 R142
  inLim : Nat := 0  -- 16 (mA, limit before takeover); 03 R72
  ref : Int := 0  -- 16 (winning demand's reference); 05 R170
  dA : Nat := 0  -- 14 (common duty, side A); 05 R137
  dB : Nat := 0  -- 14 (common duty, side B); 05 R137
  above : Nat := 0  -- 6 (periods above 0.3 A per phase); 05 R167
  ramp : Bool := false  -- 1 (reference on its start slew); 05 R166
  gwins : BitVec 9 := 0  -- 9 (demands whose last win had the grant as reference); 05 R144
  repGrant : Bool := false  -- 1 (GRANTLIM of the last tick); 05 R144
  deriving DecidableEq, Repr

/-- A valid tuning result. -/
structure Tuning where
  c : Nat := 0  -- 16 (uF); 05 R151
  esr : Nat := 0  -- 16 (0.1 mOhm); 05 R151
  fc : Nat := 0  -- 16 (100 Hz); 05 R151
  deriving DecidableEq, Repr

/-- A tuning measurement in progress. -/
structure TuneRun where
  pc : Bool := false  -- 1 (node PC); 05 R148
  again : Bool := false  -- 1 (repeat); 05 R149
  wait : Bool := false  -- 1 (deferred); 05 R148
  box : Option (Fin 4) := none  -- 3; 14 R410
  since : Nat := 0  -- 56 (GTS of the command); 14 R410
  deriving DecidableEq, Repr

/-- A scan of R186. -/
structure Scan where
  step : Nat := 0  -- 5 (0 is the V_oc step); 06 R186
  best : Nat := 0  -- 16 (mV); 06 R186
  bestP : Nat := 0  -- 16 (mW); 06 R186
  deriving DecidableEq, Repr

/-- The charge record kept in RET (R217). -/
structure ChgRecord where
  phase : ChgPhase := .off  -- 3; 07 R217
  reasons : BitVec 16 := 0  -- 16; 07 R217
  tPre : Nat := 0  -- 32; 07 R217
  tFast : Nat := 0  -- 32; 07 R217
  tTop : Nat := 0  -- 32; 07 R217
  suspGts : Nat := 0  -- 56; 07 R217
  cellSum : Nat := 0  -- 20 (0.1 mV); 07 R217
  ccStart : Int := 0  -- 64 (coulomb count at the charge start); 07 R213
  deriving DecidableEq, Repr

/-- The zone table of R223 (temperatures in 0.5 degC). -/
structure ZoneTab where
  t1 : Int := 0  -- 16; 07 R223
  t2 : Int := 20  -- 16; 07 R223
  t3 : Int := 90  -- 16; 07 R223
  t4 : Int := 110  -- 16; 07 R223
  coolI : Nat := 50  -- 8; 07 R223
  coolDv : Nat := 0  -- 8 (5 mV); 07 R223
  warmI : Nat := 100  -- 8; 07 R223
  warmDv : Nat := 20  -- 8 (5 mV); 07 R223
  bval : Nat := 3435  -- 16; 07 R223
  deriving DecidableEq, Repr

/-- The safe charge profile of R227 (units of R207). -/
structure SafeSet where
  ichg : Nat := 0  -- 16; 07 R227
  vchg : Nat := 0  -- 16; 07 R227
  ipre : Nat := 0  -- 8; 07 R227
  cons : Nat := 0  -- 8; 07 R227
  tfc : Nat := 0  -- 8; 07 R227
  iterm : Nat := 0  -- 8; 07 R227
  itop : Nat := 0  -- 8; 07 R227
  rechg : Nat := 0  -- 8; 07 R227
  maint : Bool := false  -- 1; 07 R227
  deriving DecidableEq, Repr

/-- One sweep point (R260). -/
structure PointRec where
  freq : Nat := 0  -- 32 (mHz); 08 R260
  amp : Nat := 0  -- 16 (mA); 08 R260
  idc : Int := 0  -- 16 (10 mA); 08 R260
  flags : BitVec 8 := 0  -- 8; 08 R246
  index : Nat := 0  -- 8; 08 R260
  tmin : Int := 0  -- 16 (0.1 degC); 08 R260
  z : List (Int × Int) := []  -- N x 2 x 16 (10 uOhm); 08 R260
  deriving DecidableEq, Repr

/-- What belongs to a fit awaiting the Teasel tick. -/
structure FitMeta where
  kind : SweepKind := .none  -- 2 (as it is graded); 08 R261
  gts : Nat := 0  -- 56; 08 R252
  ts : Int := 0  -- 16 (0.1 degC); 08 R252
  stamp : Stamp := {}  -- 64 (end of its sweep); 08 R261
  shown : SweepKind := .none  -- 2 (kind of its sweep); 08 R261
  part : Bool := false  -- 1 (PARTIAL); 08 R261
  used : Nat := 0  -- 5 (points used); 08 R261
  deriving DecidableEq, Repr

/-- The model in force of one cell. -/
structure CellModel where
  fit : CellFit := {}  -- 14 bytes; 08 R251
  grade : Grade := .high  -- 3; 08 R255 R261
  ts : Int := 0  -- 16 (0.1 degC); 08 R252
  gts : Nat := 0  -- 56; 08 R252
  reff : Nat := 0  -- 16 (10 uOhm); 08 R254 R261
  ilim : Nat := 0  -- 16 (10 mA); 08 R254 R261
  deriving DecidableEq, Repr

/-- A scheduled sweep that was refused and waits to be tried again (R247). -/
structure SweepWait where
  trig : SweepTrig := .start  -- 2; 08 R247
  since : Nat := 0  -- 56 (GTS of the refusal); 08 R247
  deriving DecidableEq, Repr

/-- One written chemistry table (R256). -/
structure ChemTab where
  chem : Nat := 0  -- 2; 08 R256
  table : Nat := 0  -- 2; 08 R256
  vals : List Nat := []  -- 11 or 3 x 16; 08 R256
  deriving DecidableEq, Repr

/-- One slot of the slot table (R293). -/
structure SlotCfg where
  cfg : BitVec 8 := 0x00  -- 8; 10 R293
  on : BitVec 8 := 0x0A  -- 8; 10 R293
  tmo : BitVec 8 := 0x32  -- 8; 10 R293
  off : BitVec 8 := 0x05  -- 8; 10 R293
  deriving DecidableEq, Repr

/-- A snapshot event latched in SEQ (R309). -/
structure SnapEv where
  stamp : Stamp := {}  -- 64; 10 R309
  cause : Nat := 0  -- 8; 10 R310
  slot : Nat := 8  -- 4 (8: no slot); 10 R310
  source : BitVec 16 := 0xFFFF  -- 16; 10 R310
  fcause : BitVec 16 := 0xFFFF  -- 16; 10 R310
  fclass : BitVec 8 := 0xFF  -- 8; 10 R310
  rsn : BitVec 8 := 0  -- 8; 10 R310
  seqstat : BitVec 8 := 0  -- 8; 10 R310
  ron : BitVec 8 := 0  -- 8; 10 R310
  rpg : BitVec 8 := 0  -- 8; 10 R310
  rfnc : BitVec 8 := 0  -- 8; 10 R310
  deriving DecidableEq, Repr

/-- A snapshot entry of the ring (R310, R311). -/
structure SnapEntry where
  seqno : Nat := 0  -- 32; 10 R310
  bytes : List (BitVec 8) := []  -- 64 bytes; 10 R310
  torn : Bool := false  -- 1; 10 R311
  pos : Nat := 0  -- 9 (place in the ring, 0 to 383); 16 R462
  deriving DecidableEq, Repr

/-- A checker failure awaiting its second evaluation (R317). -/
structure PendFail where
  source : BitVec 16 := 0  -- 16; 11 R317
  cause : BitVec 16 := 0  -- 16; 11 R317
  stamp : Stamp := {}  -- 64; 11 R317
  detail : BitVec 32 := 0xFFFFFFFF  -- 32; 11 R338
  injected : Bool := false  -- 1; 11 R343
  recn : Option Nat := none  -- RECNO when the record is already open (class 4); 11 R319
  count : Nat := 0  -- 16 (reports folded in); 11 R336
  lastDt : Nat := 0  -- 16; 11 R336
  item : Option (Fin 14) := none  -- 4 (RET item of a RET_PARITY); 16 R470
  member : Option (Fin 32) := none  -- 6 (the member a stack-bus failure concerns); 15 R445
  deriving DecidableEq, Repr

/-- A fault record (R338). -/
structure FaultRec where
  recno : Nat := 0  -- 32; 11 R338
  stamp : Stamp := {}  -- 64; 11 R338
  source : BitVec 16 := 0  -- 16; 11 R338
  cause : BitVec 16 := 0  -- 16; 11 R338
  cls : Nat := 0  -- 3; 11 R338
  lasting : Bool := false  -- 1; 11 R338
  transient : Bool := false  -- 1; 11 R338
  hwFirst : Bool := false  -- 1; 11 R338
  injected : Bool := false  -- 1; 11 R338
  compound : Bool := false  -- 1; 11 R338
  sFenced : Bool := false  -- 1; 11 R338
  sHold : Bool := false  -- 1; 11 R338
  sReset : Bool := false  -- 1; 11 R338
  sCleared : Bool := false  -- 1; 11 R338
  count : Nat := 0  -- 16; 11 R338
  mask : BitVec 32 := 0  -- 32; 11 R338
  detail : BitVec 32 := 0xFFFFFFFF  -- 32; 11 R338
  lastDt : Nat := 0  -- 16; 11 R338
  bad : Bool := false  -- 1 (its stored CRC fails); 11 R338, 14 R414
  deriving DecidableEq, Repr

/-- The first-error capture (R341). -/
structure FecRec where
  addr : BitVec 32 := 0  -- 32; 11 R341
  stamp : Stamp := {}  -- 64; 11 R341
  init : BitVec 8 := 0  -- 8; 11 R341
  access : BitVec 8 := 0  -- 8; 11 R341
  cause : BitVec 16 := 0  -- 16; 11 R341
  more : Nat := 0  -- 16; 11 R341
  deriving DecidableEq, Repr

/-- A last-fault record (R170). -/
structure LfRec where
  bytes : List (BitVec 8) := []  -- 256 bytes; 05 R170
  queued : Bool := false  -- 1 (offered and in the queue); 05 R171
  torn : Bool := false  -- 1; 16 R467
  pos : Nat := 0  -- 5 (place in the ring, 0 to 31); 16 R462
  deriving DecidableEq, Repr

/-- A watchdog evidence record (R356). -/
structure Evid where
  stamp : Stamp := {}  -- 64; 12 R356
  kind : BitVec 8 := 0  -- 8; 12 R356
  recv : BitVec 8 := 0  -- 8; 12 R356
  miss : BitVec 8 := 0  -- 8; 12 R356
  early : BitVec 8 := 0xFF  -- 8; 12 R356
  dup : BitVec 16 := 0  -- 16; 12 R356
  per : BitVec 8 := 0  -- 8; 12 R356
  bad : Bool := false  -- 1 (its stored CHK fails); 12 R357, 14 R417
  deriving DecidableEq, Repr

/-- A final response decided and not yet posted. -/
structure Final where
  status : BitVec 8 := 0  -- 8; 14 R405
  data : List (BitVec 8) := []  -- 0 to 240 bytes; 14 R394
  deriving DecidableEq, Repr

/-- The command held by one mailbox. -/
structure Box where
  st : BoxSt := .free  -- 3; 14 R398 R401
  tag : BitVec 8 := 0  -- 8; 14 R393
  flags : BitVec 8 := 0  -- 8; 14 R393
  op : BitVec 16 := 0  -- 16; 14 R393
  begun : Bool := false  -- 1 (work begun); 14 R406
  pnr : Bool := false  -- 1 (past its point of no return); 14 R406
  fin : Option Final := none  -- final response decided; 14 R398
  act : Bool := false  -- 1 (acts at release); 14 R402
  postAt : Nat := 0  -- 56 (GTS of the last response); 14 R402
  deriving DecidableEq, Repr

/-- A stack election (R447). -/
structure Election where
  reps : List FaultRep := []  -- reports that joined; 15 R447
  deriving DecidableEq, Repr

/-- The stored set of R459. -/
structure CfgSet where
  page : List Host.Cell := []  -- the eight blocks; 16 R459
  chem : Nat := 0  -- 2; 16 R459
  cells : Nat := 0  -- 4; 16 R459
  wdgEn : Bool := true  -- 1; 16 R459
  wdgPer : Nat := 10  -- 7; 16 R459
  hpFilt : BitVec 8 := 0x07  -- 5; 16 R459
  spFilt : BitVec 8 := 0x07  -- 5; 16 R459
  attn : BitVec 8 := 0x75  -- 7; 16 R459
  limits : List Nat := [2400, 2400, 8000]  -- 3 x 13; 16 R459
  prios : List Nat := [3, 3, 3]  -- 3 x 3; 16 R459
  hostCap : Nat := 8000  -- 13; 16 R459
  idleS : Nat := 5  -- 10; 16 R459
  wakeS : Nat := 60  -- 12; 16 R459
  safeSet : Option SafeSet := none  -- 11 bytes; 16 R459
  zones : ZoneTab := {}  -- 14 bytes; 16 R459
  chemTabs : List ChemTab := []  -- tables; 16 R459
  coef : List (Option (List Int)) := List.replicate 5 none  -- 5 x 80 bytes; 16 R459
  roots : List (Option (List (BitVec 8))) := List.replicate 4 none  -- 4 x 32 bytes; 16 R459
  hostAddr : BitVec 8 := 0x5C  -- 7; 16 R459
  attnAddr : BitVec 8 := 0x10  -- 7; 16 R459
  expect : BitVec 32 := 0  -- 32; 16 R459
  scap : Nat := 256000  -- 18; 16 R459
  safeg : Nat := 1000  -- 13; 16 R459
  deriving DecidableEq, Repr

/-- A configuration bank (R460). -/
structure Bank where
  hdr : List (BitVec 8) := []  -- 32 bytes; 16 R460
  body : List (BitVec 8) := []  -- up to 12256 bytes; 16 R460
  cfg : CfgSet := {}  -- the fields the body spells; 16 R459
  deriving DecidableEq, Repr

/-- What resident firmware saves in RET at DORMANT entry (R504). -/
structure Saved where
  cfg : CfgSet := {}  -- settings in force; 03 R504
  vTune : Option Tuning := none  -- tuning; 03 R504
  pTune : Option Tuning := none  -- tuning; 03 R504
  vTuned : Bool := false  -- 1; 03 R504
  pTuned : Bool := false  -- 1; 03 R504
  tier : Nat := 0  -- 2; 03 R504
  contact : Bool := false  -- 1; 03 R504
  seeded : Bool := false  -- 1; 03 R504
  prioBad : Bool := false  -- 1; 06 R176, 03 R504
  deriving DecidableEq, Repr

/-- A request of the non-volatile write queue (R457). -/
structure NvmReq where
  kind : NvmKind := .cfg  -- 3; 16 R457
  box : Option (Fin 4) := none  -- 3; 14 R415
  snap : SnapEntry := {}  -- snapshot; 16 R457
  slot : Nat := 0  -- 1 (RET slot of a last-fault commit); 16 R457
  cfg : CfgSet := {}  -- values taken when programming began; 16 R459
  bank : Nat := 0  -- 1 (bank being written); 16 R460
  rb : Bool := false  -- 1 (the store began with a rollback record); 16 R466 R467
  left : List Nat := []  -- sectors whose erase has not begun; 16 R455 R464 R467
  deriving DecidableEq, Repr

/-- The object chosen and requested (R271), or a contract (R274). -/
structure Offer where
  pos : Nat := 0  -- 4; 09 R265
  kind : Nat := 0  -- 3 (coding of KIND); 09 R265
  volt : Nat := 0  -- 16 (mV); 09 R271
  curr : Nat := 0  -- 14 (mA); 09 R271
  power : Nat := 0  -- 18 (mW, usable power); 09 R270
  mismatch : Bool := false  -- 1 (Capability Mismatch); 09 R271
  deriving DecidableEq, Repr

/-- A PD message the module sends (R287, R412). -/
inductive PdMsg where
  | request (o : Offer) | eprRequest (o : Offer)
  | accept | reject | waitMsg | notSupported | psRdy
  | sourceCaps (l : List Pdo) | sinkCaps (l : List Pdo) (frs : Nat)
  | getSourceCap | getSinkCap | getRevision | getStatus
  | prSwap | drSwap | vconnSwap | frSwap
  | hardReset | softReset
  | eprMode (act : BitVec 8) (data : BitVec 8) | eprKeepAlive
  | sourceCapsExt (d : List (BitVec 8)) | status (d : List (BitVec 8)) | revision (d : List (BitVec 8))
  | manufacturer (d : List (BitVec 8)) | batteryCap (cap : Nat) | batteryStatus (charge : Nat)
  | alert (ado : BitVec 32)
  | security (d : List (BitVec 8))
  | vdm (d : List (BitVec 32))
  | cableIdentity
  | bistCarrier | bistTest
  deriving DecidableEq, Repr

/-- One Type-C port. -/
structure TcPort where
  tcs : TcState := .unattached  -- 3; 09 R265
  asSrc : Bool := false  -- 1 (attach condition as source); 09 R268
  roleAtt : Bool := false  -- 1 (role at attach: source); 09 R284
  src : Bool := false  -- 1 (present power role: source); 09 R265
  orient : Nat := 0  -- 1; 09 R288
  contract : Option Offer := none  -- contract in force; 09 R265 R274
  req : Option Offer := none  -- request outstanding; 09 R271 R273
  trans : Option Offer := none  -- contract in transition; 09 R274
  refused : Option Offer := none  -- offer refused (R273); 09 R273
  retries : Nat := 0  -- 3; 09 R273
  fellBack : Bool := false  -- 1 (fallback contract sought); 09 R273
  reWait : Bool := false  -- 1 (60 s re-request pending); 09 R273
  reqAt : Nat := 0  -- 56 (GTS of the last Request); 09 R272
  offers : List Pdo := []  -- 11 objects; 09 R270
  epr : Bool := false  -- 1; 09 R265
  eprWait : Bool := false  -- 1 (Enter sent); 09 R275
  frsArm : Bool := false  -- 1; 09 R265 R280
  ifrs : Nat := 0  -- 13 (mA); 09 R280
  authOk : Bool := false  -- 1; 09 R265 R286
  authBusy : Bool := false  -- 1; 09 R286
  authDone : Bool := false  -- 1 (result known in this attachment); 09 R286
  authBox : Option (Fin 4) := none  -- 3; 14 R412
  vconn : Bool := false  -- 1; 09 R265
  vconnSrc : Bool := false  -- 1 (VCONN source); 09 R276
  vconnOff : Bool := false  -- 1 (off until the next attach); 09 R276
  cable5A : Bool := false  -- 1; 09 R276
  cableEpr : Bool := false  -- 1; 09 R276
  cableAns : Bool := false  -- 1; 09 R276
  cableTry : Nat := 0  -- 2; 09 R276
  dfp : Bool := false  -- 1; 09 R265
  rev3 : Bool := false  -- 1 (Revision 3 partner); 09 R280
  prDrp : Bool := false  -- 1 (partner Dual-Role Power); 09 R278
  prEpr : Bool := false  -- 1 (partner EPR capable); 09 R275
  swap : SwapSt := .none  -- 3; 09 R279 R281 R284
  swapBox : Option (Fin 4) := none  -- 3; 14 R412
  swapEnd : Bool := false  -- 1 (swap sent to end a source path); 09 R278
  drBox : Option (Fin 4) := none  -- 3; 14 R412
  drWait : Bool := false  -- 1 (DR_Swap sent); 09 R282
  vcWait : Bool := false  -- 1 (VCONN_Swap sent); 09 R282
  hrst : Bool := false  -- 1 (Hard Reset sequence); 09 R283
  hrTries : Nat := 0  -- 2; 09 R283
  nonPd : Bool := false  -- 1; 09 R283
  discharging : Bool := false  -- 1; 09 R269
  waitDue : Bool := false  -- 1 (Wait received, retry due); 09 R273
  capsWait : Bool := false  -- 1 (Source_Capabilities sent and not yet answered by a Request); 09 R283
  srcOffered : List Pdo := []  -- offers last sent as source; 09 R277
  prepWait : Bool := false  -- 1 (DORMANT preparation outstanding); 09 R284
  hrBoot : Bool := false  -- 1 (Hard Reset owed after a module reset); 03 R81
  bist : Bool := false  -- 1 (BIST mode acted on); 09 R287
  frsSrc : Bool := false  -- 1 (sources at I_FRS until a new contract); 09 R281
  reEval : Bool := false  -- 1 (a change to be acted on once the request under way has ended); 09 R272
  capsAt : Option Nat := none  -- 56 (GTS of the last Source_Capabilities sent); 09 R277
  rpOut : Nat := 0  -- 2 (0 none, 1 1.5 A, 2 3.0 A); 09 R267
  rdOut : Bool := true  -- 1 (Rd presented); 09 R266
  tx : List PdMsg := []  -- messages sent by the last command on the port; 09 R287
  deriving DecidableEq, Repr

/-- Clocks and the global time-stamp counter (GTS). -/
structure Clk where
  gts : BitVec 48 := 0  -- 48; 01 R18 R22
  epoch : BitVec 8 := 0  -- 8; 01 R18 R22
  fine : BitVec 7 := 0  -- 7; 01 R24
  frac : BitVec 16 := 0  -- 16; 01 R19 R21
  incr : BitVec 22 := 0x1E8480  -- 22; 01 R19 R20
  aoscOn : Bool := true  -- 1; 01 R13 R14
  moscEn : Bool := false  -- 1; 01 R14 R15
  moscRun : Bool := false  -- 1; 01 R14 R18 R24
  moscStopped : Bool := false  -- 1; 01 R15
  lossCount : Nat := 0  -- 2; 01 R15
  deriving DecidableEq, Repr

/-- Mode, tier, staged start, DORMANT, SHIP, the button and the power domains. -/
structure Sys where
  mode : Mode := .waking  -- 3; 03 R76 R77 R78
  tier : Nat := 0  -- 2; 03 R76
  romImg : Bool := false  -- 1; 03 R76
  cfgDef : Bool := false  -- 1; 03 R76
  fwRun : Bool := false  -- 1; 03 R76
  fwUp : Bool := false  -- 1; 13 R384
  halted : Bool := false  -- 1; 12 R355 R384
  boot : BitVec 8 := 0x01  -- 8; 03 R82
  wake : BitVec 16 := 0  -- 16; 03 R83
  tier0 : Bool := false  -- 1; 03 R65
  limp : Bool := false  -- 1; 03 R66
  limpSrc : Option PortId := none  -- 2; 03 R66
  limpLim : Nat := 0  -- 14 (mA); 03 R67
  limpTgt : Nat := 0  -- 16 (mV); 03 R67
  hostContact : Bool := false  -- 1; 03 R73
  loader : Loader := .idle  -- 3; 03 R69
  image : Nat := 0  -- 2; 03 R69, 14 R407
  imageVer : BitVec 16 := 0x0204  -- 16; 00 R2, 14 R407
  token : Option Token := none  -- 64; 03 R89, 16 R470
  idleS : Nat := 5  -- 10 (s); 03 R84
  wakeS : Nat := 60  -- 12 (s); 03 R87
  wakeNow : Nat := 60  -- 12 (s); 03 R87, 15 R450
  timerWake : Bool := false  -- 1 (housekeeping of a timer wake under way); 03 R87
  dorm : DormPrep := .none  -- 2; 03 R84 R85, 10 R305
  dormBox : Option (Fin 4) := none  -- 3; 14 R407
  held : HeldPath := .nothing  -- 3; 03 R85 R86
  heldTgt : Nat := 0  -- 16 (mV); 03 R85
  heldLim : Nat := 0  -- 14 (mA); 03 R85
  wakeLatch : BitVec 16 := 0  -- 16; 03 R85
  dormGts : Nat := 0  -- 56 (GTS at entry); 08 R236
  dormIbat : Int := 0  -- 27 (uA); 08 R236
  saved : Option Saved := none  -- 288 bytes; 03 R504, 16 R470
  shipAt : Option Nat := none  -- 56 (GTS at which the delay ends); 03 R91, 18 R498
  shipRef : Bool := false  -- 1; 18 R498
  shipShut : Bool := false  -- 1; 03 R91
  btnDown : Bool := false  -- 1; 02 R56, 03 R94
  btnCounts : Bool := false  -- 1; 03 R94
  btnShort : Option Nat := none  -- 10 (held ms of a short press not yet acted on); 10 R307
  cut : Bool := false  -- 1; 03 R93
  dom : BitVec 14 := 0x0003  -- 14; 01 R9
  domQ : List DomReq := []  -- list; 01 R11
  domBusy : Option DomReq := none  -- 5; 01 R11
  straps : Straps := {}  -- 10; 02 R57
  pins : Straps := {}  -- 10; 02 R45 R57
  deriving DecidableEq, Repr

/-- The event queue with EVT0 to EVT3, the task inboxes and the drop counters. -/
structure Queues where
  events : List EventRec := []  -- 256 entries; 01 R30 R31, 14 R408
  evt : BitVec 32 := 0  -- 32; 18 R493
  drops : List Nat := List.replicate 13 0  -- 13 x 16; 01 R35
  sat : BitVec 13 := 0  -- 13; 01 R35
  inbox : List (List InboxItem) := List.replicate 6 []  -- 6 x 16 entries; 01 R30 R38
  sampleQ : List (List PathSample) := List.replicate 3 []  -- 3 x 8 sample sets; 01 R30, 05 R138
  telemetry : List TeleItem := []  -- 64 slots; 01 R30
  stkTx : List Nat := []  -- 16 entries; 01 R30 R33
  deriving DecidableEq, Repr

/-- The two-wire ports, the update logic, attention and the register pages. -/
structure Bus where
  hp : PortBus := {}  -- (see PortBus); 13 R364 to R388
  sp : PortBus := {}  -- (see PortBus); 13 R364 to R388
  immQ : List Host.Cell := []  -- writes (address, value); 13 R390
  page : List Host.Cell := []  -- 0x0140..0x0243 bytes in force; 18 R499, 13 R383
  shadow : List Host.Cell := []  -- shadow page; 13 R383
  updMask : BitVec 8 := 0  -- 8; 13 R389
  armed : BitVec 8 := 0  -- 8; 13 R391
  edgeDue : BitVec 8 := 0  -- 8 (armed blocks an STK_UPD edge has made due); 13 R391
  imm : BitVec 8 := 0  -- 8; 13 R390, 18 R496
  immDue : BitVec 8 := 0  -- 8 (blocks whose IMM bit was set since the last tick); 13 R390
  updStat : BitVec 8 := 0  -- 8; 13 R389
  attnCfg : BitVec 8 := 0x75  -- 8; 13 R375, 18 R490
  attnFails : Nat := 0  -- 2; 13 R376
  attnDue : Bool := false  -- 1; 13 R376
  attnSent : List (BitVec 8) := []  -- 5 bytes last sent; 13 R376
  hostAddr : BitVec 8 := 0x5C  -- 7 (AON latch); 13 R365
  cfgAddr : BitVec 8 := 0x5C  -- 7; 13 R364 R365, 16 R459
  attnAddr : BitVec 8 := 0x10  -- 7; 13 R376
  recog : Bool := false  -- 1; 13 R372
  stkUpdTo : Nat := 0  -- 56 (GTS at which the pulse on STK_UPD ends); 13 R391, 15 R450
  deriving DecidableEq, Repr

/-- Guarded registers. -/
structure Guard where
  chem : Nat := 0  -- 2; 07 R204
  cells : Nat := 0  -- 4; 07 R204
  chref : Bool := false  -- 1; 07 R204
  fplace0 : BitVec 8 := 0  -- 8; 04 R132
  fplace1 : BitVec 8 := 0  -- 8; 04 R132
  fpen : Bool := false  -- 1; 04 R132
  fpref : Bool := false  -- 1; 04 R132
  relref : Bool := false  -- 1; 11 R331
  injTarget : Nat := 0  -- 4; 11 R342
  injCount : Nat := 0  -- 3; 11 R342
  injArm : Bool := false  -- 1; 11 R342
  injLast : Nat := 0  -- 4; 11 R342
  injWait : Option Nat := none  -- 4 (target whose checks are made and whose record is still to come); 11 R343
  injRemain : Nat := 0  -- 3; 11 R342
  injRef : Bool := false  -- 1; 11 R342
  wdgEn : Bool := true  -- 1; 12 R362
  wdgPer : Nat := 10  -- 7 (ms); 12 R362
  fuse : BitVec 5 := 0  -- 5; 16 R471
  fuseLive : BitVec 5 := 0  -- 5 (as taken at the last reset); 16 R472
  fuseStraps : Straps := {}  -- 7; 15 R420
  fref : Bool := false  -- 1; 16 R471
  fbusy : Bool := false  -- 1; 16 R471
  fuseAsk : BitVec 5 := 0  -- 5; 16 R472
  deriving DecidableEq, Repr

/-- Phases, placement, the basin and the grants. -/
structure Fabric where
  ph : List Phase := List.replicate 8 {}  -- 8 phases (see Phase); 04 R103
  path : List PathSt := [{ limit := 2400 }, { limit := 2400 }, { limit := 8000 }]  -- 3 paths (see PathSt); 04 R110 R111
  basin : Nat := 6000  -- 14; 04 R107
  thCeil : Nat := 8000  -- 14; 04 R109
  tcLatch : Bool := false  -- 1; 04 R109
  hostCap : Nat := 8000  -- 13; 04 R107
  peak : PeakSt := .allowed  -- 2; 04 R108
  peakAt : Nat := 0  -- 56 (GTS it began); 04 R108, 14 R410
  powHist : List Nat := []  -- 10 x 16 (mW); 04 R108
  limTerm : Nat := 0  -- 8; 04 R136
  limUnmet : Bool := false  -- 1; 04 R136
  limOther : Bool := false  -- 1; 04 R136
  resA : List (Fin 8) := []  -- 2 phases; 04 R129
  resB : List (Fin 8) := []  -- 2 phases; 04 R129
  lastArmed : Option TcId := none  -- 2 (later-armed port); 04 R130
  lead : Option PortId := none  -- 2; 04 R119, 06 R203
  q1Timer : Bool := false  -- 1; 04 R106
  deriving DecidableEq, Repr

/-- Conversion control. -/
structure Conv where
  comp : List Comp := [{}, {}, {}]  -- 3 compensators (see Comp); 05 R137
  coef : List (Option (List Int)) := List.replicate 5 none  -- 5 x 40 x 16; 05 R146 R503
  vTune : Option Tuning := none  -- C, ESR, crossover, gain; 05 R150
  pTune : Option Tuning := none  -- C, ESR, crossover, gain; 05 R150
  vTuned : Bool := false  -- 1; 05 R172
  pTuned : Bool := false  -- 1; 05 R172
  tune : Option TuneRun := none  -- run in progress; 05 R148
  tuneAsk : List TuneRun := []  -- measurements waiting behind another; 05 R148, 14 R410
  tuneRerun : Bool := false  -- 1; 05 R154
  pcTuneDue : Bool := false  -- 1 (PC measurement waits for another); 05 R148
  fsw : Nat := 2000  -- 16 (kHz in force); 05 R154
  fswPend : Bool := false  -- 1; 05 R172
  sync : SyncSt := .free  -- 2; 05 R156
  synced : Bool := false  -- 1; 05 R172
  syncBad : Bool := false  -- 1; 05 R172
  period : Nat := 8000  -- 14 (steps); 05 R152
  phRef : Nat := 0  -- 14 (steps, the module phase reference); 05 R155
  edgeOk : Nat := 0  -- 7 (periods with the edge error within 2 steps); 05 R156
  refMoving : Bool := false  -- 1 (period or phase reference moved in the last period); 05 R157
  samp : Option (List PathSample) := none  -- 3 sample sets of the last completed period; 05 R168
  oclRecent : Bool := false  -- 1; 05 R172
  oclAt : Nat := 0  -- 56 (GTS of the last limit met); 05 R161
  vWonAt : Option Nat := none  -- 56 (GTS of the last period VSYS or VBAT won on the lead path); 08 R248
  deriving DecidableEq, Repr

/-- Sources, the battery switch, the weir, the tracker and PATH. -/
structure Power where
  presA : Bool := false  -- 1; 06 R173
  presB : Bool := false  -- 1; 06 R173
  presC : Bool := false  -- 1; 06 R173
  dcdetLow : Bool := false  -- 1; 02 R49
  nodes : Nodes := {}  -- node voltages last seen; 02 R52
  rpA : Rp := .none  -- 2; 09 R267
  rpB : Rp := .none  -- 2; 09 R267
  batPres : Bool := false  -- 1; 06 R174 R203
  batSw : BatSw := .off  -- 2; 06 R187
  soft : SoftSt := .no  -- 2; 03 R68
  linBefore : Bool := false  -- 1; 06 R188
  bat : BatState := .open  -- 3; 06 R200 R201
  learnA : Option Nat := none  -- 16 (mA); 06 R183
  learnB : Option Nat := none  -- 16 (mA); 06 R183
  prioBad : Bool := false  -- 1; 06 R175
  vsysTgt : Nat := 7000  -- 16 (mV); 06 R180
  vbatOpen : Nat := 0  -- 16 (mV); 06 R180
  vt : Nat := 0  -- 16 (mV); 06 R185
  voc : Option Nat := none  -- 16 (mV); 06 R186
  pmpp : Option Nat := none  -- 16 (mW); 06 R185
  trkV : Nat := 0  -- 16 (mV, last interval); 06 R185
  trkI : Nat := 0  -- 16 (mA, last interval); 06 R185
  scan : Option Scan := none  -- scan in progress; 06 R186
  scanDue : Bool := false  -- 1; 06 R186
  handover : Bool := false  -- 1; 06 R190
  dwell : Bool := false  -- 1; 06 R190 R203
  lastSink : Option PortId := none  -- 2; 06 R202
  pathPend : Option (BitVec 8) := none  -- 8 (PATH before the first change not yet reported); 06 R202
  pathAt : Option Nat := none  -- 56 (GTS of the last PATH_CHANGE); 06 R202
  noBatPfw : Bool := false  -- 1; 06 R203
  dormOn : Bool := false  -- 1 (the battery switch has not been OFF throughout DORMANT); 08 R236
  linRef : Nat := 0  -- 16 (mA, what the switch in LINEAR regulates to; in soft connection its limit); 03 R68, 06 R189
  vbusA : Bool := false  -- 1 (VBUS switch closed); 02 R53, 09 R265
  vbusB : Bool := false  -- 1 (VBUS switch closed); 02 R53, 09 R265
  suppAt : Option Nat := none  -- 56 (GTS at which PATH.BAT was last SUPPLEMENTING); 08 R248
  deriving DecidableEq, Repr

/-- Charging. -/
structure Charge where
  phase : ChgPhase := .off  -- 3; 07 R208
  heldPh : ChgPhase := .off  -- 3; 07 R217
  reasons : BitVec 16 := 0  -- 16 (RMASK); 07 R219, 14 R409
  shown : BitVec 8 := 0  -- 8; 07 R208 R219
  zone : Zone := .normal  -- 3; 07 R208 R222
  zoneUnknown : Bool := false  -- 1; 07 R222
  half : Bool := false  -- 1; 07 R208
  safe : Bool := false  -- 1; 07 R208 R228
  limiter : Nat := 0  -- 3; 07 R208
  tgtSrc : Nat := 0  -- 3; 07 R208
  iTgt : Nat := 0  -- 16 (mA); 07 R209
  vRef : Nat := 0  -- 16 (mV); 07 R210
  tPre : Nat := 0  -- 32 (5 ms); 07 R224
  tFast : Nat := 0  -- 32 (5 ms); 07 R224
  tTop : Nat := 0  -- 32 (5 ms); 07 R224
  suspGts : Nat := 0  -- 56; 07 R217
  record : Option ChgRecord := none  -- 32 bytes; 07 R217, 16 R470
  ccStart : Int := 0  -- 64 (coulomb count at the start); 07 R213
  sinkPrev : Bool := false  -- 1 (a sink path was active at the last tick); 07 R219
  batPrev : Bool := false  -- 1 (battery judged present at the last tick); 07 R219
  ntcOk : Nat := 0  -- 7 (ticks for which every mapped thermistor has been valid); 07 R219
  stopReq : Bool := false  -- 1; 07 R219, 14 R409
  vbatTicks : Nat := 0  -- 10 (10 ms ticks with VBAT winning); 07 R211
  preTicks : Nat := 0  -- 7 (10 ms ticks); 07 R211
  zones : ZoneTab := {}  -- zone table; 07 R223
  zoneNext : Zone := .normal  -- 3 (zone found at the last tick); 07 R222
  zoneTicks : Nat := 0  -- 7 (ticks for which it has been found); 07 R222
  tier1Due : Bool := false  -- 1 (the charge of Tier 1 waits for the first reported cell voltages); 07 R217
  heldRegs : List Nat := []  -- charge block addresses applied while SAFE, held in the shadows; 07 R228
  zoneTabNext : Option ZoneTab := none  -- zone table waiting for the tick; 07 R223, 14 R409
  safeSet : Option SafeSet := none  -- stored safe profile; 07 R227
  safeUse : Bool := false  -- 1 (the safe set was in force at the last tick); 07 R228
  statReg : BitVec 8 := 0x10  -- 8 (CHG_STAT); 07 R208
  rsnReg : BitVec 8 := 0  -- 8 (CHG_RSN); 07 R208
  limReg : BitVec 8 := 0  -- 8 (CHG_LIM); 07 R208
  deriving DecidableEq, Repr

/-- Cell measurement, the coulomb count, balancing and the mirrors. -/
structure Meas where
  cell : List Nat := List.replicate 10 0  -- 10 x 18 (0.1 mV); 08 R231 R233
  vbat : Nat := 0  -- 16 (mV); 08 R233
  ibat : Int := 0  -- 18 (mA); 08 R233
  ntc : List NtcRead := List.replicate 6 (.valid 250)  -- 6 thermistors; 02 R54
  tq0 : Int := 250  -- 16 (0.1 degC); 04 R117
  tq1 : Int := 250  -- 16 (0.1 degC); 04 R117
  cc : Int := 0  -- 64 (uC); 08 R235
  ccFrac : Int := 0  -- 15 (1/16000 uC not yet counted); 08 R235
  ccSat : Bool := false  -- 1; 08 R235
  ccCopy : Int := 0  -- 64 (RET copy); 08 R235, 16 R470
  est : Bool := false  -- 1; 08 R236
  balNow : List Nat := []  -- 2 cells; 08 R238 R259
  balPrev : List Nat := []  -- 2 cells; 08 R238
  bleed : Bool := false  -- 1; 08 R238
  balQ : List Nat := List.replicate 10 0  -- 10 x 16 (0.1 mAh); 08 R239
  balAt : Nat := 0  -- 56 (GTS the bleed was switched on); 08 R239
  balFrac : List Nat := List.replicate 10 0  -- 10 x 19 (mA ms not yet counted); 08 R239
  balSat : BitVec 10 := 0  -- 10; 08 R239, 17 R481
  balRead : List Nat := List.replicate 10 0  -- 10 x 18 (0.1 mV); 08 R238
  mir : MirSet := {}  -- 14 bytes; 13 R381, 18 R495
  mirAt : Option Nat := none  -- 56 (stamp of the set); 13 R381
  mirEn : Bool := false  -- 1; 13 R381
  soc : List Int := List.replicate 10 0  -- 10 x (0.01 %, at the last Teasel tick); 08 R252
  soc0 : List Int := List.replicate 10 0  -- 10 x (0.01 %, at the last rest or charge start); 08 R252
  socCc : Int := 0  -- 64 (count at the last rest); 08 R252
  rested : Bool := false  -- 1; 08 R252
  accN : Nat := 0  -- 8 (sample sets in the running averages); 08 R233
  accCell : List Nat := List.replicate 10 0  -- 10 x 26 (sums of codes); 08 R233
  accV : Nat := 0  -- 34 (uV); 08 R233
  accI : Int := 0  -- 34 (uA); 08 R233
  ibatLast : Int := 0  -- 27 (uA, last sample set); 06 R201
  setAt : List Nat := []  -- 2 x 56 (GTS of the last two sample sets, newest first); 18 R495
  hist : List SampleSet := []  -- 160000 sets (the last 10 s, newest first); 07 R211, 08 R236 R238 R248
  balUp : List Bool := []  -- 10 (which way each reading of the off-time is held to 0.1 mV); 08 R238
  fresh : Bool := false  -- 1 (an average has been formed since Tier 1); 08 R233
  ibatFast : Int := 0  -- 18 (mA, average of the last 100 us); 06 R201
  azCount : Nat := 0  -- auto-zero strokes made; 08 R234
  deriving DecidableEq, Repr

/-- Impedance sweeps and the battery model. -/
structure Sweep where
  run : SweepKind := .none  -- 2; 08 R259
  stage : SweepStage := .idle  -- 2; 08 R244
  dirDis : Bool := false  -- 1; 08 R241
  carrier : PortId := .pa  -- 2 (source path that carries the sine of a discharge sweep); 08 R241 R248
  cmd : Option (Fin 4) := none  -- 3; 14 R411
  freqs : List Nat := []  -- 24 x 32 (mHz); 08 R244
  idx : Nat := 0  -- 5; 08 R244
  amp : Nat := 0  -- 16 (mA); 08 R242
  idc : Int := 0  -- 18 (mA); 08 R244
  disturbed : Bool := false  -- 1; 08 R246
  repeating : Bool := false  -- 1; 08 R247
  stopping : Bool := false  -- 1; 08 R249
  pts : List PointRec := []  -- 24 records; 08 R260
  lastPts : List PointRec := []  -- 24 records; 08 R260, 14 R411
  lastKind : SweepKind := .none  -- 2; 08 R261
  lastPartial : Bool := false  -- 1; 08 R261
  lastStamp : Stamp := {}  -- 64; 08 R261
  lastUsed : Nat := 0  -- 5; 08 R261
  lastOk : Bool := false  -- 1; 08 R259
  lastRsn : Nat := 0  -- 4; 08 R259
  endRsn : Nat := 0  -- 4 (reason that ended the partial sweep being fitted); 08 R249
  startDue : Bool := false  -- 1 (first SHAPED tick after a charge start); 08 R247
  fullDue : Bool := false  -- 1; 08 R247
  quickDue : Bool := false  -- 1; 08 R247
  retry : List SweepWait := []  -- refused sweeps waiting, oldest first; 08 R247
  newFit : Option (List CellFit) := none  -- fit awaiting the tick; 08 R252
  newMeta : FitMeta := {}  -- kind, stamp, T_s; 08 R252
  modelOf : FitMeta := {}  -- the same of the model in force; 08 R261, 14 R411
  model : List CellModel := []  -- 10 x 24 bytes; 08 R251 R261
  seeded : Bool := false  -- 1; 03 R73, 08 R252
  mismatch : Bool := false  -- 1; 08 R259
  mlim : Nat := 0xFFFF  -- 16; 08 R259
  weak : Nat := 0  -- 4; 08 R259
  chem : List ChemTab := []  -- written tables; 08 R256
  win : List SampleSet := []  -- sample sets of the baseline or of the point's window, newest first; 08 R243 R244 R245
  stopAt : Nat := 0  -- 56 (GTS at which the present sine cycle ends); 08 R249
  offs : List Int := []  -- 11 x 27 (offset of each cell, codes, then of the current, uA); 08 R244
  tSum : Int := 0  -- 34 (0.1 degC, sum of T_min over the sets of the sweep); 08 R252
  tN : Nat := 0  -- 24 (sets in it); 08 R252
  clipN : Nat := 0  -- 32 (switching periods of the window in which the sine was clipped); 08 R246
  perN : Nat := 0  -- 32 (switching periods of the window); 08 R246
  pointAt : Nat := 0  -- 56 (GTS at which the point began); 08 R245
  steadyI : Int := 0  -- 17 (mA); 08 R257
  steadyAt : Nat := 0  -- 56 (GTS since which the current has been steady); 08 R257
  offAt : List (Option Nat) := List.replicate 10 none  -- 10 x 56 (GTS since which a cell has differed from its model); 08 R257
  statShown : BitVec 8 := 0  -- 8 (SWP_STAT); 08 R258
  weakShown : BitVec 8 := 0  -- 8 (WEAK); 08 R258
  chemNext : List ChemTab := []  -- tables waiting for the tick; 14 R411
  deriving DecidableEq, Repr

/-- The sequencer and the auxiliary rails. -/
structure Seqr where
  st : SeqState := .off  -- 3; 10 R296
  slot : Nat := 0  -- 3; 10 R296
  tbl : List SlotCfg := List.replicate 8 {}  -- 8 x 4 bytes (engine copy); 10 R293 R294
  tblPend : Bool := false  -- 1; 10 R296
  seqBad : Bool := false  -- 1; 10 R296
  on : BitVec 8 := 0  -- 8; 10 R296
  good : BitVec 8 := 0  -- 8; 10 R296
  fenced : BitVec 8 := 0  -- 8; 10 R296
  running : BitVec 8 := 0  -- 8 (power-up step completed); 10 R300
  rsn : BitVec 8 := 0  -- 8; 10 R296 R302
  pfw : Bool := false  -- 1; 10 R296 R303
  nrstSeq : Bool := true  -- 1 (held low by the sequence); 10 R308
  nrstPulse : Bool := false  -- 1; 10 R308
  nrstDue : Bool := false  -- 1 (release delay running); 10 R308
  foff : Bool := false  -- 1; 10 R296
  waitOn : Bool := false  -- 1 (on delay running); 10 R297
  waitGood : Bool := false  -- 1 (rail enabled, awaiting good); 10 R297
  waitRe : Bool := false  -- 1 (re-sample after the timeout); 10 R299
  waitFall : Bool := false  -- 1 (fall of an AUX rail awaited); 10 R301
  waitOff : Bool := false  -- 1 (off delay running); 10 R301
  outHigh : BitVec 4 := 0  -- 4 (AUX output not yet below 10 %); 10 R301
  req : Nat := 0  -- 8 (request that started the power-up); 10 R312
  upHeld : Option Nat := none  -- 8 (held power-up request); 10 R304
  downHeld : Option Nat := none  -- 8 (shutdown waiting for the step); 10 R304
  tpfwRun : Bool := false  -- 1; 10 R302
  stopAfter : Bool := false  -- 1 (SEQEN 0 or a withdrawal during a run); 10 R306
  floor : Nat := 0  -- 4 (slot after the failed slot of an UP_TIMEOUT); 10 R299
  vaux : List Nat := []  -- 4 x 16 (mV, the last readings of the AUX outputs); 10 R310
  iaux : List Nat := []  -- 4 x 16 (mA); 10 R310
  dormOff : BitVec 8 := 0  -- 8 (rails shut down at DORMANT entry); 10 R305
  upBox : List (Fin 4) := []  -- 4; 14 R413
  downBox : List (Fin 4) := []  -- 4; 14 R413
  aux2Moving : Bool := false  -- 1; 10 R291
  reqAt : Nat := 0  -- 56 (GTS of the request); 10 R312
  upAt : Nat := 0  -- 56 (GTS of the held power-up request); 10 R304 R312
  downAt : Nat := 0  -- 56 (GTS of the shutdown that waits for the step); 10 R304 R312
  cur : SlotCfg := {}  -- 32 (table entry of the step in progress); 10 R294
  latch : List SnapEv := []  -- 4 entries; 10 R309
  seqno : Nat := 0  -- 32 (highest SEQNO); 10 R310 R311
  deriving DecidableEq, Repr

/-- Faults, fences, HOLD, records, injection and first-error capture. -/
structure Faults where
  hold : Bool := false  -- 1; 11 R339
  fsafe : Bool := false  -- 1; 11 R339
  autook : Bool := false  -- 1; 11 R339
  compound : Bool := false  -- 1; 11 R339
  satf : BitVec 4 := 0  -- 4 (recovery, FREC_LOST, MORE, LF_LOST); 11 R339
  fence : BitVec 26 := 0  -- 26; 11 R322, 14 R414
  fenceBy : List (BitVec 16) := List.replicate 26 0  -- 26 x 16 (cause of each fence); 11 R344
  stkf : BitVec 8 := 0  -- 8 (lasting faults of the stack bus, by cause 0x0600 + k); 15 R445
  cur : Nat := 0  -- 3; 11 R339
  last : Nat := 0  -- 3; 11 R339
  pend : List PendFail := []  -- failures awaiting their second evaluation; 11 R317
  recs : List FaultRec := []  -- 24 records; 11 R337 R338
  recno : Nat := 0  -- 32; 11 R338
  lost : Nat := 0  -- 16 (FREC_LOST); 11 R337
  recCnt : Nat := 0  -- 16; 11 R334
  holdRecs : List Nat := []  -- RECNO of records opened since HOLD entry; 11 R330
  quietAt : Nat := 0  -- 56 (GTS the quiet period began); 11 R330
  quietLen : Nat := 500  -- 13 (ms in force); 11 R330
  fec : Option FecRec := none  -- 20 bytes; 11 R340 R341
  lfSlot : List LfRec := []  -- 2 slots; 05 R169
  lfNo : Nat := 0  -- 32; 05 R170
  lfLost : Nat := 0  -- 16; 05 R169
  bsOpen : Bool := false  -- 1 (switch opened by the policy); 11 R328
  injRec : Nat := 0  -- 32 (record number of the injection); 11 R343
  taskOnce : BitVec 6 := 0  -- 6 (task restarted, no completed run since); 01 R39
  deriving DecidableEq, Repr

/-- The watchdogs. -/
structure Wdog where
  run : WdgRun := .stopped  -- 2; 12 R355 R362
  tick : Nat := 0  -- 17 (us); 12 R346
  per : Nat := 10  -- 7 (ms of the period in progress); 12 R355
  landed : BitVec 6 := 0  -- 6; 12 R347
  called : BitVec 6 := 0  -- 6; 12 R350
  heldm : BitVec 6 := 0  -- 6; 12 R350
  dupPer : Nat := 0  -- 16; 12 R356
  dup : Nat := 0  -- 16; 12 R354
  dupSat : Bool := false  -- 1; 12 R362
  rst : Nat := 0  -- 16; 12 R354
  rstSat : Bool := false  -- 1; 12 R362
  evid : List Evid := []  -- 4 records; 12 R356
  recDue : List Evid := []  -- fault records to open after the restart; 12 R351
  wdoPulse : Bool := false  -- 1; 12 R352 R353
  hRun : Bool := false  -- 1; 12 R362
  hExp : Bool := false  -- 1; 12 R362
  hLastSp : Bool := false  -- 1; 12 R362
  hBad : Bool := false  -- 1; 12 R362
  hDead : Nat := 0  -- 56 (deadline, GTS); 12 R360
  kicks : List Nat := []  -- 56 each (GTS of the kicks latched while firmware is halted); 12 R359
  deriving DecidableEq, Repr

/-- Mailboxes. -/
structure Mail where
  inb : List Host.Cell := []  -- 4 x 256 bytes; 14 R393
  outb : List Host.Cell := []  -- 4 x 256 bytes; 14 R394 R398
  lock : BitVec 4 := 0  -- 4; 14 R398
  doneHeld : BitVec 4 := 0  -- 4 (DONE bits written while firmware is halted); 13 R380
  ringHeld : BitVec 4 := 0  -- 4 (RING bits written behind them); 14 R396
  inuse : BitVec 4 := 0  -- 4; 14 R397
  outrdy : BitVec 4 := 0  -- 4; 14 R397
  ring : List (Fin 4) := []  -- rings held or waiting, in order; 14 R400 R403
  box : List Box := List.replicate 4 {}  -- 4 command records; 14 R398 R401
  deriving DecidableEq, Repr

/-- Stacking and cascade groups. -/
structure Stack where
  joined : Bool := false  -- 1; 15 R421 R451
  aligned : Bool := false  -- 1; 15 R435 R451
  alignRun : Nat := 0  -- 4; 15 R435
  casc : Bool := false  -- 1; 15 R451
  lmaster : Bool := false  -- 1; 15 R451
  acting : Bool := false  -- 1; 15 R451
  fall : Bool := false  -- 1 (the grant falls); 15 R422
  decay : Bool := false  -- 1; 15 R422 R451
  grant : Nat := 8000  -- 14; 15 R422 R451
  safeg : Nat := 1000  -- 13; 15 R422
  everJoined : Bool := false  -- 1; 15 R422
  cyc : Nat := 0  -- 40 (cycle number C known); 15 R432
  mgrEpoch : BitVec 8 := 0  -- 8 (epoch of TIME2); 15 R428 R432
  trimN : Int := 0  -- 7 (MOSC cycles still to add or to omit); 15 R435
  heardCyc : Bool := false  -- 1 (valid slot 0 in this cycle); 15 R422
  joinSt : JoinSt := .idle  -- 3; 15 R430
  joiner : Option (Fin 32) := none  -- 6; 15 R430
  joinData : List (BitVec 8) := []  -- join data received; 15 R430
  joinSent : Nat := 0  -- 7 (join frames sent since JSTART); 15 R430
  joinReq : Option JoinReq := none  -- request of the joiner (manager); 15 R430
  joinWait : List (Fin 32 × JoinReq × Int) := []  -- requests waiting, with the lead of each (manager); 15 R430
  joinLead : Int := 0  -- 57 (lead of the joiner, us); 15 R433
  joinOut : List (BitVec 8) := []  -- join data still to send (manager); 15 R430
  joinSig : List (BitVec 8) := []  -- 64 bytes (signature received, manager); 15 R430
  fsws : List (Nat × Nat) := []  -- 16 (FSW that members stated in their join requests); 15 R430 R439
  nonceW : List (BitVec 8) := []  -- 16 bytes; 15 R430
  nonceM : List (BitVec 8) := []  -- 16 bytes; 15 R430
  sfd : Stamp := {}  -- 64 (stamp at the SFD of the last slot-0 frame); 15 R430 R435
  realign : Bool := false  -- 1 (a request for realignment waits after a wake); 15 R450
  wakeM : BitVec 32 := 0  -- 32 (members to be realigned after a wake, manager); 15 R450
  delayNs : Nat := 0  -- 11; 15 R434
  delays : List (Nat × Nat) := []  -- manager's measured delays; 15 R434
  expect : BitVec 32 := 0  -- 32; 15 R431 R437
  scap : Nat := 256000  -- 18; 15 R437
  safegSet : Nat := 1000  -- 13; 15 R428
  setNext : Option (BitVec 32 × Nat × Nat) := none  -- 64 (EXPECT, SCAP, SAFEG of STACK_SET till the next cycle); 14 R416
  members : BitVec 32 := 0  -- 32; 14 R416
  fencedM : BitVec 32 := 0  -- 32; 15 R446
  fencedBy : List Nat := List.replicate 32 0  -- 32 x 16 (cause for which a member was fenced); 11 R344
  fenceRun : List (Nat × Nat) := []  -- 31 x 10 (cycles in a row in RUN or DEGRADED, of the fenced workers); 15 R446
  reports : List MemberRep := []  -- last reports; 15 R429 R437
  own : MemberRep := {}  -- the module's own last report; 15 R439 R441
  sbasin : Nat := 0  -- 18; 15 R437
  mgrants : List (Nat × Nat) := []  -- grants held per unit; 15 R438
  rot : Nat := 0  -- 3; 15 R428
  sinceRot : Nat := 0  -- 6; 15 R428
  scmdQ : List (Nat × BitVec 16) := []  -- queued stack commands; 15 R428
  gLead : List (Nat × Nat) := []  -- loop master of each group (manager); 15 R437 R439
  heardG : List (BitVec 8) := []  -- 31 grant bytes last heard; 15 R448
  seqMask : BitVec 32 := 0  -- 32 (latched); 15 R428
  seqDo : Option Nat := none  -- SEQ_GO acting at the next cycle; 15 R428
  dormDo : Option Nat := none  -- DORMANT acting at the next cycle; 15 R428 R450
  tstep : Nat := 0  -- 16 (cycles to step at the next cycle); 15 R433
  ack : BitVec 8 := 0  -- 8; 15 R429
  frepQ : List FaultRep := []  -- fault reports waiting; 15 R429 R33
  group : BitVec 4 := 0  -- 4 (members in group order); 15 R439
  loopM : Option (Fin 32) := none  -- 6; 15 R439
  nTgt : Nat := 0  -- 6 (group target n_g, loop master); 15 R443
  refFrom : Nat := 0  -- 56 (GTS from which the loop master sends reference frames); 15 R444
  refSkip : Bool := false  -- 1 (no frame in the next period); 15 R442
  iunit : Int := 0  -- 11; 15 R442
  bsw : Bool := false  -- 1; 15 R442
  refLost : Bool := false  -- 1; 15 R445
  refGood : Nat := 0  -- 7 (valid reference frames in a row, up to 64); 15 R445
  elect : List Election := []  -- open elections, oldest first; 15 R447
  electShut : Nat := 0  -- 57 (end of the window of the latest election closed); 15 R447
  dormBox : Option (Fin 4) := none  -- 3; 15 R450
  dormPh : Nat := 0  -- 3 (manager: 1 watching, 2 to be sent, 3 sent, 4 acted on, 5 answered OK); 15 R450
  notReady : BitVec 32 := 0  -- 32 (members not DORMOK in the last cycle); 15 R450
  seqBox : Option (Fin 4) := none  -- 3; 14 R416
  seqPend : BitVec 32 := 0  -- 32 (members whose run has not ended); 14 R416
  seqAct : Nat := 0  -- 2 (SEQ_GO acted on: 1 up, 2 down); 15 R428 R429
  seqFail : BitVec 32 := 0  -- 32; 14 R416
  alignDue : Bool := false  -- 1 (step to the manager's time at the next cycle); 15 R433 R450
  wokeAt : Option Nat := none  -- 56 (GTS of the wake from a stack DORMANT); 15 R450
  txFrame : List (BitVec 8) := []  -- last frame sent, 44 bytes; 15 R426
  refTx : Option (Int × Bool × Bool) := none  -- reference frame sent in this period; 15 R442
  dormant : Bool := false  -- 1 (stack is dormant); 15 R450
  takeAt : Nat := 0  -- 56 (GTS the takeover began); 15 R448
  worker0 : Bool := false  -- 1 (STK_ID 0 working as a worker); 15 R449
  actId : Nat := 0  -- 5 (STK_ID of the sender of slot 0); 15 R448 R449
  deriving DecidableEq, Repr

/-- Non-volatile memory. -/
structure NvmS where
  q : List NvmReq := []  -- 8 requests; 16 R458, 01 R30
  prog : Option NvmReq := none  -- request being programmed; 16 R458
  cfg : List (Option Bank) := [none, none]  -- 2 banks; 16 R460
  imgA : List Host.Cell := []  -- 98304 bytes (unlisted: erased, 0xFF); 16 R463
  imgB : List Host.Cell := []  -- 98304 bytes (unlisted: erased, 0xFF); 16 R463
  writeCnt : List Nat := [0, 0]  -- 2 x 32 (image-region write counts of sectors 0 and 24); 16 R455
  erase : List Nat := List.replicate 64 0  -- 64 x 32; 16 R455
  wornSent : BitVec 4 := 0  -- 4; 16 R469
  partly : BitVec 64 := 0  -- 64 (sectors partly erased by a cut); 16 R467
  ahead : Option (Fin 64) := none  -- 7 (sector of an erase ahead in progress); 16 R458 R462 R467
  rollback : List (List (BitVec 8)) := []  -- up to 256 records of 16 bytes; 16 R466
  rbFullSent : Bool := false  -- 1; 16 R466
  ring : List SnapEntry := []  -- 384 entries; 10 R311, 16 R462
  ringPos : Nat := 0  -- 9 (place of the next entry); 16 R462
  lfRing : List LfRec := []  -- 32 records; 16 R462
  lfPos : Nat := 0  -- 5 (place of the next record); 16 R462
  stage : List Host.Cell := []  -- 98304 bytes; 16 R464
  staged : Bool := false  -- 1; 16 R464
  roots : List (Option (List (BitVec 8))) := List.replicate 4 none  -- 4 x 32 bytes; 09 R286
  energySince : Option Nat := none  -- 56 (GTS since which the highest node has been at 6.0 V or more); 05 R171
  deriving DecidableEq, Repr

/-- The whole state of the module. -/
structure State where
  clk : Clk := {}  -- Clocks and the global time-stamp counter (GTS).
  sys : Sys := {}  -- Mode, tier, staged start, DORMANT, SHIP, the button and the power domains.
  qs : Queues := {}  -- The event queue with EVT0 to EVT3, the task inboxes and the drop counters.
  bus : Bus := {}  -- The two-wire ports, the update logic, attention and the register pages.
  grd : Guard := {}  -- Guarded registers.
  fab : Fabric := {}  -- Phases, placement, the basin and the grants.
  cc : Conv := {}  -- Conversion control.
  pp : Power := {}  -- Sources, the battery switch, the weir, the tracker and PATH.
  chg : Charge := {}  -- Charging.
  ms : Meas := {}  -- Cell measurement, the coulomb count, balancing and the mirrors.
  sw : Sweep := {}  -- Impedance sweeps and the battery model.
  seq : Seqr := {}  -- The sequencer and the auxiliary rails.
  flt : Faults := {}  -- Faults, fences, HOLD, records, injection and first-error capture.
  wd : Wdog := {}  -- The watchdogs.
  mb : Mail := {}  -- Mailboxes.
  stk : Stack := {}  -- Stacking and cascade groups.
  nvm : NvmS := {}  -- Non-volatile memory.
  tca : TcPort := {}  -- Type-C port PA
  tcb : TcPort := {}  -- Type-C port PB
  free : Nat := 0  -- the model's own: how many free values the steps have used (log entry 7)
  pending : List Instr := []  -- the commands waiting, first in, first out
  deriving DecidableEq, Repr

/-- Why a step stops with a fault: no command of this block does, as the spec gives every one an effect. -/
inductive Fault where
  /-- Raised by no meaning; a step that ended here would be safe. -/
  | outsideSpec
  deriving DecidableEq, Repr

/-- Why a command is refused. -/
inductive Refusal where
  /-- The command `mnemonic` has no meaning in this model; raised by the arms of `exec` alone, and safe. -/
  | notModelled (mnemonic : String)
  deriving DecidableEq, Repr

/-- The module right after AON power-on at first power: WAKING, Tier 0, GTS and epoch 0, nothing waiting. -/
def State.reset : State := {}

end Sys2Proof.Machine
end

