-- ==== Sys2Proof/Machine/Update.lean ====
section
/-! DEFINITION. One rewriting of each part of the state; every meaning changes the state through these. -/
namespace Sys2Proof.Machine

/-- Rewrites the part `clk` of the state and nothing else. -/
def State.onClk (s : State) (f : Clk → Clk) : State := { s with clk := f s.clk }

/-- Rewrites the part `sys` of the state and nothing else. -/
def State.onSys (s : State) (f : Sys → Sys) : State := { s with sys := f s.sys }

/-- Rewrites the part `qs` of the state and nothing else. -/
def State.onQs (s : State) (f : Queues → Queues) : State := { s with qs := f s.qs }

/-- Rewrites the part `bus` of the state and nothing else. -/
def State.onBus (s : State) (f : Bus → Bus) : State := { s with bus := f s.bus }

/-- Rewrites the part `grd` of the state and nothing else. -/
def State.onGrd (s : State) (f : Guard → Guard) : State := { s with grd := f s.grd }

/-- Rewrites the part `fab` of the state and nothing else. -/
def State.onFab (s : State) (f : Fabric → Fabric) : State := { s with fab := f s.fab }

/-- Rewrites the part `cc` of the state and nothing else. -/
def State.onCc (s : State) (f : Conv → Conv) : State := { s with cc := f s.cc }

/-- Rewrites the part `pp` of the state and nothing else. -/
def State.onPp (s : State) (f : Power → Power) : State := { s with pp := f s.pp }

/-- Rewrites the part `chg` of the state and nothing else. -/
def State.onChg (s : State) (f : Charge → Charge) : State := { s with chg := f s.chg }

/-- Rewrites the part `ms` of the state and nothing else. -/
def State.onMs (s : State) (f : Meas → Meas) : State := { s with ms := f s.ms }

/-- Rewrites the part `sw` of the state and nothing else. -/
def State.onSw (s : State) (f : Sweep → Sweep) : State := { s with sw := f s.sw }

/-- Rewrites the part `seq` of the state and nothing else. -/
def State.onSeq (s : State) (f : Seqr → Seqr) : State := { s with seq := f s.seq }

/-- Rewrites the part `flt` of the state and nothing else. -/
def State.onFlt (s : State) (f : Faults → Faults) : State := { s with flt := f s.flt }

/-- Rewrites the part `wd` of the state and nothing else. -/
def State.onWd (s : State) (f : Wdog → Wdog) : State := { s with wd := f s.wd }

/-- Rewrites the part `mb` of the state and nothing else. -/
def State.onMb (s : State) (f : Mail → Mail) : State := { s with mb := f s.mb }

/-- Rewrites the part `stk` of the state and nothing else. -/
def State.onStk (s : State) (f : Stack → Stack) : State := { s with stk := f s.stk }

/-- Rewrites the part `nvm` of the state and nothing else. -/
def State.onNvm (s : State) (f : NvmS → NvmS) : State := { s with nvm := f s.nvm }

/-- Rewrites the part `tca` of the state and nothing else. -/
def State.onTca (s : State) (f : TcPort → TcPort) : State := { s with tca := f s.tca }

/-- Rewrites the part `tcb` of the state and nothing else. -/
def State.onTcb (s : State) (f : TcPort → TcPort) : State := { s with tcb := f s.tcb }

end Sys2Proof.Machine
end

