-- ==== Sys2Proof/Machine/Codes.lean ====
section
/-! DEFINITION. The codes the spec gives by number: event codes (R493), fault causes (R316, R445), local source
numbers (R28) and mailbox statuses (R405). -/
namespace Sys2Proof.Machine

/-! Event codes (R493). -/
namespace Ev
def boot : BitVec 16 := 0x0001
def gtsWrap : BitVec 16 := 0x0002
def epochWrap : BitVec 16 := 0x0003
def queueSat : BitVec 16 := 0x0004
def dormantAbort : BitVec 16 := 0x0005
def shipPending : BitVec 16 := 0x0101
def shipCancelled : BitVec 16 := 0x0102
def fault : BitVec 16 := 0x0201
def fence : BitVec 16 := 0x0301
def unfence : BitVec 16 := 0x0302
def holdEnter : BitVec 16 := 0x0401
def holdExit : BitVec 16 := 0x0402
def holdRefused : BitVec 16 := 0x0403
def fecCapture : BitVec 16 := 0x0501
def finjDone : BitVec 16 := 0x0502
def counterSat : BitVec 16 := 0x0503
def hcwExpiry : BitVec 16 := 0x0601
def guardFail : BitVec 16 := 0x0701
def mbxRingBusy : BitVec 16 := 0x0702
def place : BitVec 16 := 0x0801
def forcedPlacement : BitVec 16 := 0x0802
def basinLimit : BitVec 16 := 0x0901
def peakStart : BitVec 16 := 0x0902
def peakEnd : BitVec 16 := 0x0903
def reserveShort : BitVec 16 := 0x0904
def tuneDone : BitVec 16 := 0x0A01
def tuneRange : BitVec 16 := 0x0A02
def syncLock : BitVec 16 := 0x0A03
def syncLost : BitVec 16 := 0x0A04
def oclHold : BitVec 16 := 0x0A05
def pathChange : BitVec 16 := 0x0B01
def handover : BitVec 16 := 0x0B02
def batAttach : BitVec 16 := 0x0B03
def batDetach : BitVec 16 := 0x0B04
def weirLearn : BitVec 16 := 0x0C01
def mpptScan : BitVec 16 := 0x0C02
def revCutoff : BitVec 16 := 0x0C03
def chgSuspend : BitVec 16 := 0x0D01
def chgResume : BitVec 16 := 0x0D02
def chgDone : BitVec 16 := 0x0D03
def zone : BitVec 16 := 0x0D04
def safeSet : BitVec 16 := 0x0D05
def pbtnShort : BitVec 16 := 0x0E01
def pbtnLong : BitVec 16 := 0x0E02
def pbtnForceOff : BitVec 16 := 0x0E03
def sweepStart : BitVec 16 := 0x0F01
def sweepDone : BitVec 16 := 0x0F02
def sweepRefused : BitVec 16 := 0x0F03
def sweepAborted : BitVec 16 := 0x0F04
def modelUpdate : BitVec 16 := 0x1001
def modelMismatch : BitVec 16 := 0x1002
def ccSat : BitVec 16 := 0x1003
def balOn : BitVec 16 := 0x1101
def balOff : BitVec 16 := 0x1102
def tcAttach : BitVec 16 := 0x1201
def tcDetach : BitVec 16 := 0x1202
def pdContract : BitVec 16 := 0x1301
def pdMismatch : BitVec 16 := 0x1302
def pdFallback : BitVec 16 := 0x1303
def eprEnter : BitVec 16 := 0x1304
def eprExit : BitVec 16 := 0x1305
def pdHardReset : BitVec 16 := 0x1401
def pdSwap : BitVec 16 := 0x1402
def frsArm : BitVec 16 := 0x1403
def frsDisarm : BitVec 16 := 0x1404
def pdAlert : BitVec 16 := 0x1405
def authResult : BitVec 16 := 0x1501
def seqUpStart : BitVec 16 := 0x1601
def seqUpDone : BitVec 16 := 0x1602
def seqUpRefused : BitVec 16 := 0x1603
def seqStep : BitVec 16 := 0x1604
def seqDownStart : BitVec 16 := 0x1605
def seqDownDone : BitVec 16 := 0x1606
def nrstoPulse : BitVec 16 := 0x1607
def railFault : BitVec 16 := 0x1701
def pfwAssert : BitVec 16 := 0x1702
def stkJoin : BitVec 16 := 0x1801
def stkLeave : BitVec 16 := 0x1802
def stkIdTaken : BitVec 16 := 0x1803
def stkTakeover : BitVec 16 := 0x1804
def stkTimeStep : BitVec 16 := 0x1901
def cascForm : BitVec 16 := 0x1A01
def cascMaster : BitVec 16 := 0x1A02
def nvmVerify : BitVec 16 := 0x1B01
def nvmWear : BitVec 16 := 0x1B02
def rollbackFull : BitVec 16 := 0x1B03
def fuseFail : BitVec 16 := 0x1B04
end Ev

/-! Cause codes (R316 and, for 0x06xx, R445). -/
namespace Cause
def selectorOrder : BitVec 16 := 0x0101
def selectorStuck : BitVec 16 := 0x0102
def selectorOverlap : BitVec 16 := 0x0103
def phaseShort : BitVec 16 := 0x0104
def gateSupply : BitVec 16 := 0x0105
def quadSensor : BitVec 16 := 0x0106
def quadOvertemp : BitVec 16 := 0x0107
def pllLock : BitVec 16 := 0x0108
def dllCal : BitVec 16 := 0x0109
def noPhases : BitVec 16 := 0x010A
def loopCompare : BitVec 16 := 0x0201
def pcReverse : BitVec 16 := 0x0202
def sampleFault : BitVec 16 := 0x0203
def vbusSwitch : BitVec 16 := 0x0204
def vconnOc : BitVec 16 := 0x0205
def portOv : BitVec 16 := 0x0206
def softConnect : BitVec 16 := 0x0301
def batswOc : BitVec 16 := 0x0302
def cellOv : BitVec 16 := 0x0303
def upTimeout : BitVec 16 := 0x0401
def railFault : BitVec 16 := 0x0402
def fallSlow : BitVec 16 := 0x0403
def lockstep : BitVec 16 := 0x0501
def nvmEcc : BitVec 16 := 0x0502
def sramEcc1 : BitVec 16 := 0x0503
def sramEcc2 : BitVec 16 := 0x0504
def retParity : BitVec 16 := 0x0505
def aoscFreq : BitVec 16 := 0x0506
def taskMpu : BitVec 16 := 0x0507
def taskDeadline : BitVec 16 := 0x0508
def wdgExpiry : BitVec 16 := 0x0701
def clockLoss : BitVec 16 := 0x0702
def hcwExpiry : BitVec 16 := 0x0703
def mgrSilent : BitVec 16 := 0x0601
def slotFail : BitVec 16 := 0x0602
def alignLost : BitVec 16 := 0x0603
def cascRefLost : BitVec 16 := 0x0604
def slot0Collision : BitVec 16 := 0x0605
def frameCrc : BitVec 16 := 0x0606
end Cause

/-! Local source numbers (R28). -/
namespace Src
def phase (i : Nat) : Nat := i
def quad (q : Nat) : Nat := 0x08 + q
def port : PortId → Nat
  | .pa => 0x10 | .pb => 0x11 | .pc => 0x12
def tc : TcId → Nat
  | .a => 0x10 | .b => 0x11
def batsw : Nat := 0x18
def cs (k : Nat) : Nat := 0x20 + k
def ntc (n : Nat) : Nat := 0x30 + n
def rail (r : Nat) : Nat := 0x40 + r
def lockstep : Nat := 0x50
def nvm : Nat := 0x51
def sram : Nat := 0x52
def bus : BusPort → Nat
  | .host => 0x60 | .safety => 0x61
def stack : Nat := 0x62
def wdg : Nat := 0x70
def hcw : Nat := 0x71
def task : FwTask → Nat
  | .cowslip => 0x80 | .teasel => 0x81 | .yarrow => 0x82 | .campion => 0x83 | .sorrel => 0x84 | .vetch => 0x85
def teasel : Nat := 0x81
def yarrow : Nat := 0x82
def campion : Nat := 0x83
def sorrel : Nat := 0x84
def vetch : Nat := 0x85
end Src

/-! Mailbox status codes (R405). -/
namespace St
def ok : Byte := 0x00
def accepted : Byte := 0x01
def withdrawn : Byte := 0x02
def busyRetry : Byte := 0x03
def badOpcode : Byte := 0x10
def badLength : Byte := 0x11
def badCrc : Byte := 0x12
def outOfRange : Byte := 0x13
def notPermitted : Byte := 0x14
def guardFail : Byte := 0x15
def nvmFail : Byte := 0x20
def nvmAbandoned : Byte := 0x21
def authFail : Byte := 0x30
end St

/-- The order in which masks and inboxes number the tasks: Cowslip first (R347, R407). -/
def taskIdx : FwTask → Nat
  | .cowslip => 0 | .teasel => 1 | .yarrow => 2 | .campion => 3 | .sorrel => 4 | .vetch => 5

/-- A port's index: PA 0, PB 1, PC 2 (R410). -/
def portIdx : PortId → Nat
  | .pa => 0 | .pb => 1 | .pc => 2

/-- The Type-C port as a power port. -/
def tcPort : TcId → PortId
  | .a => .pa | .b => .pb

/-- The power port as a Type-C port, where it is one. -/
def portTc : PortId → Option TcId
  | .pa => some .a | .pb => some .b | .pc => none

end Sys2Proof.Machine
end

