-- ==== Sys2Proof/Machine/Ops.lean ====
section
/-! DEFINITION. The shared operations: byte strings, addressed buffers, time and stamps, the control registers in
force, the drop counters and the event queue. -/
namespace Sys2Proof.Machine

/-! ## Byte strings (R5) -/

/-- The `n` bytes of `v`, least significant first (R5). -/
def le : Nat → Nat → List Byte
  | 0, _ => []
  | n + 1, v => BitVec.ofNat 8 v :: le n (v / 256)

/-- The `n` bytes of the signed value `v` in two's complement, least significant first (R395). -/
def leI (n : Nat) (v : Int) : List Byte := le n (v % (256 ^ n : Nat)).toNat

/-- The number a little-endian byte string spells (R5). -/
def ofLe : List Byte → Nat
  | [] => 0
  | b :: r => b.toNat + 256 * ofLe r

/-- The signed number a little-endian byte string spells (R395). -/
def ofLeI (l : List Byte) : Int :=
  let v := ofLe l
  if v ≥ 256 ^ l.length / 2 ∧ l ≠ [] then (v : Int) - (256 ^ l.length : Nat) else v

/-- A quotient held to an integer, up or down where it does not divide (log entry 34). -/
def quoQ (num den : Int) : Int := num / den + (if num % den != 0 && Config.roundUp num den then 1 else 0)

/-- The same of natural numbers. -/
def quo (num den : Nat) : Nat := (quoQ num den).toNat

/-- A quotient held to an integer, up where it does not divide and `up` says so: the rounding is the sender's (log entry 34). -/
def meanOf (up : Bool) (num den : Int) : Int := num / den + (if num % den != 0 && up then 1 else 0)

/-- The mean in 0.1 mV of `n` cell codes of the sum `sum`, of 18 bits over 5.0 V (R54, R231). -/
def codeMean (up : Bool) (sum : Int) (n : Nat) : Nat := (meanOf up (50000 * sum) (262144 * n : Nat)).toNat

/-- `v` bounded to `lo … hi`: the nearer limit (R383). -/
def clampN (lo hi v : Nat) : Nat := max lo (min hi v)

/-- `v` bounded to `lo … hi`, signed. -/
def clampI (lo hi v : Int) : Int := max lo (min hi v)

/-- Adds one to a counter that stops at `m`. -/
def satInc (m v : Nat) : Nat := if v < m then v + 1 else m

/-- The bit vector with bit `i` set to `b`. -/
def setBit {w : Nat} (x : BitVec w) (i : Nat) (b : Bool) : BitVec w :=
  if b then x ||| (1#w <<< i) else x &&& ~~~(1#w <<< i)

/-- A truth value as 0 or 1. -/
def b2n (b : Bool) : Nat := if b then 1 else 0

/-- The number whose bits, least significant first, are `l`. -/
def bitsN : List Bool → Nat
  | [] => 0
  | b :: r => b2n b + 2 * bitsN r

/-- A byte from its bits, least significant first. -/
def byteOf (l : List Bool) : Byte := BitVec.ofNat 8 (bitsN l)

/-- The list of the numbers below `n` whose bit in `x` is set. -/
def bitsOf {w : Nat} (n : Nat) (x : BitVec w) : List Nat := (List.range n).filter fun i => x.getLsbD i

/-! ## Addressed buffers

A buffer is a list of (address, byte) pairs with rising addresses and no pair equal to what an unlisted address reads
as, which `d` gives. -/

/-- What the buffer reads at `a`. -/
def memGet (d : Nat → Byte) : List Host.Cell → Nat → Byte
  | [], a => d a
  | (k, v) :: r, a => if k = a then v else memGet d r a

/-- The buffer after `v` is written at `a`, in canonical form. -/
def memPut (d : Nat → Byte) : List Host.Cell → Nat → Byte → List Host.Cell
  | [], a, v => if v = d a then [] else [(a, v)]
  | (k, w) :: r, a, v =>
    if a < k then (if v = d a then (k, w) :: r else (a, v) :: (k, w) :: r)
    else if a = k then (if v = d a then r else (a, v) :: r)
    else (k, w) :: memPut d r a v

/-- The buffer after the bytes `l` are written from `a` upward. -/
def memPuts (d : Nat → Byte) (m : List Host.Cell) (a : Nat) : List Byte → List Host.Cell
  | [] => m
  | v :: r => memPuts d (memPut d m a v) (a + 1) r

/-- The `n` bytes the buffer reads from `a` upward. -/
def memGets (d : Nat → Byte) (m : List Host.Cell) (a n : Nat) : List Byte :=
  (List.range n).map fun i => memGet d m (a + i)

/-- The buffer with the bytes at `a … a + n - 1` back at what unlisted addresses read as. -/
def memErase (m : List Host.Cell) (a n : Nat) : List Host.Cell := m.filter fun c => c.1 < a || a + n ≤ c.1

/-- Addresses above `lo` strictly rise and no entry equals what its address reads as unlisted. -/
def memOrdered (d : Nat → Byte) : Nat → List Host.Cell → Bool
  | _, [] => true
  | lo, (k, v) :: r => lo ≤ k && v != d k && memOrdered d (k + 1) r

/-- The canonical form of a buffer. -/
def Memory.wf (d : Nat → Byte) (m : List Host.Cell) : Bool := memOrdered d 0 m

/-- Mailbox buffers and image regions: an unlisted byte reads 0. -/
def zeroByte : Nat → Byte := fun _ => 0

/-- What a control register holds before Tier 1 (R499); other addresses read 0. -/
def regDefault (a : Nat) : Byte :=
  match a with
  | 0x0140 => 0xD0 | 0x0141 => 0x07 | 0x0144 => 0x20
  | 0x0150 => 0x0F | 0x0151 => 0x27 | 0x0152 => 0xBC | 0x0153 => 0x02 | 0x0154 => 0x07 | 0x0155 => 0x24
  | 0x0156 => 0x96 | 0x0157 => 0xB4
  | 0x0160 => 0x03 | 0x0161 => 0x64 | 0x0163 => 0x68 | 0x0164 => 0x10 | 0x0165 => 0x14 | 0x0166 => 0x0A
  | 0x0167 => 0x14 | 0x0168 => 0x1E | 0x0169 => 0xC8 | 0x016B => 0x0A | 0x016C => 0x0A | 0x016D => 0x01
  | 0x0180 => 0x07 | 0x0181 => 0x0A | 0x0182 => 0x19 | 0x0183 => 0x64 | 0x0184 => 0x1E | 0x0185 => 0x14
  | 0x0186 => 0x0A | 0x0187 => 0x1E
  | 0x01A0 => 0x38 | 0x01A1 => 0xC0 | 0x01A2 => 0x14 | 0x01A4 => 0x64 | 0x01A5 => 0x09
  | 0x01A8 => 0x38 | 0x01A9 => 0xC0 | 0x01AA => 0x14 | 0x01AC => 0x64 | 0x01AD => 0x09
  | 0x01E0 => 0x2B | 0x01E1 => 0x05 | 0x01E2 => 0x48 | 0x01E4 => 0x0A | 0x01E5 => 0x14
  | 0x0201 => 0x32
  | 0x0228 => 0x28
  | _ =>
    if 0x01C0 ≤ a ∧ a < 0x01E0 then
      (if a % 4 = 1 then 0x0A else if a % 4 = 2 then 0x32 else if a % 4 = 3 then 0x05 else 0)
    else 0

/-! ## Control registers in force (R383) -/

/-- The value in force of the control register at `a`. -/
def State.reg (s : State) (a : Nat) : Byte := memGet regDefault s.bus.page a

/-- Bit `i` of the control register at `a`. -/
def State.regBit (s : State) (a i : Nat) : Bool := (s.reg a).getLsbD i

/-- The control register at `a` as a number. -/
def State.regN (s : State) (a : Nat) : Nat := (s.reg a).toNat

/-- Bits `hi … lo` of the control register at `a`. -/
def State.regF (s : State) (a hi lo : Nat) : Nat := s.regN a / 2 ^ lo % 2 ^ (hi + 1 - lo)

/-- The two control registers at `a` and `a + 1`, low byte first. -/
def State.reg16 (s : State) (a : Nat) : Nat := s.regN a + 256 * s.regN (a + 1)

/-- Writes the value in force of the control register at `a`. -/
def State.setReg (s : State) (a : Nat) (v : Byte) : State :=
  s.onBus fun b => { b with page := memPut regDefault b.page a v }

/-- The four parameter bytes' base of a Type-C port's registers (R265). -/
def tcBase : TcId → Nat
  | .a => 0x01A0 | .b => 0x01A8

/-- The block of a writable control register, by its bit in UPDATE (R389). -/
def blockOf (a : Nat) : Option Nat :=
  if (0x0140 ≤ a ∧ a ≤ 0x0144) ∨ a = 0x0146 then some 0
  else if 0x0150 ≤ a ∧ a ≤ 0x0157 then some 1
  else if 0x0160 ≤ a ∧ a ≤ 0x016D then some 2
  else if 0x0180 ≤ a ∧ a ≤ 0x0187 then some 3
  else if (0x01A0 ≤ a ∧ a ≤ 0x01A5) ∨ (0x01A8 ≤ a ∧ a ≤ 0x01AD) then some 4
  else if 0x01C0 ≤ a ∧ a ≤ 0x01E5 then some 5
  else if 0x0200 ≤ a ∧ a ≤ 0x0202 then some 6
  else if a = 0x0228 then some 7
  else none

/-- The shadow of the register at `a`, where one is pending (R383). -/
def shadowAt (l : List Host.Cell) (a : Nat) : Option Byte := (l.find? fun c => c.1 == a).map (·.2)

/-- UPD_STAT as resident firmware last writes it: a block is pending while a shadow of it is, while FSW waits (R154) and while the
slot table waits (R294). -/
def State.updShow (s : State) : State :=
  s.onBus fun b => { b with updStat := byteOf ((List.range 8).map fun k =>
    ((b.shadow ++ b.immQ).any fun c => blockOf c.1 == some k) || (k == 0 && s.cc.fswPend) || (k == 5 && s.seq.tblPend)) }

/-- The shadows of block `k` that `take` admits come into force together (R389). -/
def State.takeShadows (s : State) (k : Nat) (take : Nat → Bool) : State :=
  let mine := fun (c : Host.Cell) => blockOf c.1 == some k && take c.1
  s.onBus fun b => { b with
    shadow := b.shadow.filter fun c => !mine c
    page := (b.shadow.filter mine).foldl (fun p c => memPut regDefault p c.1 c.2) b.page }

/-- A register bounded to its nearer limits (R383). -/
def State.clampReg (s : State) (a lo hi : Nat) : State := s.setReg a (BitVec.ofNat 8 (clampN lo hi (s.regN a)))

/-- A register pair bounded to its nearer limits (R383). -/
def State.clampPair (s : State) (a lo hi : Nat) : State :=
  let v := clampN lo hi (s.reg16 a)
  (s.setReg a (BitVec.ofNat 8 v)).setReg (a + 1) (BitVec.ofNat 8 (v / 256))

/-! ## Time (R18 to R24) -/

/-- Microseconds since AON power-on: the epoch and GTS as one 56-bit count (R18). -/
def State.now (s : State) : Nat := s.clk.epoch.toNat * 2 ^ 48 + s.clk.gts.toNat

/-- The time stamp of R24 for this instant. -/
def State.stamp (s : State) : Stamp :=
  { gts := s.clk.gts, fine := if s.clk.moscRun then s.clk.fine else 0, coarse := !s.clk.moscRun, epoch := s.clk.epoch }

/-- The eight bytes of a stamp (R24). -/
def stampBytes (t : Stamp) : List Byte :=
  le 6 t.gts.toNat ++ [BitVec.ofNat 8 (t.fine.toNat + 128 * b2n t.coarse), t.epoch]

/-- The instant a stamp names, as one count of microseconds. -/
def stampAt (t : Stamp) : Nat := t.epoch.toNat * 2 ^ 48 + t.gts.toNat

/-! ## Events and drop counters (R31, R35, R493) -/

/-- A source number as records carry it (R26, R27): module id × 256 + local source in a stack, which here means once the module has
joined (log entry 88). -/
def State.source (s : State) (src : Nat) : BitVec 16 :=
  BitVec.ofNat 16 (if s.stk.joined then (if s.grd.fuse.getLsbD 3 then s.grd.fuseStraps else s.sys.straps).id.toNat * 256 + src else src)

/-- Whether an event of class `cls` finds room in the event queue (R31). -/
def State.eventFits (s : State) (cls : Nat) : Bool :=
  if cls = 0 then s.qs.events.length < 224 else s.qs.events.length < 256

/-- Whether record `a` is ordered before record `b`: by epoch, GTS and source number (R26). -/
def ordersBefore (a : Stamp) (src : BitVec 16) (b : Stamp) (srcB : BitVec 16) : Bool :=
  stampAt a < stampAt b || (stampAt a == stampAt b && src.toNat < srcB.toNat)

/-- The event queue with `e` put before the events at its end that order after it (R26, R31). -/
def eventPut (l : List EventRec) (e : EventRec) : List EventRec :=
  let late := (l.reverse.takeWhile fun x => ordersBefore e.stamp e.source x.stamp x.source).length
  l.take (l.length - late) ++ e :: l.drop (l.length - late)

/-- Puts an event into the event queue and sets the EVT bit of its group (R493). -/
def State.pushEvent (s : State) (e : EventRec) : State :=
  let g := e.code.toNat / 256
  s.onQs fun q => { q with events := eventPut q.events e, evt := setBit q.evt g true }

/-- An event record stamped now. -/
def State.mkEvent (s : State) (src : Nat) (code : BitVec 16) (cls : Nat) (detail : List Byte) : EventRec :=
  { stamp := s.stamp, source := s.source src, code := code, cls := cls, detail := detail }

/-- Counts one drop of queue `k` (R35): at 0xFFFF the counter stops and sets its SAT flag. The Boolean says whether the
flag was set by this drop. -/
def State.countDrop (s : State) (k : Nat) : State × Bool :=
  let v := s.qs.drops.getD k 0
  if v < 0xFFFF then
    let s' := s.onQs fun q => { q with drops := q.drops.set k (v + 1) }
    if v + 1 = 0xFFFF then (s'.onQs fun q => { q with sat := setBit q.sat k true }, true) else (s', false)
  else (s, false)

/-- One drop of queue `k` with its QUEUE_SAT event (R35). -/
def State.drop (s : State) (k : Nat) : State :=
  let (s1, hit) := s.countDrop k
  if !hit then s1
  else if s1.eventFits 0 then s1.pushEvent (s1.mkEvent Src.vetch Ev.queueSat 0 [BitVec.ofNat 8 k])
  else (s1.countDrop 4).1

/-- Raises an event: into the queue, or dropped and counted (R31, R35). -/
def State.raise (s : State) (src : Nat) (code : BitVec 16) (detail : List Byte := []) (cls : Nat := 0) : State :=
  if s.eventFits cls then s.pushEvent (s.mkEvent src code cls detail) else s.drop 4

/-- Raises an event whose record already carries a full source number and a stamp. -/
def State.raiseRec (s : State) (e : EventRec) : State :=
  if s.eventFits e.cls then s.pushEvent e else s.drop 4

/-- The drop counters are cleared, with their SAT flags (R35). -/
def State.dropsClear (s : State) : State := s.onQs fun q => { q with drops := List.replicate 13 0, sat := 0 }

/-- COUNTER_SAT naming its counter (R494). -/
def State.counterSat (s : State) (code : Nat) (more : List Byte := []) : State :=
  s.raise Src.sorrel Ev.counterSat (BitVec.ofNat 8 code :: more)

/-- Applies `f` when `c` holds. -/
def State.when (s : State) (c : Bool) (f : State → State) : State := if c then f s else s

/-- The detail byte of the `k`-th name an event chooses from (R408). -/
def nameByte (code : BitVec 16) (k : Nat) : Byte := BitVec.ofNat 8 (Config.nameCode code.toNat k)

/-! ## The model's free values -/

/-- The `i`-th of the free values the present step draws (log entry 7). -/
def State.freeN (s : State) (i : Nat) : Nat := Config.freeNat (s.free + i)

/-- The `i`-th free value as a signed number. -/
def State.freeI (s : State) (i : Nat) : Int := Config.freeInt (s.free + i)

/-- The state in which `k` free values have been used up. -/
def State.useFree (s : State) (k : Nat) : State := { s with free := s.free + k }

/-- A step's outcome: the state it leads to. -/
abbrev Out := Host.Outcome State Fault Refusal

end Sys2Proof.Machine
end

