-- ==== Sys2Proof/Machine/Fabric.lean ====
section
/-! DEFINITION. Operations on phases and paths (chapter 04): placing, draining, handing off, freeing and fencing a phase,
forming and ending a path, the interleave angles and the placement events. -/
namespace Sys2Proof.Machine

/-- The eight phase numbers. -/
def phaseNos : List Nat := [0, 1, 2, 3, 4, 5, 6, 7]

/-- The three ports in index order. -/
def ports : List PortId := [.pa, .pb, .pc]

/-- Phase `i`. -/
def State.phase (s : State) (i : Nat) : Phase := s.fab.ph.getD i {}

/-- Rewrites phase `i`. -/
def State.onPhase (s : State) (i : Nat) (f : Phase → Phase) : State :=
  s.onFab fun x => { x with ph := x.ph.set i (f (x.ph.getD i {})) }

/-- Rewrites every phase. -/
def State.onPhases (s : State) (f : Phase → Phase) : State := s.onFab fun x => { x with ph := x.ph.map f }

/-- The path of port `p`. -/
def State.path (s : State) (p : PortId) : PathSt := s.fab.path.getD (portIdx p) {}

/-- Rewrites the path of port `p`. -/
def State.onPath (s : State) (p : PortId) (f : PathSt → PathSt) : State :=
  s.onFab fun x => { x with path := x.path.set (portIdx p) (f (x.path.getD (portIdx p) {})) }

/-- Whether a path is active on port `p` (R201). -/
def State.active (s : State) (p : PortId) : Bool := (s.path p).dir != .off

/-- Whether a sink path is active on port `p`. -/
def State.sinking (s : State) (p : PortId) : Bool := (s.path p).dir == .sink

/-- Whether a source path is active on port `p`. -/
def State.sourcing (s : State) (p : PortId) : Bool := (s.path p).dir == .source

/-- Whether any sink path is active. -/
def State.anySink (s : State) : Bool := ports.any s.sinking

/-- Whether port `p` counts as a present source (R173). -/
def State.present (s : State) : PortId → Bool
  | .pa => s.pp.presA | .pb => s.pp.presB | .pc => s.pp.presC

/-- Whether PATH_CTL enables port `p` as a sink (R175). -/
def State.sinkEn (s : State) (p : PortId) : Bool := s.regBit 0x0150 (portIdx p)

/-- Whether port `p` is fenced (R322). -/
def State.portFenced (s : State) (p : PortId) : Bool := s.flt.fence.getLsbD (10 + portIdx p)

/-- Whether port `p` may carry a sink path now, leaving COMB and the dwell aside. -/
def State.sinkable (s : State) (p : PortId) : Bool := s.present p && s.sinkEn p && !s.portFenced p

/-- Whether a sink path is active, or HOLD alone keeps a port from carrying one (R215, R327). -/
def State.sinkThere (s : State) : Bool := s.anySink || (s.flt.hold && ports.any s.sinkable)

/-- Whether any source path is active. -/
def State.anySource (s : State) : Bool := ports.any s.sourcing

/-- Whether the battery switch conducts. -/
def State.switchOn (s : State) : Bool := s.pp.batSw == .full || s.pp.batSw == .linear

/-- The port coding of PLACE and FPLACE: none 0, PA 1, PB 2, PC 3 (R132, R135). -/
def portCode : Option PortId → Nat
  | none => 0 | some .pa => 1 | some .pb => 2 | some .pc => 3

/-- The port a code of `portCode` names. -/
def portOfCode : Nat → Option PortId
  | 1 => some .pa | 2 => some .pb | 3 => some .pc | _ => none

/-- Phase states in the coding of R170. -/
def phCode : PhSt → Nat
  | .free => 0 | .limp => 1 | .switching => 2 | .starting => 3 | .active => 4 | .draining => 5 | .fenced => 6

/-- Whether a phase's gates are on (R103). -/
def PhSt.gatesOn : PhSt → Bool
  | .limp | .starting | .active | .draining => true
  | .free | .switching | .fenced => false

/-- Whether a phase is on port `p` for its path or on its way to it, and not on its way off; a phase that drives a tuning measurement's
pulses is on its node's source and serves no path (R148). -/
def Phase.servesPort (x : Phase) (p : PortId) : Bool :=
  !x.tune && match x.st with
  | .limp | .starting | .active => x.port == some p
  | .draining | .switching => x.next == some p
  | .free | .fenced => false

/-- The phases that serve port `p` once the moves under way have ended. -/
def State.serving (s : State) (p : PortId) : List Nat := phaseNos.filter fun i => (s.phase i).servesPort p

/-- The phases in the port set of `p`, whose selector to it is closed with gates on (R127). -/
def State.portSet (s : State) (p : PortId) : List Nat :=
  phaseNos.filter fun i => (s.phase i).port == some p && !(s.phase i).tune && ((s.phase i).st == .starting || (s.phase i).st == .active
    || (s.phase i).st == .draining)

/-- The ACTIVE phases of port `p`. -/
def State.activeOn (s : State) (p : PortId) : List Nat :=
  phaseNos.filter fun i => (s.phase i).port == some p && (s.phase i).st == .active

/-- Whether a phase is joining the path of `p` (R122). -/
def State.joiningOn (s : State) (p : PortId) : Bool :=
  phaseNos.any fun i =>
    let x := s.phase i
    !x.tune && ((x.st == .starting && x.port == some p) || ((x.st == .draining || x.st == .switching) && x.next == some p))

/-- Whether a phase is leaving the path of `p` (R122). -/
def State.leavingOn (s : State) (p : PortId) : Bool :=
  phaseNos.any fun i => (s.phase i).st == .draining && (s.phase i).port == some p && !(s.phase i).flip

/-! ## The path that carries a sweep's sine (R126, R240, R241) -/

/-- The path that carries the excitation of a sweep: the lead sink path, or on a discharge sweep the source path. -/
def State.exciteOn (s : State) : Option PortId := if s.sw.dirDis then (if s.sourcing s.sw.carrier then some s.sw.carrier else none) else s.fab.lead

/-- Whether a path carries the excitation of the sweep in progress (R126). -/
def State.excites (s : State) (p : PortId) : Bool := s.sw.run != .none && s.sw.stage != .fitting && s.exciteOn == some p

/-- The disturbances of R246 mark the point in progress, in its settling part too (DESIGN CHOICE, log entry 117). -/
def State.sweepDisturb (s : State) : State :=
  if s.sw.stage == .points then s.onSw fun w => { w with disturbed := true } else s

/-! ## Placement reasons (R135) -/
namespace Why
def demandUp : Nat := 0x01
def demandDown : Nat := 0x02
def thermal : Nat := 0x03
def health : Nat := 0x04
def reserve : Nat := 0x05
def fastSwap : Nat := 0x06
def portOff : Nat := 0x07
def direction : Nat := 0x08
def fence : Nat := 0x09
def forced : Nat := 0x0A
def takeover : Nat := 0x0B
def abandoned : Nat := 0x0C
def hold : Nat := 0x0D
end Why

/-- PLACE for phase `i`, from port `fr` to port `dst`, with its four detail bytes (R135); on the path that carries a sweep's sine it
disturbs the point in progress (R126, R246). -/
def State.place (s : State) (i : Nat) (fr dst : Option PortId) (why : Nat) : State :=
  let src := match dst with
    | some p => s.sourcing p
    | none => false
  let cnt := match dst with
    | some p => (s.serving p).length
    | none => 0
  (s.when ((fr.any s.excites) || dst.any s.excites) State.sweepDisturb).raise (Src.phase i) Ev.place
    [BitVec.ofNat 8 i, BitVec.ofNat 8 (portCode fr + 4 * portCode dst + 16 * b2n src), BitVec.ofNat 8 why, BitVec.ofNat 8 cnt]

/-- PLACE for every phase that differs in state or port from `s0`, but for phase 0 passing from ACTIVE to LIMP (R135). -/
def State.placeChanges (s0 s : State) (why : Nat) : State :=
  phaseNos.foldl (fun t i =>
    let x := s0.phase i
    let y := s.phase i
    if (x.st == y.st && x.port == y.port) || (x.st == .active && y.st == .limp) then t else t.place i x.port y.port why) s

/-- The direction of a phase on port `p`: that of the path (R102). -/
def State.dirOn (s : State) (p : PortId) : Dir := if s.sourcing p then .source else .sink

/-! ## Interleave (R127, R128) -/

/-- PWM steps per period at `f` kHz: 16 000 000 000 over the frequency in Hz, to the nearest (R127, R152). -/
def stepsOf (f : Nat) : Nat := (32000000 + f) / (2 * f)

/-- The same for a frequency in Hz. -/
def stepsHz (f : Nat) : Nat := (32000000000 + f) / (2 * f)

/-- The angle of the `k`-th of `n` phases of port `p`, in steps of a period of `N` steps (R127). -/
def angleOf (N : Nat) (p : PortId) (n k : Nat) : Nat :=
  let num := N * (portIdx p + 3 * k)
  let den := 3 * n
  ((2 * num + den) / (2 * den)) % N

/-- The straps in force: those held in the fuse word when the role lock is blown, else those sampled (R420). -/
def State.stkStraps (s : State) : Straps := if s.grd.fuse.getLsbD 3 then s.grd.fuseStraps else s.sys.straps

/-- STK_ID in force. -/
def State.stkId (s : State) : Nat := s.stkStraps.id.toNat

/-- The STK_IDs of the formed group. -/
def State.grpIds (s : State) : List Nat := (bitsOf 4 s.stk.group).map fun k => s.stkId / 4 * 4 + k

/-- The last report of member `k`. -/
def State.repOf (s : State) (k : Nat) : Option MemberRep := s.stk.reports.find? fun r => r.id == k

/-- The phases of the group before this module's own in the order of (STK_ID, phase number), and the group's phases in all (R443). The loop master's own
number is what the target leaves of the others' (log entry 125). -/
def State.groupPlace (s : State) : Nat × Nat :=
  let own := (s.portSet .pc).length
  let count := fun (k : Nat) => if k = s.stkId then own else match s.repOf k with
    | some r => r.ncasc
    | none => 0
  let isM := fun (k : Nat) => (s.stk.loopM.map (·.val)) == some k
  let rest := ((s.grpIds.filter fun k => !isM k).map count).foldl (· + ·) 0
  let num := fun (k : Nat) => if isM k && k != s.stkId then count k - rest else count k
  (((s.grpIds.filter fun k => decide (k < s.stkId)).map num).foldl (· + ·) 0, (s.grpIds.map num).foldl (· + ·) 0)

/-- Sets the angles of the phases of the cascade port that `ok` admits to those of the group (R443). -/
def State.groupAngle (s : State) (ok : Nat → Bool) : State :=
  let l := s.portSet .pc
  let (base, n) := s.groupPlace
  let turn := fun (i : Nat) (ph : Phase) =>
    if l.contains i && ok i then { ph with angleTo := angleOf s.cc.period .pa (max 1 n) (base + l.idxOf i) } else ph
  s.onFab fun x => { x with ph := x.ph.mapIdx turn }

/-- Sets the angles that the phases of port `p` move to, after its port set has changed (R127, R128); those of a cascade group change at a cycle start
(R443). -/
def State.reAngle (s : State) (p : PortId) : State :=
  if s.stk.casc && p == .pc then s
  else
    let l := s.portSet p
    let N := s.cc.period
    s.onFab fun x => { x with ph := x.ph.mapIdx fun i ph =>
      if i ∈ l then { ph with angleTo := angleOf N p l.length (l.idxOf i) } else ph }

/-- Phase `i` joins the port set of `p` and starts directly at its angle (R128). -/
def State.joinAngle (s : State) (p : PortId) (i : Nat) : State :=
  ((if s.stk.casc && p == .pc then s.groupAngle (· == i) else s.reAngle p).onPhase i fun y => { y with angle := y.angleTo })

/-- One switching period's move of an angle towards its goal: the shorter way, at most 45°, forward at 180° (R128). -/
def moveAngle (N a goal : Nat) : Nat :=
  let fwd := (goal + N - a) % N
  let m := N / 8
  if fwd ≤ N - fwd then (a + min fwd m) % N else (a + N - min (N - fwd) m) % N

/-! ## Moves of a phase (R104) -/

/-- A FREE phase is placed on port `p`: SWITCHING to it (R104). -/
def State.placeFree (s : State) (i : Nat) (p : PortId) (why : Nat) : State :=
  let s1 := s.onPhase i fun x => { x with st := .switching, port := none, next := some p, dir := s.dirOn p, hand := false, flip := false, why := why, weight := 0, wstep := 0 }
  s1.place i none (some p) why

/-- A hand-off is decided: phase `i` drains from its path towards port `p` (R122). -/
def State.handOff (s : State) (i : Nat) (p : PortId) (why : Nat) : State :=
  let fr := (s.phase i).port
  let s1 := s.onPhase i fun x => { x with st := .draining, next := some p, hand := true, flip := false, why := why, wstep := 0 }
  s1.place i fr (some p) why

/-- Phase `i` drains and ends FREE (R104, R124). -/
def State.drainOff (s : State) (i : Nat) (why : Nat) : State :=
  let fr := (s.phase i).port
  let s1 := s.onPhase i fun x => { x with st := .draining, next := none, hand := false, flip := false, why := why, wstep := 0 }
  s1.place i fr none why

/-- Phase `i` drains to reverse its direction in place (R104, R131). -/
def State.drainFlip (s : State) (i : Nat) (why : Nat) : State :=
  let fr := (s.phase i).port
  let s1 := s.onPhase i fun x => { x with st := .draining, next := fr, hand := false, flip := true, why := why, wstep := 0 }
  s1.place i fr fr why

/-- A phase with everything that belongs to a placement put off: FREE, all selectors open (R103). -/
def freed (x : Phase) : Phase :=
  { x with st := .free, port := none, next := none, opening := none, dir := .sink, flip := false, hand := false, weight := 0, trim := 0,
           trimTicks := 0, oclMet := false, ip := 0, it := 0, iref := 0, wstep := 0, tint := 0, tune := false, dutyA := 0, dutyB := 0
           nextA := 0, nextB := 0, carryA := 0, carryB := 0 }

/-- A phase with its gates off and out of service (R103, R105). -/
def fencedPh (x : Phase) : Phase := { freed x with st := .fenced }

/-- The switch to a port: whether VBUS of PA or PB is closed; PC has none (R102). -/
def State.vbus (s : State) (p : PortId) : Bool :=
  match p with
  | .pa => s.pp.vbusA
  | .pb => s.pp.vbusB
  | .pc => true

/-- Opens or closes a port's VBUS switch. -/
def State.setVbus (s : State) (p : PortId) (v : Bool) : State :=
  match p with
  | .pa => s.onPp fun x => { x with vbusA := v }
  | .pb => s.onPp fun x => { x with vbusB := v }
  | .pc => s

/-- Whether every selector to port `p` is open (R99, R124). -/
def State.portOpen (s : State) (p : PortId) : Bool :=
  phaseNos.all fun i => (s.phase i).port != some p && (s.phase i).opening != some p

/-- Opens the VBUS switch of a port that has no path once its selectors are open (R124). -/
def State.vbusRest (s : State) (p : PortId) : State := s.when (!s.active p && s.portOpen p) fun t => t.setVbus p false

/-- What one phase does when the path of `p` ends (R124, R125). Phase 0 under the limp controller becomes FREE, a change that R104 does not
list (log entry 92). -/
def State.leavePath (s : State) (p : PortId) (why : Nat) (i : Nat) : State :=
  let x := s.phase i
  match x.st with
  | .active => if x.port == some p then s.drainOff i why else s
  | .starting =>
    if x.port == some p then
      (s.onPhase i fun y => { y with st := .draining, next := none, hand := false, flip := false, why := why, wstep := 0 }).place i (some p) none
        (if x.hand then Why.abandoned else why)
    else s
  | .draining =>
    if x.next == some p then
      (s.onPhase i fun y => { y with next := none, hand := false, flip := false }).place i x.port none
        (if x.hand then Why.abandoned else why)
    else s
  | .switching =>
    if x.next == some p then
      (s.onPhase i fun y => { y with next := none, hand := false }).place i none none
        (if x.hand then Why.abandoned else why)
    else s
  | .limp => if x.port == some p then (s.onPhase i freed).place i (some p) none why else s
  | .free | .fenced => s

/-- The demands of the compensator of `p` are off: none was enabled in the last period and none wins, code 0xF, and no bridge mode is held over
to the next path (R140, R141, R153). -/
def State.compIdle (s : State) (p : PortId) : State :=
  s.onCc fun c => { c with comp := c.comp.modify (portIdx p) fun k => { k with
    en := 0, win := 15, wins := List.replicate 9 0, rep := 15, gwins := 0, grantLim := false, repGrant := false, above := 0, ramp := false
    bridge := .buckBoost } }

/-- The path of `p` ends: its grant is released at once and its phases drain together, and the limp controller has no source any more where
it drew from `p` (R66, R112, R124). -/
def State.endPath (s : State) (p : PortId) (why : Nat := Why.portOff) : State :=
  if s.active p then
    let s1 := phaseNos.foldl (fun t i => t.leavePath p why i) s
    let s2 := (s1.onPath p fun x => { x with dir := .off, limp := false, grant := 0, req := 0, used := 0, unmet := false, addTicks := 0, fresh := false }).compIdle p
    (s2.when (s.sys.limpSrc == some p) fun t => t.onSys fun y => { y with limp := false, limpSrc := none, limpLim := 0 }).vbusRest p
  else s


/-- Every gate turns off: phases not FENCED become FREE, each with its PLACE (R104, R125, R135). -/
def State.gatesOff (s : State) : State :=
  phaseNos.foldl (fun t i =>
    let x := t.phase i
    match x.st with
    | .free | .fenced => t
    | _ => (t.onPhase i freed).place i x.port none (if x.hand then Why.abandoned else Why.hold)) s

/-- Every path is without power flow: directions OFF and grants released. -/
def State.pathsOff (s : State) : State :=
  (ports.foldl State.compIdle s).onFab fun x => { x with path := x.path.map fun y => { y with dir := .off, limp := false, grant := 0, req := 0, used := 0, unmet := false, addTicks := 0, fresh := false }, lead := none }

/-- The quad of a phase. -/
def quadOf (i : Nat) : Nat := i / 4

/-- Whether quad `q`'s domain is powered (R9). -/
def State.quadOn (s : State) (q : Nat) : Bool := s.sys.dom.getLsbD (6 + q)

/-! ## Power domains (R9 to R12) -/

/-- The domains a domain requires, and whether it requires MOSC (R9). -/
def domNeeds : Nat → List Nat × Bool
  | 1 => ([0], false) | 2 => ([], true) | 3 => ([2], false) | 4 => ([2], false) | 5 => ([], true)
  | 6 => ([0], false) | 7 => ([0, 5], false) | 8 => ([], true) | 9 => ([], true) | 10 => ([0], false)
  | 11 => ([0], false) | 12 => ([], true) | 13 => ([], true) | _ => ([], false)

/-- Sets or clears a domain's powered bit. -/
def State.setDom (s : State) (d : Nat) (v : Bool) : State := s.onSys fun y => { y with dom := setBit y.dom d v }

/-- Starts the next waiting domain request when none is being served (R11). A request to switch on a domain that is on, or
off one that is off, is served at once and needs no time. -/
def serveDom : Nat → State → State
  | 0, s => s
  | n + 1, s =>
    match s.sys.domBusy, s.sys.domQ with
    | none, r :: rest =>
      let s1 := s.onSys fun y => { y with domQ := rest }
      if s.sys.dom.getLsbD r.dom.val == r.on then serveDom n s1
      else s1.onSys fun y => { y with domBusy := some r, dom := if r.on then y.dom else setBit y.dom r.dom.val false }
    | _, _ => s

/-- A domain request arrives (R11). -/
def State.domRequest (s : State) (r : DomReq) : State :=
  let s1 := s.onSys fun y => { y with domQ := y.domQ ++ [r] }
  serveDom (s1.sys.domQ.length + 1) s1

/-- A domain number. -/
def finDom (d : Nat) : Fin 14 := ⟨d % 14, Nat.mod_lt _ (by decide)⟩

/-- The fence-mask bit of the quad or port block that domain `d` holds (R12, R322). -/
def domFence (d : Nat) : Option Nat := if 6 ≤ d ∧ d ≤ 10 then some (d + 2) else none

/-- Whether domain `d` is kept off by a fence (R12). -/
def State.domFenced (s : State) (d : Nat) : Bool :=
  match domFence d with
  | some b => s.flt.fence.getLsbD b
  | none => false

/-- Whether domain `d` will be powered once the requests for it that wait have been served (R11). -/
def State.domGoal (s : State) (d : Nat) : Bool :=
  match ((s.sys.domBusy.toList ++ s.sys.domQ).filter fun r => r.dom.val == d).getLast? with
  | some r => r.on
  | none => s.sys.dom.getLsbD d

/-- Domain `d` is asked for, unless it is on, asked for already, or kept off by a fence (R9, R12). -/
def State.domOn (s : State) (d : Nat) : State :=
  s.when (!s.domGoal d && !s.domFenced d) fun t => t.domRequest { dom := finDom d, on := true }

/-- Domain `d` is no longer needed (R9). -/
def State.domOff (s : State) (d : Nat) : State := s.when (s.domGoal d) fun t => t.domRequest { dom := finDom d, on := false }

/-- The domains of `m` are brought up by a staged start; one that a request under way or waiting concerns is asked for behind it, and a fenced
one stays off (R9, R11, R12). -/
def State.bringUp (s : State) (m : BitVec 14) : State :=
  (List.range 14).foldl (fun t d =>
    if !m.getLsbD d || t.domFenced d then t
    else if (t.sys.domBusy.toList ++ t.sys.domQ).any fun r => r.dom.val == d then t.domOn d
    else t.setDom d true) s

/-- Whether the VBUS switch control of port `p` is powered and will stay so (R9, R10). -/
def State.portPowered (s : State) (p : PortId) : Bool :=
  match p with
  | .pc => true
  | _ => s.sys.dom.getLsbD (8 + portIdx p) && s.domGoal (8 + portIdx p)

/-- A sink or source path forms on port `p`, with no grant yet; its VBUS switch closes once its domain is powered (R10, R72, R178). -/
def State.formPath (s : State) (p : PortId) (d : PathDir) : State :=
  ((s.onPath p fun x => { x with dir := d, grant := 0, req := 0, used := 0, unmet := false, addTicks := 0, fresh := false }).compIdle p).setVbus
    p (s.portPowered p)

/-- Whether the quad of phase `i` is powered and will stay so, so that its gates may turn on (R10, R106). -/
def State.quadReady (s : State) (i : Nat) : Bool := s.quadOn (quadOf i) && s.domGoal (6 + quadOf i)

/-- A fenced port block is switched off once its phases have ramped to zero and its selectors are open (R12). -/
def State.portRest (s : State) (p : PortId) : State :=
  s.when (s.domFenced (8 + portIdx p) && !s.active p && s.portOpen p) fun t => (t.setVbus p false).domOff (8 + portIdx p)

/-- The voltage of a port node. -/
def nodeV (n : Nodes) : PortId → Nat
  | .pa => n.pa | .pb => n.pb | .pc => n.pc

/-- The duty feedforward of a leg (0 side A, 1 side B) between a port voltage and VSYS, in steps (R137, R153, R167). -/
def State.dutyFor (s : State) (leg v vsys : Nat) : Nat := min s.cc.period (Config.feedForward leg v vsys s.cc.period)

/-- A phase begins on port `p` with the feedforward of its two node voltages, and nothing carried from before (R152, R167). -/
def State.dutyPreset (s : State) (p : PortId) (x : Phase) : Phase :=
  let v := nodeV s.pp.nodes p
  { x with nextA := s.dutyFor 0 v s.pp.nodes.vsys, nextB := s.dutyFor 1 v s.pp.nodes.vsys, carryA := 0, carryB := 0 }

/-- Drain ends: current below 100 mA and gates off (R104, R122, R128). -/
def State.drainDone (s : State) (i : Nat) : State :=
  let x := s.phase i
  if x.st != .draining then s
  else
    let old := x.port
    let s1 :=
      if x.flip then
        match old with
        | some p => s.onPhase i fun y => s.dutyPreset p { y with
            st := .starting, dir := s.dirOn p, flip := false, next := none, weight := 0, wstep := 0, trim := 0, tint := 0 }
        | none => s.onPhase i freed
      else s.onPhase i fun y => { y with
        st := .switching, port := none, opening := old, weight := 0, wstep := 0, trim := 0, tint := 0, dutyA := 0, dutyB := 0, nextA := 0
        nextB := 0, carryA := 0, carryB := 0 }
    match old with
    | some p => s1.reAngle p
    | none => s1

/-- The highest of BAT+ and the port nodes. -/
def State.topNode (s : State) : Nat := max (max s.pp.nodes.bat s.pp.nodes.pa) (max s.pp.nodes.pb s.pp.nodes.pc)

/-- The node voltages are seen; with them, since when the highest has been at 6.0 V or more (R171). Strap lands that have changed are sampled at the end of
the next reset (R57). -/
def State.seeNodes (s : State) (n : Nodes) : State :=
  let s1 := (s.onPp fun x => { x with nodes := { n with straps := none } }).onSys fun y => { y with pins := n.straps.getD y.pins }
  s1.onNvm fun x => { x with energySince := if 6000 ≤ s1.topNode then some (x.energySince.getD s.now) else none }

/-- The new selector is verified closed, or none closes and the phase is FREE (R99, R104, R122); a joining phase begins with the
feedforward of its two node voltages, directly at its angle (R128, R167). -/
def State.selClosed (s : State) (i : Nat) : State :=
  match (s.phase i).next with
  | none => s.onPhase i freed
  | some p =>
    if s.quadReady i then
      let s1 := s.onPhase i fun y => s.dutyPreset p { y with
        st := .starting, port := some p, next := none, opening := none, dir := s.dirOn p, weight := 0, wstep := 0, trim := 0, tint := 0 }
      s1.joinAngle p i
    else s.onPhase i fun y => { y with opening := none }

/-- The selectors have settled: the old one is open, with which VBUS of a port without a path opens and a fenced port block goes off
(R12, R99, R124). -/
def State.settleDone (s : State) (i : Nat) : State :=
  if (s.phase i).st != .switching then s
  else
    match (s.phase i).opening with
    | some p => ((s.selClosed i).vbusRest p).portRest p
    | none => s.selClosed i

/-- The weight of a STARTING phase reaches 1 (R104). -/
def State.startDone (s : State) (i : Nat) : State :=
  if (s.phase i).st == .starting && !(s.phase i).tune then s.onPhase i fun y => { y with st := .active, weight := 16384, hand := false } else s

end Sys2Proof.Machine
end

