-- ==== Sys2Proof/Machine/ChargeOps.lean ====
section
/-! DEFINITION. The charge as other chapters act on it (chapter 07): the profile in force, suspension, resumption, the
end of a charge and a charge start. -/
namespace Sys2Proof.Machine

/-! ## Chemistry (R206, R223) -/

/-- VCHG range per cell in mV: lowest, highest; all three ranges while CHEM is not set (R206). -/
def vchgRange : Nat → Nat × Nat
  | 1 => (4000, 4350) | 2 => (3400, 3650) | 3 => (2500, 2850) | _ => (2500, 4350)

/-- VCHG default per cell in mV (R206). -/
def vchgDefault : Nat → Nat
  | 1 => 4200 | 2 => 3600 | 3 => 2800 | _ => 0

/-- Precharge threshold per cell in mV (R206). -/
def vPre : Nat → Nat
  | 1 => 3000 | 2 => 2500 | 3 => 1800 | _ => 0

/-- Reverse cut-off default (R197). -/
def rcutDefault : Nat → Byte
  | 2 => 0x8C | 3 => 0x32 | _ => 0xB4

/-- The zone table's defaults (R223). -/
def zoneDefault : Nat → ZoneTab
  | 2 => { t1 := 0, t2 := 20, t3 := 90, t4 := 110, coolI := 50, coolDv := 0, warmI := 100, warmDv := 10, bval := 3435 }
  | 3 => { t1 := -40, t2 := -20, t3 := 90, t4 := 110, coolI := 50, coolDv := 0, warmI := 100, warmDv := 10, bval := 3435 }
  | _ => { t1 := 0, t2 := 20, t3 := 90, t4 := 110, coolI := 50, coolDv := 0, warmI := 100, warmDv := 20, bval := 3435 }

/-- Whether CHEM and CELLS are set (R206). -/
def State.profSet (s : State) : Bool := s.grd.chem != 0 && s.grd.cells != 0

/-! ## The profile in force (R207, R227, R228): the safe set, and its end, take effect at the tick after SAFE has changed. -/

/-- Rated capacity in 10 mAh (R207). -/
def State.cap (s : State) : Nat := s.reg16 0x0169

/-- A C-rate in 0.01 C as a current in 10 mA, rounded down (R207). -/
def State.cRate (s : State) (c : Nat) : Nat := s.cap * c / 100

/-- The factory safe set (R227). -/
def State.factorySafe (s : State) : SafeSet :=
  { ichg := s.cRate 30, vchg := vchgDefault s.grd.chem - 50, ipre := 20, cons := 30, tfc := 10, iterm := 10, itop := 20,
    rechg := 10, maint := true }

/-- The safe set that applies: the stored one, else the factory's (R227). -/
def State.safeSetNow (s : State) : SafeSet := s.chg.safeSet.getD s.factorySafe

/-- ICHG in force, 10 mA. -/
def State.eIchg (s : State) : Nat :=
  if s.chg.safeUse then min s.safeSetNow.ichg (s.reg16 0x0161) else s.reg16 0x0161

/-- VCHG in force, mV. -/
def State.eVchg (s : State) : Nat :=
  if s.chg.safeUse then min s.safeSetNow.vchg (s.reg16 0x0163) else s.reg16 0x0163

/-- IPRE in force, 10 mA. -/
def State.eIpre (s : State) : Nat := if s.chg.safeUse then min s.safeSetNow.ipre (s.regN 0x0165) else s.regN 0x0165

/-- CONS in force, 0.01 C. -/
def State.eCons (s : State) : Nat := if s.chg.safeUse then min s.safeSetNow.cons (s.regN 0x0168) else s.regN 0x0168

/-- TFC in force, hours. -/
def State.eTfc (s : State) : Nat := if s.chg.safeUse then min s.safeSetNow.tfc (s.regF 0x016C 4 0) else s.regF 0x016C 4 0

/-- ITERM in force, mA. -/
def State.eIterm (s : State) : Nat := 10 * (if s.chg.safeUse then s.safeSetNow.iterm else s.regN 0x0166)

/-- ITOP in force, mA: twice ITERM when the register's value is not above it (R207). -/
def State.eItop (s : State) : Nat :=
  let t := 20 * (if s.chg.safeUse then s.safeSetNow.itop else s.regN 0x0167)
  if t > s.eIterm then t else 2 * s.eIterm

/-- RECHG in force, mV. -/
def State.eRechg (s : State) : Nat := 10 * (if s.chg.safeUse then s.safeSetNow.rechg else s.regN 0x016B)

/-- MAINT in force. -/
def State.eMaint (s : State) : Bool := if s.chg.safeUse then s.safeSetNow.maint else s.regBit 0x0160 1

/-- The charge block in force, each register bounded to its nearer limits (R206, R207). -/
def State.applyChg (s : State) : State :=
  let v := vchgRange s.grd.chem
  let s1 := ((s.clampPair 0x0161 10 2000).clampPair 0x0163 v.1 v.2).clampReg 0x0165 10 100
  let s2 := ((s1.clampReg 0x0166 5 200).clampReg 0x0167 5 255).clampReg 0x0168 5 100
  ((s2.clampPair 0x0169 10 0xFFFF).clampReg 0x016B 5 40).clampReg 0x016C 1 20

/-- At the tick after SAFE has cleared, the charge block's applied shadows come into force (R228). -/
def State.applyHeld (s : State) : State :=
  if s.chg.safe || s.chg.heldRegs = [] then s
  else (((s.takeShadows 2 s.chg.heldRegs.contains).applyChg).onChg fun c => { c with heldRegs := [] }).updShow

/-- I_zone in mA (R222). -/
def State.iZone (s : State) : Nat :=
  let i := 10 * s.eIchg
  match s.chg.zone with
  | .warm => quo (s.chg.zones.warmI * i) 100
  | .cool => quo (s.chg.zones.coolI * i) 100
  | .normal => i
  | .hot | .cold => 0

/-- V_lim per cell in mV: the lesser of VCHG and the zone's voltage limit (R210, R222). -/
def State.vLim (s : State) : Nat :=
  match s.chg.zone with
  | .warm => s.eVchg - 5 * s.chg.zones.warmDv
  | .cool => s.eVchg - 5 * s.chg.zones.coolDv
  | _ => s.eVchg

/-- The recharge threshold N × (V_lim − RECHG delta) in mV (R211). -/
def State.rechargeAt (s : State) : Nat := s.grd.cells * (s.vLim - s.eRechg)

/-- The voltages of the configured cells, 0.1 mV. -/
def State.cellsV (s : State) : List Nat := s.ms.cell.take s.grd.cells

/-- The lowest of a list, 0 when it is empty. -/
def minL : List Nat → Nat
  | [] => 0
  | [a] => a
  | a :: r => min a (minL r)

/-- The highest of a list, 0 when it is empty. -/
def maxL (l : List Nat) : Nat := l.foldl max 0

/-! ## Averages of the sample sets (R211, R214, R225, R236, R248) -/

/-- The last `n` sample sets, 16 to a millisecond; until one has been taken, the last reported averages stand for one (log entry 47). -/
def State.lastSets (s : State) (n : Nat) : List SampleSet :=
  match s.ms.hist.take n with
  | [] => [{ ibatUa := 1000 * s.ms.ibat, vpack := 1000 * s.ms.vbat }]
  | l => l

/-- The sum of the battery current in µA and the number of sets over the last `n` sets: their quotient is the average. -/
def State.curSum (s : State) (n : Nat) : Int × Int :=
  let l := s.lastSets n
  (l.foldl (fun a x => a + x.ibatUa) 0, l.length)

/-- The same of VBAT, in µV. -/
def State.volSum (s : State) (n : Nat) : Nat × Nat :=
  let l := s.lastSets n
  (l.foldl (fun a x => a + x.vpack) 0, l.length)

/-- Whether the battery current averaged over 10 s is at most `lim` mA. -/
def State.i10sLe (s : State) (lim : Int) : Bool := decide ((s.curSum 160000).1 ≤ 1000 * lim * (s.curSum 160000).2)

/-- Whether VBAT averaged over 1 s has reached the recharge threshold (R211, R214). -/
def State.v1sFull (s : State) : Bool := decide (1000 * s.rechargeAt * (s.volSum 16000).2 ≤ (s.volSum 16000).1)

/-- Whether VBAT averaged over 10 s is down to the recharge threshold (R211, R214). -/
def State.v10sLow (s : State) : Bool := decide ((s.volSum 160000).1 ≤ 1000 * s.rechargeAt * (s.volSum 160000).2)

/-! ## Chemistry data and state of charge (R252, R256) -/

/-- The default tables of R256: 0 anode and 1 open-circuit voltage in 0.1 mV at SOC 0 to 100 %, 2 priors. -/
def chemDefault (chem table : Nat) : List Nat :=
  match table, chem with
  | 0, 3 => [16000, 15700, 15600, 15550, 15520, 15500, 15480, 15450, 15400, 15300, 15000]
  | 0, _ => [2500, 1200, 1050, 1000, 950, 920, 880, 860, 840, 820, 800]
  | 1, 2 => [28000, 32000, 32500, 32800, 33000, 33100, 33200, 33300, 33400, 33600, 34500]
  | 1, 3 => [18000, 21500, 22200, 22500, 22700, 22900, 23100, 23400, 23800, 24500, 26500]
  | 1, _ => [30000, 33000, 35000, 35900, 36500, 37100, 37900, 38800, 39700, 40700, 41900]
  | _, 2 => [800, 500, 100]
  | _, 3 => [400, 100, 50]
  | _, _ => [600, 200, 75]

/-- The written tables after `c` has been written. -/
def chemPut (l : List ChemTab) (c : ChemTab) : List ChemTab := (l.filter fun x => !(x.chem == c.chem && x.table == c.table)) ++ [c]

/-- The written tables with those that still wait for the tick (R411). -/
def State.chemAll (s : State) : List ChemTab := s.sw.chemNext.foldl chemPut s.sw.chem

/-- A chemistry table: as written, else its default (R256). -/
def State.chemTab (s : State) (chem table : Nat) : List Nat :=
  match s.sw.chem.find? fun c => c.chem == chem && c.table == table with
  | some c => c.vals
  | none => chemDefault chem table

/-- A table of 11 points read at a SOC in 0.01 %, × 1000 (R256). -/
def interp (t : List Nat) (soc : Nat) : Nat :=
  let i := min 9 (soc / 1000)
  let f := soc - 1000 * i
  t.getD i 0 * (1000 - f) + t.getD (i + 1) 0 * f

/-- The SOC in 0.01 % at which a rising table reads `v`; none outside the table. -/
def socOfV : List Nat → Nat → Nat → Option Nat
  | a :: b :: r, v, k =>
    if v < a then none
    else if v ≤ b ∧ a < b then some (1000 * k + 1000 * (v - a) / (b - a))
    else socOfV (b :: r) v (k + 1)
  | _, _, _ => none

/-- SOC of every cell from its voltage; a voltage outside the table has no stated SOC, and takes a free value (log entry 7). -/
def State.socSeed (s : State) : State :=
  let t := s.chemTab s.grd.chem 1
  let l : List Int := s.ms.cell.mapIdx fun i v => (((socOfV t v 0).getD (s.freeN i % 10001) : Nat) : Int)
  (s.onMs fun m => { m with soc0 := l, soc := l, socCc := m.cc }).useFree 10

/-! ## The reverse cut-off (R197, R198) -/

/-- V_rcut per cell in mV (R197). -/
def State.vRcut (s : State) : Nat := 1500 + 10 * s.regN 0x0157

/-- The battery condition of R198. -/
def State.revOkNow (s : State) : Bool :=
  s.grd.cells != 0 && s.pp.batPres && s.ms.vbat ≥ s.grd.cells * (s.vRcut + 100)

/-- The coulomb count held to the limits of 64 bits (R235). -/
def ccLimit (q : Int) : Int := clampI (-(2 ^ 63 : Int)) (2 ^ 63 - 1) q

/-! ## Phases and reasons (R208, R219) -/

/-- CHG_STAT.PHASE (R208). -/
def chgCode : ChgPhase → Nat
  | .off => 0 | .precharge => 1 | .shaped => 2 | .cv => 3 | .topoff => 4 | .done => 5 | .maintain => 6 | .suspended => 7

/-- The phases in which charge current may flow (R209). -/
def ChgPhase.charging : ChgPhase → Bool
  | .precharge | .shaped | .cv | .topoff => true
  | _ => false

/-! Suspension reasons (R219). -/
namespace Rsn
def tempCold : Nat := 0x01
def tempHot : Nat := 0x02
def ntcFault : Nat := 0x03
def fault : Nat := 0x04
def noSource : Nat := 0x10
def noBattery : Nat := 0x11
def profile : Nat := 0x12
def host : Nat := 0x13
def timerPrecharge : Nat := 0x14
def timerExpired : Nat := 0x15
def timerUnderLimit : Nat := 0x16
def cellOv : Nat := 0x17
end Rsn

/-- The bit of a reason in RMASK: bits 0 to 3 for 0x01 to 0x04, bits 8 to 15 for 0x10 to 0x17 (R409). -/
def rsnBit (r : Nat) : Nat := if r < 0x10 then r - 1 else r - 8

/-- The reason of a bit of RMASK. -/
def rsnOfBit (b : Nat) : Nat := if b < 8 then b + 1 else b + 8

/-- The lowest reason code in a mask, 0 for none. -/
def lowestRsn (m : BitVec 16) : Nat :=
  match (bitsOf 16 m).head? with
  | some b => rsnOfBit b
  | none => 0

/-- Whether a mask holds only reasons of the resume kind (R218). -/
def onlyResume (m : BitVec 16) : Bool := m.toNat / 256 == 0

/-- Charge delivered since the charge start in mAh, from the coulomb count (R213). -/
def State.qChg (s : State) : Nat := min 0xFFFF (quoQ (s.ms.cc - s.chg.ccStart) 3600000).toNat

/-- Takes the battery switch out of conduction for the charge: DIODE where it was FULL or LINEAR (R188). -/
def State.switchIdle (s : State) : State :=
  s.onPp fun x => { x with
    batSw := if (x.batSw == .full || x.batSw == .linear) && x.soft == .no then .diode else x.batSw
    linBefore := false }

/-- A suspension reason arises (R218, R219): the charge enters SUSPENDED and its phase is held. -/
def State.suspend (s : State) (r : Nat) : State :=
  if s.chg.phase == .off || s.chg.reasons.getLsbD (rsnBit r) then s
  else
    let entering := s.chg.phase != .suspended
    let m := setBit s.chg.reasons (rsnBit r) true
    let held := if entering then s.chg.phase else s.chg.heldPh
    let shown :=
      if r ≥ 0x10 then BitVec.ofNat 8 r
      else if s.chg.shown.toNat ≥ 0x10 then s.chg.shown
      else BitVec.ofNat 8 (lowestRsn m)
    let s1 := s.onChg fun c => { c with phase := .suspended, heldPh := held, reasons := m, shown := shown,
                                        suspGts := if entering || r ≥ 0x10 then s.now else c.suspGts, iTgt := 0, tgtSrc := 0 }
    (s1.switchIdle).raise Src.teasel Ev.chgSuspend [BitVec.ofNat 8 r, BitVec.ofNat 8 (chgCode held)]

/-- A restart-kind reason arises by an event of its own: it is shown though it arose before and another was shown since (R219). -/
def State.suspendAnew (s : State) (r : Nat) : State :=
  (s.when (s.chg.shown.toNat != r) fun t => t.onChg fun c => { c with reasons := setBit c.reasons (rsnBit r) false }).suspend r

/-- A reason of the resume kind clears; when none is left, the held phase resumes (R211, R218). -/
def State.clearReason (s : State) (r : Nat) : State :=
  if s.chg.phase != .suspended || !s.chg.reasons.getLsbD (rsnBit r) then s
  else
    let m := setBit s.chg.reasons (rsnBit r) false
    if m = 0 then
      let held := s.chg.heldPh
      (s.onChg fun c => { c with phase := held, reasons := 0, shown := 0, vbatTicks := 0, preTicks := 0 }).raise
        Src.teasel Ev.chgResume [BitVec.ofNat 8 r, BitVec.ofNat 8 (chgCode held)]
    else s.onChg fun c => { c with reasons := m, shown := if c.shown.toNat ≥ 0x10 then c.shown else BitVec.ofNat 8 (lowestRsn m) }

/-- DONE, with CHG_DONE: `reason` 0 for TAPER, 1 for TOPOFF_TIMER (R213, log entry 8). -/
def State.chgDone (s : State) (reason : Nat) : State :=
  ((s.onChg fun c => { c with phase := .done, iTgt := 0, tgtSrc := 0 }).switchIdle).raise
    Src.teasel Ev.chgDone (nameByte Ev.chgDone reason :: le 2 s.qChg)

/-- OFF: CHGEN = 0 applied, timers cleared (R211). -/
def State.chgOff (s : State) : State :=
  (s.onChg fun c => { c with phase := .off, heldPh := .off, reasons := 0, shown := 0, tPre := 0, tFast := 0, tTop := 0,
                             iTgt := 0, tgtSrc := 0, vbatTicks := 0, preTicks := 0, stopReq := false }).switchIdle

/-- The first unmet condition of R215, as its reason. HOLD does not block a start: its port is placed again when HOLD ends (R215, R327). -/
def State.startBlock (s : State) : Option Nat :=
  if !s.profSet then some Rsn.profile
  else if !s.pp.batPres then some Rsn.noBattery
  else if !s.sinkThere then some Rsn.noSource
  else if s.flt.fence.getLsbD 16 then some Rsn.cellOv
  else none

/-- The resume-kind reasons whose cause holds now (R219). -/
def State.resumeReasons (s : State) : List Nat :=
  (if !s.chg.zoneUnknown && s.chg.zone == .cold then [Rsn.tempCold] else [])
  ++ (if !s.chg.zoneUnknown && s.chg.zone == .hot then [Rsn.tempHot] else [])
  ++ (if s.chg.zoneUnknown || s.regF 0x016D 5 0 == 0 then [Rsn.ntcFault] else [])
  ++ (if s.flt.hold || s.flt.bsOpen || s.flt.fence.getLsbD 15 then [Rsn.fault] else [])

/-- A charge start (R214, R215): a new charge, suspended at once by the reasons of the resume kind that hold; or, where a condition is not met,
SUSPENDED with the first of them and nothing else changed. `skipDone` leaves out the DONE test, which only an automatic start makes. A start that finds the DONE test met raises CHG_DONE with TAPER (DESIGN CHOICE, log entry 104). -/
def State.chargeStart (s : State) (skipDone : Bool) : State :=
  let t := s.onChg fun c => { c with sinkPrev := s.sinkThere, batPrev := s.pp.batPres, tier1Due := false }
  match s.startBlock with
  | some r => (t.onChg fun c => { c with phase := if c.phase == .off then .shaped else c.phase, reasons := setBit c.reasons (rsnBit r) false }).suspend r
  | none =>
    let t0 := t.onChg fun c => { c with
      tPre := 0, tFast := 0, tTop := 0, ccStart := s.ms.cc, reasons := 0, shown := 0, vbatTicks := 0, preTicks := 0, stopReq := false }
    let s0 := t0.when (!t0.ms.rested) State.socSeed
    let s1 :=
      if !skipDone && s.v1sFull then s0.chgDone 0
      else
        let ph : ChgPhase := if minL s.cellsV < 10 * vPre s.grd.chem then .precharge else .shaped
        (s0.onChg fun c => { c with phase := ph }).onSw fun w => { w with startDue := true, fullDue := false, quickDue := false, retry := [] }
    s.resumeReasons.foldl (fun t r => t.suspend r) s1

/-- Whether an automatic trigger of R214 may start a charge now (R215, R218). -/
def State.autoStartOk (s : State) : Bool :=
  s.regBit 0x0160 0 && !(s.chg.phase == .suspended && onlyResume s.chg.reasons)

/-- An automatic trigger of R214. -/
def State.autoStart (s : State) (skipDone : Bool) : State :=
  s.when s.autoStartOk fun t => t.chargeStart skipDone

end Sys2Proof.Machine
end

