-- ==== Sys2Proof/Machine/Flags.lean ====
section
/-! DEFINITION. The status bytes the module reports: every read-only register of the swift window and of the control
region, computed from the state that stands behind it. -/
namespace Sys2Proof.Machine

/-- The Type-C port `t`. -/
def State.tc (s : State) : TcId → TcPort
  | .a => s.tca | .b => s.tcb

/-- Rewrites the Type-C port `t`. -/
def State.onTc (s : State) (t : TcId) (f : TcPort → TcPort) : State :=
  match t with
  | .a => s.onTca f
  | .b => s.onTcb f

/-! ## Mode and path -/

/-- MODE.MODE (R76). -/
def modeCode : Mode → Nat
  | .unpowered | .ship => 0 | .dormant => 1 | .waking => 2 | .run => 3 | .degraded => 4 | .hold => 5

/-- Whether the module is in RUN or DEGRADED. -/
def State.runs (s : State) : Bool := s.sys.mode == .run || s.sys.mode == .degraded

/-- MODE, 0x0002 (R76). -/
def State.modeByte (s : State) : Byte :=
  BitVec.ofNat 8 (modeCode s.sys.mode + 8 * s.sys.tier + 32 * b2n s.sys.romImg + 64 * b2n s.sys.cfgDef + 128 * b2n s.sys.fwRun)

/-- The direction code of PATH (R200). -/
def dirCode : PathDir → Nat
  | .off => 0 | .sink => 1 | .source => 2

/-- PATH.BAT (R200). -/
def batCode : BatState → Nat
  | .open => 0 | .charging => 1 | .floating => 2 | .supplementing => 3 | .discharging => 4

/-- PATH, 0x0003 (R200). -/
def State.pathByte (s : State) : Byte :=
  BitVec.ofNat 8 (dirCode (s.path .pa).dir + 4 * dirCode (s.path .pb).dir + 16 * b2n (s.sinking .pc) + 32 * batCode s.pp.bat)

/-- PATH_INFO, 0x0158 (R203). -/
def State.pathInfo (s : State) : Byte :=
  BitVec.ofNat 8 (portCode s.fab.lead + 4 * b2n s.pp.learnA.isSome + 8 * b2n s.pp.learnB.isSome + 16 * b2n s.pp.dwell
    + 32 * b2n s.pp.batPres + 64 * b2n s.revOkNow + 128 * b2n s.pp.noBatPfw)

/-- CC_STAT, 0x0145 (R172). -/
def State.ccStat (s : State) : Byte :=
  byteOf [s.cc.synced, s.cc.syncBad, s.cc.fswPend, s.cc.vTuned, s.cc.pTuned, s.cc.oclRecent]

/-! ## Charging -/

/-- CHG_STAT.ZONE (R208). -/
def zoneCode : Zone → Nat
  | .cold => 0 | .cool => 1 | .normal => 2 | .warm => 3 | .hot => 4

/-- CHG_STAT.ZONE as shown: 7 while unknown (R208, R222). -/
def State.zoneShown (s : State) : Nat := if s.chg.zoneUnknown then 7 else zoneCode s.chg.zone

/-- CHG_STAT, 0x016E, as a tick updates it (R208). -/
def State.chgStat (s : State) : Byte :=
  BitVec.ofNat 8 (chgCode s.chg.phase + 8 * s.zoneShown + 64 * b2n s.chg.half + 128 * b2n s.chg.safe)

/-- CHG_LIM, 0x0170, as a tick updates it (R208). -/
def State.chgLim (s : State) : Byte := BitVec.ofNat 8 (s.chg.limiter + 16 * s.chg.tgtSrc)

/-! ## Measurement -/

/-- SWP_STAT.RUN (R259). -/
def sweepCode : SweepKind → Nat
  | .none => 0 | .quick => 1 | .full => 2 | .custom => 3

/-- A grade's code (R261). -/
def gradeCode : Grade → Nat
  | .high => 0 | .medium => 1 | .low => 2 | .expired => 3 | .fail => 4

/-- SWP_STAT, 0x0188 (R259). -/
def State.swpStat (s : State) : Byte :=
  BitVec.ofNat 8 (sweepCode s.sw.run + 4 * b2n s.sw.seeded + 8 * b2n s.sw.lastOk + 16 * s.sw.lastRsn)

/-- The balancing mask of BAL_STAT (R259). -/
def State.balMask (s : State) : Nat := s.ms.balNow.foldl (fun m k => m ||| 2 ^ k) 0

/-- WEAK, 0x018D (R259). -/
def State.weakByte (s : State) : Byte :=
  let g := match s.sw.weak with
    | 0 => 0
    | k + 1 => match s.sw.model[k]? with
      | some m => gradeCode m.grade % 4
      | none => 0
  BitVec.ofNat 8 (s.sw.weak + 16 * g + 64 * b2n s.sw.mismatch)

/-! ## Type-C -/

/-- Px_STAT.TCSTATE (R265). -/
def tcCode : TcState → Nat
  | .unattached => 0 | .attachedSnk => 1 | .attachedSrc => 2 | .attachWait => 3 | .try => 4 | .errorRecovery => 5

/-- Px_STAT, +6 (R265). -/
def State.tcStat (s : State) (t : TcId) : Byte :=
  let x := s.tc t
  BitVec.ofNat 8 (tcCode x.tcs + 8 * b2n x.contract.isSome + 16 * b2n x.epr + 32 * b2n x.frsArm + 64 * b2n x.authOk + 128 * b2n x.vconn)

/-- Px_CONTRACT, +7 (R265). -/
def State.tcContract (s : State) (t : TcId) : Byte :=
  let x := s.tc t
  match x.contract with
  | some o => BitVec.ofNat 8 (o.pos + 16 * o.kind + 128 * b2n x.dfp)
  | none => BitVec.ofNat 8 (128 * b2n x.dfp)

/-- The local part of a record's source number (R27). -/
def localSrc (source : BitVec 16) : Nat := source.toNat % 256

/-! ## Sequencer (R296) -/

/-- SEQ_STAT.STATE (R296). -/
def seqCode : SeqState → Nat
  | .off => 0 | .up => 1 | .on => 2 | .warning => 3 | .down => 4 | .held => 5

/-- SEQ_STAT, 0x01E6. -/
def State.seqStat (s : State) : Byte :=
  BitVec.ofNat 8 (seqCode s.seq.st + 8 * s.seq.slot + 64 * b2n s.seq.tblPend + 128 * b2n s.seq.seqBad)

/-- SEQ_INFO, 0x01EB. -/
def State.seqInfo (s : State) : Byte := byteOf [s.seq.pfw, s.seq.nrstSeq || s.seq.nrstPulse, s.seq.foff]

/-! ## Stack (R420, R451) -/

/-- Whether the module is strapped as a stack member, "in a stack" (R420, R421). -/
def State.inStack (s : State) : Bool := s.stkStraps.role != 0

/-- Whether the module is the manager by its straps and is not working as a worker (R420, R449). -/
def State.isManager (s : State) : Bool := s.inStack && ((s.stkId == 0 && !s.stk.worker0) || s.stk.acting)

/-- Whether the module is a worker. -/
def State.isWorker (s : State) : Bool := s.inStack && !s.isManager

/-- Whether the module is a backup manager (R420). -/
def State.isBackup (s : State) : Bool := s.stkStraps.role == 2 && s.stkId != 0

/-- Whether the module is strapped to a cascade group (R420). -/
def State.inGroup (s : State) : Bool := s.stkStraps.role == 3

/-- STK_STAT.ROLE (R451). -/
def State.stkRole (s : State) : Nat :=
  if !s.stk.joined then 0 else if s.isManager then 1 else if s.isBackup then 3 else 2

/-- STK_STAT, 0x0240. -/
def State.stkStat (s : State) : Byte :=
  BitVec.ofNat 8 (s.stkRole + 4 * b2n s.stk.joined + 8 * b2n s.stk.aligned + 16 * b2n s.stk.casc + 32 * b2n s.stk.lmaster
    + 64 * b2n s.stk.acting + 128 * b2n s.stk.decay)

/-- STK_ID, 0x0241. -/
def State.stkIdByte (s : State) : Byte :=
  BitVec.ofNat 8 (s.stkId + 32 * s.stkStraps.role.toNat + 128 * b2n (s.grd.fuse.getLsbD 3))

/-! ## Faults -/

/-- Whether at least one fence holds: of a unit, of the stack bus, or on a manager of a worker (R322, R445, R446). -/
def State.anyFence (s : State) : Bool := s.flt.fence != 0 || s.flt.stkf != 0 || (s.isManager && s.stk.fencedM != 0)

/-- FLT_SUM, 0x0008 (R339); SAT says so of a record's COUNT too, while the record is held. -/
def State.fltSum (s : State) : Byte :=
  byteOf [s.flt.hold, s.anyFence, s.flt.compound, s.flt.fsafe, s.flt.autook,
          !s.flt.lfSlot.isEmpty, s.flt.fec.isSome, s.flt.satf != 0 || s.flt.recs.any fun r => r.count == 0xFFFF]

/-- Whether the module drives STK_UPD low (R391, R450). -/
def State.stkUpdLow (s : State) : Bool := decide (s.now < s.bus.stkUpdTo)

/-- FLT_CLASS, 0x0009 (R339). -/
def State.fltClass (s : State) : Byte := BitVec.ofNat 8 (s.flt.cur + 8 * s.flt.last)

/-- FINJ, 0x004C (R342): ARM reads 1 until the last injected check has been made. -/
def State.finjByte (s : State) : Byte :=
  BitVec.ofNat 8 (s.grd.injTarget + 16 * s.grd.injCount + 128 * b2n (s.grd.injArm && s.grd.injRemain != 0))

/-- FINJ_STAT, 0x0205 (R342). -/
def State.finjStat (s : State) : Byte :=
  BitVec.ofNat 8 (s.grd.injLast + 16 * s.grd.injRemain + 128 * b2n s.grd.injRef)

/-! ## Watchdogs (R362) -/

/-- WDG_STAT, 0x0220. -/
def State.wdgStat (s : State) : Byte :=
  byteOf [s.wd.run == .normal, s.wd.run == .boot, s.wd.dupSat, s.wd.rstSat]

/-- HCW_STAT, 0x0229. -/
def State.hcwStat (s : State) : Byte := byteOf [s.wd.hRun, s.wd.hExp, s.wd.hLastSp, s.wd.hBad]

/-- WDG_CFG, 0x0050: EN reads 1 under hardware start. -/
def State.wdgCfgByte (s : State) : Byte :=
  byteOf [s.grd.wdgEn || s.grd.fuseLive.getLsbD 0, s.grd.fuse.getLsbD 0]

/-! ## Guarded registers (R497) -/

/-- CHEM_CFG, 0x0044 (R204). -/
def State.chemCfgByte (s : State) : Byte := BitVec.ofNat 8 (s.grd.chem + 4 * s.grd.cells + 64 * b2n s.grd.chref)

/-- FPLACE_CTL, 0x004A (R132). -/
def State.fplaceCtl (s : State) : Byte := byteOf [s.grd.fpen, s.grd.fpref]

/-- FUSE, 0x0054 (R471). -/
def State.fuseByte (s : State) : Byte := BitVec.ofNat 8 (s.grd.fuse.toNat + 32 * b2n s.grd.fref + 64 * b2n s.grd.fbusy)

/-- SHIP_ENT, 0x0040: seconds remaining, rounded up (R498). -/
def State.shipByte (s : State) : Byte :=
  let left := match s.sys.shipAt with
    | some t => (t - s.now + 999999) / 1000000
    | none => 0
  BitVec.ofNat 8 (min 63 left + 128 * b2n s.sys.shipRef)

end Sys2Proof.Machine
end

