-- ==== Sys2Proof/Machine/Operands.lean ====
section
/-! DEFINITION. The operand forms: check codes, mailbox frames and their fields, and the records the module stores or
returns byte by byte. -/
namespace Sys2Proof.Machine

/-! ## Check codes (R170, R395) -/

/-- Applies `f` to `x` `n` times. -/
def iter {α : Type} : Nat → (α → α) → α → α
  | 0, _, x => x
  | n + 1, f, x => iter n f (f x)

/-- One bit of CRC-16/CCITT: polynomial 0x1021, most significant bit first (R395). -/
def crc16Bit (r : Nat) : Nat := if r < 0x8000 then 2 * r else (2 * r - 0x10000) ^^^ 0x1021

/-- CRC-16/CCITT with initial value 0xFFFF and no final XOR (R395). -/
def crc16 (l : List Byte) : Nat := l.foldl (fun r b => iter 8 crc16Bit (r ^^^ (256 * b.toNat))) 0xFFFF

/-- One bit of the reflected CRC-32 with polynomial 0x04C11DB7 (R170). -/
def crc32Bit (r : Nat) : Nat := if r % 2 = 0 then r / 2 else (r / 2) ^^^ 0xEDB88320

/-- CRC-32: initial value and final XOR 0xFFFFFFFF (R170). -/
def crc32 (l : List Byte) : Nat := (l.foldl (fun r b => iter 8 crc32Bit (r ^^^ b.toNat)) 0xFFFFFFFF) ^^^ 0xFFFFFFFF

/-- SHA-256 of a byte string, 32 bytes (log entry 9). -/
def digest (l : List Byte) : List Byte := (Config.sha256 l ++ List.replicate 32 0).take 32

/-- The device key's signature over a digest, r then s, 64 bytes (R473, R476); the first argument is the fresh value it uses. -/
def deviceSig (k : Nat) (d : List Byte) : List Byte := (Config.deviceSign k d ++ List.replicate 64 0).take 64

/-- A certificate of the module's chain, at most 1024 bytes (R474): 0 device, 1 product CA, 2 root. -/
def certOf (k : Nat) : List Byte := (Config.cert k).take 1024

/-- The complement of a 16-bit value, as GUARD holds it (R395). -/
def inv16 (v : Nat) : Nat := 0xFFFF - v

/-- Fills a byte list to `n` bytes with zeros. -/
def padTo (n : Nat) (l : List Byte) : List Byte := l ++ List.replicate (n - l.length) 0

/-- An unsigned 16-bit field, or 0xFFFF where there is no value. -/
def u16o : Option Nat → List Byte
  | some v => le 2 (min v 0xFFFF)
  | none => [0xFF, 0xFF]

/-- A signed 16-bit field that saturates at ±32767. -/
def s16 (v : Int) : List Byte := leI 2 (clampI (-32767) 32767 v)

/-! ## Mailbox frames (R393, R394) -/

/-- Byte `o` of inbound mailbox `n`. -/
def State.inByte (s : State) (n o : Nat) : Byte := memGet zeroByte s.mb.inb (256 * n + o)

/-- `k` bytes of inbound mailbox `n` from offset `o`. -/
def State.inBytes (s : State) (n o k : Nat) : List Byte := memGets zeroByte s.mb.inb (256 * n + o) k

/-- LEN of the frame in inbound mailbox `n` (R393). -/
def State.frameLen (s : State) (n : Nat) : Nat := ofLe (s.inBytes n 4 2)

/-- OPCODE of the frame in inbound mailbox `n`. -/
def State.frameOp (s : State) (n : Nat) : Nat := ofLe (s.inBytes n 2 2)

/-- Payload field of `k` bytes at payload offset `o`, unsigned. -/
def State.fld (s : State) (n o k : Nat) : Nat := ofLe (s.inBytes n (8 + o) k)

/-- Payload field of `k` bytes at payload offset `o`, signed. -/
def State.fldI (s : State) (n o k : Nat) : Int := ofLeI (s.inBytes n (8 + o) k)

/-- A response frame (R394). -/
def respFrame (tag status : Byte) (op : BitVec 16) (st : Stamp) (data : List Byte) : List Byte :=
  let head := tag :: status :: (le 2 op.toNat ++ le 2 (8 + data.length))
  let body := stampBytes st ++ data
  head ++ le 2 (crc16 (head ++ body)) ++ body

/-! ## Records -/

/-- An event record of 24 bytes (R408). -/
def eventBytes (e : EventRec) : List Byte :=
  stampBytes e.stamp ++ le 2 e.source.toNat ++ le 2 e.code.toNat ++ [BitVec.ofNat 8 e.cls, BitVec.ofNat 8 e.detail.length]
    ++ padTo 8 e.detail ++ [0, 0]

/-- The CLASS byte of a fault record (R338). -/
def classByte (r : FaultRec) : Byte :=
  BitVec.ofNat 8 (r.cls + 8 * b2n r.lasting + 16 * b2n r.transient + 32 * b2n r.hwFirst + 64 * b2n r.injected + 128 * b2n r.compound)

/-- The STATE byte of a fault record (R338). -/
def stateByte (r : FaultRec) : Byte := byteOf [r.sFenced, r.sHold, r.sReset, r.sCleared]

/-- A fault record of 32 bytes (R338). -/
def faultBytes (r : FaultRec) : List Byte :=
  let b := le 4 r.recno ++ stampBytes r.stamp ++ le 2 r.source.toNat ++ le 2 r.cause.toNat ++ [classByte r, stateByte r]
    ++ le 2 r.count ++ le 4 r.mask.toNat ++ le 4 r.detail.toNat ++ le 2 r.lastDt
  b ++ le 2 (crc16 b)

/-- The first-error capture of 20 bytes (R341). -/
def fecBytes (f : FecRec) : List Byte :=
  le 4 f.addr.toNat ++ stampBytes f.stamp ++ [f.init, f.access] ++ le 2 f.cause.toNat ++ le 2 f.more ++ [0, 0]

/-- An evidence record of 16 bytes (R356). -/
def evidBytes (e : Evid) : List Byte :=
  let b := stampBytes e.stamp ++ [e.kind, e.recv, e.miss, e.early] ++ le 2 e.dup.toNat ++ [e.per]
  b ++ [~~~(b.foldl (fun x y => x ^^^ y) 0)]

/-- A point record (R260). -/
def pointBytes (p : PointRec) : List Byte :=
  le 4 p.freq ++ le 2 (min p.amp 0xFFFF) ++ leI 2 p.idc ++ [p.flags, BitVec.ofNat 8 p.index] ++ leI 2 p.tmin
    ++ p.z.flatMap fun z => s16 z.1 ++ s16 z.2

/-- A model record of 24 bytes for cell `k` (R261). -/
def modelBytes (k : Nat) (m : CellModel) (soc : Byte) : List Byte :=
  [BitVec.ofNat 8 k, BitVec.ofNat 8 (gradeCode m.grade)] ++ le 2 (min m.fit.rser 0xFFFF) ++ le 2 (min m.fit.ra 0xFFFF)
    ++ le 2 (min m.fit.taua 0xFFFF) ++ le 2 (min m.fit.rb 0xFFFF) ++ le 2 (min m.fit.taub 0xFFFF) ++ le 2 (min m.fit.sigma 0xFFFF)
    ++ leI 2 m.ts ++ [BitVec.ofNat 8 (min 255 m.fit.resid), soc] ++ le 2 (min m.reff 0xFFFF)
    ++ le 2 (min m.ilim 0xFFFF) ++ [0, 0]

/-! ## Snapshot entries (R310) -/

/-- Case temperature: the greater of the two quad sensor readings, 0.1 °C. -/
def State.caseT (s : State) : Int := max s.ms.tq0 s.ms.tq1

/-- Whether the measurement domain is powered. -/
def State.measOn (s : State) : Bool := s.sys.dom.getLsbD 5

/-- A measured unsigned field: 0xFFFF while MEAS is off. -/
def State.mU (s : State) (v : Nat) : List Byte := if s.measOn then le 2 (min v 0xFFFF) else [0xFF, 0xFF]

/-- A measured signed field: 0x8000 while MEAS is off. -/
def State.mI (s : State) (v : Int) : List Byte := if s.measOn then s16 v else [0x00, 0x80]

/-- A signed field of the conversion controller, which runs on MEAS's samples: 0x8000 while MEAS is off (R170). -/
def State.mQ (s : State) (v : Int) : List Byte := if s.measOn then leI 2 v else [0x00, 0x80]

/-- The four AUX readings `l` in units of `den`; one not available, as all are before SEQ has been on for a control tick, reads 0xFFFF (R310). -/
def auxBytes (l : List Nat) (den : Nat) : List Byte :=
  ((List.range 4).map fun i => le 2 (match l[i]? with
    | some v => min 0xFFFE (quo v den)
    | none => 0xFFFF)).flatten

/-- The 64 bytes of a snapshot entry (R310). -/
def State.snapBytes (s : State) (no : Nat) (e : SnapEv) (deferred : Bool) : List Byte :=
  let slotB := (if e.slot < 8 then e.slot else 8) + 16 * b2n deferred
  let b := le 4 no ++ stampBytes e.stamp ++ [BitVec.ofNat 8 e.cause, BitVec.ofNat 8 slotB] ++ le 2 e.source.toNat
    ++ le 2 e.fcause.toNat ++ [e.fclass, e.rsn, s.modeByte, s.pathByte, e.seqstat, e.ron, e.rpg, e.rfnc]
    ++ s.mU s.pp.nodes.vsys ++ s.mU s.ms.vbat ++ s.mU s.pp.nodes.pa ++ s.mU s.pp.nodes.pb ++ s.mU s.pp.nodes.pc
    ++ auxBytes s.seq.vaux 1 ++ auxBytes s.seq.iaux 10 ++ s.mI (quoQ s.ms.ibat 10) ++ s.mI s.caseT ++ [0, 0]
  b ++ le 2 (crc16 b) ++ le 4 (0xFFFFFFFF - no)

/-- Whether a stored snapshot entry is valid (R311). -/
def SnapEntry.ok (e : SnapEntry) : Bool :=
  !e.torn && ofLe (e.bytes.drop 60) == 0xFFFFFFFF - ofLe (e.bytes.take 4) && ofLe ((e.bytes.drop 58).take 2) == crc16 (e.bytes.take 58)

/-! ## Last-fault records (R170) -/

/-- A phase block of 12 bytes. -/
def State.lfPhase (s : State) (x : Phase) : List Byte :=
  [BitVec.ofNat 8 (phCode x.st),
   BitVec.ofNat 8 (portCode x.port + 4 * b2n (x.dir == .source) + 8 * b2n x.oclMet + 16 * b2n (x.trim == 120 || x.trim == -120))]
    ++ s.mI (quoQ x.ip 10) ++ s.mU x.dutyA ++ s.mU x.dutyB ++ (if s.measOn then leI 1 x.trim else [0x80]) ++ [0] ++ s.mI x.ths

/-- A path block of 24 bytes: without a path the quantities of its loop are not available. COEF speaks of the VSYS node for PA and PB and of
the PC node for PC, source paths too (DESIGN CHOICE, log entry 108). -/
def State.lfPath (s : State) (p : PortId) : List Byte :=
  let x := s.path p
  let na : List Byte := [0x00, 0x80]
  let c := s.cc.comp.getD (portIdx p) {}
  let e := c.eh.getD c.win [0, 0, 0]
  let studio := if p == .pc then s.regBit 0x0146 1 else s.regBit 0x0146 0
  let tuned := if p == .pc then s.cc.pTuned else s.cc.vTuned
  [BitVec.ofNat 8 (portIdx p + 1 + 4 * b2n (s.sourcing p) + 8 * b2n (s.active p) + 16 * b2n (s.fab.lead == some p)),
   BitVec.ofNat 8 (c.win + 16 * b2n c.grantLim)]
    ++ (if s.active p then (c.uh.map s.mQ).flatten ++ (e.map s.mQ).flatten ++ s.mQ c.ref ++ s.mI (quoQ c.ipath 10)
        else na ++ na ++ na ++ na ++ na ++ na ++ na ++ na)
    ++ s.mU x.grant
    ++ [BitVec.ofNat 8 ((phaseNos.filter fun i =>
          let y := s.phase i
          (y.port == some p || (y.st == .switching && y.next == some p)) && y.st != .free && y.st != .fenced).length),
        BitVec.ofNat 8 (b2n studio + 2 * b2n tuned), 0, 0]

/-- A voltage of the last completed switching period, where there is one (R168, R170). -/
def State.sampU (s : State) (f : List PathSample → Nat) : List Byte :=
  match s.cc.samp with
  | some l => s.mU (f l)
  | none => [0xFF, 0xFF]

/-- A current of the last completed switching period in 10 mA, where there is one (R168, R170). -/
def State.sampI (s : State) (f : List PathSample → Int) : List Byte :=
  match s.cc.samp with
  | some l => s.mI (quoQ (f l) 10)
  | none => [0x00, 0x80]

/-- The switching frequency in force in kHz: FSW while the period has its length, else that of the period (R155, R170). -/
def State.fswNow (s : State) : Nat := if s.cc.period = stepsOf s.cc.fsw then s.cc.fsw else quo 16000000 s.cc.period

/-- The 256 bytes of a last-fault record with number `no`: node voltages and currents as of the last completed switching period (R168). -/
def State.lfBytes (s : State) (no : Nat) (hw : Bool) (source cause : BitVec 16) (cls : Nat) : List Byte :=
  let b := le 2 0x4C46 ++ [0x01, byteOf [hw, !s.measOn, !s.sys.fwRun]] ++ le 4 no ++ stampBytes s.stamp
    ++ le 2 source.toNat ++ le 2 cause.toNat ++ [BitVec.ofNat 8 cls, s.modeByte, 0, 0]
    ++ (s.fab.ph.map s.lfPhase).flatten
    ++ s.sampU (fun l => (l.getD 0 {}).v) ++ s.sampU (fun l => (l.getD 1 {}).v) ++ s.sampU (fun l => (l.getD 2 {}).v)
    ++ s.sampU (fun l => (l.getD 0 {}).vsys) ++ s.sampU (fun l => (l.getD 0 {}).vbat)
    ++ s.sampI (fun l => (l.getD 0 {}).i) ++ s.sampI (fun l => (l.getD 1 {}).i) ++ s.sampI (fun l => (l.getD 2 {}).i)
    ++ s.sampI (fun l => (l.getD 0 {}).ibat)
    ++ s.mI s.ms.tq0 ++ s.mI s.ms.tq1 ++ le 2 s.fswNow
    ++ (ports.map s.lfPath).flatten
    ++ s.mU s.fab.basin ++ s.mU s.fab.thCeil ++ List.replicate 32 0
  b ++ le 4 (crc32 b)

end Sys2Proof.Machine
end

