-- ==== Sys2Proof/Machine/MbxOps.lean ====
section
/-! DEFINITION. Shared operations of the mailboxes (chapter 14): taking a frame, checking it, posting a response; and of
the non-volatile write queue (R30, R34). -/
namespace Sys2Proof.Machine

/-- The command record of mailbox `n`. -/
def State.box (s : State) (n : Nat) : Box := s.mb.box.getD n {}

/-- Rewrites the command record of mailbox `n`. -/
def State.onBox (s : State) (n : Nat) (f : Box → Box) : State :=
  s.onMb fun m => { m with box := m.box.set n (f (m.box.getD n {})) }

/-- The OPCODEs of R407 to R417. -/
def opcodes : List Nat :=
  [0x0101, 0x0102, 0x0103, 0x0104, 0x0105, 0x0106, 0x0107, 0x0108,
   0x0201, 0x0202, 0x0203, 0x0204, 0x0205, 0x0206, 0x0207,
   0x0301, 0x0302, 0x0303, 0x0304, 0x0305, 0x0306, 0x0307, 0x0308,
   0x0401, 0x0402, 0x0403, 0x0404, 0x0405, 0x0406, 0x0407, 0x0408, 0x0409,
   0x0501, 0x0502, 0x0503, 0x0504, 0x0505, 0x0601, 0x0602, 0x0603, 0x0604,
   0x0701, 0x0702, 0x0703, 0x0704, 0x0705, 0x0706, 0x0707, 0x0708,
   0x0801, 0x0802, 0x0803, 0x0804, 0x0805, 0x0806, 0x0807, 0x0808,
   0x0901, 0x0902, 0x0903, 0x0904, 0x0A01, 0x0A02, 0x0A03]

/-- Writes a response frame into OUTn and sets OUTRDY; the bytes beyond the frame read 0 (R394, R398). -/
def State.postFrame (s : State) (n : Nat) (status : Byte) (data : List Byte) : State :=
  let b := s.box n
  s.onMb fun m => { m with
    outb := memPuts zeroByte (memErase m.outb (256 * n) 256) (256 * n) (respFrame b.tag status b.op s.stamp data)
    outrdy := setBit m.outrdy n true, box := m.box.modify n fun x => { x with postAt := s.now } }

/-- The work of the command in mailbox `n` has ended with `status` (R398, R401): a command not yet answered gets its final
response; one answered ACCEPTED keeps it until COMMAND_COMPLETION. -/
def State.finish (s : State) (n : Nat) (status : Byte) (data : List Byte := []) : State :=
  match (s.box n).st with
  | .taken => (s.postFrame n status data).onBox n fun b => { b with st := .final, begun := true, pnr := true }
  | .interim | .working => s.onBox n fun b => { b with fin := some { status := status, data := data }, pnr := true }
  | .free | .final => s

/-- The end of the work of a command that another part of the state may name. -/
def State.finishO (s : State) (n : Option (Fin 4)) (status : Byte) (data : List Byte := []) : State :=
  match n with
  | some k => s.finish k.val status data
  | none => s

/-- The end of the work of every command in `l`. -/
def State.finishL (s : State) (l : List (Fin 4)) (status : Byte) (data : List Byte := []) : State :=
  l.foldl (fun t k => t.finish k.val status data) s

/-- The command in mailbox `n` is answered ACCEPTED (R401); `begun` says whether its work has begun. -/
def State.accept (s : State) (n : Nat) (begun : Bool := true) : State :=
  (s.postFrame n St.accepted []).onBox n fun b => { b with st := .interim, begun := begun }

/-- An OK response after whose release the command acts (R402). -/
def State.finishAct (s : State) (n : Nat) (data : List Byte := []) : State :=
  (s.finish n St.ok data).onBox n fun b => { b with act := true }

/-- Whether the frame of mailbox `n` fails one of the first three checks, and the status that gives (R404). -/
def State.frameFault (s : State) (n : Nat) : Option Byte :=
  let len := s.frameLen n
  if len > 248 then some St.badLength
  else if ofLe (s.inBytes n 6 2) ≠ crc16 (s.inBytes n 0 6 ++ s.inBytes n 8 len) then some St.badCrc
  else if s.frameOp n ∉ opcodes ∨ (s.inByte n 1).toNat ≥ 2 then some St.badOpcode
  else none

/-- Takes the frame rung in mailbox `n`: INUSE is set, and a frame that fails the first three checks of R404 is answered
at once (R398, R404). -/
def State.takeFrame (s : State) (n : Nat) : State :=
  if (s.box n).st != .free then s
  else
    let s1 := s.onMb fun m => { m with
      inuse := setBit m.inuse n true
      box := m.box.set n { st := .taken, tag := s.inByte n 0, flags := s.inByte n 1, op := BitVec.ofNat 16 (s.frameOp n) } }
    match s.frameFault n with
    | some st => (s1.finish n st).onMb fun m => { m with ring := m.ring.filter fun k => k.val != n }
    | none => s1

/-- Task `t` has completed a run: a failure of it is a first one again (R39). -/
def State.taskRan (s : State) (t : FwTask) : State := s.onFlt fun f => { f with taskOnce := setBit f.taskOnce (taskIdx t) false }

/-- Takes every ring held, in order, once resident firmware runs (R400, R403). -/
def State.takeRings (s : State) : State :=
  if s.sys.fwRun then s.mb.ring.foldl (fun t k => t.takeFrame k.val) s else s

/-- Whether mailbox `n` holds the frame to be carried out next and it has OPCODE `op` (R400). -/
def State.carries (s : State) (n op : Nat) : Bool :=
  s.sys.fwRun && (s.box n).st == .taken && (s.box n).op == BitVec.ofNat 16 op
    && (match s.mb.ring with
        | k :: _ => k.val == n
        | [] => false)

/-- Carries out the command `op` of mailbox `n` after the checks 4 to 6 of R404: `len` says which payload lengths it accepts,
`guardAt` where its GUARD stands, `range` whether every field is in its range. -/
def State.carry (s : State) (n op : Nat) (len : Nat → Bool) (guardAt : Option Nat) (range : Bool) (f : State → State) : State :=
  if !s.carries n op then s
  else
    let s1 := ((s.taskRan .vetch).onMb fun m => { m with ring := m.ring.filter fun k => k.val != n }).onBox n fun b => { b with begun := true }
    if !len (s.frameLen n) then s1.finish n St.badLength
    else if (match guardAt with
        | some o => s.fld n o 2 != inv16 op
        | none => false) then s1.finish n St.guardFail
    else if !range then s1.finish n St.outOfRange
    else f s1

/-- A command without a payload that answers OK at once. -/
def State.query (s : State) (n op : Nat) (data : State → List Byte) : State :=
  s.carry n op (· == 0) none true fun t => t.finish n St.ok (data t)

/-- The commands still waiting to be carried out in the mailboxes that `p` names complete WITHDRAWN (R285, R406). -/
def State.withdrawBoxes (s : State) (p : Nat → Bool) : State :=
  (List.finRange 4).foldl (fun t k =>
    if (t.box k.val).st == .taken && p k.val then
      (t.finish k.val St.withdrawn).onMb fun m => { m with ring := m.ring.filter fun j => j != k }
    else t) s

/-- Those of them whose OPCODE satisfies `p` (R249, R306). -/
def State.withdrawQueued (s : State) (p : Nat → Bool) : State := s.withdrawBoxes fun n => p (s.box n).op.toNat

/-- Whether NOWAIT is set in the command of mailbox `n`. -/
def State.noWait (s : State) (n : Nat) : Bool := (s.box n).flags.getLsbD 0

/-! ## Non-volatile write queue (R30, R34, R458) -/

/-- Whether NVM writes are fenced (R321). -/
def State.nvmFenced (s : State) : Bool := s.flt.fence.getLsbD 25

/-- Whether the write queue has a free slot (R30). -/
def State.nvmRoom (s : State) : Bool := s.nvm.q.length < 8

/-- Whether the write queue is empty and nothing is being programmed (R84). -/
def State.nvmIdle (s : State) : Bool := s.nvm.q.isEmpty && s.nvm.prog.isNone

/-- Queues a write request that has room. -/
def State.nvmPush (s : State) (r : NvmReq) : State := s.onNvm fun x => { x with q := x.q ++ [r] }

end Sys2Proof.Machine
end

