-- ==== Sys2Proof/Machine/NvmOps.lean ====
section
/-! DEFINITION. Shared operations of the non-volatile memory (chapter 16): erase counts, the two log rings, image regions and
what a cut write leaves. -/
namespace Sys2Proof.Machine

/-- An erased NVM byte. -/
def blankByte : Nat → Byte := fun _ => 0xFF

/-! ## Erases (R454, R455, R467, R469) -/

/-- The sectors of a region: 0 image A, 1 image B, 2 configuration, 3 log (R454). Sector 55 holds the factory data, the constants of Config, and no
definition erases it. -/
def regionSectors (r : Nat) : List Nat :=
  match r with
  | 0 => List.range 24
  | 1 => (List.range 24).map (24 + ·)
  | 2 => (List.range 8).map (48 + ·)
  | _ => (List.range 8).map (56 + ·)

/-- The erase count of a region: the highest of its sectors (R455). -/
def State.regionErases (s : State) (r : Nat) : Nat := (regionSectors r).foldl (fun m k => max m (s.nvm.erase.getD k 0)) 0

/-- The image-region write count: the sum of the counts held in sectors 0 and 24 (R455). -/
def State.writeCount (s : State) : Nat := s.nvm.writeCnt.foldl (· + ·) 0

/-- NVM_WEAR, once for each region (R469). -/
def State.wearCheck (s : State) (r : Nat) : State :=
  s.when (100000 ≤ s.regionErases r && !s.nvm.wornSent.getLsbD r) fun t =>
    (t.onNvm fun x => { x with wornSent := setBit x.wornSent r true }).raise Src.nvm Ev.nvmWear [nameByte Ev.nvmWear r]

/-- What stays of an image that begins at sector `first` once the sectors `l` are erased. -/
def eraseCells (first : Nat) (l : List Nat) (m : List Host.Cell) : List Host.Cell := m.filter fun c => !l.contains (first + c.1 / 4096)

/-- What the NVM holds once the sectors `l` are erased: a bank whose header has gone stands no more. -/
def NvmS.erased (x : NvmS) (l : List Nat) : NvmS :=
  { x with
    imgA := eraseCells 0 l x.imgA, imgB := eraseCells 24 l x.imgB
    cfg := x.cfg.mapIdx fun i b => if l.contains (49 + 3 * i) then none else b
    ring := x.ring.filter fun e => !l.contains (56 + e.pos / 64), lfRing := x.lfRing.filter fun e => !l.contains (62 + e.pos / 16)
    partly := l.foldl (fun m k => setBit m k false) x.partly
    erase := x.erase.mapIdx fun k n => if l.contains k then satInc 0xFFFFFFFF n else n }

/-- Sectors of region `r` are erased; their counts rise first, and one that comes to its stop raises COUNTER_SAT for its region (R455,
R469, R494). -/
def State.eraseSectors (s : State) (r : Nat) (l : List Nat) : State :=
  let s1 := s.onNvm fun x => x.erased l
  (s1.when (s.regionErases r < 0xFFFFFFFF && 0xFFFFFFFF ≤ s1.regionErases r) fun t => t.counterSat 0x09 [BitVec.ofNat 8 r]).wearCheck r

/-- The erases of a store of region `r` begin with the first of the sectors `l` (R464); those of the rest follow before its end (log entry 128). -/
def State.eraseBegin (s : State) (r : Nat) (l : List Nat) : State :=
  (s.onNvm fun x => { x with prog := x.prog.map fun q => { q with left := l.drop 1 } }).eraseSectors r (l.take 1)

/-- A store whose erases still to come are `left` is cut: how many of them had begun is a free value, and the sector whose erase was cut is partly
erased; `last` is the sector whose erase began last before them (R467; log entry 128). -/
def State.eraseCut (s : State) (r : Nat) (last : Option Nat) (left : List Nat) : State :=
  let k := s.freeN 1 % (left.length + 1)
  let t := s.eraseSectors r (left.take k)
  if k = left.length then t
  else match (left.take k).getLast?.or last with
    | some i => t.onNvm fun x => { x with partly := setBit x.partly i true }
    | none => t

/-! ## The log rings (R311, R462) -/

/-- An erase ahead of log sector `k` begins, as the last step of the log write before it (R458, R462). -/
def State.aheadBegin (s : State) (k : Nat) : State :=
  (s.eraseSectors 3 [k]).onNvm fun x => { x with ahead := some ⟨k % 64, Nat.mod_lt _ (by decide)⟩ }

/-- The erase ahead ends: cut, with its sector partly erased, or done (R467). -/
def State.aheadEnd (s : State) (cut : Bool) : State :=
  match s.nvm.ahead with
  | some k => s.onNvm fun x => { x with ahead := none, partly := if cut then setBit x.partly k.val true else x.partly }
  | none => s

/-- A sector of the log about to be programmed is erased again where it is not blank or only partly erased (R467). -/
def State.logBlank (s : State) (k : Nat) (used : Bool) : State :=
  s.when (used || s.nvm.partly.getLsbD k) fun t => t.eraseSectors 3 [k]

/-- An entry comes to stand at the next place of the snapshot ring; a sector that is not blank is erased first (R467). -/
def State.ringPut (s : State) (e : SnapEntry) : State :=
  let p := s.nvm.ringPos
  let s1 := s.when (p % 64 == 0) fun t => t.logBlank (56 + p / 64) (s.nvm.ring.any fun x => x.pos / 64 == p / 64)
  s1.onNvm fun x => { x with ring := x.ring ++ [{ e with pos := p }], ringPos := (p + 1) % 384 }

/-- The same of the last-fault ring. -/
def State.lfPut (s : State) (e : LfRec) : State :=
  let p := s.nvm.lfPos
  let s1 := s.when (p % 16 == 0) fun t => t.logBlank (62 + p / 16) (s.nvm.lfRing.any fun x => x.pos / 16 == p / 16)
  s1.onNvm fun x => { x with lfRing := x.lfRing ++ [{ e with pos := p, queued := false }], lfPos := (p + 1) % 32 }

/-- Erase ahead after a snapshot entry: a sector has been filled, and the ring's oldest is erased (R462). -/
def State.ringAhead (s : State) : State := s.when (s.nvm.ringPos % 64 == 0) fun t => t.aheadBegin (56 + t.nvm.ringPos / 64)

/-- Erase ahead after a last-fault record. -/
def State.lfAhead (s : State) : State := s.when (s.nvm.lfPos % 16 == 0) fun t => t.aheadBegin (62 + t.nvm.lfPos / 16)

/-- The record in RET slot `k` stands staged, not in the queue (R171). -/
def State.lfUnqueue (s : State) (k : Nat) : State :=
  s.onFlt fun f => { f with lfSlot := f.lfSlot.modify k fun x => { x with queued := false } }

/-- The highest SEQNO in the snapshot ring, torn entries included (R311). -/
def State.ringTop (s : State) : Nat := s.nvm.ring.foldl (fun m e => max m e.seqno) 0

/-! ## Images (R463, R464) -/

/-- The cells of `n` bytes from `a` upward that the staged bytes `l` spell, bytes not staged being 0: what an image region then
holds, an unlisted byte reading as erased. -/
def stagedCells : Nat → Nat → List Host.Cell → List Host.Cell
  | 0, _, _ => []
  | n + 1, a, [] => (a, 0) :: stagedCells n (a + 1) []
  | n + 1, a, (k, v) :: r =>
    if k = a then (if v = 0xFF then stagedCells n (a + 1) r else (a, v) :: stagedCells n (a + 1) r)
    else (a, 0) :: stagedCells n (a + 1) ((k, v) :: r)

/-! ## The rollback counter (R466) -/

/-- The record of release `v`: VALUE, NVALUE, 0xFF and the CRC. -/
def rbRecord (v : BitVec 16) : List Byte :=
  let b := le 2 v.toNat ++ le 2 (~~~v).toNat ++ List.replicate 8 0xFF
  b ++ le 4 (crc32 b)

/-- Whether a record of the counter checks. -/
def rbOk (r : List Byte) : Bool :=
  ofLe (r.take 2) + ofLe ((r.drop 2).take 2) == 0xFFFF && ofLe ((r.drop 12).take 4) == crc32 (r.take 12)

/-- The rollback counter: the highest VALUE among the records that check. -/
def State.rollbackNow (s : State) : Nat := maxL ((s.nvm.rollback.filter rbOk).map fun r => ofLe (r.take 2))

/-! ## Cuts (R467) -/

/-- The sectors of a configuration bank (R454). -/
def bankSectors (b : Nat) : List Nat := if b = 0 then [49, 50, 51] else [52, 53, 54]

/-- The cut of a configuration store. One that began with a rollback record is cut in the record, which then fails its CRC and the bank is not
written, or after it, in the bank: which is a free value (R467, log entry 7). -/
def State.cfgCut (s : State) (r : NvmReq) : State :=
  if r.rb && s.freeN 0 % 2 == 1 then
    (s.onNvm fun x => { x with rollback := x.rollback.modify (x.rollback.length - 1) fun b => b.take 2 ++ List.replicate 14 0xFF }).useFree 2
  else (s.eraseCut 2 (if r.rb then none else (bankSectors r.bank).head?) r.left).useFree 2

/-- What the write in progress leaves when it is cut (R467): a bank without a checking header, an image without a valid one, a torn record or entry. -/
def State.cutProg (s : State) : State :=
  match s.nvm.prog with
  | some r =>
    let t := s.onNvm fun n => { n with prog := none }
    match r.kind with
    | .snapshot => t.ringPut { r.snap with torn := true }
    | .lastFault => (t.lfPut { (t.flt.lfSlot.getD r.slot {}) with torn := true }).lfUnqueue r.slot
    | .cfg => t.cfgCut r
    | .imgA => (t.eraseCut 0 (some 0) r.left).useFree 2
    | .imgB => (t.eraseCut 1 (some 24) r.left).useFree 2
  | none => s

/-- A log write may be in the erase ahead that ends it: whether the reset or the halt cuts that or finds it done is a free value (R458, R467). -/
def State.aheadCut (s : State) : State :=
  s.when s.nvm.ahead.isSome fun t => (t.aheadEnd (t.freeN 0 % 2 == 1)).useFree 1

/-- A programming cut at once by a reset: the queue is lost with it (R467, R403). -/
def State.nvmCutNow (s : State) : State :=
  (((s.cutProg).aheadCut).onNvm fun n => { n with q := [] }).onFlt fun f => { f with lfSlot := f.lfSlot.map fun x => { x with queued := false } }

/-- The snapshots that wait in the queue are discarded and counted (R311). -/
def State.snapsDrop (s : State) : State :=
  (s.nvm.q.filter fun r => r.kind == .snapshot).foldl (fun t _ => t.drop 12)
    (s.onNvm fun x => { x with q := x.q.filter fun r => r.kind != .snapshot })

/-- Resident firmware stops: a log write being programmed is abandoned, and the snapshots that wait are discarded (R311). -/
def State.logCut (s : State) : State :=
  match s.nvm.prog with
  | some r => s.when (r.kind == .snapshot || r.kind == .lastFault) fun t => (t.cutProg).snapsDrop
  | none => s.when s.nvm.ahead.isSome fun t => (t.aheadCut).snapsDrop

end Sys2Proof.Machine
end

