-- ==== Sys2Proof/Machine/SeqOps.lean ====
section
/-! DEFINITION. The sequencer engine's shared operations (chapter 10): snapshots, the slot walk of a power-up and of a
shutdown, requests and causes that meet a run, PFW and NRSTO. -/
namespace Sys2Proof.Machine

/-! ## Slots and rails (R293, R296) -/

/-- SEQ_CTL.SEQEN (R295). -/
def State.seqEn (s : State) : Bool := s.regBit 0x01E0 0

/-- SEQ_CTL.RSTEN (R295). -/
def State.rstEn (s : State) : Bool := s.regBit 0x01E0 3

/-- The rail a slot names: 0 to 3 AUX0 to AUX3, 4 to 7 ENX0 to ENX3 (R293). -/
def slotRail (c : SlotCfg) : Option Nat :=
  let r := c.cfg.toNat % 16
  if 1 ≤ r ∧ r ≤ 8 then some (r - 1) else none

/-- SLOTn_CFG.DORM. -/
def slotDorm (c : SlotCfg) : Bool := c.cfg.getLsbD 4

/-- SLOTn_CFG.PGIGN, which has no effect on an AUX rail (R293). -/
def slotPgIgn (c : SlotCfg) : Bool :=
  c.cfg.getLsbD 5 && (match slotRail c with
    | some r => 4 ≤ r
    | none => false)

/-- Slot `k` of the engine's table. -/
def State.slotAt (s : State) (k : Nat) : SlotCfg := s.seq.tbl.getD k {}

/-- The rail of slot `k`. -/
def State.railAt (s : State) (k : Nat) : Option Nat := slotRail (s.slotAt k)

/-- The rail of the step in progress, which keeps the table entry it began under (R294). -/
def State.stepRail (s : State) : Option Nat := slotRail s.seq.cur

/-- The slot table that the control registers in force spell. -/
def State.pageTable (s : State) : List SlotCfg :=
  (List.range 8).map fun n => { cfg := s.reg (0x01C0 + 4 * n), on := s.reg (0x01C1 + 4 * n), tmo := s.reg (0x01C2 + 4 * n), off := s.reg (0x01C3 + 4 * n) }

/-- Whether a table may be applied: no invalid RAIL code and no rail in two slots (R294). -/
def tableOk (l : List SlotCfg) : Bool :=
  (l.all fun c => c.cfg.toNat % 16 ≤ 8) && decide ((l.filterMap slotRail).Nodup)

/-- Whether slot `k`'s rail is on and good, so that a power-up skips it (R297). -/
def State.slotReady (s : State) (k : Nat) : Bool :=
  match s.railAt k with
  | none => true
  | some r => s.seq.on.getLsbD r && (s.seq.good.getLsbD r || (slotPgIgn (s.slotAt k) && s.seq.running.getLsbD r))

/-- Whether the engine is idle (R294). -/
def State.seqIdle (s : State) : Bool := s.seq.st == .off || s.seq.st == .on || s.seq.st == .held

/-- Whether some filled slot names a fenced rail (R298). -/
def State.slotFenced (s : State) : Bool :=
  (List.range 8).any fun k => match s.railAt k with
    | some r => s.seq.fenced.getLsbD r
    | none => false

/-! ## Snapshots (R309 to R311) -/

/-- Resident firmware fills the snapshot of a latched event and passes it to the write queue; a full queue drops it (R309, R310). -/
def State.snapFill (s : State) (e : SnapEv) (deferred : Bool) : State :=
  if s.nvmFenced then s
  else if s.nvmRoom then
    let no := min (s.seq.seqno + 1) 0xFFFFFFFE
    (s.nvmPush { kind := .snapshot, snap := { seqno := no, bytes := s.snapBytes no e deferred } }).onSeq fun q => { q with seqno := no }
  else s.drop 12

/-- The engine latches a snapshot event; resident firmware, if it runs, takes it at once (R309). -/
def State.snap (s : State) (cause slot : Nat) (source fcause : BitVec 16 := 0xFFFF) (fclass : Byte := 0xFF) : State :=
  let e : SnapEv := {
    stamp := s.stamp, cause := cause, slot := slot, source := source, fcause := fcause, fclass := fclass,
    rsn := s.seq.rsn, seqstat := s.seqStat, ron := s.seq.on, rpg := s.seq.good, rfnc := s.seq.fenced }
  if s.sys.fwRun then s.snapFill e false
  else if s.seq.latch.length < 4 then s.onSeq fun q => { q with latch := q.latch ++ [e] }
  else s.drop 12

/-- Resident firmware takes the events latched while it was not running (R309). -/
def State.snapTake (s : State) : State :=
  (s.seq.latch.foldl (fun t e => t.snapFill e true) s).onSeq fun q => { q with latch := [] }

/-! ## Events (R312) -/

/-- The source number of the rail of the step in progress, 0x40 where there is none. -/
def State.stepSrc (s : State) : Nat := Src.rail (s.stepRail.getD 0)

/-- The time since the request in units of 100 µs. -/
def State.seqTime (s : State) : Nat := min 0xFFFF (quo (s.now - s.seq.reqAt) 100)

/-- SEQ_STEP of the step in progress, of slot `k`; the second detail byte names ON (position 0) or OFF (position 1). -/
def State.stepEvent (s : State) (k : Nat) (off : Bool) : State :=
  s.raise s.stepSrc Ev.seqStep ([BitVec.ofNat 8 k, nameByte Ev.seqStep (b2n off)] ++ le 2 s.seqTime)

/-- PFW goes high, with its event and snapshot (R303, R309); with SEQ off the land stays low (R45). -/
def State.pfwAssert (s : State) (reason src : Nat) : State :=
  if s.seq.pfw || !s.sys.dom.getLsbD 11 then s
  else ((s.onSeq fun q => { q with pfw := true }).raise src Ev.pfwAssert [BitVec.ofNat 8 reason]).snap 0x07 8

/-! ## Power-up (R297, R308) -/

/-- The slot table's registers take back the engine's own copy. -/
def State.tableBack (s : State) : State :=
  (List.range 8).foldl (fun t k =>
    let c := s.slotAt k
    (((t.setReg (0x01C0 + 4 * k) c.cfg).setReg (0x01C1 + 4 * k) c.on).setReg (0x01C2 + 4 * k) c.tmo).setReg (0x01C3 + 4 * k) c.off) s

/-- The slot table as written is taken into the engine, or refused: then the table in force is kept (R294). -/
def State.tableApply (s : State) : State :=
  if tableOk s.pageTable then s.onSeq fun q => { q with tbl := s.pageTable, tblPend := false, seqBad := false }
  else (s.tableBack).onSeq fun q => { q with tblPend := false, seqBad := true }

/-- A table that waited for the engine to be idle would now be applied (R294). -/
def State.tableTake (s : State) : State := if s.seq.tblPend then (s.tableApply).updShow else s

/-- The last slot is complete: ON, SEQ_UP_DONE. -/
def State.upDone (s : State) : State :=
  let s1 := s.onSeq fun q => { q with st := .on, upBox := [], waitOn := false, waitGood := false, waitRe := false, stopAfter := false }
  ((((s1.raise 0x40 Ev.seqUpDone [BitVec.ofNat 8 s.seq.req, s.seq.on]).snap 0x03 8).finishL s.seq.upBox St.ok [0]).tableTake)

/-- Whether the release of NRSTO is due once the slots below `n` have been passed: that of RSTSLOT, or of the highest filled slot below it where it is
empty or skipped; a slot skipped counts as good from the start, and without one below the start itself counts (R308). -/
def State.nrstReady (s : State) (n : Nat) : Bool :=
  let e := s.regF 0x01E3 2 0
  if e < n then true
  else if (s.railAt e).isSome && !s.slotReady e then false
  else match ((List.range e).filter fun k => (s.railAt k).isSome).getLast? with
    | some k => k < n || s.slotReady k
    | none => true

/-- The release delay of NRSTO starts where the slots below `n` have been passed and the rule has its release due (R308). -/
def State.nrstJudge (s : State) (n : Nat) : State :=
  s.onSeq fun q => { q with nrstDue := q.nrstDue || (s.rstEn && q.nrstSeq && s.nrstReady n) }

/-- The power-up goes on with the first slot from `8 - n` on that is filled and not on and good. -/
def walkUp : Nat → State → State
  | 0, s => (s.nrstJudge 8).upDone
  | n + 1, s =>
    if s.slotReady (7 - n) then walkUp n s
    else (s.nrstJudge (7 - n)).onSeq fun q => { q with slot := 7 - n, cur := s.slotAt (7 - n), waitOn := true, waitGood := false, waitRe := false }

/-- A power-up begins, requested at `at_` (R297, R303, R308, R312). -/
def State.beginUp (s : State) (code at_ : Nat) : State :=
  let s1 := s.onSeq fun q => { q with
    st := .up, req := code, reqAt := at_, pfw := false, foff := false, upHeld := none, downHeld := none, stopAfter := false, floor := 0
    nrstSeq := q.nrstSeq || s.rstEn, nrstDue := false }
  let s2 := s1.onPp fun p => { p with noBatPfw := false }
  walkUp 8 ((s2.raise 0x40 Ev.seqUpStart [BitVec.ofNat 8 code, s.seq.on]).snap 0x01 8)

/-! ## Shutdown (R301) -/

/-- A power-up request that was held begins, or is refused where a rail was fenced meanwhile (R298, R304). -/
def State.heldUp (s : State) (code : Nat) : State :=
  if s.slotFenced then
    ((s.onSeq fun q => { q with upHeld := none, upBox := [] }).finishL s.seq.upBox St.notPermitted).when (code != 5) fun t =>
      t.raise 0x40 Ev.seqUpRefused [s.seq.fenced]
  else s.beginUp code s.seq.upAt

/-- Whether a shutdown of this reason acts with SEQEN = 0: SHIP entry, the stack manager and DORMANT entry (R302, R306). -/
def downAlways (reason : Nat) : Bool := reason == 6 || reason == 7 || reason == 8

/-- Whether a power-up of this request acts with SEQEN = 0: the stack manager's and that of a DORMANT entry abandoned (R305, R306, R312). -/
def upAlways (code : Nat) : Bool := code == 6 || code == 7

/-- The engine stops where it is, HELD, and takes a request that waits (R306). -/
def State.stopped (s : State) : State :=
  let t := (s.onSeq fun q => { q with st := .held, stopAfter := false }).tableTake
  match t.seq.upHeld with
  | some c => t.heldUp c
  | none => t

/-- Slot 0 is passed: OFF, SEQ_DOWN_DONE; SLOT stays that of the last step (R296). A held power-up then begins (R301, R304), and a DORMANT
entry goes on (R305). -/
def State.downDone (s : State) : State :=
  let s1 := s.onSeq fun q => { q with st := .off, downBox := [], waitFall := false, waitOff := false, floor := 0, stopAfter := false }
  let s2 := (s1.raise 0x40 Ev.seqDownDone [s.seq.rsn]).snap 0x06 8
  let s3 := ((s2.finishL s.seq.downBox St.ok).tableTake).onSys fun y => { y with dorm := if y.dorm == .rails then .ready else y.dorm }
  match s.seq.upHeld with
  | some c => s3.heldUp c
  | none => s3

/-- A rail is switched off: enable off, its good no longer judged, an AUX output not yet fallen (R301). -/
def State.railOff (s : State) (r : Nat) : State :=
  s.onSeq fun q => { q with
    on := setBit q.on r false, good := setBit q.good r false, running := setBit q.running r false
    outHigh := if r < 4 && q.on.getLsbD r then setBit q.outHigh r true else q.outHigh }

/-- Whether the shutdown in progress switches off slot `k` with rail `r`: it is on, and at DORMANT entry DORM is 0 (R301,
R305). -/
def State.downTarget (s : State) (k r : Nat) : Bool :=
  s.seq.on.getLsbD r && !(s.seq.rsn == 0x08 && slotDorm (s.slotAt k))

/-- The shutdown goes on with the slots below `n`, highest first. -/
def walkDown : Nat → State → State
  | 0, s => s.downDone
  | k + 1, s =>
    match s.railAt k with
    | none => walkDown k s
    | some r =>
      if s.downTarget k r then
        let dorm := s.seq.rsn == 0x08
        (s.railOff r).onSeq fun q => { q with
          slot := k, cur := s.slotAt k, waitFall := r < 4, waitOff := 4 ≤ r
          dormOff := if dorm then setBit q.dormOff r true else q.dormOff }
      else if r < 4 && s.seq.fenced.getLsbD r && s.seq.outHigh.getLsbD r then
        s.onSeq fun q => { q with slot := k, cur := s.slotAt k, waitFall := true, waitOff := false }
      else walkDown k s

/-- How many slots from slot 0 on a shutdown walks: up to the highest slot with an enabled rail, and not below the failed slot
(R299, R301). -/
def State.downTop (s : State) : Nat :=
  max s.seq.floor (maxL ((List.range 8).map fun k => match s.railAt k with
    | some r => if s.seq.on.getLsbD r then k + 1 else 0
    | none => 0))

/-- A shutdown begins: NRSTO goes low first where it follows the sequence (R301, R308). -/
def State.startDown (s : State) (reason : Nat) : State :=
  let s1 := s.onSeq fun q => { q with
    st := .down, rsn := BitVec.ofNat 8 reason, tpfwRun := false, downHeld := none
    upBox := if q.upHeld.isSome then q.upBox else []
    waitOn := false, waitGood := false, waitRe := false, stopAfter := false
    nrstSeq := q.nrstSeq || s.rstEn, nrstDue := false, foff := q.foff || reason == 0x02 }
  let s2 := s1.when s.seq.upHeld.isNone fun t => t.finishL s.seq.upBox St.ok [1]
  let s3 := (s2.raise 0x40 Ev.seqDownStart [BitVec.ofNat 8 reason]).snap 0x04 8
  walkDown s.downTop s3

/-- The step of a shutdown is complete: SEQ_STEP, its snapshot and the next slot (R301, R306). -/
def State.downStep (s : State) : State :=
  let k := s.seq.slot
  let s1 := ((s.onSeq fun q => { q with waitFall := false, waitOff := false }).stepEvent k true).snap 0x05 k
  if s.seq.stopAfter && !downAlways s.seq.rsn.toNat then
    s1.stopped
  else walkDown k s1

/-! ## When requests meet (R302 to R306) -/

/-- The power-up run in progress has reached the end of its step: a shutdown that waits for it follows, a stop holds the
engine unless the run's request acts with SEQEN = 0 too (a DORMANT entry abandoned, the stack manager), else the next slot follows (R304, R306). -/
def State.upNext (s : State) : State :=
  match s.seq.downHeld with
  | some r =>
    if s.seq.tpfwRun then
      (s.onSeq fun q => { q with st := .warning, downHeld := none, rsn := BitVec.ofNat 8 r, reqAt := q.downAt, upBox := [], stopAfter := false }).finishL
        s.seq.upBox St.ok [1]
    else (s.onSeq fun q => { q with reqAt := q.downAt }).startDown r
  | none =>
    if s.seq.stopAfter && !upAlways s.seq.req then (s.onSeq fun q => { q with upBox := [] }).stopped
    else walkUp (7 - s.seq.slot) s

/-- The step of a power-up is complete at good (R297, R299, R308). -/
def State.upStep (s : State) : State :=
  let k := s.seq.slot
  match s.stepRail with
  | none => s.upNext
  | some r =>
    let s1 := s.onSeq fun q => { q with
      waitGood := false, waitRe := false, running := setBit q.running r true }
    (((s1.nrstJudge (k + 1)).stepEvent k false).snap 0x02 k).upNext

/-- A cause that asserts PFW arrives, with reason `reason` (R302, R304, R306); `src` is the rail concerned or 0x40. With SEQ off there is no engine to take
it (R296). A cause that comes behind a shutdown request held during a power-up step starts no tPFW: the request begins at the step's end (log entry 113). -/
def State.downCause (s : State) (reason src : Nat) : State :=
  let fault := reason == 0x03 || reason == 0x04
  if !s.sys.dom.getLsbD 11 then s
  else match s.seq.st with
  | .warning | .down => s.pfwAssert reason src
  | .up =>
    if !s.seqEn && !upAlways s.seq.req then s.pfwAssert reason src
    else
      let s1 := if s.seq.downHeld.isSome then s
        else s.onSeq fun q => { q with downHeld := some reason, downAt := s.now, tpfwRun := true, rsn := BitVec.ofNat 8 reason }
      s1.pfwAssert reason src
  | .off | .on | .held =>
    if !s.seqEn || (s.seq.st == .held && fault) then s.pfwAssert reason src
    else
      (s.onSeq fun q => { q with st := .warning, tpfwRun := true, rsn := BitVec.ofNat 8 reason, reqAt := s.now }).pfwAssert reason src

/-- A shutdown request without PFW arrives (R302, R304). -/
def State.downRequest (s : State) (reason : Nat) : State :=
  match s.seq.st with
  | .warning | .down => s
  | .up => s.onSeq fun q => { q with downHeld := some (q.downHeld.getD reason), downAt := if q.downHeld.isSome then q.downAt else s.now }
  | .off | .on | .held => (s.onSeq fun q => { q with reqAt := s.now }).startDown reason

/-- What becomes of a power-up request (R298, R304, R306). -/
inductive UpRes where
  | discarded | refused | waits | begun | joined
  deriving DecidableEq, Repr

/-- How a power-up request fares now; `always` for a request that acts with SEQEN = 0 (R306). -/
def State.upCheck (s : State) (always : Bool) : UpRes :=
  if !s.seqEn && !always then .discarded
  else if s.slotFenced then .refused
  else match s.seq.st with
    | .down | .warning => .waits
    | .up => .joined
    | .off | .on | .held => .begun

/-- A power-up request arrives (R298). -/
def State.upRequest (s : State) (code : Nat) (always : Bool := false) : State :=
  match s.upCheck always with
  | .discarded => s
  | .refused =>
    (s.onSeq fun q => { q with foff := false }).when (code != 5) fun t => t.raise 0x40 Ev.seqUpRefused [s.seq.fenced]
  | .waits => s.onSeq fun q => { q with foff := false, upHeld := some (q.upHeld.getD code), upAt := if q.upHeld.isSome then q.upAt else s.now }
  | .joined => s.onSeq fun q => { q with foff := false }
  | .begun => s.beginUp code s.now

/-- The engine is stopped: by SEQEN = 0 or by the withdrawal of a run, in WARNING at once and without the shutdown that was to follow (R306; DESIGN
CHOICE, log entry 114). -/
def State.seqStop (s : State) : State :=
  match s.seq.st with
  | .up | .down => s.onSeq fun q => { q with stopAfter := true }
  | .warning => (s.onSeq fun q => { q with tpfwRun := false }).stopped
  | .off | .on | .held => s

/-- SEQEN = 0 is applied: the run stops after its step, requests that wait stay only where they act with SEQEN = 0, and the queued commands are
withdrawn (R306). -/
def State.seqDisable (s : State) : State :=
  let s1 := s.onSeq fun q => { q with
    upBox := [], downBox := [], upHeld := q.upHeld.filter upAlways, downHeld := q.downHeld.filter downAlways
    tpfwRun := q.tpfwRun && q.downHeld.all downAlways }
  ((s1.finishL s.seq.upBox St.withdrawn).finishL s.seq.downBox St.withdrawn).seqStop

/-! ## SEQ isolated and off (R10, R45, R296) -/

/-- The outputs of SEQ are isolated: enables and PFW low, NRSTO held low (R10, R45). -/
def State.seqIsolate (s : State) : State :=
  s.onSeq fun q => { q with
    on := 0, good := 0, running := 0, outHigh := q.outHigh ||| q.on.setWidth 4, pfw := false, nrstSeq := true, nrstPulse := false, nrstDue := false }

/-- SEQ has gone off: the engine is lost but the copy of its table, which is written into it again at the next power-up, its fences, which
outlast it, what DORMANT shut down, FOFF, which holds until a power-up request, and the reason of the last shutdown since AON power-on; its registers
read as after reset (R296, R305, R321). -/
def State.seqLost (s : State) : State :=
  (s.onSeq fun q => { seqno := q.seqno, tbl := q.tbl, fenced := q.fenced, dormOff := q.dormOff, foff := q.foff, rsn := q.rsn }).onFlt fun f => { f with
    pend := f.pend.filter fun p => !(0x40 ≤ localSrc p.source && localSrc p.source < 0x48) }

/-! ## NRSTO (R308) -/

/-- A pulse of NRSTO, unless it is low already; `origin` as in R312. -/
def State.nrstoPulse (s : State) (origin : Nat) : State :=
  if s.seq.nrstSeq || s.seq.nrstPulse then s
  else (s.onSeq fun q => { q with nrstPulse := true }).raise 0x40 Ev.nrstoPulse [BitVec.ofNat 8 origin]

end Sys2Proof.Machine
end

