-- ==== Sys2Proof/Machine/PowerOps.lean ====
section
/-! DEFINITION. Sources, the battery switch, limits and floors, and the path state as other chapters act on them
(chapter 06; R67, R110). -/
namespace Sys2Proof.Machine

/-! ## Thresholds and the source list (R52, R173, R176) -/

/-- Under-voltage thresholds of a port node in mV, rising and falling, typical values of R52 (log entry 10). -/
def uvlo : PortId → Nat × Nat
  | .pa | .pb => (4000, 3700)
  | .pc => (8000, 7500)

/-- Sets whether port `p` counts as a present source. -/
def State.setPresent (s : State) (p : PortId) (v : Bool) : State :=
  match p with
  | .pa => s.onPp fun x => { x with presA := v }
  | .pb => s.onPp fun x => { x with presB := v }
  | .pc => s.onPp fun x => { x with presC := v, pmpp := if v then x.pmpp else none, voc := if v then x.voc else none, scan := if v then x.scan else none }

/-- Whether any source is present. -/
def State.anyPresent (s : State) : Bool := ports.any s.present

/-- The source priority list in force (R175, R176). -/
def State.srcList (s : State) : List PortId :=
  [s.regF 0x0151 1 0, s.regF 0x0151 3 2, s.regF 0x0151 5 4].filterMap portOfCode

/-- PATH_CTL.COMB. -/
def State.comb (s : State) : Bool := s.regBit 0x0150 3

/-- The ports that form sink paths by presence, enables and COMB (R177, R178). -/
def State.sinkPorts (s : State) : List PortId :=
  let l := s.srcList.filter s.sinkable
  if s.comb then l else l.take 1

/-- The ports that are to carry sink paths: in a cascade group only PC (R440). -/
def State.wantSinks (s : State) : List PortId :=
  s.sinkPorts.filter fun p => !(s.stk.casc && p != .pc)

/-- Whether a sink path may be placed now: neither the hand-over nor the dwell of R190 holds. -/
def State.mayPlace (s : State) : Bool := !s.pp.handover && !s.pp.dwell

/-- Whether the PC node waits for its measurement (R148). -/
def State.tuningPc (s : State) : Bool :=
  s.cc.pcTuneDue || (s.cc.tune.toList ++ s.cc.tuneAsk).any fun r => r.pc && r.box.isNone

/-- The port whose path forms at once when the one source forming a path is gone (R178). -/
def State.nextSink (s : State) : Option PortId :=
  if s.runs && !s.comb && s.mayPlace then s.wantSinks.find? fun p => !s.active p && !(p == .pc && s.tuningPc) else none

/-! ## Limits of a source (R67, R110, R181 to R183) -/

/-- The Type-C current of R67 in mA. -/
def rpMa : Rp → Nat
  | .a30 => 3000 | .a15 => 1500 | .default => 500 | .none => 0

/-- The current of R67 for port `p`, mA. -/
def State.r67 (s : State) : PortId → Nat
  | .pa => rpMa s.pp.rpA | .pb => rpMa s.pp.rpB | .pc => 1500

/-- The learned limit of port `p`, mA. -/
def State.learn (s : State) : PortId → Option Nat
  | .pa => s.pp.learnA | .pb => s.pp.learnB | .pc => none

/-- Sets or clears the learned limit of port `p`. -/
def State.setLearn (s : State) (p : PortId) (v : Option Nat) : State :=
  match p with
  | .pa => s.onPp fun x => { x with learnA := v }
  | .pb => s.onPp fun x => { x with learnB := v }
  | .pc => s

/-- The sink contract and the one in transition on port `p`. -/
def State.sinkOffer (s : State) (p : PortId) : Option Offer × Option Offer :=
  match portTc p with
  | some t => let x := s.tc t; if x.src then (none, none) else (x.contract, x.trans)
  | none => (none, none)

/-- VSYS target of the limp controller, mV (R67). -/
def State.limpTarget (s : State) : Nat := max 7000 ((if s.pp.batPres then s.pp.nodes.bat else 0) + 200)

/-- The input limit of the limp controller on port `p`, mA: that of R67, or a contract's current (R72, R86). -/
def State.limpLimit (s : State) (p : PortId) : Nat :=
  match s.sinkOffer p with
  | (some c, _) => c.curr
  | (none, _) => s.r67 p

/-- The limp controller's target and input limit follow the battery, the advertisement and the contract (R67, R72); in DORMANT they stand
as latched (R85). -/
def State.limpFollow (s : State) : State :=
  match s.sys.limpSrc with
  | some p => s.when (s.sys.mode != .dormant) fun t => t.onSys fun y => { y with limpTgt := s.limpTarget, limpLim := s.limpLimit p }
  | none => s

/-- The VSYS target in force: the limp controller's while it draws from a source, else the conversion controller's (R67, R180). -/
def State.vsysRef (s : State) : Nat := if s.sys.limpSrc.isSome then s.sys.limpTgt else s.pp.vsysTgt

/-- The source's own current limit without the learned term, mA: in a transition the lesser of the old and the new contract's current, and of
R67's where there was no contract (R181, R274). -/
def State.ownLimit (s : State) (p : PortId) : Nat :=
  match p with
  | .pc => 100 * clampN 5 150 (s.regN 0x0156)
  | _ =>
    match s.sinkOffer p with
    | (some c, some t) => min c.curr t.curr
    | (some c, none) => quo (98 * c.curr) 100
    | (none, some t) => min (quo (98 * s.r67 p) 100) t.curr
    | (none, none) => quo (98 * s.r67 p) 100

/-- The source's own current limit, mA (R181, R183). -/
def State.srcLimit (s : State) (p : PortId) : Nat :=
  match s.learn p with
  | some l => min l (s.ownLimit p)
  | none => s.ownLimit p

/-- PC_CFG.TRACK. -/
def State.track (s : State) : Bool := s.regBit 0x0154 0

/-- PC_VFLOOR in mV (R184). -/
def State.pcFloor (s : State) : Nat := 250 * clampN 34 240 (s.regN 0x0155)

/-- The input floor of a sink path, mV (R182, R274). -/
def State.inFloor (s : State) (p : PortId) : Nat :=
  match p with
  | .pc => if s.track then max s.pp.vt s.pcFloor else s.pcFloor
  | _ =>
    match s.sinkOffer p with
    | (some c, some t) => quo (9 * min c.volt t.volt) 10
    | (some c, none) => quo (9 * c.volt) 10
    | (none, some t) => quo (9 * min 5000 t.volt) 10
    | (none, none) => 4500

/-! ## Cascade group terms (R440, R443) -/

/-- The number of modules whose basin this module runs: the group's on its loop master, else 1. -/
def State.grpCount (s : State) : Nat := if s.stk.casc && s.stk.lmaster then max 1 s.grpIds.length else 1

/-- The other members of the group as they last reported. -/
def State.grpReps (s : State) : List MemberRep :=
  (s.grpIds.filter fun k => k != s.stkId).filterMap s.repOf

/-- Whether the module follows another's loop. -/
def State.follower (s : State) : Bool := s.stk.casc && !s.stk.lmaster

/-- The cap C of a path that runs or would run on port `p` in direction `src`, credits (R110); before any contract as log entry 93 says, and on a loop
master over the members of its group (R440; log entry 121). -/
def State.capOf (s : State) (p : PortId) (src : Bool) : Nat :=
  match p with
  | .pc =>
    let n := s.grpCount
    let lim := n * (s.path p).limit
    let byV := n * quo (15 * (s.path .pc).vmeas) 100
    if s.track then
      match s.pp.pmpp with
      | some e => min lim (min byV (n * quo (105 * e) 10000))
      | none => min lim byV
    else min lim byV
  | _ =>
    let lim := (s.path p).limit
    match portTc p with
    | none => lim
    | some t =>
      let x := s.tc t
      if src then
        match x.contract with
        | some c => min lim (quo (c.volt * c.curr) 100000)
        | none => min lim (max (quo (5 * x.ifrs) 100) 75)
      else
        match x.contract with
        | some c => min lim (quo (c.volt * c.curr) 100000)
        | none => min lim (quo (5 * s.r67 p) 100)

/-! ## VSYS target (R179, R180) -/

/-- VSYS_MIN in mV. -/
def State.vsysMin (s : State) : Nat := 10 * clampN 600 4400 (s.reg16 0x0152)

/-- The target of R180 that the reference moves to, mV. -/
def State.vsysGoal (s : State) : Nat :=
  if s.pp.batPres then max (s.pp.vbatOpen + 200) s.vsysMin else s.vsysMin

/-- Whether a source path may start (R196, R198). -/
def State.srcMay (s : State) : Bool := s.anySink || s.revOkNow

/-! ## The battery switch (R187, R188, R68) -/

/-- Whether a trigger of R187 holds the switch OFF: no battery, a fence, or the fault policy. -/
def State.switchOffDue (s : State) : Bool := !s.pp.batPres || s.flt.fence.getLsbD 15 || s.flt.bsOpen

/-- The switch opens (R187). -/
def State.switchOff (s : State) : State := s.onPp fun x => { x with batSw := .off, soft := .no, linBefore := false, linRef := 0 }

/-- VBAT while the switch is open: the 10 ms average, or BAT+ itself until one has been formed (R180). -/
def State.vbatNow (s : State) : Nat := if s.ms.fresh then s.ms.vbat else s.pp.nodes.bat

/-- Where the switch is about to conduct, VBAT of the last moment it was open is held (R180). -/
def State.vbatHold (s : State) : State :=
  s.when (s.pp.batSw == .off || s.pp.batSw == .diode) fun t => t.onPp fun x => { x with vbatOpen := t.vbatNow }

/-- The switch leaves OFF under R68: soft connection where VSYS stands more than 1.0 V below BAT+, else DIODE (R188). -/
def State.switchClose (s : State) : State :=
  if s.switchOffDue || s.pp.batSw != .off || s.pp.soft == .waiting then s
  else if s.pp.nodes.vsys + 1000 < s.pp.nodes.bat then s.vbatHold.onPp fun x => { x with batSw := .linear, soft := .running, linRef := 3000, dormOn := true }
  else s.onPp fun x => { x with batSw := .diode, dormOn := true }

/-- The switch turns fully on, by soft connection where VSYS stands more than 1.0 V below BAT+ (R68, R188). -/
def State.switchFull (s : State) : State :=
  if s.pp.nodes.vsys + 1000 < s.pp.nodes.bat then
    s.vbatHold.onPp fun x => { x with batSw := .linear, soft := .running, linRef := 3000, linBefore := x.batSw == .linear && x.soft == .no }
  else s.vbatHold.onPp fun x => { x with batSw := .full, linBefore := x.batSw == .linear && x.soft == .no }

/-- Before resident firmware runs, AON hardware judges the battery by BAT+ alone and at once, and the switch follows (R174, R187). -/
def State.batHw (s : State) : State :=
  if s.sys.mode == .waking && s.sys.tier == 0 && !s.sys.fwUp then
    let on := decide (1000 ≤ s.pp.nodes.bat)
    let s1 := s.onPp fun x => { x with batPres := on }
    if on then s1.switchClose else s1.switchOff
  else s

/-! ## PATH (R200 to R202) -/

/-- The battery state of R201, by the battery current averaged over 100 µs. -/
def State.batNow (s : State) : BatState :=
  let i := s.ms.ibatFast
  let was := s.pp.bat == .supplementing || s.pp.bat == .discharging
  if s.pp.batSw == .off then .open
  else if i < -50 || (was && i ≤ -20) then (if s.anySink then .supplementing else .discharging)
  else if s.chg.phase.charging && (s.pp.batSw == .full || s.pp.batSw == .linear) then .charging
  else .floating

/-- Whether PATH.BAT has read SUPPLEMENTING within the last `us` µs (R225, R248). -/
def State.suppIn (s : State) (us : Nat) : Bool :=
  s.pp.bat == .supplementing || (s.pp.suppAt.any fun t => decide (s.now < t + us))

/-- Raises PATH_CHANGE with the value before the first change and the value now (R202). -/
def State.pathEvent (s : State) (before : Byte) : State :=
  (s.onPp fun x => { x with pathAt := some s.now, pathPend := none }).raise Src.campion Ev.pathChange [before, s.pathByte]

/-- Whether PATH_CHANGE may be raised now: at most once per 1 ms (R202). -/
def State.pathMay (s : State) : Bool :=
  match s.pp.pathAt with
  | some t => t + 1000 ≤ s.now
  | none => true

/-- What hardware does with PATH after a step that led from PATH `before`: the battery state follows its inputs, and a change
is reported, or kept to be reported when 1 ms has passed (R200, R202). -/
def State.pathNote (before : Byte) (s : State) : State :=
  let s1 := s.onPp fun x => { x with bat := s.batNow, suppAt := if s.batNow == .supplementing then some s.now else x.suppAt }
  match s1.pp.pathPend with
  | some b => if s1.pathMay then s1.pathEvent b else s1
  | none =>
    if s1.pathByte = before then s1
    else if s1.pathMay then s1.pathEvent before
    else s1.onPp fun x => { x with pathPend := some before }

/-- The end of a step from `s0` that may have changed PATH. -/
def settle (s0 s : State) : Out := .next (s.pathNote s0.pathByte)

end Sys2Proof.Machine
end

