-- ==== Sys2Proof/Machine/TcOps.lean ====
section
/-! DEFINITION. The Type-C ports' shared operations (chapter 09): offers, requests and contracts, the module's own
capabilities, source paths and how they end, hard reset, detach, authentication and the DORMANT preparation. -/
namespace Sys2Proof.Machine

/-! ## Messages and events (R287, R288) -/

/-- Whether a message of the module opens an exchange whose answer comes with a later message: a source keeps SinkTxNG, Rp at 1.5 A, until then
(R267). A Security message of the module that is a request has its code from 0x81 on. -/
def opens : PdMsg → Bool
  | .prSwap | .drSwap | .vconnSwap | .sourceCaps _ | .getSinkCap | .getSourceCap | .getStatus | .getRevision | .alert _ => true
  | .security (b :: _) => decide (0x81 ≤ b.toNat)
  | _ => false

/-- The exchange has ended: under a contract a source presents SinkTxOk, Rp at 3.0 A, again (R267). -/
def TcPort.closes (x : TcPort) : TcPort := { x with rpOut := if x.src && x.contract.isSome then 2 else x.rpOut }

/-- The module sends `m` on port `t`. -/
def State.tx (s : State) (t : TcId) (m : PdMsg) : State :=
  s.onTc t fun x => { x with tx := x.tx ++ [m], rpOut := if x.rpOut == 2 && opens m then 1 else x.rpOut }

/-- A command on port `t` begins: Cowslip takes it up in a run that completes (R39), and the messages of the command before it are forgotten. The partner's answer to a Get_Status is no command of its
own; what it ends has ended by then (R267). -/
def State.txClear (s : State) (t : TcId) : State :=
  (s.taskRan .cowslip).onTc t fun x => if x.tx.contains .getStatus then { x.closes with tx := [] } else { x with tx := [] }

/-- Raises an event of port `t` (R288). -/
def State.tcEvent (s : State) (t : TcId) (code : BitVec 16) (detail : List Byte) : State := s.raise (Src.tc t) code detail

/-- PD_SWAP: `what` 0 PR, 1 FR, 2 DR, 3 VCONN; `how` 0 DONE, 1 REJECTED, 2 ABANDONED (R288, log entry 8). -/
def State.swapEvent (s : State) (t : TcId) (what how : Nat) : State :=
  s.tcEvent t Ev.pdSwap [nameByte Ev.pdSwap what, nameByte Ev.pdSwap (4 + how)]

/-- AUTH_RESULT: 0 PASS, 1 FAIL, 2 DETACHED. -/
def State.authEvent (s : State) (t : TcId) (r : Nat) : State := s.tcEvent t Ev.authResult [nameByte Ev.authResult r]

/-! ## The Type-C block's registers (R265) -/

/-- ROLE: 0 sink only, 1 Try.SNK, 2 Try.SRC; 3 is applied as 0. -/
def State.tcRole (s : State) (t : TcId) : Nat := s.regF (tcBase t) 1 0 % 3

/-- Whether the port is dual-role. -/
def State.dualRole (s : State) (t : TcId) : Bool := s.tcRole t != 0

/-- Bit `i` of Px_ROLE: 2 FRSEN, 3 EPREN, 4 PPSEN, 5 PRSACC, 6 AUTHREQ. -/
def State.roleBit (s : State) (t : TcId) (i : Nat) : Bool := s.regBit (tcBase t) i

/-- VMAX in mV. -/
def State.vMax (s : State) (t : TcId) : Nat := 250 * clampN 20 192 (s.regN (tcBase t + 1))

/-- VMIN in mV. -/
def State.vMin (s : State) (t : TcId) : Nat := 250 * clampN 20 (clampN 20 192 (s.regN (tcBase t + 1))) (s.regN (tcBase t + 2))

/-- PMIN in mW. -/
def State.pMin (s : State) (t : TcId) : Nat := 1000 * min 240 (s.regN (tcBase t + 3))

/-- PMAX in mW. -/
def State.pMax (s : State) (t : TcId) : Nat := 1000 * min 240 (s.regN (tcBase t + 4))

/-- Bit `i` of Px_SRC_CFG: 0 SRCPPS, 1 SRCEPR, 2 SRCAVS, 3 VCONNEN. -/
def State.srcBit (s : State) (t : TcId) (i : Nat) : Bool := s.regBit (tcBase t + 5) i

/-- The path limit of a Type-C port in mW (R110). -/
def State.pathMw (s : State) (t : TcId) : Nat := 100 * (s.path (tcPort t)).limit

/-- Whether AUTHREQ holds the port at 15 W (R286). -/
def State.authLimit (s : State) (t : TcId) : Bool := s.roleBit t 6 && !(s.tc t).authOk

/-- Whether the port may be a source now (R266, R198). -/
def State.tcSourceOk (s : State) (t : TcId) : Bool := s.dualRole t && s.pMax t != 0 && s.srcMay && !s.portFenced (tcPort t) && !s.flt.hold && !s.stk.casc

/-! ## Choosing an offer (R270, R271) -/

/-- `v` rounded to the nearest multiple of `u`, a tie upward (log entry 26). -/
def roundTo (u v : Nat) : Nat := (2 * v + u) / (2 * u) * u

/-- V_pref in mV: 1.15 × the VSYS target, rounded to `u` mV and limited to VMIN to VMAX (R270). -/
def State.vPref (s : State) (t : TcId) (u : Nat) : Nat := clampN (s.vMin t) (s.vMax t) (roundTo u (115 * s.pp.vsysTgt / 100))

/-- The step to which V_pref is rounded for a kind of offer (R270). -/
def prefStep : PdoKind → Nat
  | .pps => 20 | .sprAvs | .eprAvs => 100 | .fixed | .eprFixed => 1

/-- Px_CONTRACT.KIND (R265). -/
def kindCode : PdoKind → Nat
  | .fixed => 1 | .pps => 2 | .sprAvs => 3 | .eprFixed => 4 | .eprAvs => 5

/-- Whether an offer is a fixed supply. -/
def pdoFixed : PdoKind → Bool
  | .fixed | .eprFixed => true
  | _ => false

/-- Whether an offer is adjustable with a power rating. -/
def pdoAvs : PdoKind → Bool
  | .sprAvs | .eprAvs => true
  | _ => false

/-- What the module would request of an object: chosen voltage, operating current and usable power, which for AVS is at most the PDP (R270,
R271). -/
def State.offerOf (s : State) (t : TcId) (o : Pdo) : Offer :=
  let v := if (pdoFixed o.kind) then o.vmin else clampN o.vmin o.vmax (s.vPref t (prefStep o.kind))
  let i := if (pdoAvs o.kind) then min o.imax (quo (o.pdp * 1000000) v) else o.imax
  let w := if pdoAvs o.kind then min (quo (v * o.imax) 1000) (o.pdp * 1000) else quo (v * i) 1000
  { pos := o.pos, kind := kindCode o.kind, volt := v, curr := i, power := min w (s.pathMw t), mismatch := false }

/-- Whether an object is acceptable; those of EPR count in EPR mode alone (R270). -/
def State.acceptable (s : State) (t : TcId) (o : Pdo) : Bool :=
  let r := s.offerOf t o
  (if (pdoFixed o.kind) then s.vMin t ≤ o.vmin && o.vmin ≤ s.vMax t else o.vmin ≤ s.vMax t && s.vMin t ≤ o.vmax && s.roleBit t 4)
    && s.pMin t ≤ r.power && (!s.authLimit t || r.power ≤ 15000) && (o.pos ≤ 7 || (s.tc t).epr)

/-- The keys of R271: whether `a` ranks before `b`. -/
def State.ranksBefore (s : State) (t : TcId) (a b : Pdo) : Bool :=
  let x := s.offerOf t a
  let y := s.offerOf t b
  let dist := fun (r : Offer) => max (115 * s.pp.vsysTgt) (100 * r.volt) - min (115 * s.pp.vsysTgt) (100 * r.volt)
  if x.power != y.power then x.power > y.power
  else if (pdoFixed a.kind) != (pdoFixed b.kind) then (pdoFixed a.kind)
  else if dist x != dist y then dist x < dist y
  else a.pos < b.pos

/-- The first-ranked of a list of objects. -/
def State.bestOf (s : State) (t : TcId) : List Pdo → Option Pdo
  | [] => none
  | a :: r =>
    match s.bestOf t r with
    | some b => if s.ranksBefore t a b then some a else some b
    | none => some a

/-- The first-ranked acceptable offer among the partner's objects that `ok` admits (R271). -/
def State.bestOffer (s : State) (t : TcId) (ok : Pdo → Bool) : Option Offer :=
  (s.bestOf t ((s.tc t).offers.filter fun o => s.acceptable t o && ok o)).map (s.offerOf t)

/-- Whether a request would ask for what the contract already gives (R272). -/
def sameOffer (a b : Offer) : Bool := a.pos == b.pos && a.kind == b.kind && a.volt == b.volt && a.curr == b.curr && a.mismatch == b.mismatch

/-- Sends a Request, or in EPR mode an EPR_Request, for `o` (R271, R273). -/
def State.sendReq (s : State) (t : TcId) (o : Offer) : State :=
  (s.onTc t fun x => { x with req := some o, reqAt := s.now }).tx t (if (s.tc t).epr then .eprRequest o else .request o)

/-- The offer the module asks for: the first-ranked, else vSafe5V at its maximum current with Capability Mismatch (R271). -/
def State.wanted (s : State) (t : TcId) : Option Offer :=
  match s.bestOffer t fun _ => true with
  | some o => some o
  | none =>
    match (s.tc t).offers.find? fun o => o.kind == .fixed && o.vmin == 5000 with
    | some o => some { (s.offerOf t o) with mismatch := true }
    | none => none

/-- Evaluates the partner's offers and requests the first-ranked where it differs from the contract in force (R271, R272). The
offer a PD_MISMATCH calls refused is a free value, as nothing was refused (log entry 7). -/
def State.negotiate (s : State) (t : TcId) (always : Bool := false) : State :=
  match s.wanted t with
  | none => s
  | some o =>
    let differs := match (s.tc t).contract with
      | some c => !sameOffer c o
      | none => true
    if !differs && !always then s
    else
      let s1 := (s.onTc t fun x => { x with retries := 0, refused := none, fellBack := false, reWait := false, hrTries := 0 }).sendReq t o
      s1.when o.mismatch fun u => (u.tcEvent t Ev.pdMismatch [BitVec.ofNat 8 o.pos, BitVec.ofNat 8 (u.freeN 0)]).useFree 1

/-- A change that came while a request was under way is acted on, but not on the way to DORMANT (R272). -/
def State.reEvalNow (s : State) (t : TcId) : State :=
  s.when (s.tc t).reEval fun u => (u.onTc t fun y => { y with reEval := false }).when (s.sys.dorm == .none) fun v =>
    v.when ((v.tc t).contract.isSome && (v.tc t).offers != []) fun w => w.negotiate t

/-- The fifth Wait or a Reject: the first-ranked offer of strictly lower power is requested (R273). With none, no request
follows and the contract in force stays (log entry 27), re-evaluated where a change came meanwhile (R272). -/
def State.fallBack (s : State) (t : TcId) : State :=
  match (s.tc t).req with
  | none => s
  | some r =>
    match s.bestOffer t fun o => (s.offerOf t o).power < r.power with
    | some o =>
      ((s.onTc t fun x => { x with retries := 0, refused := some r, fellBack := true }).sendReq t o).tcEvent t Ev.pdFallback
        [BitVec.ofNat 8 o.pos, BitVec.ofNat 8 r.pos]
    | none => (s.onTc t fun x => { x with req := none, retries := 0 }).reEvalNow t

/-! ## Starting a path (R166, R178) -/

/-- The output history at a start: the measured path current over 128 A in Q2.14 (R166). -/
def State.uhPreset (s : State) (p : PortId) : List Int :=
  List.replicate 3 (quoQ (((phaseNos.filter fun i => (s.phase i).port == some p && (s.phase i).st.gatesOn).foldl
    (fun a i => a + (s.phase i).ip.natAbs) 0 * 16384 : Nat) : Int) 128000)

/-- A path starts in direction `d`: VBUS closes, the reference stands at the measured node voltage, the output history is
preset to the measured path current over 128 A, and its phases run in diode emulation (R166). -/
def State.startPath (s : State) (p : PortId) (d : PathDir) : State :=
  let node := if d == .source then nodeV s.pp.nodes p else s.pp.nodes.vsys
  (s.formPath p d).onCc fun c => { c with comp := c.comp.modify (portIdx p) fun k => { k with
    diode := true, ramp := true, vsRef := 1000 * node, uh := s.uhPreset p } }

/-- The source path of port `t` starts at vSafe5V (R166, R268). -/
def State.startSource (s : State) (t : TcId) : State :=
  (s.startPath (tcPort t) .source).onTc t fun x => { x with src := true, rpOut := 1, rdOut := false }

/-! ## The module's own capabilities (R277) -/

/-- P in mW (R277, and R286 while AUTHREQ holds the port at 15 W). -/
def State.srcP (s : State) (t : TcId) : Nat :=
  let p := min (s.pMax t) (s.pathMw t)
  if s.authLimit t then min 15000 p else p

/-- The cable current C in mA: over 3 A only as VCONN source, to a cable found to carry it (R276, R277, R282). -/
def State.cableMa (s : State) (t : TcId) : Nat := if (s.tc t).cable5A && (s.tc t).vconnSrc then 5000 else 3000

/-- Whether EPR offers may be made but for the partner's EPR mode (R277). -/
def State.eprSrcOk (s : State) (t : TcId) : Bool :=
  s.srcBit t 1 && s.srcP t > 100000 && s.cableMa t == 5000 && (s.tc t).cableEpr

/-- A fixed object of the module. -/
def ownFixed (pos : Nat) (kind : PdoKind) (v i : Nat) : Pdo := { pos := pos, kind := kind, vmin := v, vmax := v, imax := i / 10 * 10 }

/-- The module's Source_Capabilities (R277). -/
def State.ownCaps (s : State) (t : TcId) : List Pdo :=
  let P := s.srcP t
  let C := s.cableMa t
  let first : Pdo := { (ownFixed 1 .fixed 5000 (min 3000 (P / 5))) with
    drp := s.dualRole t, eprCap := s.srcBit t 1, unc := s.anySink, drd := true, usb := false }
  let fixed := ([(9000, 3000), (15000, 3000), (20000, C)].filter fun v => v.1 / 2 ≤ P).map fun v =>
    ownFixed 0 .fixed v.1 (min v.2 (P * 1000 / v.1))
  let pps : List Pdo := if s.srcBit t 0 then
      [{ pos := 0, kind := .pps, vmin := 3300, vmax := 21000, imax := min C (min P 100000 / 21) / 50 * 50 }] else []
  let avs : List Pdo := if s.srcBit t 2 && P > 27000 then
      [{ pos := 0, kind := .sprAvs, vmin := 9000, vmax := 20000, imax := C, pdp := quo (min P 100000) 1000 }] else []
  let spr := (first :: (fixed ++ pps ++ avs)).mapIdx fun i o => { o with pos := i + 1 }
  let epr : List Pdo := if s.eprSrcOk t && (s.tc t).epr then
      ([28000, 36000, 48000].map fun v => ownFixed 0 .eprFixed v (min 5000 (P * 1000 / v)))
        ++ [{ pos := 0, kind := .eprAvs, vmin := 15000, vmax := 48000, imax := 5000, pdp := quo P 1000 }]
    else []
  spr ++ epr.mapIdx fun i o => { o with pos := 8 + i }

/-- Sends the module's Source_Capabilities where R198 permits a source, the first once the cable has been discovered (R276, R277); without VCONN
it asks for it before it offers over 3 A (R282). -/
def State.sendCaps (s : State) (t : TcId) : State :=
  if !(s.tc t).src || !(s.sourcing (tcPort t)) || ((s.tc t).cableTry != 0 && (s.tc t).srcOffered == []) then s
  else
    let l := s.ownCaps t
    let s1 := (s.onTc t fun x => { x with srcOffered := l, capsAt := some s.now, capsWait := true }).tx t (.sourceCaps l)
    s1.when (!(s.tc t).vconnSrc && !(s.tc t).vcWait && s.srcP t > 60000) fun u =>
      (u.onTc t fun x => { x with vcWait := true }).tx t .vconnSwap

/-- New Source_Capabilities where the offers differ from those sent, at most once per 1 s (R277). -/
def State.capsChange (s : State) (t : TcId) : State :=
  s.when (s.ownCaps t != (s.tc t).srcOffered && (s.tc t).srcOffered != []
    && !((s.tc t).capsAt.any fun a => decide (s.now < a + 1000000))) fun u => u.sendCaps t

/-- Discover Identity on SOP′ begins (R276). -/
def State.discoverCable (s : State) (t : TcId) : State :=
  (s.onTc t fun x => { x with cableTry := 1, cable5A := false, cableEpr := false, cableAns := false }).tx t .cableIdentity

/-- VCONN is sourced where the module is VCONN source and VCONNEN permits it (R276). -/
def State.vconnOn (s : State) (t : TcId) : State :=
  s.onTc t fun x => { x with vconnSrc := true, vconn := s.srcBit t 3 && !x.vconnOff && !s.flt.fence.getLsbD (13 + portIdx (tcPort t)) }

/-! ## Fast role swap (R280) -/

/-- The conditions of R280 but for the reserve. -/
def State.frsCond (s : State) (t : TcId) : Bool :=
  let x := s.tc t
  s.roleBit t 2 && s.dualRole t && x.tcs == .attachedSnk && !x.src && x.contract.isSome && x.rev3 && x.ifrs != 0 && s.revOkNow
    && !s.grd.fpen && !s.flt.hold && !s.stk.casc

/-- The reserve phases of port `t`. -/
def State.reserveOf (s : State) : TcId → List (Fin 8)
  | .a => s.fab.resA | .b => s.fab.resB

/-- The position of I_FRS among Default, 1.5 A and 3.0 A. -/
def ifrsPos (i : Nat) : Nat := if i = 3000 then 2 else if i = 1500 then 1 else 0

/-- Fast swap is disarmed, for the cause in position `cause` (R280, log entry 8). -/
def State.frsDisarm (s : State) (t : TcId) (cause : Nat) : State :=
  if (s.tc t).frsArm then
    (s.onTc t fun x => { x with frsArm := false }).tcEvent t Ev.frsDisarm
      [nameByte Ev.frsDisarm (ifrsPos (s.tc t).ifrs), nameByte Ev.frsDisarm (3 + cause)]
  else s

/-- The arming conditions are judged afresh (R280). -/
def State.frsEval (s : State) (t : TcId) : State :=
  let held := (s.reserveOf t).length == 2
  if s.frsCond t && held then
    if (s.tc t).frsArm then s
    else ((s.onTc t fun x => { x with frsArm := true }).onFab fun f => { f with lastArmed := some t }).tcEvent t Ev.frsArm
      [nameByte Ev.frsArm (ifrsPos (s.tc t).ifrs)]
  else s.frsDisarm t (if s.frsCond t then 0 else 1)

/-! ## The end of paths (R190, R195, R196, R278) -/

/-- An authentication under way ends with the attachment: AUTH_RESULT reports DETACHED, and its command completes WITHDRAWN (R285, R286). -/
def State.authDetach (s : State) (t : TcId) : State :=
  let x := s.tc t
  ((s.finishO x.authBox St.withdrawn).when x.authBusy fun u => u.authEvent t 2).onTc t fun y => { y with authBox := none, authBusy := false }

/-- A role swap under way ends with the attachment, and its commands complete WITHDRAWN (R285, R406, R412). -/
def State.swapDetach (s : State) (t : TcId) : State :=
  let x := s.tc t
  let s1 := s.when (x.swap != .none) fun u => u.swapEvent t (if x.swap == .frSent || x.swap == .frAccepted then 1 else 0) 2
  ((s1.finishO x.swapBox St.withdrawn).finishO x.drBox St.withdrawn).onTc t fun y => { y with
    swap := .none, swapEnd := false, swapBox := none, drBox := none, drWait := false, vcWait := false }

/-- VBUS is switched off after the selectors (R124) and discharged, Rp is removed and the port goes to Unattached.SNK, where it stays until R266 permits
sourcing again (R278 step 3); an authentication and a swap under way end with the attachment (R285, R286). -/
def State.srcRemove (s : State) (t : TcId) : State :=
  if !(s.tc t).src then s
  else
    ((((s.swapDetach t).authDetach t).endPath (tcPort t)).vbusRest (tcPort t)).onTc t fun x => { x with
      contract := none, req := none, trans := none, epr := false, eprWait := false, discharging := true, src := false, rpOut := 0
      rdOut := true, vconn := false, vconnSrc := false, srcOffered := [], frsSrc := false, capsWait := false }

/-- A source path must end (R278): the partner is asked to swap where it can, else the port is removed. A PR_Swap under way goes on. -/
def State.srcMustEnd (s : State) (t : TcId) : State :=
  let x := s.tc t
  if !x.src then s
  else
    match x.swap with
    | .none =>
      if x.contract.isSome && x.prDrp then (s.onTc t fun y => { y with swap := .prSent, swapEnd := true, retries := 0 }).tx t .prSwap
      else s.srcRemove t
    | .prSent => s.onTc t fun y => { y with swapEnd := true }
    | .prOff | .prRdy => s
    | .frSent | .frAccepted => s.srcRemove t

/-- Without a battery the last source of `before` is gone: PFW is asserted and the timed shutdown begins (R195). -/
def State.noSource (before s : State) : State :=
  s.when (!s.pp.batPres && !s.anyPresent && (before.anyPresent || (before.anySink && !s.anySink))) fun u =>
    (u.onPp fun x => { x with noBatPfw := true }).downCause 0x05 0x40

/-- What follows when `before` had a sink path and no sink path is left (R178, R190, R195, R196): another source's path forms at once where
only one may, else the battery takes over, or without one the source paths end. `p` is the port of the last sink path. At Tier 0 the battery
takes over with no hand-over to report (R68). -/
def State.sinkEnded (before : State) (p : PortId) (s : State) : State :=
  State.noSource before (
    if !before.anySink || s.anySink then s
    else
      match s.nextSink with
      | some q => s.startPath q .sink
      | none =>
        if s.pp.batPres then s.when s.sys.fwUp fun t => t.onPp fun x => { x with handover := true, lastSink := some p } else (s.srcRemove .a).srcRemove .b)

/-! ## Authentication (R286) -/

/-- The module begins to authenticate the partner. -/
def State.authStart (s : State) (t : TcId) : State :=
  (s.onTc t fun x => { x with authBusy := true }).tx t (.security [0x81])

/-- After the first explicit contract of an attachment, with AUTHREQ (R286). -/
def State.authMaybe (s : State) (t : TcId) : State :=
  let x := s.tc t
  s.when (s.roleBit t 6 && !x.authDone && !x.authBusy) fun u => u.authStart t

/-! ## EPR mode (R275) -/

/-- EPR mode ends, with EPR_EXIT for the cause in position `cause`; the EPR objects are no offers any more. -/
def State.eprEnd (s : State) (t : TcId) (cause : Nat) : State :=
  if (s.tc t).epr then
    (s.onTc t fun x => { x with epr := false, eprWait := false, offers := x.offers.filter fun o => o.pos ≤ 7 }).tcEvent t Ev.eprExit
      [nameByte Ev.eprExit cause]
  else s.onTc t fun x => { x with eprWait := false }

/-- EPR mode is left as sink with EPR_Mode (Exit), where EPREN or VMAX forbids it, or on the way to DORMANT (R275, R284). -/
def State.eprLeave (s : State) (t : TcId) : State :=
  s.when ((s.tc t).epr && !(s.tc t).src && (!s.roleBit t 3 || s.vMax t ≤ 20000 || s.sys.dorm != .none)) fun u =>
    (u.tx t (.eprMode 5 0)).eprEnd t (if s.sys.dorm != .none then 2 else 1)

/-! ## DORMANT preparation (R284, R305) -/

/-- When no port's preparation is outstanding, the preparation passes to the rail shutdown, where a rail is to be shut down. -/
def State.dormNext (s : State) : State :=
  if s.sys.dorm == .ports && !s.tca.prepWait && !s.tcb.prepWait then
    if (List.range 8).any fun k => match s.railAt k with
        | some r => s.seq.on.getLsbD r && !slotDorm (s.slotAt k)
        | none => false
    then (s.onSys fun y => { y with dorm := .rails }).downRequest 0x08
    else s.onSys fun y => { y with dorm := .ready }
  else s

/-- The port preparation: EPR mode is left whatever the contract, and a PPS, AVS or EPR contract gives way to the first-ranked fixed offer (R275,
R284). -/
def State.tcPrep (s : State) (t : TcId) : State :=
  let x := s.tc t
  let k := match x.contract with
    | some c => c.kind
    | none => 0
  let s1 := s.eprLeave t
  if x.src || k < 2 then s1
  else
    match s1.bestOffer t fun o => o.kind == .fixed with
    | some o => (s1.sendReq t o).onTc t fun y => { y with prepWait := true }
    | none => s1

/-- EPR mode is entered as sink where every condition of R275 holds. -/
def State.eprTry (s : State) (t : TcId) : State :=
  let x := s.tc t
  if s.roleBit t 3 && s.vMax t > 20000 && (s.path (tcPort t)).limit > 1000 && x.prEpr && x.contract.isSome && !x.src && !x.epr
      && !x.eprWait && s.sys.dorm == .none then
    (s.onTc t fun y => { y with eprWait := true }).tx t (.eprMode 1 (BitVec.ofNat 8 ((s.path (tcPort t)).limit / 10)))
  else s

/-! ## Hard Reset (R283, R284) -/

/-- A swap under way is abandoned, and its commands complete with RESULT 3; its exchange has ended (R267, R284, R412). -/
def State.swapAbandon (s : State) (t : TcId) : State :=
  let x := s.tc t
  let s1 := ((s.when (x.swap != .none) fun u => u.swapEvent t (if x.swap == .frSent || x.swap == .frAccepted then 1 else 0) 2).when x.drWait
    fun u => u.swapEvent t 2 2).when x.vcWait fun u => u.swapEvent t 3 2
  let s2 := (s1.finishO x.swapBox St.ok [3]).finishO x.drBox St.ok [3]
  s2.onTc t fun y => { y.closes with swap := .none, swapEnd := false, swapBox := none, drBox := none, drWait := false, vcWait := false, waitDue := false }

/-- The role a Hard Reset leads to, source or sink (R284): of a PR_Swap with VBUS off that of the attach, of an FR_Swap sink. -/
def TcPort.hrRole (x : TcPort) : Bool :=
  match x.swap with
  | .prOff | .prRdy => x.roleAtt
  | .frSent | .frAccepted => false
  | .none | .prSent => x.src

/-- A Hard Reset sent or received (R283): `sent`, and the position of its cause; VBUS opens after the selectors (R124). -/
def State.hardReset (s : State) (t : TcId) (sent : Bool) (cause : Nat) : State :=
  let p := tcPort t
  let asSrc := (s.tc t).hrRole
  let s1 := (s.when sent fun u => (u.tx t .hardReset).onTc t fun x => { x with hrTries := x.hrTries + 1 }).tcEvent t Ev.pdHardReset
    [nameByte Ev.pdHardReset (if sent then 0 else 1), nameByte Ev.pdHardReset (2 + cause)]
  let s2 := ((s1.swapAbandon t).frsDisarm t 1).eprEnd t 3
  let s3 := ((s2.endPath p).vbusRest p).setLearn p none
  let s4 := (s3.when (s3.tc t).authBusy fun u => (u.authEvent t 1).finishO (u.tc t).authBox St.authFail)
  let s5 := s4.onTc t fun x => { x with
    contract := none, req := none, trans := none, refused := none, retries := 0, fellBack := false, reWait := false, offers := []
    authOk := false, authBusy := false, authDone := false, authBox := none, srcOffered := [], src := asSrc, hrst := true
    rpOut := if asSrc then 1 else 0, rdOut := !asSrc, prepWait := false, ifrs := 0, frsSrc := false, reEval := false, capsWait := false
    tcs := if asSrc then .attachedSrc else .attachedSnk, discharging := asSrc }
  (State.sinkEnded s p (s5.setPresent p false)).dormNext

/-! ## Detach (R269, R285) -/

/-- The port with everything that belongs to an attachment put off; the orientation and the role stay until the discharge ends. -/
def TcPort.cleared (x : TcPort) : TcPort :=
  { tcs := x.tcs, orient := x.orient, discharging := x.discharging, tx := x.tx, src := x.src }

/-- TC_ATTACH or TC_DETACH: role, orientation, cable current (R288, log entry 8). -/
def State.attachEvent (s : State) (t : TcId) (code : BitVec 16) : State :=
  let x := s.tc t
  s.tcEvent t code [nameByte code (b2n x.src), BitVec.ofNat 8 x.orient, nameByte code (2 + b2n x.cable5A)]

/-- A detach is recognised in the state `before` (R190, R196, R269, R285): the path ends, VBUS opens after its selectors (R124), VCONN goes off, what was under way is given up, the contract is void
and the port's discharge begins. -/
def State.detach (before s : State) (t : TcId) : State :=
  let p := tcPort t
  let s1 := s.attachEvent t Ev.tcDetach
  let s4 := ((s1.swapDetach t).authDetach t).withdrawBoxes fun n =>
    decide (0x0501 ≤ (s.box n).op.toNat) && decide ((s.box n).op.toNat ≤ 0x0504) && s.fld n 0 1 == (if t == .a then 0 else 1)
  let s5 := (s4.frsDisarm t 1).eprEnd t 4
  let s6 := (((s5.endPath p).vbusRest p).setLearn p none).setPresent p false
  let s7 := s6.onTc t fun y => { y.cleared with discharging := true }
  (State.sinkEnded before p s7).dormNext

/-! ## Re-evaluation (R272, R275, R278) -/

/-- A change of the Type-C block, or of what an offer's worth depends on, is acted on, once a request under way has ended (R272, R275, R278). -/
def State.tcReeval (s : State) (t : TcId) : State :=
  let x := s.tc t
  if x.tcs == .attachedSnk && !x.src then
    let s1 := s.eprLeave t
    let busy := x.req.isSome || x.trans.isSome
    let s2 := if busy then s1.onTc t fun y => { y with reEval := true } else s1.when (x.contract.isSome && x.offers != []) fun u => u.negotiate t
    s2.eprTry t
  else if x.tcs == .attachedSrc && x.src then
    if s.pMax t == 0 then s.srcMustEnd t
    else s.capsChange t
  else s

end Sys2Proof.Machine
end

