-- ==== Sys2Proof/Machine/ModeOps.lean ====
section
/-! DEFINITION. Shared operations of start, reset and mode (chapter 03): images and the loader, the stored set, the limp
controller, what a domain loses when it is powered down, module reset and AON power-on. -/
namespace Sys2Proof.Machine

/-! ## Images (R463, R466) -/

/-- The region of image `k`: 1 A, 2 B. -/
def State.imgCells (s : State) (k : Nat) : List Host.Cell := if k = 1 then s.nvm.imgA else s.nvm.imgB

/-- `n` bytes of image `k` from `a`. -/
def State.imgBytes (s : State) (k a n : Nat) : List Byte := memGets blankByte (s.imgCells k) a n

/-- Whether the header of image `k` has the right MAGIC (R463). -/
def State.imgMagic (s : State) (k : Nat) : Bool := ofLe (s.imgBytes k 0 4) == 0x3638584D

/-- VERSION of image `k`, as read. -/
def State.imgVer (s : State) (k : Nat) : Nat := ofLe (s.imgBytes k 4 2)

/-- LENGTH of image `k`. -/
def State.imgLen (s : State) (k : Nat) : Nat := ofLe (s.imgBytes k 8 4)

/-- Whether image `k` passes verification (R463). -/
def State.imgOk (s : State) (k : Nat) : Bool :=
  let n := s.imgLen k
  s.imgMagic k && ofLe (s.imgBytes k 6 1) ≤ 0xB1 && 1 ≤ n && n ≤ 98048
    && Config.firmwareSigOk (digest (s.imgBytes k 0 192)) (s.imgBytes k 192 64)
    && digest (s.imgBytes k 256 n) == s.imgBytes k 12 32

/-- The images to verify, in order (R69). -/
def State.imgOrder (s : State) : List Nat :=
  let l := [1, 2].filter fun k => s.imgMagic k && s.rollbackNow ≤ s.imgVer k
  if l = [1, 2] ∧ s.imgVer 1 < s.imgVer 2 then [2, 1] else l

/-- The ROM loader starts: MOSC and the CPU domain start and the image to verify is selected; with none the ROM image runs
(R69). MOSC is not enabled after three clock-loss resets in a row (R15). -/
def State.romStart (s : State) : State :=
  if s.clk.moscStopped then s
  else
    (s.onClk fun c => { c with moscEn := true }).onSys fun y =>
      match s.imgOrder with
      | k :: _ => { y with loader := .first, image := k }
      | [] => { y with loader := .done, image := 0 }

/-! ## The stored set (R459, R504) -/

/-- The settings in force, as a configuration store and the DORMANT save take them (R459, R504). -/
def State.cfgNow (s : State) : CfgSet :=
  { page := s.bus.page, chem := s.grd.chem, cells := s.grd.cells, wdgEn := s.grd.wdgEn, wdgPer := s.grd.wdgPer
    hpFilt := s.bus.hp.filt, spFilt := s.bus.sp.filt, attn := s.bus.attnCfg, limits := s.fab.path.map (·.limit)
    prios := s.fab.path.map (·.prio), hostCap := s.fab.hostCap, idleS := s.sys.idleS, wakeS := s.sys.wakeS
    safeSet := s.chg.safeSet, zones := s.chg.zoneTabNext.getD s.chg.zones, chemTabs := s.chemAll, coef := s.cc.coef
    roots := s.nvm.roots, hostAddr := s.bus.cfgAddr, attnAddr := s.bus.attnAddr, expect := s.stk.expect, scap := s.stk.scap
    safeg := s.stk.safegSet }

/-- FSW as applied, kHz (R154). -/
def State.fswReg (s : State) : Nat := clampN 1200 3000 (s.reg16 0x0140)

/-- Brings a set of settings into force, the filters of the two-wire ports at their next bus idle (R70, R371, R504). The engine judges the slot table, which waits while a run is in progress (R294); an AUX2 that is
on moves to a new set point (R291), NRSTO is released for RSTEN = 0 (R308), and SEQEN = 0 stops a run (R306). -/
def State.applyCfg (s : State) (c : CfgSet) : State :=
  let s1 := s.onBus fun b => { b with
    page := c.page, cfgAddr := c.hostAddr, attnAddr := c.attnAddr, attnCfg := c.attn
    hp := { b.hp with filt := c.hpFilt }, sp := { b.sp with filt := c.spFilt } }
  let s2 := s1.onGrd fun g => { g with chem := c.chem, cells := c.cells, wdgEn := c.wdgEn, wdgPer := c.wdgPer }
  let s3 := s2.onFab fun f => { f with
    path := f.path.mapIdx fun i x => { x with limit := c.limits.getD i x.limit, prio := c.prios.getD i x.prio }
    hostCap := c.hostCap }
  let s4 := s3.onSys fun y => { y with idleS := c.idleS, wakeS := c.wakeS, wakeNow := c.wakeS }
  let s5 := s4.onChg fun k => { k with safeSet := c.safeSet, zones := c.zones, zoneTabNext := none }
  let s6 := (s5.onSw fun w => { w with chem := c.chemTabs, chemNext := [] }).onCc fun k => { k with coef := c.coef, fsw := s5.fswReg, period := stepsOf s5.fswReg, fswPend := false, sync := if s5.regBit 0x0142 0 then .acquiring else .free }
  let s7 := (s6.onNvm fun n => { n with roots := c.roots }).onStk fun k => { k with expect := c.expect, scap := c.scap, safegSet := c.safeg }
  let s8 := s7.when (s7.seq.on.getLsbD 2 && s7.reg 0x01E2 != s.reg 0x01E2) fun t => t.onSeq fun q => { q with aux2Moving := true }
  let s9 := if s8.seqIdle then s8.tableApply else s8.onSeq fun q => { q with tblPend := q.tbl != s8.pageTable }
  let s10 := s9.when (!s9.rstEn) fun t => t.onSeq fun q => { q with nrstSeq := false, nrstDue := false }
  s10.when (s.seqEn && !s10.seqEn) State.seqDisable

/-- The settings that a configuration store writes (R459): those in force, so neither a table or an FSW that waits nor, but on a manager, the stack
settings. -/
def State.cfgStored (s : State) : CfgSet :=
  let t := s.when s.seq.tblPend State.tableBack
  let u := t.when s.cc.fswPend fun x => (x.setReg 0x0140 (BitVec.ofNat 8 s.cc.fsw)).setReg 0x0141 (BitVec.ofNat 8 (s.cc.fsw / 256))
  let k := if s.isManager then s.stk else {}
  { s.cfgNow with page := u.bus.page, zones := s.chg.zones, chemTabs := s.sw.chem, expect := k.expect, scap := k.scap, safeg := k.safegSet }

/-- The 32 bytes of a bank's header (R460). -/
def bankHdr (seq : Nat) (rel : BitVec 16) (body : List Byte) : List Byte :=
  let h := le 4 0x47464E43 ++ le 4 seq ++ le 2 body.length ++ le 2 rel.toNat ++ le 4 (crc32 body) ++ List.replicate 12 0xFF
  h ++ le 4 (crc32 h)

/-- SEQ of a bank. -/
def Bank.seq (b : Bank) : Nat := ofLe ((b.hdr.drop 4).take 4)

/-- FWREL of a bank. -/
def Bank.rel (b : Bank) : Nat := ofLe ((b.hdr.drop 10).take 2)

/-- Whether the header and the body of a bank check (R460, R461). -/
def Bank.ok (b : Bank) : Bool :=
  ofLe (b.hdr.take 4) == 0x47464E43 && ofLe ((b.hdr.drop 28).take 4) == crc32 (b.hdr.take 28)
    && ofLe ((b.hdr.drop 8).take 2) == b.body.length && b.body.length ≤ 12256 && ofLe ((b.hdr.drop 12).take 4) == crc32 b.body

/-- The fields of a body that `has` admits, the others at their factory defaults: the control registers by their addresses, the rest in the order of
R459 (R461). -/
def CfgSet.known (c : CfgSet) (has : Nat → Bool) : CfgSet :=
  let d : CfgSet := {}
  { page := c.page.filter fun x => has x.1
    chem := if has 0 then c.chem else d.chem, cells := if has 0 then c.cells else d.cells, wdgEn := if has 1 then c.wdgEn else d.wdgEn
    wdgPer := if has 2 then c.wdgPer else d.wdgPer, hpFilt := if has 3 then c.hpFilt else d.hpFilt, spFilt := if has 4 then c.spFilt else d.spFilt
    attn := if has 5 then c.attn else d.attn, limits := if has 6 then c.limits else d.limits, prios := if has 7 then c.prios else d.prios
    hostCap := if has 8 then c.hostCap else d.hostCap, idleS := if has 9 then c.idleS else d.idleS, wakeS := if has 10 then c.wakeS else d.wakeS
    safeSet := if has 11 then c.safeSet else d.safeSet, zones := if has 12 then c.zones else d.zones
    chemTabs := if has 13 then c.chemTabs else d.chemTabs, coef := if has 14 then c.coef else d.coef, roots := if has 15 then c.roots else d.roots
    hostAddr := if has 16 then c.hostAddr else d.hostAddr, attnAddr := if has 17 then c.attnAddr else d.attnAddr
    expect := if has 18 then c.expect else d.expect, scap := if has 19 then c.scap else d.scap, safeg := if has 20 then c.safeg else d.safeg }

/-- The settings a bank gives the running image of release `ver`; a body of another major release is loaded field by field (R461). -/
def Bank.load (b : Bank) (ver : BitVec 16) : CfgSet := if b.rel / 256 = ver.toNat / 256 then b.cfg else b.cfg.known (Config.cfgHas b.rel)

/-- The bank loaded at Tier 1: of those that check, the one with the higher SEQ (R461). -/
def State.bankNow (s : State) : Option (Nat × Bank) :=
  match (s.nvm.cfg.getD 0 none).filter Bank.ok, (s.nvm.cfg.getD 1 none).filter Bank.ok with
  | some a, some b => if b.seq > a.seq then some (1, b) else some (0, a)
  | some a, none => some (0, a)
  | none, some b => some (1, b)
  | none, none => none

/-! ## The limp controller (R66, R67) -/

/-- The source the limp controller draws from: the one it has until that falls, else the first in the order PC, PA, PB above
its rising threshold (R66). -/
def limpPick (n : Nodes) (old : Option PortId) : Option PortId :=
  let next := [PortId.pc, .pa, .pb].find? fun p => (uvlo p).1 < nodeV n p
  match old with
  | some p => if (uvlo p).2 ≤ nodeV n p then some p else next
  | none => next

/-- The node voltages as the limp controller sees them: a port that sources, or that discharges after it did, is no source (R66, R80). -/
def State.inputs (s : State) (n : Nodes) : Nodes :=
  { n with pa := if s.sourcing .pa || s.tca.discharging then 0 else n.pa, pb := if s.sourcing .pb || s.tcb.discharging then 0 else n.pb }

/-- The source phase 0 can serve under the limp controller: none while it is FENCED or Q0, in which both are, is not powered (R9, R10). -/
def State.limpCan (s : State) (src : Option PortId) : Option PortId :=
  if (s.phase 0).st == .fenced || !s.sys.dom.getLsbD 6 then none else src

/-- Phase 0 passes to the limp controller on the source `src`, or is free without one; no other path is active. A FENCED phase 0 and an unpowered Q0
serve no source. -/
def State.limpTo (s0 : State) (src : Option PortId) : State :=
  let s := s0.when src.isSome fun t => t.bringUp 0x0040
  let pick := s.limpCan src
  let s1 := s.onFab fun f => { f with
    ph := f.ph.mapIdx fun i x => if x.st == .fenced then x else if i = 0 then (match pick with
      | some p => { freed x with st := .limp, port := some p }
      | none => freed x) else freed x
    path := f.path.mapIdx fun i x =>
      let on := pick.isSome && pick == ports[i]?
      { x with dir := if on then .sink else .off, limp := on, grant := 0, req := 0, used := 0, unmet := false, addTicks := 0, fresh := false }
    lead := none }
  let s2 := s1.onSys fun y => { y with
    limp := pick.isSome, limpSrc := pick, limpTgt := s.limpTarget
    limpLim := match pick with
      | some p => s.limpLimit p
      | none => 0 }
  match pick with
  | some p => s2.setVbus p true
  | none => s2

/-- Phase 0 passes to the limp controller on the source of R66, or stays free without one. -/
def State.limpOn (s : State) : State := s.limpTo (if s.flt.hold then none else limpPick (s.inputs s.pp.nodes) s.sys.limpSrc)

/-! ## The quiet period and the fences (R321, R330, R339) -/

/-- Whether automatic exit from HOLD is permitted: every class 4 record since its entry is TRANSIENT (R330, R339). -/
def State.autoOk (s : State) : Bool :=
  s.flt.hold && s.flt.recs.all fun r => !(s.flt.holdRecs.contains r.recno && r.cls == 4 && !r.transient)

/-- The quiet period starts (R330), with FLT_QP as it stands. -/
def State.quietStart (s : State) : State :=
  s.onFlt fun f => { f with quietAt := s.now, quietLen := 10 * clampN 1 6000 (s.reg16 0x0201), autook := s.autoOk }

/-- The source number of the unit of a fence-mask bit; the charge function and NVM writes are named by 0x81 and 0x51 (log entry
29). -/
def unitSrc (b : Nat) : Nat :=
  if b < 8 then b else if b < 10 then b else if b < 13 then b + 6 else if b < 15 then b + 3
  else if b = 15 then 0x18 else if b = 16 then Src.teasel else if b < 25 then 0x40 + (b - 17) else Src.nvm

/-- The cause for which the unit of bit `b` was fenced (R344). -/
def State.fenceCause (s : State) (b : Nat) : Nat := (s.flt.fenceBy.getD b 0).toNat

/-- The cause of worker `k`'s fence (R344); of a fence taken over from another manager it is not known, and a free value stands for it (log entry 7). -/
def State.memberCause (s : State) (k : Nat) : Nat := let c := s.stk.fencedBy.getD k 0; if c = 0 then s.freeN k % 2 ^ 16 else c

/-- UNFENCE of every fenced worker of a manager that gives up its role (R322). -/
def State.memberUnfence (s before : State) : State :=
  s.when before.isManager fun u =>
    (bitsOf 32 before.stk.fencedM).foldl (fun t k => t.raise Src.stack Ev.unfence ([BitVec.ofNat 8 Src.stack] ++ le 2 (before.memberCause k))) (u.useFree 32)

/-- UNFENCE of every fence that a module reset lifts (R321, R322). -/
def State.resetUnfence (s before : State) : State :=
  let s1 := (bitsOf 26 before.flt.fence).foldl (fun t b =>
    t.raise (unitSrc b) Ev.unfence ([BitVec.ofNat 8 (unitSrc b)] ++ le 2 (before.fenceCause b))) s
  ((bitsOf 8 before.flt.stkf).foldl (fun t k => t.raise Src.stack Ev.unfence ([BitVec.ofNat 8 Src.stack] ++ le 2 (0x0600 + k))) s1).memberUnfence before

/-! ## What is lost when a domain is powered down (R9, R80, R374, R403, R470) -/

/-- MODE with resident firmware running (R78, R327). -/
def State.runMode (s : State) : Mode :=
  if s.flt.hold then .hold else if s.anyFence then .degraded else .run

/-- What CPU SRAM, MEAS and the conversion controller hold is lost; RET keeps its copies (R470). The
control registers in force are lost too but the sequencer's, under which the engine goes on, as the second evaluation of a rail does (R299, R304,
R504). The quantities last measured stand until they are measured again; phase health starts GOOD (R118), the thermal ceiling at 8000 credits with no
latch of TC (R109; DESIGN CHOICE, log entry 102), and a peak is allowed again, with no tick's power taken yet (R108; DESIGN CHOICE, log entry 111). -/
def State.cpuLost (s : State) : State :=
  let s1 := s.onFab fun f => { f with
    ph := f.ph.map fun x => { x with suspect := false, c1At := [], cleanAt := 0 }
    path := f.path.mapIdx fun i x => { x with limit := if i = 2 then 8000 else 2400, prio := 3 }
    basin := 6000, thCeil := 8000, tcLatch := false, hostCap := 8000, peak := .allowed, powHist := [], limTerm := 0, limUnmet := false
    limOther := false, resA := [], resB := [], lastArmed := none }
  let s2 := (s1.onCc fun _ => {}).onChg fun c => { record := c.record, safe := c.safe, safeUse := c.safeUse }
  let s3 := (s2.onMs fun m => { ccCopy := m.ccCopy, ccSat := m.ccSat, est := m.est, soc := m.soc, soc0 := m.soc0, socCc := m.socCc, rested := m.rested, mir := m.mir, mirAt := m.mirAt,
                                  cell := m.cell, vbat := m.vbat, ibat := m.ibat, ntc := m.ntc, tq0 := m.tq0, tq1 := m.tq1 }).onSw fun w =>
    { model := w.model, modelOf := w.modelOf, seeded := w.seeded && w.model != [] }
  let s4 := s3.onWd fun w => { w with run := .stopped, landed := 0, called := 0, heldm := 0, dupPer := 0, dup := 0, dupSat := false, hRun := false }
  let s5 := s4.onPp fun x => { x with learnA := none, learnB := none, prioBad := false, voc := none, pmpp := none, scan := none, scanDue := false,
                                      handover := false, dwell := false, linRef := if x.soft == .running then x.linRef else 0, pathPend := none }
  (s5.onBus fun b => { b with page := b.page.filter fun c => blockOf c.1 == some 5 }).onFlt fun f => { f with
    pend := f.pend.filter fun p => 0x40 ≤ localSrc p.source && localSrc p.source < 0x48, taskOnce := 0 }

/-- What HOST holds takes its after-reset values (R374, R504); GTS_LATCH and the mirrors are held in AON. -/
def PortBus.lost (b : PortBus) : PortBus := { gtsL := b.gtsL, epL := b.epL, mirL := b.mirL, mirStat := b.mirStat }

/-- HOST is powered down (R374); the control registers in force are resident firmware's (R504). -/
def State.hostLost (s : State) : State :=
  s.onBus fun b => { page := b.page, hp := b.hp.lost, sp := b.sp.lost, hostAddr := b.hostAddr, cfgAddr := b.cfgAddr, attnAddr := b.attnAddr }

/-- A Type-C port after a module reset: a sink stays attached without a contract, a source is unattached; a port that held a
contract owes a Hard Reset, as does one that owed it already (R80, R81). -/
def TcPort.afterReset (x : TcPort) : TcPort :=
  { tcs := if x.tcs == .attachedSnk && !x.src then .attachedSnk else .unattached
    orient := x.orient, hrBoot := x.contract.isSome || x.hrBoot, discharging := x.discharging || x.src }

/-- A module reset with boot reason `boot` (R80 to R82, R374, R403): outputs change within 2 µs, the named domains restart, HOST with its power-up time, and
the module is at Tier 0 in WAKING; AON, RET, SEQ, GTS, the rails and the HOLD latch stay (R327); a button still held counts no more
(R94), phase health starts GOOD (R118), a pending SHIP entry is dropped without an event (log entry 91), and fixed placement ends with
its event (R134). Every fence is lifted (R321), NRSTO is pulsed for RSTONWD = 1 (R308), and the quiet period of a HOLD starts again (R333). -/
def State.moduleReset (s : State) (boot : Byte) : State :=
  if s.sys.mode == .ship || s.sys.mode == .unpowered || s.sys.cut then s
  else
    let t0 := (s.when s.flt.hold State.quietStart).nvmCutNow
    let t1 := ((t0.cpuLost).hostLost).onChg fun c => { c with safe := false, safeUse := false }
    let t2 := (t1.onPhases fun x => if x.st == .fenced then freed x else x).onFlt fun f => { f with fence := 0, stkf := 0, cur := if f.hold then f.cur else 0 }
    let t3 := (t2.onTca TcPort.afterReset).onTcb TcPort.afterReset
    let t4 := t3.onPp fun x => { x with
      vbusA := x.vbusA && !s.flt.hold && !s.sourcing .pa, vbusB := x.vbusB && !s.flt.hold && !s.sourcing .pb
      batSw := if (x.batSw == .full || x.batSw == .linear) && x.soft == .no then .diode else x.batSw, linBefore := false }
    let t5 := (t4.onGrd fun g => { fuse := g.fuse, fuseLive := g.fuse, fuseStraps := g.fuseStraps }).onMb fun _ => {}
    let t6 := t5.onQs fun q => { evt := q.evt }
    let t7 := t6.onStk fun k => { safeg := k.safeg }
    let t8 := t7.onSeq fun q => { q with upBox := [], downBox := [], fenced := 0, seqno := t0.ringTop }
    let t9 := t8.onNvm fun n => { n with stage := [], staged := false }
    let t10 := t9.onSys fun y => { y with
      mode := .waking, tier := 0, romImg := false, cfgDef := false, fwRun := false, fwUp := false, halted := false
      boot := boot, wake := 0, hostContact := false, loader := .idle, image := 0, idleS := 5, wakeS := 60, wakeNow := 60
      dorm := .none, dormBox := none, wakeLatch := 0, timerWake := false, shipAt := none, shipRef := false, shipShut := false, domQ := [], domBusy := if s.clk.moscRun then some { dom := 13, on := true } else none, btnCounts := false
      dom := (y.dom &&& 0x0C43) ||| (if s.clk.moscRun then 0x0004 else 0), straps := y.pins }
    let t11 := t10.onWd fun w => { w with run := if s.grd.fuse.getLsbD 0 then .boot else .stopped, tick := 0, hExp := false, hLastSp := false, hBad := false, kicks := [] }
    let t12 := (t11.when s.grd.fpen fun t => t.raise Src.campion Ev.forcedPlacement).resetUnfence s
    let t13 := t12.when (s.regBit 0x01E0 2) fun t => t.nrstoPulse 0x02
    ((t13.batHw).limpOn).romStart

/-! ## AON power-on (R22, R92, R93) -/

/-- AON powers on with boot reason `boot` and wake mask `wake`: everything starts from zero but what the outside holds, the
non-volatile memory and the fuses. -/
def State.aonOn (s : State) (boot : Byte) (wake : BitVec 16) : State :=
  { sys := { boot := boot, wake := wake, pins := s.sys.pins, straps := s.sys.pins, btnDown := s.sys.btnDown }
    grd := { fuse := s.grd.fuse, fuseLive := s.grd.fuse, fuseStraps := s.grd.fuseStraps }
    pp := { nodes := s.pp.nodes, dcdetLow := s.pp.dcdetLow, rpA := s.pp.rpA, rpB := s.pp.rpB, batPres := decide (1000 ≤ s.pp.nodes.bat) }
    seq := { seqno := s.ringTop }
    wd := { run := if s.grd.fuse.getLsbD 0 then .boot else .stopped }
    nvm := { s.nvm with q := [], prog := none, stage := [], staged := false, roots := List.replicate 4 none }
    free := s.free, pending := s.pending }

/-! ## SHIP cancelled (R91) -/

/-- A source attach or a press of PBTN during the SHIP delay cancels the entry (R91). -/
def State.shipCancel (s : State) : State :=
  if s.sys.shipAt.isSome && !s.sys.shipShut then
    (s.onSys fun y => { y with shipAt := none }).raise Src.vetch Ev.shipCancelled
  else s

/-! ## Unpowered and SHIP (R9, R52, R91, R93) -/

/-- AON holds nothing but the causes of its next power-on: in SHIP, in a battery-cut and without supply. -/
def State.dark (s : State) (m : Mode) (cut : Bool) : State :=
  let t := (s.nvmCutNow).aonOn 0x01 0
  ((t.onSys fun y => { y with mode := m, cut := cut, dom := 0, btnCounts := s.sys.btnCounts }).onClk fun c => { c with aoscOn := false }).onWd fun w =>
    { w with run := .stopped }

/-- SHIP is reached from RUN or DEGRADED once the shutdown and the write queue have completed (R78, R91). -/
def State.shipCheck (s : State) : State := s.when (s.sys.shipShut && s.runs && s.seq.st == .off && s.nvmIdle) fun t => t.dark .ship false

/-! ## The conditions and the preparation of DORMANT (R84, R305) -/

/-- The entry conditions of R84 with a VSYS load of `load` mW averaged over the last 1 s; `own` is the mailbox whose flight is
excepted, `stk` whether the stack manager commands DORMANT. -/
def State.dormCond (s : State) (load : Nat) (own : Option (Fin 4)) (stk : Bool) : Bool :=
  s.runs && !s.anySource && s.pp.bat != .charging && s.sw.run == .none
    && ((List.finRange 4).all fun k => (s.box k.val).st == .free || own == some k)
    && s.nvmIdle && s.seqIdle && (ports.filter s.present).length ≤ 1 && load ≤ 3000 && (!s.inStack || stk)

/-- The rails that a DORMANT preparation shut down are powered up again: on a wake as a request of R298, and whatever SEQEN holds where the entry is
abandoned (R305, R306). -/
def State.dormRails (s : State) (code : Nat) : State :=
  s.when (s.seq.dormOff != 0) fun t => (t.onSeq fun q => { q with dormOff := 0 }).upRequest code (code != 3)

/-- The preparation of DORMANT is given up: a command that waits for it completes with `status`, a wake that was latched is spent, and the rails are
powered up again (R79, R85, R305). A worker that its stack sends to DORMANT reports the refusal; a manager wakes its stack (R450). -/
def State.dormCancel (s : State) (status : Byte) : State :=
  if s.sys.dorm == .none then s
  else
    let s1 := s.finishO s.sys.dormBox status
    let s2 := s1.onSys fun y => { y with dorm := .none, dormBox := none, wakeLatch := 0 }
    let s3 := (s2.onTca fun x => { x with prepWait := false }).onTcb fun x => { x with prepWait := false }
    let s4 := s3.when s.stk.dormDo.isSome fun t =>
      (t.onStk fun k => { k with dormDo := none, dormPh := 0, ack := 0x4C }).onBus fun b => { b with stkUpdTo := if s.isManager then s.now + 10 else b.stkUpdTo }
    s4.dormRails 0x07

/-- The preparations of DORMANT begin, first those of the ports (R84, R284, R305). -/
def State.dormBegin (s : State) : State :=
  ((((s.onSys fun y => { y with dorm := .ports }).onSeq fun q => { q with dormOff := 0 }).tcPrep .a).tcPrep .b).dormNext

/-! ## Waking from DORMANT (R85, R87, R236) -/

/-- The charge that flowed in DORMANT is added to the count kept: the time there times the mean battery current of the last second of sample sets before, unless
the switch was OFF throughout; the count stops at its limits (R235, R236). -/
def State.dormCharge (s : State) : State :=
  let add : Int := if s.pp.dormOn then quoQ (((s.now - s.sys.dormGts : Nat) : Int) * s.sys.dormIbat) 1000000 else 0
  let q := s.ms.ccCopy + add
  let s1 := s.onMs fun m => { m with est := true }
  if s.ms.ccSat then s1
  else if ccLimit q = q then s1.onMs fun m => { m with ccCopy := q }
  else (s1.onMs fun m => { m with ccCopy := ccLimit q, ccSat := true }).raise Src.yarrow Ev.ccSat

/-- A wake from DORMANT, by the wake timer alone or by a source (R69, R82, R87, R89, R236): MOSC starts, and the image of a token still good runs without verification. -/
def State.wakeUp (s : State) (mask : BitVec 16) : State :=
  let s1 := s.dormCharge
  let s2 := s1.onSys fun y => { y with mode := .waking, boot := 0x09, wake := mask, timerWake := mask == 0x0080 }
  let s3 := s2.onWd fun w => { w with run := if s.grd.fuseLive.getLsbD 0 then .boot else .stopped, tick := 0 }
  match s.sys.token with
  | some k =>
    if k.count = s.writeCount then
      (s3.onClk fun c => { c with moscEn := !c.moscStopped }).onSys fun y => { y with loader := .done, image := k.image }
    else s3.romStart
  | none => s3.romStart

/-- A wake source arrives: in DORMANT it wakes the module; during the preparations of an entry it cancels that (R85, R87). -/
def State.wakeFrom (s : State) (mask : BitVec 16) : State :=
  let m := mask &&& 0x0FFF
  if m = 0 then s
  else if s.sys.mode == .dormant then s.wakeUp m
  else if s.sys.dorm == .entering then s.onSys fun y => { y with wakeLatch := y.wakeLatch ||| m }
  else if s.sys.dorm == .none then s
  else
    match s.sys.dormBox with
    | some n =>
      if (s.box n.val).fin.isSome || (s.box n.val).st == .final then
        (((s.onSys fun y => { y with dorm := .none, dormBox := none }).onBox n.val fun b => { b with act := false }).dormRails 0x07).raise
          Src.vetch Ev.dormantAbort
      else s.dormCancel St.notPermitted
    | none => s.dormCancel St.notPermitted

end Sys2Proof.Machine
end

