-- ==== Sys2Proof/Machine/SweepOps.lean ====
section
/-! DEFINITION. Shared operations of the impedance sweep (chapter 08): start and refusal, the end of a sweep, and the grade of
a fit. -/
namespace Sys2Proof.Machine

/-! ## Frequencies (R244) -/

/-- The points of a quick sweep in mHz. -/
def quickFreqs : List Nat := [2000000, 1000000, 500000, 200000, 100000, 20000, 5000, 1000]

/-- The points of a full sweep in mHz, 2000 Hz × 10^(−i × log10(20 000) / 23) to the nearest 1 mHz (log entry 28). -/
def fullFreqs : List Nat :=
  [2000000, 1300255, 845332, 549574, 357293, 232286, 151016, 98180, 63829, 41497, 26978, 17539, 11403, 7413, 4820, 3133, 2037,
   1324, 861, 560, 364, 237, 154, 100]

/-- The points of a kind of sweep, `l` for a custom one. -/
def sweepFreqs (k : SweepKind) (l : List Nat) : List Nat :=
  match k with
  | .quick => quickFreqs
  | .full => fullFreqs
  | .custom => l.mergeSort fun a b => decide (b ≤ a)
  | .none => []

/-! ## Registers (R259) -/

/-- MEAS_CTL.SWPEN. -/
def State.swpEn (s : State) : Bool := s.regBit 0x0180 0

/-- MEAS_CTL.AUTOSWP. -/
def State.autoSwp (s : State) : Bool := s.regBit 0x0180 1

/-- MEAS_CTL.BALEN. -/
def State.balEn (s : State) : Bool := s.regBit 0x0180 2

/-- The sine amplitude in mA (R242). -/
def State.sineAmp (s : State) : Nat := clampN 2 10 (s.regF 0x0181 3 0) * s.ms.ibat.natAbs / 100

/-! ## The bleed of balancing (R237 to R239) -/

/-- The counts of charge removed after the cells `l` were bled at 100 mA for `ms` ms: 0.1 mAh is 360 000 mA ms. -/
def State.balCount (s : State) (ms : Nat) (l : List Nat) : State :=
  l.foldl (fun t k =>
    let v := t.ms.balFrac.getD k 0 + 100 * ms
    let q := t.ms.balQ.getD k 0 + v / 360000
    let t1 := t.onMs fun x => { x with balFrac := x.balFrac.set k (v % 360000), balQ := x.balQ.set k (min 0xFFFF q) }
    t1.when (decide (0xFFFF ≤ q) && !t.ms.balSat.getLsbD k) fun u =>
      (u.onMs fun x => { x with balSat := setBit x.balSat k true }).counterSat 0x08 [BitVec.ofNat 8 (k + 1)]) s

/-- The bleed is switched off before its 960 ms have passed: what it has removed is counted. -/
def State.bleedStop (s : State) : State :=
  if !s.ms.bleed then s
  else (s.onMs fun x => { x with bleed := false }).balCount (min 960 ((s.now - s.ms.balAt) / 1000)) s.ms.balNow

/-- Whether balancing may run (R237). -/
def State.balOk (s : State) : Bool :=
  s.balEn && s.runs && !s.flt.fence.getLsbD 16 && s.anySink
    && (match s.chg.phase with
      | .shaped | .cv | .topoff | .done | .maintain => true
      | _ => false)
    && !s.chg.zoneUnknown && s.chg.zone != .cold && s.chg.zone != .hot && s.sw.run == .none && decide (s.caseT < 950)

/-! ## The times of a point (R245) -/

/-- The settling time of a point of `f` mHz in µs. -/
def settleUs (f : Nat) : Nat := if 1000 ≤ f then max (500000000 / f) 20000 else 1000000000 / max 1 f

/-- The whole sine cycles of its integration window: three, or the cycles that 50 ms begin, and two below 1 Hz. -/
def winCycles (f : Nat) : Nat := if 1000 ≤ f then max 3 ((50 * f + 999999) / 1000000) else 2

/-- The sample sets of the window, 16 to a millisecond, held to a number of sets (log entry 34). -/
def winSets (f : Nat) : Nat := quo (winCycles f * 16000000) (max 1 f)

/-- The frequency of the point in progress, mHz. -/
def State.pointFreq (s : State) : Nat := s.sw.freqs.getD s.sw.idx 0

/-! ## Thermistors (R54, R223) -/

/-- The natural logarithm of R / 10 kΩ for a thermistor R whose land stands at `v` (0.1 mV) under the 1.8 V bias through 10 kΩ, in units of 10^-12:
twice the area hyperbolic tangent of (v − 9000) / 9000, by its series (R54). -/
def ntcLn (v : Nat) : Int :=
  let z : Int := ((v : Int) - 9000) * 10 ^ 12 / 9000
  let z2 := z * z / 10 ^ 12
  2 * ((List.range 320).foldl (fun (p : Int × Int) (k : Nat) => (p.1 + p.2 / (2 * (k : Int) + 1), p.2 * z2 / 10 ^ 12)) (0, z)).1

/-- The temperature in 0.1 °C of a thermistor of 10 kΩ at 25 °C and B value `b` at the land voltage `v`: 1/T = 1/298.15 + ln(R / 10 kΩ) / B
(R54; log entry 98). -/
def ntcTemp (b v : Nat) : Int :=
  let den : Int := 100 * b * 10 ^ 12 + 29815 * ntcLn v
  quoQ (2 * 298150 * b * 10 ^ 12 - 5463 * den) (2 * den)

/-- What a thermistor land's voltage in 0.1 mV says: open from 1.75 V, short to 0.02 V, else the temperature by the B value in force (R54, R223;
log entry 98). -/
def State.ntcOf (s : State) (v : Nat) : NtcRead :=
  if 17500 ≤ v then .opened else if v ≤ 200 then .shorted else .valid (ntcTemp s.chg.zones.bval v)

/-- The lowest mapped pack thermistor of some sample sets, 0.1 °C; none where none was valid. -/
def State.lowNtc (s : State) (sets : List SampleSet) : Option Int :=
  let l := sets.flatMap fun x => ((List.range 6).filter fun n => (s.reg 0x016D).getLsbD n).filterMap fun n =>
    match s.ntcOf (x.ntc.getD n 0) with
    | .valid t => some t
    | _ => none
  match l with
  | a :: r => some (r.foldl min a)
  | [] => none

/-! ## Start and refusal (R247, R248, R262) -/

/-- Whether VSYS or VBAT is the demand reported for the lead path (R144). -/
def State.leadV (s : State) : Bool :=
  match s.fab.lead with
  | some p => (s.cc.comp.getD (portIdx p) {}).rep ≤ 1
  | none => false

/-- Whether VSYS or VBAT has won on the lead path within the last `us` µs (R248). -/
def State.vWonIn (s : State) (us : Nat) : Bool := s.cc.vWonAt.any fun t => decide (s.now < t + us)

/-- Whether the zone forbids a sweep. -/
def State.zoneBad (s : State) : Bool := s.chg.zoneUnknown || s.chg.zone == .cold || s.chg.zone == .hot

/-- Whether the charge phase is SHAPED, CV or TOPOFF. -/
def State.sweepPhase (s : State) : Bool := s.chg.phase == .shaped || s.chg.phase == .cv || s.chg.phase == .topoff

/-- The reason of R248 for which a sweep is refused at its start: BUSY before all others (R247), then the lowest of those that
hold (log entry 28). A sweep whose fit is under way counts as running. -/
def State.sweepBar (s : State) (dis : Bool) : Option Nat :=
  if s.sw.run != .none || s.sw.stage == .fitting then some 7
  else if ((s.curSum 16000).1.natAbs : Int) < 200000 * (s.curSum 16000).2 then some 1
  else if s.suppIn 1000000 then some 2
  else if !dis && s.vWonIn 100000 then some 3
  else if (if dis then s.anySink || !(s.sourcing .pa || s.sourcing .pb) else !s.sweepPhase) then some 4
  else if !s.pp.batPres || !s.profSet then some 5
  else if s.zoneBad then some 6
  else if !s.runs || !s.measOn || s.grd.fpen then some 8
  else if !s.swpEn then some 9
  else none

/-- The source path that carries the sine of a discharge sweep: PA before PB (R241; DESIGN CHOICE, log entry 116). -/
def State.carrierNow (s : State) : PortId := if s.sourcing .pa then .pa else .pb

/-- A sweep begins with its baseline (R244, R262). -/
def State.sweepBegin (s : State) (k : SweepKind) (dis : Bool) (l : List Nat) (box : Option (Fin 4)) : State :=
  let a := s.sineAmp
  let s1 := s.onSw fun w => { w with
    run := k, stage := .baseline, dirDis := dis, carrier := s.carrierNow, cmd := box, freqs := sweepFreqs k l, idx := 0, amp := a, idc := s.ms.ibat
    disturbed := false, repeating := false, stopping := false, pts := [], win := [], offs := [], tSum := 0, tN := 0 }
  (s1.bleedStop).raise Src.yarrow Ev.sweepStart
    ([BitVec.ofNat 8 (sweepCode k), nameByte Ev.sweepStart (b2n box.isSome)] ++ le 2 (min a 0xFFFF))

/-- A sweep is refused at its start (R248). -/
def State.sweepRefuse (s : State) (k : SweepKind) (code : Nat) : State :=
  (s.onSw fun w => { w with lastRsn := code }).raise Src.yarrow Ev.sweepRefused [BitVec.ofNat 8 (sweepCode k), BitVec.ofNat 8 code]

/-- A scheduled sweep starts, or is refused and tried again (R247). -/
def State.sweepSchedule (s : State) (g : SweepTrig) (k : SweepKind) : State :=
  let s := s.onSw fun w => { w with retry := w.retry.filter fun r => r.trig != g }
  match s.sweepBar false with
  | none => s.sweepBegin k false [] none
  | some c => (s.sweepRefuse k c).onSw fun w => { w with retry := w.retry ++ [⟨g, s.now⟩] }

/-- The sweep of a charge start: a full one, or without a model a quick one that a full one follows (R73, R247). -/
def State.sweepStart (s : State) : State :=
  (s.onSw fun w => { w with fullDue := !w.seeded }).sweepSchedule .start (if s.sw.seeded then .full else .quick)

/-- Whether the trigger of a scheduled sweep applies: all need SHAPED, and the interval a moment 10 min after the end of the last sweep of any kind
that is not within another (R247). -/
def State.trigHolds (s : State) (g : SweepTrig) : Bool :=
  s.autoSwp && s.chg.phase == .shaped
    && (g != .interval || (s.sw.run == .none && s.sw.stage != .fitting && s.sw.lastKind != .none
      && decide (stampAt s.sw.lastStamp + 600000000 ≤ s.now)))

/-- The sweep that a trigger asks for. -/
def State.trigSweep (s : State) (g : SweepTrig) : State :=
  match g with
  | .start => s.sweepStart
  | .follow => s.sweepSchedule .follow .full
  | .interval => s.sweepSchedule .interval .quick

/-! ## The end of a sweep (R248, R249, R262) -/

/-- The points a fit may use: not LOWSIG, CLIPPED or NONLIN (R251). -/
def usable (l : List PointRec) : Nat := (l.filter fun p => p.flags.toNat % 8 == 0).length

/-- The command of a sweep gets its result (R411). -/
def State.sweepAnswer (s : State) (k : SweepKind) (code : Nat) (part : Bool) (used : Nat) (lowest : Byte) : State :=
  (s.finishO s.sw.cmd St.ok [BitVec.ofNat 8 (sweepCode k), BitVec.ofNat 8 code, byteOf [part], BitVec.ofNat 8 used, lowest]).onSw
    fun w => { w with cmd := none }

/-- The sine is removed and the sweep's completed points become those of the last sweep ended. -/
def State.sweepClose (s : State) (part ok : Bool) : State :=
  s.onSw fun w => { w with
    run := .none, stage := .idle, lastPts := w.pts, lastKind := w.run, lastPartial := part, lastStamp := s.stamp, lastOk := ok
    stopping := false, repeating := false, disturbed := false }

/-- An abort with a reason of R248: the completed points are kept, and a full sweep that has its points down to the first below
1.5 Hz is still fitted, as a quick sweep (R249). A result without a fit has no grade: that byte of the answer is a free value
(log entry 7). -/
def State.sweepAbort (s : State) (code : Nat) : State :=
  if s.sw.run == .none then s
  else
    let k := s.sw.run
    let s1 := (s.sweepClose true false).onSw fun w => { w with lastRsn := code, lastUsed := 0 }
    let s2 := s1.raise Src.yarrow Ev.sweepAborted
      [BitVec.ofNat 8 (sweepCode k), BitVec.ofNat 8 code, BitVec.ofNat 8 s.sw.pts.length]
    if k == .full && 18 ≤ s.sw.pts.length then s2.onSw fun w => { w with stage := .fitting, endRsn := code }
    else (s2.sweepAnswer k code true 0 (BitVec.ofNat 8 (s2.freeN 0))).useFree 1

/-- Stops a sweep at the end of its present sine cycle (R249): in the baseline and in the fit there is no sine, and it ends at once. -/
def State.sweepStop (s : State) : State :=
  if s.sw.run == .none then s
  else if s.sw.stage == .points then
    let f := max 1 s.pointFreq
    s.onSw fun w => { w with stopping := true, stopAt := w.pointAt + ((s.now - w.pointAt) * f / 1000000000 + 1) * 1000000000 / f }
  else s.sweepAbort 9

/-- Whether the condition of R248 with reason `code` aborts the sweep now. A sink path that forms on a discharge sweep ends it with PHASE, the
reason for which it would be refused (R241; log entry 28). -/
def State.sweepFault (s : State) (code : Nat) : Bool :=
  match code with
  | 1 => decide (1600 ≤ s.ms.hist.length) && (s.ms.hist.take 1600).all fun x => decide (x.ibatUa.natAbs < 200000)
  | 2 => s.pp.bat == .supplementing
  | 3 => !s.sw.dirDis && s.vWonIn 10000
  | 4 => if s.sw.dirDis then s.anySink else !s.sweepPhase
  | 5 => !s.pp.batPres
  | 6 => s.zoneBad
  | 8 => !s.runs
  | 9 => !s.swpEn || s.sw.stopping
  | 11 => if s.sw.dirDis then !s.sourcing s.sw.carrier else s.fab.lead.isNone
  | _ => false

/-! ## Task Yarrow and the telemetry ring (R30, R233, R243 to R245, R249, R252) -/

/-- A batch in the sweep that runs: T_min of its set, and the set in the baseline or, once the point has settled, in its window until that is
whole. A sweep that is to stop ends with its sine cycle unless the window is whole then. -/
def State.sweepSet (s : State) (x : TeleItem) : State :=
  if s.sw.run == .none || s.sw.stage == .fitting then s
  else
    let s1 := match s.lowNtc [x.set] with
      | some t => s.onSw fun w => { w with tSum := w.tSum + t, tN := w.tN + 1 }
      | none => s
    let push := s1.onSw fun w => { w with win := x.set :: w.win }
    let room := decide (s.sw.win.length < winSets s.pointFreq)
    if s.sw.stage != .points then push
    else if s.sw.stopping && decide (s.sw.stopAt ≤ stampAt x.stamp) && room then s1.sweepAbort 9
    else if room && decide (s.sw.pointAt + settleUs s.pointFreq ≤ stampAt x.stamp) then push
    else s1

/-- One batch of the telemetry ring is taken into the sums of the reported averages and into a sweep. -/
def State.teleTake (s : State) (x : TeleItem) : State :=
  (s.onMs fun m => { m with
    accN := m.accN + 1, accV := m.accV + x.set.vpack, accI := m.accI + x.set.ibatUa
    accCell := (List.range 10).map fun k => m.accCell.getD k 0 + (x.set.cell.getD k 0).toNat }).sweepSet x

/-- Task Yarrow, while it runs, takes every batch of the ring, the oldest first. -/
def State.yarrow (s : State) : State :=
  if s.sys.fwRun && s.qs.telemetry != [] then
    ((s.qs.telemetry.foldl State.teleTake s).onQs fun q => { q with telemetry := [] }).taskRan .yarrow
  else s

/-! ## Grades (R251) -/

/-- Whether a fit is within the bounds of R251 (units of R261). -/
def fitInBounds (f : CellFit) : Bool :=
  f.rser ≤ 30000 && f.ra ≤ 30000 && f.rb ≤ 30000 && 1 ≤ f.taua && f.taua ≤ 10000 && 10 ≤ f.taub && f.taub ≤ 10000
    && f.taua ≤ 100 * f.taub && f.sigma ≤ 50000

/-- The grade a fit earns: `full` for a complete full sweep, `used` usable points (R251). -/
def gradeOf (full : Bool) (used : Nat) (f : CellFit) : Grade :=
  if !fitInBounds f || used < 6 || f.resid > 100 then .fail
  else if f.resid > 50 then .low
  else if f.resid ≤ 20 && full then .high
  else .medium

end Sys2Proof.Machine
end

