-- ==== Sys2Proof/Machine/FaultOps.lean ====
section
/-! DEFINITION. Shared operations of fault handling (chapter 11): records and folding, fences, the forced-safe reaction, HOLD,
the second evaluation, and the ends of HOLD and of a fence. -/
namespace Sys2Proof.Machine

/-! ## Causes (R316, R445) -/

/-- The class of a lasting failure of a cause. -/
def causeClass (c : BitVec 16) : Nat :=
  match c.toNat with
  | 0x0103 | 0x0104 | 0x0107 | 0x0108 | 0x0109 | 0x0201 | 0x0202 | 0x0206 | 0x0302 => 4
  | 0x010A | 0x0501 | 0x0503 | 0x0504 | 0x0506 | 0x0507 | 0x0508 | 0x0701 | 0x0702 => 3
  | 0x0601 | 0x0703 => 0
  | _ => 2

/-- The class 3 causes whose reaction is a module reset. -/
def causeResets (c : BitVec 16) : Bool :=
  match c.toNat with
  | 0x0501 | 0x0503 | 0x0504 | 0x0507 | 0x0508 => true
  | _ => false

/-! ## Counters under the counter policy (R334, R337, R338, R340) -/

/-- FREC_LOST counts a record not opened. -/
def State.frecLost (s : State) : State :=
  if s.flt.lost < 0xFFFF then
    let s1 := s.onFlt fun f => { f with lost := f.lost + 1 }
    s1.when (s.flt.lost + 1 == 0xFFFF) fun t => (t.onFlt fun f => { f with satf := setBit f.satf 1 true }).counterSat 0x02
  else s

/-- The recovery counter counts an end of HOLD. -/
def State.recCount (s : State) : State :=
  if s.flt.recCnt < 0xFFFF then
    let s1 := s.onFlt fun f => { f with recCnt := f.recCnt + 1 }
    s1.when (s.flt.recCnt + 1 == 0xFFFF) fun t => (t.onFlt fun f => { f with satf := setBit f.satf 0 true }).counterSat 0x01
  else s

/-- LF_LOST counts a last-fault record that found both slots taken (R169). -/
def State.lfLostCount (s : State) : State :=
  if s.flt.lfLost < 0xFFFF then
    let s1 := s.onFlt fun f => { f with lfLost := f.lfLost + 1 }
    s1.when (s.flt.lfLost + 1 == 0xFFFF) fun t => (t.onFlt fun f => { f with satf := setBit f.satf 3 true }).counterSat 0x05
  else s

/-! ## The record store (R320, R336 to R338) -/

/-- Rewrites the record numbered `no`. -/
def State.onRec (s : State) (no : Nat) (f : FaultRec → FaultRec) : State :=
  s.onFlt fun x => { x with recs := x.recs.map fun r => if r.recno = no then f r else r }

/-- Adds `n` to a record's COUNT, which saturates with COUNTER_SAT (R338, R494). -/
def State.recAdd (s : State) (no n : Nat) : State :=
  match s.flt.recs.find? fun r => r.recno == no with
  | some r =>
    let s1 := s.onRec no fun x => { x with count := min 0xFFFF (x.count + n) }
    s1.when (r.count < 0xFFFF && 0xFFFF ≤ r.count + n) fun t => t.counterSat 0x04 (le 4 no)
  | none => s

/-- A report of a worker's own record joins the stack transmit queue, with 4 entries kept for such reports (R33, R429); it waits there while the worker
sends no report. -/
def State.frepSend (s : State) (r : FaultRec) : State :=
  if s.isWorker then
    if s.qs.stkTx.length < 16 then
      (s.onQs fun q => { q with stkTx := q.stkTx ++ [1] }).onStk fun k => { k with
        frepQ := k.frepQ ++ [{ stamp := r.stamp, source := r.source, cause := r.cause, cls := classByte r, seq := BitVec.ofNat 8 r.recno }] }
    else s.drop 11
  else s

/-- Whether a report joins an open election (R447): it is stamped less than 1000 µs after the report that opened it, or less than 1000 µs before it and
belongs to no election closed before `shut` (log entry 126). -/
def electFits (shut : Nat) (r : FaultRep) (e : Election) : Bool :=
  match e.reps.head? with
  | some a =>
    let x := stampAt r.stamp
    let h := stampAt a.stamp
    decide (x < h + 1000) && (decide (h ≤ x) || (decide (h < x + 1000) && decide (shut ≤ x)))
  | none => false

/-- The open elections, oldest first, with `r` in the first whose window it falls in, or in one that it opens (R447). -/
def electPut (shut : Nat) (r : FaultRep) : List Election → List Election
  | [] => [{ reps := [r] }]
  | e :: l => if electFits shut r e then { reps := e.reps ++ [r] } :: l else e :: electPut shut r l

/-- A report joins an open election or opens one (R447). -/
def State.electJoin (s : State) (r : FaultRep) : State := s.onStk fun k => { k with elect := electPut k.electShut r k.elect }

/-- The records with `r` in its place: behind those that order before it and those of its own stamp and source (R26). -/
def recPut (l : List FaultRec) (r : FaultRec) : List FaultRec :=
  let late := (l.reverse.takeWhile fun x => ordersBefore r.stamp r.source x.stamp x.source).length
  l.take (l.length - late) ++ r :: l.drop (l.length - late)

/-- The record of the greatest number among those of class 1. -/
def newestMinor (l : List FaultRec) : Option FaultRec :=
  (l.filter fun x => x.cls == 1).foldl (fun a x => match a with
    | some y => if y.recno < x.recno then some x else a
    | none => some x) none

/-- The store with `r` added in its order, taking the place of the newest class 1 record when it is full (R26, R337). -/
def storeAdd (l : List FaultRec) (r : FaultRec) : Option (List FaultRec) :=
  if l.length < 24 then some (recPut l r)
  else if r.cls ≤ 1 then none
  else (newestMinor l).map fun x => recPut (l.filter fun y => y.recno != x.recno) r

/-- A record is opened, with FAULT; one of class 2 to 4 of this module's own qualifies under R330 and R333, starts the quiet period of a HOLD, is
reported to a stack and takes a snapshot where it is no rail fault (R309, R330, R333, R336 to R338, R429). COUNT saturates with COUNTER_SAT. -/
def State.openRec (s : State) (r : FaultRec) (own : Bool := true) : State :=
  let q := own && 2 ≤ r.cls
  let comp := q && s.flt.hold && s.flt.holdRecs != []
  let no := min (s.flt.recno + 1) 0xFFFFFFFF
  let r1 := { r with recno := no, compound := comp, sHold := r.sHold || (q && s.flt.hold), count := min 0xFFFF r.count }
  let rail := r.cause == Cause.upTimeout || r.cause == Cause.railFault || r.cause == Cause.fallSlow
  match storeAdd s.flt.recs r1 with
  | none => s.frecLost.when (q && !rail) fun t => t.snap 0x0A 8 r.source r.cause (BitVec.ofNat 8 r.cls)
  | some l =>
    let s1 := s.onFlt fun f => { f with
      recs := l, recno := no, last := r.cls, compound := f.compound || comp
      holdRecs := if q && f.hold then f.holdRecs ++ [no] else f.holdRecs
      injRec := if r.injected then no else f.injRec }
    let s2 := (s1.onFlt fun f => { f with autook := s1.autoOk }).raiseRec
      { stamp := s.stamp, source := r.source, code := Ev.fault, cls := r.cls
        detail := le 2 r.cause.toNat ++ [classByte r1] ++ le 4 no }
    let s3 := s2.when q fun t => t.frepSend r1
    let s4 := s3.when (q && s.stk.joined && s.isManager) fun t => t.electJoin
      { stamp := r.stamp, source := r.source, cause := r.cause, cls := classByte r1 }
    let s5 := (s4.when (q && !rail) fun t => t.snap 0x0A 8 r.source r.cause (BitVec.ofNat 8 r.cls)).when (q && s.flt.hold) State.quietStart
    s5.when (decide (0xFFFF ≤ r.count)) fun t => t.counterSat 0x04 (le 4 no)

/-- A record that is its group's new root takes its place in the order of R26. -/
def State.recSort (s : State) (no : Nat) : State :=
  match s.flt.recs.find? fun r => r.recno == no with
  | some r => s.onFlt fun f => { f with recs := recPut (f.recs.filter fun x => x.recno != no) r }
  | none => s

/-- Whether a report becomes the root of `r` (R336). -/
def reRoots (r : FaultRec) (st : Stamp) (source : BitVec 16) : Bool := decide (stampAt st = stampAt r.stamp ∧ source.toNat < r.source.toNat)

/-- A report is counted into a record as a consequent, and becomes its root where it orders first (R335, R336); one of an injected check marks the
record INJECTED (R343). -/
def foldRec (r : FaultRec) (st : Stamp) (source : BitVec 16) (detail : Nat) (inj : Bool) : FaultRec :=
  if reRoots r st source then
    { r with source := source, stamp := st, detail := if r.cls = 1 then r.detail else BitVec.ofNat 32 detail, injected := r.injected || inj }
  else { r with lastDt := min 0xFFFF (stampAt st - stampAt r.stamp), injected := r.injected || inj }

/-- The same for the record numbered `no` of the store, which a new root puts into its place (R26, R336). -/
def State.recFold (s : State) (no : Nat) (st : Stamp) (source : BitVec 16) (detail : Nat) (inj : Bool) : State :=
  let s1 := (s.onRec no fun r => foldRec r st source detail inj).onFlt fun f => { f with injRec := if inj then no else f.injRec }
  s1.when (s.flt.recs.any fun r => r.recno == no && reRoots r st source) fun t => t.recSort no

/-- The same for a report folded into a failure that awaits its second evaluation. -/
def foldPend (p : PendFail) (st : Stamp) (source : BitVec 16) (detail : Nat) (inj : Bool) : PendFail :=
  if stampAt st = stampAt p.stamp ∧ source.toNat < p.source.toNat then
    { p with source := source, stamp := st, detail := BitVec.ofNat 32 detail, count := min 0xFFFF (p.count + 1), injected := p.injected || inj }
  else { p with lastDt := min 0xFFFF (stampAt st - stampAt p.stamp), count := min 0xFFFF (p.count + 1), injected := p.injected || inj }

/-! ## The last-fault record (R168, R169) -/

/-- Switching conditions are captured into the first free RET slot (R168 to R170). -/
def State.lfCapture (s : State) (hw : Bool) (source cause : BitVec 16) (cls : Nat) : State :=
  if s.flt.lfSlot.length < 2 then
    let no := min (s.flt.lfNo + 1) 0xFFFFFFFF
    s.onFlt fun f => { f with lfNo := no, lfSlot := f.lfSlot ++ [{ bytes := s.lfBytes no hw source cause cls }] }
  else s.lfLostCount

/-! ## Fixed placement, injection and tuning ended (R134, R343, R418) -/

/-- Fixed placement ends (R134). -/
def State.fpEnd (s : State) : State :=
  if s.grd.fpen then (s.onGrd fun g => { g with fpen := false }).raise Src.campion Ev.forcedPlacement else s

/-- An injection in progress is disarmed (R343). -/
def State.injDisarm (s : State) : State := s.onGrd fun g => { g with injArm := false, injRemain := 0 }

/-- The measurements that commands asked for end WITHDRAWN (R418); the automatic ones wait, from their start, until they can be made (R148,
R154). -/
def State.tuneDrop (s : State) : State :=
  let l := s.cc.tune.toList ++ s.cc.tuneAsk
  let own := (l.filter fun r => r.box.isNone).map fun r => { r with again := false }
  l.foldl (fun t r => t.finishO r.box St.withdrawn) (s.onCc fun c => { c with tune := own.head?, tuneAsk := own.drop 1 })

/-! ## Outputs made safe and HOLD (R325 to R328) -/

/-- Whether FLT_CTL, or the cause itself, opens the battery switch at HOLD entry (R316, R328). -/
def State.bsOpens (s : State) (cause : BitVec 16) (cls : Nat) : Bool :=
  cause == Cause.batswOc || (if cls = 4 then s.regBit 0x0200 0 else s.regBit 0x0200 1)

/-- The outputs are made safe: gates off, VBUS switches open, the battery switch by policy (R325, R326). -/
def State.outputsSafe (s : State) (opens : Bool) : State :=
  let s1 := (s.gatesOff).pathsOff
  let s2 := s1.onSys fun y => { y with limp := false, limpSrc := none, held := if y.mode == .dormant then .nothing else y.held }
  let s3 := s2.onPp fun x => { x with
    vbusA := false, vbusB := false, batSw := if x.batSw == .off then .off else if opens then .off else .diode
    soft := if x.soft == .running then .no else x.soft, linBefore := false, linRef := if x.soft == .running then 0 else x.linRef }
  (s3.onFlt fun f => { f with bsOpen := f.bsOpen || opens }).onFab fun f => { f with resA := [], resB := [] }

/-- Each source port sends Hard Reset in HOLD (R327). -/
def State.holdSources (s : State) : State :=
  let s1 := s.when (s.tca.src && s.tca.tcs == .attachedSrc) fun t => t.hardReset .a true 3
  s1.when (s1.tcb.src && s1.tcb.tcs == .attachedSrc) fun t => t.hardReset .b true 3

/-- What HOLD ends elsewhere: work under way, a DORMANT entry that no longer applies, fast swap and source ports (R79, R134, R219, R280, R327,
R343, R418). -/
def State.holdEffects (s : State) : State :=
  let s1 := (((((s.dormCancel St.notPermitted).fpEnd).injDisarm).sweepAbort 8).tuneDrop)
  let s2 := (s1.suspend Rsn.fault).switchIdle
  ((s2.frsDisarm .a 2).frsDisarm .b 2).when s.sys.fwRun State.holdSources

/-- The HOLD latch is set for `cause` of class `cls` reported by `src` (R325 to R327, R333); a pending SHIP entry no longer applies and is
discarded (R79). -/
def State.holdLatch (s : State) (src : Nat) (cause : BitVec 16) (cls : Nat) : State :=
  let fresh := !s.flt.hold
  let s1 := s.onFlt fun f => { f with
    hold := true, fsafe := f.fsafe || cls == 4, cur := if fresh then cls else max f.cur cls
    compound := f.compound && !fresh, holdRecs := if fresh then [] else f.holdRecs }
  let s2 := s1.onSys fun y => { y with
    mode := if y.fwRun && (y.mode == .run || y.mode == .degraded || y.mode == .waking) then .hold else y.mode
    shipAt := none, shipShut := false }
  s2.when fresh fun t => t.raise src Ev.holdEnter (le 2 cause.toNat ++ [BitVec.ofNat 8 cls])

/-- The class 4 forced-safe reaction at detection, which wakes the module from DORMANT (R83, R168, R325). -/
def State.forcedSafe (s : State) (src : Nat) (cause : BitVec 16) : State :=
  let t := (((s.lfCapture true (s.source src) cause 4).outputsSafe (s.bsOpens cause 4)).holdLatch src cause 4).holdEffects
  t.when (s.sys.mode == .dormant) fun u => u.wakeFrom 0x0400

/-- A lasting class 3 with reaction HOLD (R326); in a HOLD of class 4 the battery switch stays as the graver class has set it (R333). -/
def State.hold3 (s : State) (src : Nat) (cause : BitVec 16) : State :=
  ((((s.lfCapture false (s.source src) cause 3).outputsSafe (!(s.flt.hold && s.flt.cur == 4) && s.bsOpens cause 3)).holdLatch src cause 3).holdEffects)

/-! ## Fences (R321, R322) -/

/-- The mode and FLT_CLASS follow the fences in RUN and DEGRADED (R78, R339). -/
def State.modeFix (s : State) : State :=
  let s1 := s.when s.runs fun t => t.onSys fun y => { y with mode := t.runMode }
  s1.onFlt fun f => { f with cur := if f.hold then f.cur else if s1.anyFence then 2 else 0 }

/-- The fence-mask bit of the unit with local source `src` fenced for `cause` (R321, R322); none where the reaction is no fence
of a unit. -/
def fenceBit (src : Nat) (cause : BitVec 16) : Option Nat :=
  if cause == Cause.vconnOc then (if src = 0x10 then some 13 else some 14)
  else if cause == Cause.cellOv then some 16
  else if cause == Cause.nvmEcc then some 25
  else if cause == Cause.retParity then none
  else if src < 8 then some src
  else if src = 8 ∨ src = 9 then some src
  else if 0x10 ≤ src ∧ src ≤ 0x12 then some (src - 6)
  else if src = 0x18 then some 15
  else if 0x40 ≤ src ∧ src < 0x48 then some (src - 0x40 + 17)
  else none

/-- Phase `i` is taken out of service at once (R105, R321). -/
def State.fencePhase (s : State) (i : Nat) : State :=
  let x := s.phase i
  if x.st == .fenced then s
  else
    let s1 := (s.onPhase i fencedPh).place i x.port none Why.fence
    let s2 := match x.opening with
      | some p => (s1.vbusRest p).portRest p
      | none => s1
    match x.port with
    | some p => ((s2.reAngle p).vbusRest p).portRest p
    | none => s2

/-- A fenced Type-C port presents only Rd, and its commands end WITHDRAWN (R321, R406). -/
def State.fenceTc (s : State) (t : TcId) : State :=
  let x := s.tc t
  let s1 := (((s.finishO x.swapBox St.withdrawn).finishO x.drBox St.withdrawn).authDetach t).frsDisarm t 1
  s1.onTc t fun y => { tx := y.tx, discharging := y.tcs != .unattached }

/-- What a fence does to its unit (R321). -/
def State.fenceAct (s : State) (b : Nat) : State :=
  if b < 8 then s.fencePhase b
  else if b < 10 then
    let s1 := [0, 1, 2, 3].foldl (fun t k => t.fencePhase (4 * (b - 8) + k)) s
    s1.domRequest { dom := finDom (b - 2), on := false }
  else if b = 10 then (State.sinkEnded s .pa ((s.endPath .pa Why.fence).fenceTc .a)).portRest .pa
  else if b = 11 then (State.sinkEnded s .pb ((s.endPath .pb Why.fence).fenceTc .b)).portRest .pb
  else if b = 12 then (State.sinkEnded s .pc (s.endPath .pc Why.fence)).portRest .pc
  else if b = 13 then s.onTca fun x => { x with vconn := false, vconnOff := true, cable5A := false }
  else if b = 14 then s.onTcb fun x => { x with vconn := false, vconnOff := true, cable5A := false }
  else if b = 15 then (s.switchOff).suspend Rsn.fault
  else if b = 16 then s.suspend Rsn.cellOv
  else if b < 25 then (s.railOff (b - 17)).onSeq fun q => { q with fenced := setBit q.fenced (b - 17) true }
  else s

/-- The unit of bit `b` is fenced for `cause` (R321, R322, R344). -/
def State.fenceUnit (s : State) (b : Nat) (cause : BitVec 16) : State :=
  let s1 := (s.onFlt fun f => { f with fence := setBit f.fence b true, fenceBy := f.fenceBy.set b cause }).fenceAct b
  (s1.raise (unitSrc b) Ev.fence ([BitVec.ofNat 8 (unitSrc b)] ++ le 2 cause.toNat)).modeFix

/-- Whether every phase is FENCED (R318). -/
def State.noPhases (s : State) : Bool := s.fab.ph.all fun x => x.st == .fenced

/-- A FENCED phase is FREE again, with its PLACE (R104, R135). -/
def State.unfencePhase (s : State) (i : Nat) : State := (s.onPhase i freed).place i none none Why.fence

/-- What the lift of a fence does to its unit (R321). -/
def State.liftAct (s : State) (b : Nat) : State :=
  if b < 8 then s.when (!s.flt.fence.getLsbD (8 + quadOf b)) fun t => t.unfencePhase b
  else if b < 10 then
    (phaseNos.foldl (fun t i => if quadOf i = b - 8 && !t.flt.fence.getLsbD i then t.unfencePhase i else t) s).domOn (b - 2)
  else if b = 10 then s.when (s.tca.tcs != .unattached) fun t => t.domOn 8
  else if b = 11 then s.when (s.tcb.tcs != .unattached) fun t => t.domOn 9
  else if b = 12 then s.when s.pp.presC fun t => t.domOn 10
  else if b = 15 then s.switchClose
  else if 17 ≤ b && b < 25 then s.onSeq fun q => { q with fenced := setBit q.fenced (b - 17) false }
  else s

/-- The fence of bit `b` is lifted, with UNFENCE (R321 to R323). -/
def State.liftFence (s : State) (b : Nat) : State :=
  if s.flt.fence.getLsbD b then
    let c := s.fenceCause b
    let s1 := (s.onFlt fun f => { f with fence := setBit f.fence b false }).liftAct b
    (s1.raise (unitSrc b) Ev.unfence ([BitVec.ofNat 8 (unitSrc b)] ++ le 2 c)).modeFix
  else s

/-! ## Reports (R317 to R320, R335) -/

/-- NO_PHASES is derived as the last phase is fenced, where some were not `before`; it takes its class at once: class 3, HOLD
(R316, R318). -/
def State.noPhasesCheck (s : State) (before : Bool) : State :=
  if s.noPhases && !before then
    ((s.hold3 Src.sorrel Cause.noPhases).openRec
      { stamp := s.stamp, source := s.source Src.sorrel, cause := Cause.noPhases, cls := 3, lasting := true, sHold := true })
  else s

/-- Whether a report within 50 µs of this stamp folds (R335). -/
def State.foldable (s : State) (st : Stamp) : Bool := s.now < stampAt st + 50

/-- Whether a report of `cause` folds into a failure that awaits its second evaluation or into a record (R335). -/
def State.folds (s : State) (cause : BitVec 16) : Bool :=
  (s.flt.pend.any fun p => p.cause == cause && s.foldable p.stamp) || s.flt.recs.any fun r => r.cause == cause && !r.bad && s.foldable r.stamp

/-- A checker reports a failure of source `src` whose cause is not of class 4 (R317, R335): it folds into an open record or a failure
that awaits its second evaluation, or awaits its own. -/
def State.failNote (s : State) (src : Nat) (cause : BitVec 16) (detail : Nat := 0xFFFFFFFF) (inj : Bool := false)
    (item : Option (Fin 14) := none) (member : Option (Fin 32) := none) : State :=
  let source := s.source src
  match s.flt.pend.find? fun p => p.cause == cause && s.foldable p.stamp with
  | some p =>
    let s1 := s.onFlt fun f => { f with pend := f.pend.map fun y => if y = p then foldPend y s.stamp source detail inj else y }
    match p.recn with
    | some no => (s1.recAdd no 1).recFold no s.stamp source detail inj
    | none => s1
  | none =>
    match s.flt.recs.find? fun r => r.cause == cause && !r.bad && s.foldable r.stamp with
    | some r => (s.recAdd r.recno 1).recFold r.recno s.stamp source detail inj
    | none => s.onFlt fun f => { f with pend := f.pend ++
        [{ source := source, cause := cause, stamp := s.stamp, detail := BitVec.ofNat 32 detail, injected := inj, item := item, member := member }] }

/-- A checker reports a failure of source `src` (R317, R319, R325, R335): class 4 acts at once unless the report folds. -/
def State.checkerFail (s : State) (src : Nat) (cause : BitVec 16) (detail : Nat := 0xFFFFFFFF) (inj : Bool := false)
    (item : Option (Fin 14) := none) (member : Option (Fin 32) := none) : State :=
  if causeClass cause = 4 && !s.folds cause then
    let source := s.source src
    let s1 := (s.forcedSafe src cause).openRec
      { stamp := s.stamp, source := source, cause := cause, cls := 4, hwFirst := true, injected := inj, sHold := true
        detail := BitVec.ofNat 32 detail }
    s1.onFlt fun f => { f with pend := f.pend ++
      [{ source := source, cause := cause, stamp := s.stamp, detail := BitVec.ofNat 32 detail, injected := inj, item := item, member := member
         recn := if f.recno = s.flt.recno then none else some f.recno }] }
  else s.failNote src cause detail inj item member

/-- A transient failure is recorded as class 1, or counted into the class 1 record of its source and cause (R317, R320). -/
def State.transientRec (s : State) (p : PendFail) : State :=
  let low := BitVec.ofNat 32 p.stamp.gts.toNat
  let s0 := s.when (localSrc p.source < 8) fun t => t.onPhase (localSrc p.source) fun x => { x with c1At := x.c1At ++ [s.now] }
  match s.flt.recs.find? fun r => r.cls == 1 && !r.bad && r.source == p.source && r.cause == p.cause with
  | some r =>
    ((s0.recAdd r.recno (1 + p.count)).onRec r.recno fun x => { x with detail := low, injected := x.injected || p.injected }).onFlt fun f => { f with
      injRec := if p.injected then r.recno else f.injRec }
  | none => s0.openRec
      { stamp := p.stamp, source := p.source, cause := p.cause, cls := 1, transient := true, injected := p.injected, sCleared := true
        count := 1 + p.count, detail := low, lastDt := if p.count = 0 then 0 else p.lastDt }

/-- The record of a lasting failure. -/
def lastingRec (p : PendFail) (cls : Nat) : FaultRec :=
  { stamp := p.stamp, source := p.source, cause := p.cause, cls := cls, lasting := true, injected := p.injected, count := p.count
    detail := p.detail, lastDt := if p.count = 0 then 0 else p.lastDt }

/-- RAIL_FAULT of the sequencer, of class 1 or 2 as recorded (R312). -/
def State.railEvent (s : State) (p : PendFail) (cls : Nat) : State :=
  if p.cause == Cause.upTimeout || p.cause == Cause.railFault || p.cause == Cause.fallSlow then
    s.raise (localSrc p.source) Ev.railFault ([BitVec.ofNat 8 cls] ++ le 2 p.cause.toNat) cls
  else s

/-- What the engine does about a lasting rail fault (R299 to R301, R304, R306). -/
def State.railLasting (s : State) (p : PendFail) : State :=
  let src := localSrc p.source
  let up := p.cause == Cause.upTimeout
  if up || p.cause == Cause.railFault then
    let s1 := s.snap (if up then 0x09 else 0x08) (if up then s.seq.slot else 8) p.source p.cause 2
    if up && s.seq.st == .up then
      ((s1.onSeq fun q => { q with floor := q.slot + 1, waitGood := false, waitRe := false }).downCause 0x04 src).upNext
    else s1.downCause (if up then 0x04 else 0x03) src
  else if p.cause == Cause.fallSlow then s.snap 0x08 8 p.source p.cause 2
  else s

/-- Worker `k` is fenced from the stack (R446, R452). -/
def State.memberFence (s : State) (k : Nat) (cause : Nat) : State :=
  if s.stk.fencedM.getLsbD k then s
  else
    let s1 := (s.onStk fun x => { x with fencedM := setBit x.fencedM k true, fencedBy := x.fencedBy.set k cause }).raise Src.stack Ev.stkLeave (BitVec.ofNat 8 k :: le 2 cause)
    (s1.raise Src.stack Ev.fence ([BitVec.ofNat 8 Src.stack] ++ le 2 cause)).modeFix

/-- A manager that finds a lower STK_ID sending in slot 0 stops acting as manager and rejoins; the fences it held are lifted (R322, R445). -/
def State.slot0Yield (s : State) (other : Nat) : State :=
  if s.stkId ≤ other then s
  else (s.memberUnfence s).onStk fun x => { x with acting := false, worker0 := x.worker0 || s.stkId == 0, joined := false, aligned := false, joinSt := .listening, members := 0, fencedM := 0 }

/-- Manager frames are not used any more, and the worker will join afresh (R445). -/
def State.framesRefused (s : State) : State :=
  (s.onStk fun x => { x with joined := false, aligned := false, decay := true, joinSt := .refused }).raise Src.stack Ev.stkLeave
    (BitVec.ofNat 8 s.stkId :: le 2 Cause.frameCrc.toNat)

/-- What a lasting fault of the stack bus does (R439, R445): the cause is held until its own rule lifts it. -/
def State.stackLasting (s : State) (p : PendFail) : State :=
  if p.cause.toNat / 256 = 6 then
    let k := p.cause.toNat % 256
    let m := p.member.map (·.val)
    let held := k != 2 && !(k == 5 && decide (s.stkId ≤ m.getD 0))
    let s1 := s.onFlt fun f => { f with stkf := if held then setBit f.stkf k true else f.stkf }
    let s4 := match k with
      | 2 => s1.memberFence (m.getD 0) p.cause.toNat
      | 3 => s1.onStk fun x => { x with casc := false, lmaster := false, group := 0 }
      | 5 => s1.slot0Yield (m.getD 0)
      | 6 => s1.framesRefused
      | _ => s1
    (s4.when (k != 2) fun t => t.raise Src.stack Ev.fence ([BitVec.ofNat 8 Src.stack] ++ le 2 p.cause.toNat)).modeFix
  else s

/-- A RET item that fails parity is discarded: restored from its CPU copy where resident firmware keeps one, else at its value
after AON power-on (R470). The items are numbered in the order of R470's table. -/
def State.retDiscard (s : State) (item : Fin 14) : State :=
  match item.val with
  | 0 => s.onWd fun w => { w with rst := 0, rstSat := false }
  | 1 => s.onSys fun y => { y with boot := 0x01, wake := 0 }
  | 2 => s.onFlt fun f => { f with lfSlot := [] }
  | 3 => s.onFlt fun f => { f with lfLost := 0, satf := setBit f.satf 3 false }
  | 4 => s.onFlt fun f => { f with recs := [] }
  | 5 => s.onFlt fun f => { f with recCnt := 0, lost := 0, satf := f.satf &&& 0xC }
  | 6 => s.onFlt fun f => { f with fec := none, satf := setBit f.satf 2 false }
  | 7 => s.onWd fun w => { w with evid := [] }
  | 8 => s.onChg fun c => { c with record := if s.sys.fwRun then c.record else none }
  | 9 => s.onMs fun m => { m with ccCopy := if s.sys.fwRun then m.cc else 0 }
  | 10 => s.onSw fun w => { w with model := if s.sys.fwRun then w.model else [], seeded := w.seeded && s.sys.fwRun }
  | 11 => s.onSys fun y => { y with token := none }
  | 12 => s.onStk fun k => { k with safeg := if s.sys.fwRun then k.safeg else 1000 }
  | _ => s.onSys fun y => { y with saved := none }

/-- The second evaluation fails: the failure is lasting and takes its class reaction (R314, R317, R319, R326). -/
def State.lasting (s : State) (p : PendFail) : State :=
  let src := localSrc p.source
  match causeClass p.cause with
  | 4 =>
    match p.recn with
    | some no => (s.onRec no fun r => { r with lasting := true }).quietStart
    | none => s
  | 3 =>
    if causeResets p.cause then
      ((s.openRec { (lastingRec p 3) with sReset := true }).lfCapture false p.source p.cause 3).moduleReset 0x0A
    else (s.hold3 src p.cause).openRec { (lastingRec p 3) with sHold := true }
  | _ =>
    let b := fenceBit src p.cause
    let s0 := match p.item with
      | some k => s.retDiscard k
      | none => s
    let s1 := (s0.openRec { (lastingRec p 2) with sFenced := b.isSome || p.cause.toNat / 256 == 6 }).railEvent p 2
    let s3 := match b with
      | some k => s1.fenceUnit k p.cause
      | none => s1
    ((s3.railLasting p).stackLasting p).noPhasesCheck s.noPhases

/-- The second evaluation passes: the failure is transient (R317, R319, R320). -/
def State.transient (s : State) (p : PendFail) : State :=
  if causeClass p.cause = 4 then
    match p.recn with
    | some no => (s.onRec no fun r => { r with transient := true, sCleared := true }).quietStart
    | none => s
  else (s.transientRec p).railEvent p 1

/-! ## The end of HOLD (R330 to R334) -/

/-- Whether `r` is a class 3 or 4 record opened since HOLD entry whose cause fails its checker, where `failing` lists the sources and
causes that fail now; NO_PHASES fails while every phase is FENCED (R316, R330). -/
def State.stillFails (s : State) (failing : List (Nat × Nat)) (r : FaultRec) : Bool :=
  s.flt.holdRecs.contains r.recno && 3 ≤ r.cls
    && (failing.contains (localSrc r.source, r.cause.toNat) || (r.cause == Cause.noPhases && s.noPhases))

/-- Whether the cause of every class 3 and 4 record opened since HOLD entry passes its checker (R330, R331). -/
def State.causesPass (s : State) (failing : List (Nat × Nat)) : Bool := s.flt.recs.all fun r => !s.stillFails failing r

/-- The first cause still present, 0 for none. -/
def State.firstFailing (s : State) (failing : List (Nat × Nat)) : Nat :=
  match s.flt.recs.find? (s.stillFails failing) with
  | some r => r.cause.toNat
  | none => 0

/-- HOLD ends (R332): `way` 0 QUIET, 1 RELEASE. The causes of class 3 and 4 have just passed their checkers (R338). -/
def State.holdExit (s : State) (way : Nat) : State :=
  let n := s.flt.holdRecs.length
  let s1 := s.onFlt fun f => { f with
    hold := false, fsafe := false, autook := false, holdRecs := [], cur := if s.anyFence then 2 else 0
    recs := f.recs.map fun r => if f.holdRecs.contains r.recno && 3 ≤ r.cls then { r with sCleared := true } else r }
  let s2 := (s1.recCount).onSys fun y => { y with mode := if y.mode == .hold then s1.runMode else y.mode }
  let s3 := (s2.onFlt fun f => { f with bsOpen := false }).switchClose
  let s4 := s3.when (!s3.flt.fence.getLsbD 15) fun t => t.clearReason Rsn.fault
  s4.raise Src.sorrel Ev.holdExit ([nameByte Ev.holdExit way] ++ le 2 n ++ le 2 s2.flt.recCnt)

end Sys2Proof.Machine
end

