-- ==== Sys2Proof/Machine/BusOps.lean ====
section
/-! DEFINITION. Shared operations of the two-wire ports (chapter 13): whether a port answers, its status bits and guarded
pairs, and the doorbell of the mailboxes (chapter 14). -/
namespace Sys2Proof.Machine

/-- The port `bp` as HOST holds it. -/
def State.port (s : State) : BusPort → PortBus
  | .host => s.bus.hp | .safety => s.bus.sp

/-- Rewrites the port `bp`. -/
def State.onPort (s : State) (bp : BusPort) (f : PortBus → PortBus) : State :=
  match bp with
  | .host => s.onBus fun b => { b with hp := f b.hp }
  | .safety => s.onBus fun b => { b with sp := f b.sp }

/-- Whether HOST is powered and the port present (R364, R374): the safety port only while its fuse is blown. -/
def State.busUp (s : State) (bp : BusPort) : Bool :=
  s.sys.dom.getLsbD 13 && (match bp with
    | .host => true
    | .safety => s.grd.fuseLive.getLsbD 1)

/-- Sets bit `i` of a port's BUS_STAT: 0 GUARDF, 1 NOFW, 2 STRLIM, 3 DENIED, 4 TMO, 5 ATTNF (R385). -/
def State.busFlag (s : State) (bp : BusPort) (i : Nat) : State := s.onPort bp fun p => { p with stat := setBit p.stat i true }

/-- A guarded pair fails (R388): it is discarded, GUARDF is set and GUARD_FAIL raised. -/
def State.guardFail (s : State) (bp : BusPort) : State :=
  ((s.onPort bp fun p => { p with pend := none }).busFlag bp 0).raise (Src.bus bp) Ev.guardFail

/-- A data byte has been written through a port at `a`: the pointer stands behind it, and a pending pair is broken (R367, R387). -/
def State.wrote (s : State) (bp : BusPort) (a : Nat) : State :=
  let s1 := s.onPort bp fun p => { p with ptr := (a + 1) % 4096 }
  s1.when (s.port bp).pend.isSome fun t => t.guardFail bp

/-- The complement `c` arrives for the guarded primary at `g` (R387): an accepted pair's value goes to `f`, which answers what the
register's own rule makes of it; else the pair fails. -/
def State.guardPair (s : State) (bp : BusPort) (g : Nat) (c : Byte) (single : Bool) (f : Byte → State → State) : State :=
  if !s.busUp bp then s
  else
    let s := s.onPort bp fun p => { p with ptr := g + 0x81 }
    match (s.port bp).pend with
    | some p =>
      if single && p.addr == g && c == ~~~p.val && s.now ≤ p.since + 1000 then f p.val (s.onPort bp fun q => { q with pend := none })
      else s.guardFail bp
    | none => s.guardFail bp

/-! ## The doorbell (R380, R396 to R403) -/

/-- One RING bit: INn is write-locked and its frame waits to be taken, or the ring is ignored with MBX_RING_BUSY (R398, R399). Behind a DONE that waits
for halted firmware it waits too (R396). -/
def State.ringOne (s : State) (n : Fin 4) : State :=
  if s.mb.doneHeld.getLsbD n.val && (s.box n.val).st == .final then s.onMb fun m => { m with ringHeld := setBit m.ringHeld n.val true }
  else if s.mb.lock.getLsbD n.val || s.mb.inuse.getLsbD n.val then s.raise (Src.bus .host) Ev.mbxRingBusy
  else s.onMb fun m => { m with lock := setBit m.lock n.val true, ring := m.ring ++ [n] }

/-- The manager's own entry of DORMANT with its stack, at its release (R450). -/
def State.stackDormGo (s : State) : State :=
  ((s.onStk fun k => { k with dormBox := none, dormDo := some 0 }).onSys fun y => { y with dormBox := none }).dormBegin

/-- What a command that acts at release does once its response is released (R402). -/
def State.releaseAct (s : State) (n : Nat) (op : Nat) : State :=
  match op with
  | 0x0106 =>
    if s.sys.dormBox.map (·.val) == some n then s.onSys fun y => { y with dorm := .entering, dormBox := none } else s
  | 0x0107 => s.moduleReset 0x07
  | 0x0804 => s.moduleReset 0x08
  | 0x0904 => s.stackDormGo
  | _ => s

/-- OUTn is released (R398): after an interim response the command goes on; after a final one the credit returns, and a command
that acts at release acts. -/
def State.release (s : State) (n : Nat) : State :=
  let b := s.box n
  let s1 := s.onMb fun m => { m with outrdy := setBit m.outrdy n false, outb := memErase m.outb (256 * n) 256 }
  match b.st with
  | .interim => s1.onBox n fun x => { x with st := .working }
  | .final =>
    ((s1.onMb fun m => { m with inuse := setBit m.inuse n false, lock := setBit m.lock n false }).onBox n fun _ => {}).when b.act
      fun t => t.releaseAct n b.op.toNat
  | .free | .taken | .working => s1

/-- The DONE bits `mask` in ascending mailbox number, where a response waits (R398, R399). MBX_STAT is kept by firmware: while it is halted they wait
(R380). -/
def State.doneBits (s : State) (mask : BitVec 4) : State :=
  (List.range 4).foldl (fun t n =>
    if !mask.getLsbD n || !t.mb.outrdy.getLsbD n then t
    else if t.sys.fwRun then t.release n
    else t.onMb fun m => { m with doneHeld := setBit m.doneHeld n true }) s

/-- The RING bits `mask` in ascending mailbox number (R400). -/
def State.ringBits (s : State) (mask : BitVec 4) : State :=
  (List.finRange 4).foldl (fun t n => if mask.getLsbD n.val then t.ringOne n else t) s

/-- One write of DOORBELL: its DONE bits are acted on before its RING bits (R396). -/
def State.doorbell (s : State) (rings dones : BitVec 4) : State := ((s.doneBits dones).ringBits rings).takeRings

/-- What was written to DOORBELL while firmware was halted is acted on as it goes on (R380, R396). -/
def State.doorbellHeld (s : State) : State :=
  let d := s.mb.doneHeld
  let r := s.mb.ringHeld
  (s.onMb fun m => { m with doneHeld := 0, ringHeld := 0 }).doorbell r d

end Sys2Proof.Machine
end

