-- ==== Sys2Proof/Machine/WdogOps.lean ====
section
/-! DEFINITION. Shared operations of the watchdogs (chapter 12): expiry, evidence, service and start of the internal watchdog;
expiry, kick and deadline of the host-contact watchdog; and the tier they decide. -/
namespace Sys2Proof.Machine

/-! ## The tier (R73, R74) -/

/-- The tier with resident firmware running: Tier 2 with host contact, a seeded model and no expiry (R73, R74). -/
def State.tierFix (s : State) : State :=
  s.onSys fun y => { y with tier := if !y.fwUp then y.tier else if y.hostContact && s.sw.seeded && !s.wd.hExp then 2 else 1 }

/-! ## The internal watchdog (R346 to R357) -/

/-- WDO as driven (R45, R352): high while AON is powered outside SHIP, but for an expiry's pulse; else low. -/
def State.wdoHigh (s : State) : Bool :=
  s.sys.mode != .ship && s.sys.mode != .unpowered && !s.sys.cut && !s.wd.wdoPulse

/-- How many of the six bits are set. -/
def pop6 (m : BitVec 6) : Nat := (bitsOf 6 m).length

/-- One task inbox takes an item, or drops and counts it when full (R30, R35). -/
def State.inboxPut (s : State) (i : Nat) (x : InboxItem) : State :=
  if (s.qs.inbox.getD i []).length < 16 then s.onQs fun q => { q with inbox := q.inbox.set i (q.inbox.getD i [] ++ [x]) }
  else s.drop (5 + i)

/-- A period begins at its tick 0: the programmed length is taken and heartbeats are posted (R350, R355). -/
def State.wdgPeriod (s : State) : State :=
  let s1 := s.onWd fun w => { w with run := .normal, tick := 0, per := s.grd.wdgPer, landed := 0, called := 0, heldm := 0, dupPer := 0 }
  [0, 1, 2, 3, 4, 5].foldl (fun t i => t.inboxPut i .heartbeat) s1

/-- START is written by the supervisor (R355): under hardware start always, under software start while EN = 1. -/
def State.wdgStart (s : State) : State := s.when (s.grd.fuseLive.getLsbD 0 || s.grd.wdgEn) State.wdgPeriod

/-- Duplicate check-ins are counted (R348, R354). -/
def State.wdgDup (s : State) (n : Nat) : State :=
  let s1 := s.onWd fun w => { w with dup := min 0xFFFF (w.dup + n), dupPer := min 0xFFFF (w.dupPer + n) }
  s1.when (n != 0 && s.wd.dup < 0xFFFF && 0xFFFF ≤ s.wd.dup + n) fun t => (t.onWd fun w => { w with dupSat := true }).counterSat 0x07

/-- The watchdog-reset count counts an expiry (R354). -/
def State.wdgCount (s : State) : State :=
  if s.wd.rst < 0xFFFF then
    let s1 := s.onWd fun w => { w with rst := w.rst + 1 }
    s1.when (s.wd.rst + 1 == 0xFFFF) fun t => (t.onWd fun w => { w with rstSat := true }).counterSat 0x06
  else s

/-- The evidence of an expiry (R356). -/
def State.evidence (s : State) (kind : Nat) (early : Byte) : Evid :=
  let held := kind = 1 ∨ kind = 2
  { stamp := s.stamp, kind := BitVec.ofNat 8 kind, recv := if held then s.wd.landed.setWidth 8 else 0xFF
    miss := if held then (~~~s.wd.landed).setWidth 8 else 0xFF, early := early, dup := BitVec.ofNat 16 s.wd.dupPer
    per := BitVec.ofNat 8 (if s.wd.run == .normal then s.wd.per else s.grd.wdgPer) }

/-- DETAIL of a WDG_EXPIRY or CLOCK_LOSS record (R357). -/
def evidDetail (e : Evid) : Nat :=
  e.kind.toNat + 256 * e.miss.toNat + 65536 * e.recv.toNat + 16777216 * min 255 e.dup.toNat

/-- Whether a clock loss falls in the tick of a LATE expiry just taken: the two are one expiry (R353). -/
def State.lateNow (s : State) (kind : Nat) : Bool :=
  kind == 4 && s.wd.recDue.getLast?.any fun e => e.kind == 1 && stampAt e.stamp == s.now

/-- The records of the LATE expiry become those of kind CLOCK_LOSS (R353, R356). -/
def State.lateTurn (s : State) : State :=
  let turn := fun (l : List Evid) => l.dropLast ++ l.getLast?.toList.map fun e => { e with kind := 4, recv := 0xFF, miss := 0xFF }
  s.onWd fun w => { w with evid := turn w.evid, recDue := turn w.recDue }

/-- An expiry of kind 1 LATE, 2 EARLY, 3 BOOT or 4 CLOCK_LOSS (R351, R353): evidence, WDO, module reset and count, in this
order; the fault record follows the restart. -/
def State.wdgExpire (s : State) (kind : Nat) (early : Byte) : State :=
  if s.lateNow kind then (s.lateTurn).moduleReset 0x06
  else
    let e := s.evidence kind early
    let s1 := s.onWd fun w => { w with evid := (w.evid ++ [e]).drop (w.evid.length - 3), recDue := w.recDue ++ [e], wdoPulse := true }
    (s1.moduleReset (if kind = 4 then 0x06 else 0x05)).wdgCount

/-- The fault records of expiries that caused restarts are opened (R316, R318, R351, R357). -/
def State.wdgRecords (s : State) : State :=
  (s.wd.recDue.foldl (fun t e =>
    let cause := if e.kind = 4 then Cause.clockLoss else Cause.wdgExpiry
    let r : FaultRec := { stamp := e.stamp, source := t.source Src.wdg, cause := cause, cls := 3, lasting := true, sReset := true, sCleared := true
                          detail := BitVec.ofNat 32 (evidDetail e) }
    (t.openRec r).lfCapture false (t.source Src.wdg) cause 3) s).onWd fun w => { w with recDue := [] }

/-- The opening tick of the period in progress (R346). -/
def State.wdgOpenAt (s : State) : Nat := 500 * s.wd.per

/-- A check-in write in supervisor privilege reaches the watchdog (R346 to R348). -/
def State.wdgWrite (s : State) (m : BitVec 6) : State :=
  if s.wd.run != .normal || m = 0 || s.sys.halted then s
  else if s.wd.tick < s.wdgOpenAt then
    s.wdgExpire 2 (if pop6 m = 1 then BitVec.ofNat 8 (0x80 + ((bitsOf 6 m).head?.getD 0)) else 0xFF)
  else if s.wd.tick < 1000 * s.wd.per then
    let s1 := (s.wdgDup (pop6 (m &&& s.wd.landed))).onWd fun w => { w with landed := w.landed ||| m }
    if s1.wd.landed = 0x3F then s1.wdgPeriod else s1
  else s

/-! ## The host-contact watchdog (R359 to R361, R228) -/

/-- The host-contact period in µs (R362). -/
def State.hcwPeriod (s : State) : Nat := 1000000 * clampN 10 160 (s.regN 0x0228)

/-- The watchdog starts with its full period (R70, R88, R360). -/
def State.hcwStart (s : State) : State := s.onWd fun w => { w with hRun := true, hExp := false, hDead := s.now + s.hcwPeriod }

/-- The deadline has passed (R361, R228): the record, HCW_EXPIRY, the safe set and Tier 1. RUN stays set while it is expired (R362; DESIGN CHOICE, log
entry 119). -/
def State.hcwExpire (s : State) : State :=
  let s1 := (s.openRec { stamp := s.stamp, source := s.source Src.hcw, cause := Cause.hcwExpiry, cls := 0 }).raise Src.hcw Ev.hcwExpiry
  let s2 := (s1.onWd fun w => { w with hExp := true }).onChg fun c => { c with safe := true }
  (s2.raise Src.teasel Ev.safeSet).tierFix

/-- An accepted kick of stamp `at_` (R73, R228, R359, R360): one on or after the deadline comes after the expiry. -/
def State.hcwServe (s : State) (at_ : Nat) : State :=
  let s1 := s.when (s.wd.hRun && !s.wd.hExp && s.wd.hDead ≤ at_) State.hcwExpire
  (((s1.onWd fun w => { w with hRun := true, hExp := false, hDead := at_ + s.hcwPeriod }).onChg fun c => { c with safe := false }).onSys fun y =>
    { y with hostContact := true }).tierFix

/-- A write to HCW_KICK (R359, R360); while firmware is halted, a kick waits with its stamp. -/
def State.hcwKick (s : State) (bp : BusPort) (v : Byte) : State :=
  if v = 0x5A then
    let s1 := s.onWd fun w => { w with hLastSp := bp == .safety, hBad := false }
    if s.sys.mode == .waking || !s.sys.fwUp then s1
    else if s.sys.fwRun then s1.hcwServe s.now
    else s1.onWd fun w => { w with kicks := w.kicks ++ [s.now] }
  else s.onWd fun w => { w with hBad := true }

end Sys2Proof.Machine
end

