-- ==== Sys2Proof/Machine/Clock.lean ====
section
/-! DEFINITION. Clocks, global time, power domains and tasks (chapter 01). -/
namespace Sys2Proof.Machine

/-! ## Counting time (R18, R19, R23) -/

/-- GTS passes 2^48 − 1 (R23): zero, the epoch increments, GTS_WRAP, and EPOCH_WRAP where the epoch passes 255. -/
def State.gtsWrap (s : State) : State :=
  let s1 := s.onClk fun c => { c with gts := 0, epoch := c.epoch + 1 }
  (s1.raise Src.vetch Ev.gtsWrap).when (s.clk.epoch == 255) fun t => t.raise Src.vetch Ev.epochWrap

/-- GTS advances by `n` µs, at most one wrap. -/
def State.gtsAdd (s : State) (n : Nat) : State :=
  let v := s.clk.gts.toNat + n
  if v < 2 ^ 48 then s.onClk fun c => { c with gts := BitVec.ofNat 48 v }
  else (s.gtsWrap).onClk fun c => { c with gts := BitVec.ofNat 48 (v - 2 ^ 48) }

/-- Whether this is the microsecond in 16 in which a stack member may add or omit a MOSC cycle (R435). -/
def State.trimHere (s : State) : Bool := s.stk.joined && s.clk.gts.toNat % 16 == 15

/-- One cycle of the clock GTS counts from (log entry 1): a MOSC cycle, 128 of which are 1 µs and a watchdog tick, or an AOSC
cycle through the fractional accumulator; none while AON is unpowered or in SHIP. -/
def State.idleTick (s : State) : State :=
  if s.sys.mode == .unpowered || s.sys.mode == .ship || s.sys.cut then s
  else if s.clk.moscRun then
    if s.clk.fine.toNat < 127 then s.onClk fun c => { c with fine := c.fine + 1 }
    else if s.trimHere && s.stk.trimN < 0 then s.onStk fun k => { k with trimN := k.trimN + 1 }
    else
      let up := s.trimHere && 0 < s.stk.trimN
      let s0 := s.when up fun t => t.onStk fun k => { k with trimN := k.trimN - 1 }
      let s1 := (s0.onClk fun c => { c with fine := if up then 1 else 0 }).gtsAdd 1
      s1.onWd fun w => { w with tick := if w.run != .stopped && !s.sys.halted then w.tick + 1 else w.tick }
  else
    let v := s.clk.frac.toNat + s.clk.incr.toNat
    (s.onClk fun c => { c with frac := BitVec.ofNat 16 v }).gtsAdd (v / 65536)

/-! ## Clocks (R14 to R17, R20, R21) -/

/-- What GTS gains at the AOSC edge at which counting passes to MOSC: the edge's own increment on the accumulator, rounded up to the
next whole microsecond (R21). -/
def State.switchOver (s : State) : Nat := (s.clk.frac.toNat + s.clk.incr.toNat + 65535) / 65536

/-- MOSC_START (R14, R21): MOSC has started, and at the AOSC edge that follows GTS counts from it; the domains that wait for MOSC come
up, HOST with its power-up time (R9, R10). -/
def execMoscStart (s : State) : Out :=
  if s.clk.moscEn && !s.clk.moscRun then
    let s1 := (s.onClk fun c => { c with moscRun := true, fine := 0, frac := 0 }).gtsAdd s.switchOver
    .next ((s1.bringUp 0x0004).domRequest { dom := 13, on := true })
  else .next s

/-- CLOCK_LOSS (R15): no activity of MOSC, which has been enabled for 40 µs and may never have started; an expiry, and at the third in a
row AON stops enabling MOSC. -/
def execClockLoss (s : State) : Out :=
  if s.clk.moscEn then
    let n := s.clk.lossCount + 1
    settle s ((s.onClk fun c => { c with moscRun := false, moscEn := false, lossCount := min 3 n, moscStopped := decide (3 ≤ n) }).wdgExpire 4 0xFF)
  else .next s

/-- Whether an AOSC period of `ps` picoseconds is more than 5% from 30.517578125 µs (R16). -/
def aoscOff (ps : Nat) : Bool := 30517578125 < 20 * (max (1000 * ps) 30517578125 - min (1000 * ps) 30517578125)

/-- AOSC_FREQ (R16): the check of AOSC against MOSC fails. -/
def execAoscFreq (ps : Nat) (s : State) : Out :=
  .next (s.when (s.clk.moscRun && aoscOff ps) fun t => t.failNote Src.wdg Cause.aoscFreq ps)

/-- GTS_CALIBRATION (R20): twice the MOSC count over 256 AOSC periods. -/
def execGtsCalibration (count : Nat) (s : State) : Out :=
  .next (s.when s.clk.moscRun fun t => t.onClk fun c => { c with incr := BitVec.ofNat 22 (2 * count) })

/-- Whether AON counts time: not without supply, in SHIP or in a battery-cut (R22). -/
def State.counts (s : State) : Bool := s.sys.mode != .unpowered && s.sys.mode != .ship && !s.sys.cut

/-- GTS_WRAP (R23): GTS stands at 2^48 − 1 and advances. -/
def execGtsWrap (s : State) : Out :=
  .next (s.when (s.counts && s.clk.gts == 0xFFFFFFFFFFFF) fun t => (t.onClk fun c => { c with fine := 0 }).gtsWrap)

/-- The lowest-numbered quad with a phase under the conversion controller (R17). -/
def State.busyQuad (s : State) : Option Nat :=
  (phaseNos.find? fun i => (s.phase i).st == .starting || (s.phase i).st == .active || (s.phase i).st == .draining).map quadOf

/-- A class 4 fault of the PWM clock (R17). -/
def State.pwmFault (s : State) (cause : BitVec 16) : State :=
  match s.busyQuad with
  | some q => s.checkerFail (Src.quad q) cause
  | none => s

/-- PLL_LOCK (R17). -/
def execPllLock (s : State) : Out := settle s (s.pwmFault Cause.pllLock)

/-- DLL_CAL (R17). -/
def execDllCal (s : State) : Out := settle s (s.pwmFault Cause.dllCal)

/-! ## Power domains (R10, R11) -/

/-- The outputs of a domain take their safe values before it is switched off (R10). -/
def State.isolate (s : State) (d : Nat) : State :=
  if d = 11 then s.seqIsolate
  else if d = 13 then s.hostLost
  else if d = 6 ∨ d = 7 then
    let s1 := phaseNos.foldl (fun t i =>
      let x := t.phase i
      if quadOf i = d - 6 && x.st != .fenced && x.st != .free then (t.onPhase i freed).place i x.port none Why.fence else t) s
    match s.sys.limpSrc with
    | some p => s1.when (d == 6 && s.sys.limp) fun t => t.endPath p
    | none => s1
  else if d = 8 then s.setVbus .pa false
  else if d = 9 then s.setVbus .pb false
  else if d = 5 then s.onMs fun m => { m with bleed := false }
  else if d = 12 then s.onBus fun b => { b with stkUpdTo := 0 }
  else s

/-- The domains that a domain needs and that are off (R9, R10). -/
def State.domMissing (s : State) (d : Nat) : List (Fin 14) :=
  (List.finRange 14).filter fun k => (domNeeds d).1.contains k.val && !s.sys.dom.getLsbD k.val

/-- Where the step from `s0` has begun to serve a request to switch a domain off, the domain's outputs are isolated (R10, R11). -/
def State.isolateServed (s0 s : State) : State :=
  match s.sys.domBusy with
  | some r => s.when (!r.on && s0.sys.domBusy != some r) fun t => t.isolate r.dom.val
  | none => s

/-- DOMAIN_SWITCH_REQUEST (R10 to R12): AON is always on, a fenced quad or port block stays off, and what a domain requires is requested
before it. -/
def execDomainSwitchRequest (d : Fin 14) (on : Bool) (s : State) : Out :=
  if on && s.domFenced d.val then .next s
  else if on then
    let s1 := s.when (domNeeds d.val).2 fun t => t.onClk fun c => { c with moscEn := c.moscEn || !c.moscStopped }
    let s2 := (s.domMissing d.val).foldl (fun t k => t.domRequest { dom := k, on := true }) s1
    .next (s2.domRequest { dom := d, on := true })
  else if d.val = 0 then .next s
  else .next (State.isolateServed s (s.domRequest { dom := d, on := false }))

/-- What a domain loses when it has gone off: the CPU domain its drop counters and the firmware that ran (R35), SEQ its engine. -/
def State.domLost (s : State) (d : Nat) : State :=
  if d = 2 then (s.dropsClear).onSys fun y => { y with fwRun := false, fwUp := false, loader := .idle }
  else if d = 11 then s.seqLost
  else s

/-- The outputs of a domain that has come up are released: the VBUS switch of a port with a path closes (R10), and HOST takes over the transfers that
the recognisers hold (R372). -/
def State.domReleased (s : State) (d : Nat) : State :=
  if d = 8 then s.when (s.active .pa) fun t => t.setVbus .pa true
  else if d = 9 then s.when (s.active .pb) fun t => t.setVbus .pb true
  else if d = 13 then s.onBus fun b => { b with recog := false, hp := { b.hp with ackHold := false }, sp := { b.sp with ackHold := false } }
  else s

/-- The request being served is done; the next is begun (R11). -/
def State.domDone (s : State) (on : Bool) (d : Nat) : State :=
  let s0 := (s.onSys fun y => { y with domBusy := none }).setDom d on
  let s1 := if on then s0.domReleased d else s0.domLost d
  State.isolateServed s1 (serveDom (s1.sys.domQ.length + 1) s1)

/-- DOMAIN_POWER_UP_DONE (R10): the power-up time has elapsed with every required domain on. -/
def execDomainPowerUpDone (d : Fin 14) (s : State) : Out :=
  if s.sys.domBusy == some { dom := d, on := true } && s.domMissing d.val == [] && (!(domNeeds d.val).2 || s.clk.moscRun) then
    .next (s.domDone true d.val)
  else .next s

/-- DOMAIN_SWITCH_OFF_DONE (R11): isolated and unpowered. -/
def execDomainSwitchOffDone (d : Fin 14) (s : State) : Out :=
  if s.sys.domBusy == some { dom := d, on := false } then .next (s.domDone false d.val) else .next s

/-! ## Tasks (R39) -/

/-- A task fails: it is restarted once; a second failure before its next completed run is lasting, also where the first was folded into
another task's (R39, R317, R335). -/
def State.taskFail (s : State) (t : FwTask) (cause : BitVec 16) : State :=
  let i := taskIdx t
  let src := s.source (Src.task t)
  if s.flt.taskOnce.getLsbD i then
    let s1 := s.onFlt fun f => { f with pend := f.pend.filter fun p => p.source != src, taskOnce := setBit f.taskOnce i false }
    s1.lasting ((s.flt.pend.find? fun p => p.source == src).getD { source := src, cause := cause, stamp := s.stamp })
  else (s.onFlt fun f => { f with taskOnce := setBit f.taskOnce i true }).failNote (Src.task t) cause

/-- TASK_DEADLINE (R39). -/
def execTaskDeadline (t : FwTask) (s : State) : Out := settle s (s.when s.sys.fwRun fun u => u.taskFail t Cause.taskDeadline)

/-- TASK_MPU (R39). -/
def execTaskMpu (t : FwTask) (s : State) : Out := settle s (s.when s.sys.fwRun fun u => u.taskFail t Cause.taskMpu)

end Sys2Proof.Machine
end

