-- ==== Sys2Proof/Machine/Sequencer.lean ====
section
/-! DEFINITION. The sequencer's events and its mailbox commands (chapter 10; R413). -/
namespace Sys2Proof.Machine

/-- Whether the engine waits at the slot of rail `r`, in a power-up or a shutdown. -/
def State.slotIs (s : State) (r : Nat) : Bool := s.stepRail == some r

/-- Whether the slot of external rail `r` has PGIGN set (R292). -/
def State.pgIgnored (s : State) (r : Nat) : Bool := s.seq.tbl.any fun c => slotRail c == some r && slotPgIgn c

/-- Rail `r`'s good, as its regulator or PGX shows it. -/
def State.setGood (s : State) (r : Nat) (v : Bool) : State := s.onSeq fun q => { q with good := setBit q.good r v }

/-- ON_DELAY_EXPIRY (R297): the rail of the slot is enabled and its good is awaited; a rail on already may show it. -/
def execOnDelayExpiry (s : State) : Out :=
  if s.seq.st == .up && s.seq.waitOn then
    let s1 := s.onSeq fun q => { q with waitOn := false }
    match s.stepRail with
    | some r =>
      if s.seq.fenced.getLsbD r then .next s1.upNext
      else
        let s2 := s1.onSeq fun q => { q with
          waitGood := true, on := setBit q.on r true, outHigh := if r < 4 then setBit q.outHigh r false else q.outHigh }
        .next (s2.when (s2.seq.good.getLsbD r && !(r == 2 && s2.seq.aux2Moving) && !slotPgIgn s2.seq.cur) State.upStep)
    | none => .next s1.upNext
  else .next s

/-- A rail that is on shows good; the step that awaited it is complete (R292, R297). -/
def State.railGood (s : State) (r : Nat) : State :=
  if !s.seq.on.getLsbD r || (r == 2 && s.seq.aux2Moving) then s
  else
    let s1 := s.setGood r true
    if s.seq.st == .up && s.seq.waitGood && s.slotIs r && !slotPgIgn s.seq.cur then s1.upStep else s1

/-- RAIL_GOOD (R297): PGX of a rail that is off is ignored, and so is AUX2's good while AUX2 moves (R291, R292). -/
def execRailGood (r : Fin 8) (s : State) : Out := .next (s.railGood r.val)

/-- UP_TIMEOUT (R299): with PGIGN the rail counts as good; else the good is sampled again. -/
def execUpTimeout (s : State) : Out :=
  if s.seq.st == .up && s.seq.waitGood then
    if slotPgIgn s.seq.cur then .next s.upStep
    else .next ((s.onSeq fun q => { q with waitGood := false, waitRe := true }).failNote s.stepSrc Cause.upTimeout)
  else .next s

/-- NOBAT_SUPPLY_RETURN (R298): supply is back after a shutdown with reason NOBAT. -/
def execNobatSupplyReturn (s : State) : Out :=
  .next (s.when (s.seq.rsn == 5 && s.seq.st == .off && s.regBit 0x01E0 1 && s.anySink) fun t => t.upRequest 0x02)

/-- A running rail's good has fallen (R300). -/
def State.railFell (s : State) (r : Nat) : State :=
  if !s.seq.on.getLsbD r || !s.seq.running.getLsbD r || (r == 2 && s.seq.aux2Moving) then s
  else if s.pgIgnored r then s.setGood r false
  else (s.setGood r false).failNote (Src.rail r) Cause.railFault

/-- RAIL_FAULT (R300): sampled again two AOSC periods later. -/
def execRailFault (r : Fin 8) (s : State) : Out := .next (s.railFell r.val)

/-- TPFW_EXPIRY (R302, R304): the shutdown begins, or waits for the step of a power-up. -/
def execTpfwExpiry (s : State) : Out :=
  if s.seq.tpfwRun then
    let s1 := s.onSeq fun q => { q with tpfwRun := false }
    .next (if s.seq.st == .warning then s1.startDown s.seq.rsn.toNat else s1).shipCheck
  else .next s

/-- RAIL_FALL_DONE (R301): an AUX output is below 10% of nominal. -/
def execRailFallDone (r : Fin 8) (s : State) : Out :=
  if r.val < 4 && !s.seq.on.getLsbD r.val then
    let s1 := s.onSeq fun q => { q with outHigh := setBit q.outHigh r.val false }
    .next (if s.seq.st == .down && s.seq.waitFall && s.slotIs r.val then s1.downStep.shipCheck else s1)
  else .next s

/-- FALL_TIMEOUT (R301): the next step begins; an output still high is a FALL_SLOW failure. -/
def execFallTimeout (s : State) : Out :=
  if s.seq.st == .down && s.seq.waitFall then
    let r := s.stepRail.getD 0
    .next (s.when (s.seq.outHigh.getLsbD r) fun t => t.failNote (Src.rail r) Cause.fallSlow).downStep.shipCheck
  else .next s

/-- OFF_DELAY_EXPIRY (R301). -/
def execOffDelayExpiry (s : State) : Out := .next (if s.seq.st == .down && s.seq.waitOff then s.downStep.shipCheck else s)

/-- AUX2_MOVE_DONE (R291): the good is judged against the new set point. -/
def execAux2MoveDone (good : Bool) (s : State) : Out :=
  if s.seq.aux2Moving then
    let s1 := s.onSeq fun q => { q with aux2Moving := false }
    .next (if good then s1.railGood 2 else s1.railFell 2)
  else .next s

/-- NRSTO_RELEASE (R308). -/
def execNrstoRelease (s : State) : Out :=
  .next (s.when s.seq.nrstDue fun t => t.onSeq fun q => { q with nrstDue := false, nrstSeq := false })

/-- NRSTO_PULSE_END (R308). -/
def execNrstoPulseEnd (s : State) : Out := .next (s.onSeq fun q => { q with nrstPulse := false })

/-! ## Mailbox commands (R413) -/

/-- Every rail fence is lifted (R298). -/
def State.liftRails (s : State) : State := [17, 18, 19, 20, 21, 22, 23, 24].foldl (fun t b => t.liftFence b) s

/-- Whether every filled slot is on and good. -/
def State.allReady (s : State) : Bool := (List.range 8).all s.slotReady

/-- SEQ_UP once its payload is accepted (R298, R304, R405, R413): where a shutdown leaves it no turn, it lifts no fence. -/
def State.seqUpCmd (s : State) (n : Fin 4) : State :=
  if s.isWorker || !s.seqEn then s.finish n.val St.notPermitted
  else
    let lift := s.fld n.val 0 1 == 1
    let busy := s.seq.st == .down || s.seq.st == .warning
    let s1 := s.when lift State.liftRails
    if busy && s.noWait n.val && (lift || !s.slotFenced) then s.finish n.val St.busyRetry
    else if s1.slotFenced then (s1.onSeq fun q => { q with foff := false }).finish n.val St.notPermitted
    else if !busy && s1.allReady then (s1.onSeq fun q => { q with foff := false }).finish n.val St.ok [0]
    else ((s1.accept n.val (!busy)).onSeq fun q => { q with upBox := q.upBox ++ [n] }).upRequest 0x05

/-- SEQ_UP. -/
def execSeqUp (n : Fin 4) (s : State) : Out :=
  .next (s.carry n.val 0x0601 (· == 1) none (s.fld n.val 0 1 ≤ 1) fun t => t.seqUpCmd n)

/-- SEQ_DOWN once its payload is accepted (R302, R304, R413); a power-up in its first on delay is no resting engine. -/
def State.seqDownCmd (s : State) (n : Fin 4) : State :=
  if s.isWorker || !s.seqEn then s.finish n.val St.notPermitted
  else if s.seq.on == 0 && s.seqIdle then s.finish n.val St.ok
  else ((s.accept n.val).onSeq fun q => { q with downBox := q.downBox ++ [n] }).downRequest 0x01

/-- SEQ_DOWN. -/
def execSeqDown (n : Fin 4) (s : State) : Out := .next (s.carry n.val 0x0602 (· == 0) none true fun t => t.seqDownCmd n)

/-- NRST_PULSE (R308). -/
def execNrstPulse (n : Fin 4) (s : State) : Out :=
  .next (s.carry n.val 0x0603 (· == 0) none true fun t => (t.nrstoPulse 0x03).finish n.val St.ok)

/-- The data of LOG_READ. -/
def State.logData (s : State) (start most : Nat) : List Byte :=
  let l := (s.nvm.ring.filter fun e => e.ok && start ≤ e.seqno).take most
  le 4 s.ringTop ++ [BitVec.ofNat 8 l.length] ++ l.flatMap (·.bytes)

/-- LOG_READ. -/
def execLogRead (n : Fin 4) (s : State) : Out :=
  let m := s.fld n.val 4 1
  .next (s.carry n.val 0x0604 (· == 5) none (1 ≤ m && m ≤ 3) fun t => t.finish n.val St.ok (t.logData (t.fld n.val 0 4) m))

end Sys2Proof.Machine
end

