-- ==== Sys2Proof/Machine/Fault.lean ====
section
/-! DEFINITION. Checkers, the second evaluation, the ends of HOLD, first-error capture and fault injection (chapter 11). -/
namespace Sys2Proof.Machine

/-- Whether the CPU domain is powered. -/
def State.cpuOn (s : State) : Bool := s.sys.dom.getLsbD 2

/-- The memory and lockstep checkers act while the CPU domain is powered. -/
def State.cpuCheck (s : State) (src : Nat) (cause : BitVec 16) : State := s.when s.cpuOn fun t => t.failNote src cause

/-- GATE_SUPPLY (R316): of a powered quad. -/
def execGateSupply (q : Fin 2) (s : State) : Out :=
  .next (s.when (s.quadOn q.val) fun t => t.failNote (Src.quad q.val) Cause.gateSupply)

/-- QUAD_SENSOR (R316): of a powered quad. -/
def execQuadSensor (q : Fin 2) (s : State) : Out :=
  .next (s.when (s.quadOn q.val) fun t => t.failNote (Src.quad q.val) Cause.quadSensor)

/-- SAMPLE_FAULT (R36, R316): a drop of a sample queue, which its counter counts, or a parity error. -/
def execSampleFault (p : PortId) (drop : Bool) (s : State) : Out :=
  let s1 := s.when drop fun t => t.drop (portIdx p)
  .next (s1.when (!s.portFenced p) fun t => t.failNote (Src.port p) Cause.sampleFault)

/-- VBUS_SWITCH (R316): the switch differs from its command. -/
def execVbusSwitch (t : TcId) (s : State) : Out :=
  .next (s.when (!s.portFenced (tcPort t)) fun u => u.failNote (Src.tc t) Cause.vbusSwitch)

/-- The contract or reference voltage of a Type-C port in µV: 5 V without a contract, in a transition the greater of the two contract voltages, and on
a source path never below the reference in force (R274, R316). -/
def State.tcRefV (s : State) (t : TcId) : Nat :=
  let volt := fun (o : Option Offer) => o.map fun x => 1000 * x.volt
  max (max ((volt (s.tc t).contract).getD 5000000) ((volt (s.tc t).trans).getD 0))
    (if s.sourcing (tcPort t) then (s.cc.comp.getD (portIdx (tcPort t)) {}).vsRef else 0)

/-- Whether a node voltage is above the over-voltage limit of its port (R316). -/
def State.portOver (s : State) (p : PortId) (mv : Nat) : Bool :=
  match portTc p with
  | some t => 110 * s.tcRefV t < 100000 * mv || 55000 < mv
  | none => 66000 < mv

/-- PORT_OV (R316, R325). -/
def execPortOv (p : PortId) (mv : Nat) (s : State) : Out :=
  settle s (s.when (s.portOver p mv) fun t => t.checkerFail (Src.port p) Cause.portOv mv)

/-- PC_REVERSE (R102, R325): more than 0.5 A out of PC. -/
def execPcReverse (ma : Nat) (s : State) : Out :=
  settle s (s.when (decide (500 < ma)) fun t => t.checkerFail (Src.port .pc) Cause.pcReverse ma)

/-- BATSW_OC (R316, R325): above 60 A for 10 ms, or above 100 A; the switch opens whatever the policy. -/
def execBatswOc (ma : Nat) (s : State) : Out :=
  settle s (s.when (decide (60000 < ma)) fun t => t.checkerFail Src.batsw Cause.batswOc ma)

/-- LOCKSTEP (R316). -/
def execLockstep (s : State) : Out := .next (s.cpuCheck Src.lockstep Cause.lockstep)

/-- NVM_ECC (R456). -/
def execNvmEcc (s : State) : Out := .next (s.cpuCheck Src.nvm Cause.nvmEcc)

/-- SRAM_ECC1 (R316). -/
def execSramEcc1 (s : State) : Out := .next (s.cpuCheck Src.sram Cause.sramEcc1)

/-- SRAM_ECC2 (R316). -/
def execSramEcc2 (s : State) : Out := .next (s.cpuCheck Src.sram Cause.sramEcc2)

/-- RET_PARITY (R470): the item is discarded when the failure proves lasting (R314, R316). -/
def execRetParity (item : Fin 14) (s : State) : Out :=
  .next (s.failNote Src.sram Cause.retParity 0xFFFFFFFF false (some item))

/-- CELL_OV (R206, R220): a configured cell above its trip, VCHG + 100 mV; a cell whose own failure has fenced the charge function has failed
already. -/
def execCellOv (k : Fin 10) (s : State) : Out :=
  .next (s.when (s.sys.fwRun && decide (k.val < s.grd.cells) && decide (10 * (s.eVchg + 100) < s.ms.cell.getD k.val 0)
      && !(s.flt.fence.getLsbD 16 && s.flt.recs.any fun r => r.sFenced && r.cause == Cause.cellOv && r.source == s.source (Src.cs (k.val + 1)))) fun t =>
    t.failNote (Src.cs (k.val + 1)) Cause.cellOv (t.ms.cell.getD k.val 0))

/-! ## The second evaluation (R317 to R320) -/

/-- The cause whose checker an injection target corrupts (R342). -/
def injCause (t : Nat) : BitVec 16 :=
  match t with
  | 1 => Cause.sramEcc1 | 2 => Cause.sramEcc2 | 3 => Cause.nvmEcc | 4 => Cause.retParity | 5 => Cause.sampleFault
  | 6 => Cause.frameCrc | _ => 0

/-- One injected check is used up; with the last the injection is no longer armed, and its report is awaited (R342, R343). -/
def State.injUse (s : State) : State :=
  s.onGrd fun g => { g with
    injRemain := g.injRemain - 1, injArm := g.injArm && 1 < g.injRemain, injWait := if g.injRemain ≤ 1 then some g.injTarget else g.injWait }

/-- FINJ_DONE once the last injected check has been made and its report is a record (R343). -/
def State.finjCheck (s : State) : State :=
  match s.grd.injWait with
  | some k =>
    if s.flt.pend.any fun p => p.injected && p.cause == injCause k then s
    else (s.onGrd fun g => { g with injWait := none }).raise Src.sorrel Ev.finjDone (BitVec.ofNat 8 k :: le 4 s.flt.injRec)
  | none => s

/-- Whether the second evaluation of `p` is itself an injected check. -/
def State.injAgain (s : State) (p : PendFail) : Bool :=
  p.injected && s.grd.injArm && s.grd.injRemain != 0 && p.cause == injCause s.grd.injTarget

/-- What a passed second evaluation restores of the unit: the rail's good or its completed step, VCONN, the AUX output
(R276, R299 to R301). -/
def State.passAct (s : State) (p : PendFail) : State :=
  let src := localSrc p.source
  if p.cause == Cause.upTimeout then
    let s1 := s.setGood (src - 0x40) true
    if s.seq.st == .up && s.seq.waitRe && s.slotIs (src - 0x40) then s1.upStep else s1
  else if p.cause == Cause.railFault then s.setGood (src - 0x40) (s.seq.on.getLsbD (src - 0x40))
  else if p.cause == Cause.vconnOc then
    let t : TcId := if src = 0x10 then .a else .b
    s.onTc t fun x => { x with vconn := x.vconnSrc && s.srcBit t 3 }
  else if p.cause == Cause.fallSlow then s.onSeq fun q => { q with outHigh := setBit q.outHigh (src - 0x40) false }
  else s

/-- The second evaluation of the failure `p` (R317): an injected check still to be made fails it. -/
def State.evaluate (s : State) (p : PendFail) (passes : Bool) : State :=
  let again := s.injAgain p
  let s1 := s.onFlt fun f => { f with
    pend := f.pend.erase p, taskOnce := if 0x80 ≤ localSrc p.source then setBit f.taskOnce (localSrc p.source - 0x80) false else f.taskOnce }
  let s2 := s1.when again State.injUse
  (if passes && !again then (s2.transient p).passAct p else s2.lasting p).finjCheck

/-- SECOND_EVALUATION (R317): of the failure that awaits it, in a run of Sorrel that completes (R39). -/
def execSecondEvaluation (source : BitVec 16) (cause : BitVec 16) (passes : Bool) (s : State) : Out :=
  match s.flt.pend.find? fun p => p.source == source && p.cause == cause with
  | some p => settle s ((s.taskRan .sorrel).evaluate p passes)
  | none => .next s

/-! ## The ends of HOLD (R330 to R332) -/

/-- CLEARED says which causes of the class 3 and 4 records since HOLD entry pass their checkers now (R338). -/
def State.causesMark (s : State) (failing : List (Nat × Nat)) : State :=
  s.onFlt fun f => { f with recs := f.recs.map fun r =>
    if s.flt.holdRecs.contains r.recno && 3 ≤ r.cls then { r with sCleared := !s.stillFails failing r } else r }

/-- The quiet period has elapsed: a full one since its last start, of the length taken then. -/
def State.quietEnd (s : State) (failing : List (Nat × Nat)) : State :=
  if !s.flt.hold || !s.sys.fwRun || !s.autoOk || s.now < s.flt.quietAt + 1000 * s.flt.quietLen then s
  else if s.causesPass failing then s.holdExit 0
  else (s.causesMark failing).quietStart

/-- QUIET_PERIOD_END (R330). -/
def execQuietPeriodEnd (failing : List (Nat × Nat)) (s : State) : Out := settle s (s.quietEnd failing)

/-- A release of HOLD through a port; the Boolean says whether it was accepted (R331). -/
def State.holdRelease (s : State) (bp : BusPort) (failing : List (Nat × Nat)) : State × Bool :=
  if s.sys.mode == .hold && s.causesPass failing && (!s.grd.fuseLive.getLsbD 2 || bp == .safety) then
    ((s.holdExit 1).onGrd fun g => { g with relref := false }, true)
  else
    ((s.onGrd fun g => { g with relref := true }).raise Src.sorrel Ev.holdRefused
      (nameByte Ev.holdRefused (b2n (bp == .safety)) :: le 2 (s.firstFailing failing)), false)

/-- HOLD_REL (R331, R388): REL written as 1 in an accepted pair. -/
def execHoldRel (bp : BusPort) (c : BitVec 8) (single : Bool) (failing : List (Nat × Nat)) (s : State) : Out :=
  settle s (s.guardPair bp 0x4E c single fun v t => t.when (v.getLsbD 0) fun u =>
    let r := u.holdRelease bp failing
    if r.2 then r.1 else r.1.guardFail bp)

/-! ## First-error capture (R340, R341) -/

/-- MORE counts an error after the first, under the counter policy. -/
def State.fecMore (s : State) (f : FecRec) : State :=
  if f.more < 0xFFFF then
    let s1 := s.onFlt fun x => { x with fec := some { f with more := f.more + 1 } }
    s1.when (f.more + 1 == 0xFFFF) fun t => (t.onFlt fun x => { x with satf := setBit x.satf 2 true }).counterSat 0x03
  else s

/-- The first error of the internal bus is captured, a later one counted; the reserved bits of ACCESS read 0 (R6, R340, R341). -/
def State.fecTake (s : State) (addr : BitVec 32) (init access : BitVec 8) (cause : BitVec 16) : State :=
  match s.flt.fec with
  | some f => s.fecMore f
  | none =>
    (s.onFlt fun x => { x with fec := some { addr := addr, stamp := s.stamp, init := init, access := access &&& 0x1F, cause := cause } }).raise
      Src.sorrel Ev.fecCapture ([init, access &&& 0x1F] ++ le 2 cause.toNat)

/-- FEC_CAPTURE (R340): the bus is that of the CPU domain. -/
def execFecCapture (addr : BitVec 32) (init access : BitVec 8) (cause : BitVec 16) (s : State) : Out :=
  .next (s.when s.cpuOn fun t => t.fecTake addr init access cause)

/-! ## Fault injection (R342, R343) -/

/-- Whether an arming of `target` with `count` checks is refused (R343). -/
def State.finjBar (s : State) (target count : Nat) : Bool :=
  !s.runs || s.grd.injArm || target == 0 || 6 < target || count == 0
    || (target == 5 && !(ports.any s.active)) || (target == 6 && !s.isWorker)

/-- An accepted pair at FINJ; a write with ARM = 0 while an injection runs changes nothing. -/
def State.finjWrite (s : State) (v : Byte) : State :=
  let target := v.toNat % 16
  let count := v.toNat / 16 % 8
  if v.getLsbD 7 then
    if s.finjBar target count then (s.onGrd fun g => { g with injRef := true }).guardFail .host
    else s.onGrd fun g => { g with injTarget := target, injCount := count, injArm := true, injLast := target, injRemain := count, injRef := false }
  else if s.grd.injArm then s
  else s.onGrd fun g => { g with injTarget := target, injCount := count }

/-- FINJ (R342, R343). -/
def execFinj (c : BitVec 8) (single : Bool) (s : State) : Out := .next (s.guardPair .host 0x4C c single fun v t => t.finjWrite v)

/-- One injected check is made and fails (R343). -/
def State.injectedCheck (s : State) (src : Nat) (cause : BitVec 16) : State :=
  ((s.injUse).failNote src cause 0xFFFFFFFF true).finjCheck

/-- TEST_WORD_READ (R343): one read of the test word of targets 1 to 4. -/
def execTestWordRead (s : State) : Out :=
  .next (s.when (s.sys.fwRun && s.grd.injArm && s.grd.injRemain != 0 && decide (s.grd.injTarget ≤ 4)) fun t =>
    t.injectedCheck (if t.grd.injTarget = 3 then Src.nvm else Src.sram) (injCause t.grd.injTarget))

end Sys2Proof.Machine
end

