-- ==== Sys2Proof/Machine/Start.lean ====
section
/-! DEFINITION. The staged start, takeover, DORMANT, SHIP, the button and the battery-cut (chapter 03; R52, R229, R307). -/
namespace Sys2Proof.Machine

/-! ## Tier 0 (R22, R65 to R68) -/

/-- AON_POWER_ON (R22): the strap lands are sampled as the reset ends (R57). -/
def execAonPowerOn (straps : Straps) (s : State) : Out :=
  if s.sys.mode == .unpowered && !s.sys.cut then .next ((s.onSys fun y => { y with pins := straps }).aonOn 0x01 0) else .next s

/-- AON_POWER_LOSS (R52): GTS and RET are lost; programming is cut. -/
def execAonPowerLoss (s : State) : Out := .next ((s.seeNodes {}).dark .unpowered false)

/-- TIER_0_READY (R65, R69, R135): a source above its rising threshold, or BAT+ alone at the AON threshold. -/
def execTier0Ready (n : Nodes) (s : State) : Out :=
  let src := ports.any fun p => (uvlo p).1 < nodeV n p
  if s.sys.mode == .waking && !s.sys.tier0 && !s.sys.fwUp && (src || 2600 ≤ n.bat) then
    let s1 := ((s.seeNodes n).onPp fun x => { x with batPres := decide (1000 ≤ n.bat) }).onSys fun y => { y with tier0 := true }
    settle s ((State.placeChanges s1 s1.limpOn Why.portOff).switchClose).romStart
  else .next s

/-- The limp controller leaves the source it has. -/
def State.limpLeave (s : State) : State :=
  match s.sys.limpSrc with
  | some p =>
    ((s.onPath p fun x => { x with dir := .off, limp := false, grant := 0, req := 0, used := 0 }).onPhase 0 fun x =>
      if x.st == PhSt.limp then freed x else x).vbusRest p
  | none => s

/-- The limp controller goes to another source, or stops without one or without Q0, and phase 0 is FREE (R10, R66; log entry 92); its change of port
raises PLACE (R135). -/
def State.limpMove (s : State) (src : Option PortId) : State :=
  let old := s.sys.limpSrc
  let s0 := (s.limpLeave).when src.isSome fun t => t.bringUp 0x0040
  let pick := s0.limpCan src
  let s1 := s0.onSys fun y => { y with limp := pick.isSome, limpSrc := pick, limpLim := 0 }
  let s2 := match pick with
    | some p => (((s1.onPhase 0 fun x => { freed x with st := .limp, port := some p }).formPath p .sink).onPath p fun x => { x with limp := true }).setVbus p true
    | none => s1
  (s2.limpFollow).when (old != pick) fun t => t.place 0 old pick Why.portOff

/-- Whether the limp controller may take a source though it has none: in WAKING, phase 0 being FREE (R66). -/
def State.limpIdle (s : State) : Bool :=
  s.sys.mode == .waking && s.sys.tier0 && !s.sys.fwUp && !s.flt.hold && (s.phase 0).st == .free

/-- LIMP_SOURCE_CHANGE (R66): the source in use has fallen below its falling threshold, or a source has risen while none was in use. -/
def execLimpSourceChange (n : Nodes) (s : State) : Out :=
  let s1 := (s.seeNodes n).batHw
  match s.sys.limpSrc with
  | some p =>
    if s.sys.limp && nodeV n p < (uvlo p).2 then settle s (State.sinkEnded s p (s1.limpMove (limpPick (s.inputs n) (some p)))) else .next s
  | none =>
    let pick := limpPick (s.inputs n) none
    if s.limpIdle && pick.isSome then settle s (s1.limpMove pick) else .next s

/-- SOFT_CONNECT_COMPLETE (R68): VSYS has come within 1.0 V of BAT+. -/
def execSoftConnectComplete (s : State) : Out :=
  settle s (s.when (s.pp.soft == .running) fun t => t.onPp fun x => { x with soft := .no, batSw := .full, linRef := 0 })

/-- A soft connection has failed: the switch opens for the 1 s wait and the failure is reported, unless this attempt was the second
evaluation of an earlier one (R68, R317). -/
def State.softFail (s : State) : State :=
  let s1 := s.onPp fun x => { x with soft := .waiting, batSw := .off, linBefore := false, linRef := 0 }
  s1.when (!(s.flt.pend.any fun p => p.cause == Cause.softConnect)) fun t => t.failNote Src.batsw Cause.softConnect

/-- SOFT_CONNECT (R68). -/
def execSoftConnect (s : State) : Out := settle s (s.when (s.pp.soft == .running) State.softFail)

/-- SOFT_CONNECT_RETRY (R68): the 1 s wait ends. -/
def execSoftConnectRetry (s : State) : Out :=
  settle s (s.when (s.pp.soft == .waiting) fun t => (t.onPp fun x => { x with soft := .no }).switchClose)

/-! ## Tier 1 (R69, R70) -/

/-- The image being verified passes, or the next choice of R69 is taken. -/
def State.imageNext (s : State) : State :=
  let k := s.sys.image
  if s.imgOk k then s.onSys fun y => { y with loader := .done, token := some { image := k, count := s.writeCount } }
  else
    match s.sys.loader, s.imgOrder.find? (· != k) with
    | .first, some j => s.onSys fun y => { y with loader := .second, image := j }
    | _, _ => s.onSys fun y => { y with loader := .done, image := 0, token := none }

/-- IMAGE_VERIFICATION (R69, R89). -/
def execImageVerification (s : State) : Out :=
  .next (s.when (s.sys.mode == .waking && (s.sys.loader == .first || s.sys.loader == .second)) State.imageNext)

/-- The charge that a record describes goes on (R217); the count at its start is kept with it, since a resumption is no charge start (R213).
The reason shown of several that restart is the one of the lowest code (DESIGN CHOICE, log entry 104). After NO_SOURCE a sink path that is active by now
starts a charge (R214), and one that has ended by now suspends it (R219). -/
def State.chargeFrom (s : State) (r : ChgRecord) : State :=
  let susp := r.reasons != 0
  let high := r.reasons &&& 0xFF00
  (s.onChg fun c => { c with
    phase := if susp then .suspended else r.phase, heldPh := if susp then r.phase else .off, reasons := r.reasons
    shown := BitVec.ofNat 8 (lowestRsn (if high != 0 then high else r.reasons)), tPre := r.tPre, tFast := r.tFast, tTop := r.tTop
    suspGts := r.suspGts, ccStart := r.ccStart, sinkPrev := !r.reasons.getLsbD (rsnBit Rsn.noSource), batPrev := s.pp.batPres, tier1Due := false })

/-- The charge at Tier 1, at the first tick for which the cells have been measured since (R214, R217). -/
def State.chargeTier1 (s : State) : State :=
  let s1 := s.onChg fun c => { c with tier1Due := false }
  let sum := s.cellsV.foldl (· + ·) 0
  match s.chg.record with
  | some r =>
    if s.pp.batPres && sum ≤ r.cellSum + 5000 && r.cellSum ≤ sum + 5000 then s1.chargeFrom r
    else (s1.onChg fun c => { c with record := none }).autoStart false
  | none => s1.autoStart false

/-- BATDET (R175). -/
def State.batDet (s : State) : Nat := s.regF 0x0150 5 4

/-- Whether NTC0 is neither open nor short (R174). -/
def State.ntcTest (s : State) : Bool :=
  match s.ms.ntc.head? with
  | some (.valid _) => true
  | _ => false

/-- Whether BATDET judges the battery present where its voltage test gives `v` (R174). -/
def State.batFound (s : State) (v : Bool) : Bool :=
  match s.batDet with
  | 0 => v | 1 => s.ntcTest | 2 => v && s.ntcTest | _ => false

/-- The battery model is discarded, and with it Tier 2 (R74, R205); a partial sweep still to be fitted gets no fit. -/
def State.modelDrop (s : State) : State :=
  let s := s.when (s.sw.run == .none && s.sw.stage == .fitting) fun t =>
    ((t.onSw fun w => { w with stage := .idle }).sweepAnswer t.sw.lastKind t.sw.endRsn true 0 (BitVec.ofNat 8 (t.freeN 0))).useFree 1
  (s.onSw fun w => { w with
    model := [], seeded := false, newFit := none, mismatch := false, mlim := 0xFFFF, weak := 0, offAt := List.replicate 10 none }).tierFix

/-- Presence of the battery as found at Tier 1 under BATDET, without an event; without a battery its model is discarded (R74, R174). -/
def State.batAtTier1 (s : State) : State :=
  let on := s.batFound s.pp.batPres
  let s1 := s.onPp fun x => { x with batPres := on }
  if on then s1.switchClose else (s1.switchOff).modelDrop

/-- What the module holds when resident firmware starts to run, at Tier 1 or after a wake: its mode, domains, clocks of
supervision and waiting work; fenced domains stay off, and SEQ is on whatever the rails (R9, R12, R70, R88, R309, R355, R357, R403; log entry
103). -/
def State.fwStart (s : State) : State :=
  let dom := 0x2864 ||| (if s.inStack then (0x1000 : BitVec 14) else 0) ||| (if s.tca.tcs != .unattached then 0x0100 else 0)
    ||| (if s.tcb.tcs != .unattached then 0x0200 else 0) ||| (if s.pp.presC then 0x0400 else 0)
  let s1 := s.onSys fun y => { y with fwRun := true, fwUp := true, halted := false, mode := s.runMode }
  let s2 := (s1.bringUp dom).onMs fun m => { m with mirEn := true, cc := m.ccCopy }
  (((((s2.hcwStart).wdgStart).wdgRecords).snapTake).takeRings).yarrow

/-- Which image runs, and its release (R69, R76, R407). -/
def State.imageShow (s : State) : State :=
  s.onSys fun y => { y with
    romImg := s.sys.image == 0, imageVer := if s.sys.image = 0 then 0x0204 else BitVec.ofNat 16 (s.imgVer s.sys.image) }

/-- BOOT (R70, R82, R83). -/
def State.bootEvent (s : State) : EventRec := s.mkEvent Src.vetch Ev.boot 0 (s.sys.boot :: le 2 s.sys.wake.toNat)

/-- The settings of Tier 1: the bank in force of a field image, factory defaults otherwise (R69, R70, R461), with the host-port
address latch (R365). -/
def State.loadCfg (s : State) : State :=
  let bank := if s.sys.image = 0 then none else s.bankNow
  let s1 := s.applyCfg (match bank with
    | some b => b.2.load s.sys.imageVer
    | none => {})
  let a := s1.bus.cfgAddr.toNat
  ((s1.imageShow).onSys fun y => { y with cfgDef := s.sys.image != 0 && bank.isNone }).onBus fun b => { b with
      hostAddr := if 0x08 ≤ a ∧ a ≤ 0x77 then s1.bus.cfgAddr else 0x5C }

/-- The sequencer at Tier 1 (R298): the automatic power-up. -/
def State.seqTier1 (s : State) : State :=
  s.when (s.regBit 0x01E0 1 && !s.seq.foff) fun t => t.upRequest 0x01

/-- A port that held a contract before the module reset sends Hard Reset (R81): a sink goes through its sequence, and a port whose
source path the reset has ended only sends, since it starts again from Unattached. -/
def State.hrAtTier1 (s : State) (t : TcId) : State :=
  if (s.tc t).hrBoot then
    let s1 := s.onTc t fun x => { x with hrBoot := false }
    if (s.tc t).tcs == .attachedSnk || (s.tc t).tcs == .attachedSrc then s1.hardReset t true 4
    else (s1.tx t .hardReset).tcEvent t Ev.pdHardReset [nameByte Ev.pdHardReset 0, nameByte Ev.pdHardReset 6]
  else s

/-- A short press that came before resident firmware ran is acted on (R307); with SEQEN = 0 it is no power-up and lifts no fence (R306). -/
def State.shortPress (s : State) (held : Nat) : State :=
  let s1 := s.raise 0x40 Ev.pbtnShort (le 2 (quo held 10))
  match s.regF 0x01E0 5 4 with
  | 1 => s1.nrstoPulse 0x01
  | 2 => s1.when (s.seq.on == 0 && s.seqEn) fun t => (t.liftRails).upRequest 0x04
  | 3 => if s.seq.on == 0 then s1.when s.seqEn fun t => (t.liftRails).upRequest 0x04 else s1.nrstoPulse 0x01
  | _ => s1

/-- The short press held over, once resident firmware runs. -/
def State.pressTake (s : State) : State :=
  match s.sys.btnShort with
  | some h => (s.onSys fun y => { y with btnShort := none }).shortPress h
  | none => s

/-- Tier 1 begins (R70). -/
def State.tier1 (s : State) : State :=
  let s1 := ((s.loadCfg).batAtTier1).onSys fun y => { y with tier := 1, hostContact := false }
  let e := s1.bootEvent
  let s2 := (if s1.eventFits 0 then s1.onQs fun q => { q with events := e :: q.events, evt := setBit q.evt 0 true } else s1.drop 4).onClk
    fun c => { c with lossCount := 0 }
  let s3 := (s2.fwStart).onStk fun k => { k with
    grant := if s2.isWorker then k.safeg else 8000, joinSt := if s2.isWorker then .listening else .idle }
  let s4 := s3.onCc fun c => { c with tune := some { pc := false, wait := s3.switchOn }, pcTuneDue := s3.pp.presC }
  let s5 := (s4.onChg fun c => { c with tier1Due := true }).onMs fun m => { m with fresh := false }
  (((s5.seqTier1).hrAtTier1 .a).hrAtTier1 .b).pressTake

/-- CONFIGURATION_LOAD (R70, R78): the image is chosen and its configuration loaded; a wake from DORMANT is no Tier 1. -/
def execConfigurationLoad (s : State) : Out :=
  settle s (s.when (s.sys.mode == .waking && s.sys.loader == .done && s.sys.boot != 0x09 && s.clk.moscRun && !s.sys.fwUp) State.tier1)

/-! ## Takeover (R72) -/

/-- The conversion controller takes phase 0 of the path of `p` from the limp controller. -/
def State.takeOver (s : State) (p : PortId) : State :=
  let lim := match s.sinkOffer p with
    | (some c, _) => c.curr
    | (none, _) => s.sys.limpLim
  let s1 := (s.onPhase 0 fun x => { x with st := .active, port := some p, next := none, dir := .sink, weight := 16384, hand := false, flip := false, why := Why.takeover }).onPath p
    fun x => { x with limp := false, grant := 0, req := 0, used := 0 }
  let s2 := s1.onCc fun c => { c with comp := c.comp.modify (portIdx p) fun k => { k with vsRef := 1000 * s.pp.nodes.vsys, uh := s.uhPreset p, diode := true, ramp := true, above := 0, inLim := lim } }
  let s3 := s2.onSys fun y => { y with limp := false, limpSrc := none }
  ((s3.place 0 (some p) (some p) Why.takeover)).reAngle p

/-- Whether phase 0 serves the path of `p` under the limp controller while the module runs. -/
def State.limping (s : State) (p : PortId) : Bool := s.runs && s.sys.limp && s.sys.limpSrc == some p && (s.phase 0).st == .limp

/-- Whether the automatic tuning of the VSYS node is still to complete. -/
def State.tuningV (s : State) : Bool :=
  (s.cc.tune.toList ++ s.cc.tuneAsk).any fun r => !r.pc && r.box.isNone

/-- TAKEOVER (R72): the VSYS node, and PC's own for the path of PC, have been measured. -/
def execTakeover (p : PortId) (s : State) : Out :=
  settle s (s.when (s.limping p && !s.tuningV && !(p == .pc && s.tuningPc)) fun t => t.takeOver p)

/-- TAKEOVER_DEFERRAL_EXPIRY (R72): the battery switch has conducted throughout, and the takeover does not wait for VSYS's measurement. -/
def execTakeoverDeferralExpiry (p : PortId) (s : State) : Out :=
  settle s (s.when (s.limping p && s.tuningV && s.switchOn && !(p == .pc && s.tuningPc)) fun t => t.takeOver p)

/-! ## DORMANT (R84 to R89, R504) -/

/-- DORMANT_IDLE_EXPIRY (R84): the idle time has elapsed with every condition held. -/
def execDormantIdleExpiry (load : Nat) (s : State) : Out :=
  settle s (s.when (s.sys.idleS != 0 && s.sys.dorm == .none && s.dormCond load none false) State.dormBegin)

/-- What DORMANT keeps powered besides AON and RET (R9, R86): no fenced quad or port block (R12). -/
def State.dormDom (s : State) (p : Option PortId) : BitVec 14 :=
  let src : BitVec 14 := match p with
    | some .pa => 0x0140 | some .pb => 0x0240 | some .pc => 0x0440 | none => 0
  let off := (List.finRange 14).foldl (fun (m : BitVec 14) d => if s.domFenced d.val then setBit m d.val true else m) 0
  (0x0003 ||| src ||| (if s.seq.on != 0 then 0x0800 else 0)) &&& ~~~off

/-- The battery switch at DORMANT entry (R86): closed on the battery alone, by the ideal-diode comparator beside a source; a soft
connection goes on (R68). -/
def State.dormSwitch (s : State) (src : Bool) : State :=
  if s.pp.batSw == .off || s.pp.soft == .running then s
  else if src then s.onPp fun x => { x with batSw := .diode, linBefore := false }
  else (s.switchFull).onPp fun x => { x with linBefore := false }

/-- DORMANT entry (R85, R20, R45, R134, R135, R343, R504): `count` is the MOSC count of the calibration. The source held is the one that may carry a
sink path (R86). The CPU domain's drop counters are cleared (R35). MODE's TIER, ROMIMG and CFGDEF stand until RUN or DEGRADED is reached
after the wake (log entry 90). -/
def State.dormEnter (s : State) (count : Nat) : State :=
  let p := if (s.phase 0).st == .fenced || s.domFenced 6 then none else ports.find? s.sinkable
  let lim := match p with
    | some q => s.limpLimit q
    | none => 0
  let keep : Saved := { cfg := s.cfgNow, vTune := s.cc.vTune, pTune := s.cc.pTune, vTuned := s.cc.vTuned, pTuned := s.cc.pTuned
                        tier := s.sys.tier, contact := s.sys.hostContact, seeded := s.sw.seeded, prioBad := s.pp.prioBad }
  let s1 := (((s.fpEnd).injDisarm).onGrd fun g => { g with injWait := none }).onClk fun c => { c with
    incr := if c.moscRun then BitVec.ofNat 22 (2 * count) else c.incr, moscEn := false, moscRun := false, frac := 0, fine := 0 }
  let s2 := s1.onSys fun y => { y with
    held := match p with
      | some .pa => .pa | some .pb => .pb | some .pc => .pc
      | none => if s.pp.batPres then .battery else .nothing
    domQ := [], domBusy := none, heldTgt := s.pp.vsysTgt, heldLim := lim, dormGts := s.now, dormIbat := quoQ (s.curSum 16000).1 (s.curSum 16000).2, saved := some keep }
  let s3 := State.placeChanges s (((((s2.cpuLost).hostLost).dropsClear).onBus fun b => { b with recog := true }).limpTo p) Why.portOff
  let s4 := s3.onSys fun y => { y with
    limpTgt := s.pp.vsysTgt, limpLim := lim, mode := .dormant, fwRun := false, fwUp := false, halted := false, dorm := .none, dormBox := none
    dom := s.dormDom p, loader := .idle, limp := p.isSome }
  let s5 := ((s4.when (!(s.dormDom p).getLsbD 11) fun t => (t.seqIsolate).seqLost).dormSwitch p.isSome).onPp fun x => { x with dormOn := x.batSw != .off }
  let s6 := s5.onStk fun k => { k with aligned := false, alignRun := 0, casc := false, lmaster := false, dormant := s.inStack, heardCyc := false, decay := false, dormDo := none, dormPh := 0 }
  (s6.onTca fun x => { x with rdOut := x.rdOut || x.tcs == .unattached }).onTcb fun x => { x with rdOut := x.rdOut || x.tcs == .unattached }

/-- DORMANT entry, and the wake that follows it at once where a wake source was latched (R85). -/
def State.dormNow (s : State) (count : Nat) : State :=
  let t := (s.dormEnter count).onSys fun y => { y with wakeLatch := 0 }
  t.when (s.sys.wakeLatch != 0) fun u => u.wakeUp s.sys.wakeLatch

/-- DORMANT entry once the preparations have ended (R84, R85, R305, R407): an automatic entry judges the conditions and enters; a
command is answered first and enters after its release, and DORMANT_ABORT says that the conditions have ceased by then. -/
def State.dormGo (s : State) (count load : Nat) : State :=
  let stk := s.stk.dormDo.isSome || s.stk.dormBox.isSome
  match s.sys.dorm, s.sys.dormBox with
  | .ready, none => if s.dormCond load none stk then s.dormNow count else s.dormCancel St.notPermitted
  | .ready, some n =>
    if (s.box n.val).fin.isSome || (s.box n.val).st == .final then s
    else if s.dormCond load (some n) stk then s.finishAct n.val
    else s.dormCancel St.notPermitted
  | .entering, _ =>
    if s.dormCond load none stk then s.dormNow count
    else (s.dormCancel St.notPermitted).raise Src.vetch Ev.dormantAbort
  | _, _ => s

/-- DORMANT_ENTRY (R85). -/
def execDormantEntry (count : Nat) (load : Nat) (s : State) : Out := settle s (s.when s.runs fun t => t.dormGo count load)

/-- DORMANT_WAKE (R83, R87). -/
def execDormantWake (mask : BitVec 16) (s : State) : Out := settle s (s.wakeFrom mask)

/-- WAKE_TIMER (R87): the housekeeping that follows ends with the first Teasel tick, at which the module returns to DORMANT if the entry
conditions hold. -/
def execWakeTimer (s : State) : Out :=
  settle s (s.when (s.sys.mode == .dormant && s.sys.wakeNow != 0) fun t => t.wakeFrom 0x0080)

/-- What RET saved at DORMANT entry comes back (R504). -/
def State.restore (s : State) (v : Saved) : State :=
  let s1 := (s.applyCfg v.cfg).onCc fun c => { c with vTune := v.vTune, pTune := v.pTune, vTuned := v.vTuned, pTuned := v.pTuned }
  ((s1.onSys fun y => { y with tier := v.tier, hostContact := v.contact }).onSw fun w => { w with seeded := v.seeded && w.model != [] }).onPp fun x =>
    { x with prioBad := v.prioBad }

/-- RUN or DEGRADED is reached after a wake (R69, R72, R83, R88, R89, R305, R504). An expiry of the host-contact watchdog and its safe
set outlast DORMANT, in which there is no host contact (R74, R228). -/
def State.wakeRun (s : State) : State :=
  let s1 := match s.sys.saved with
    | some v => s.restore v
    | none => s
  let s2 := ((s1.imageShow).fwStart).onWd fun w => { w with hExp := s.wd.hExp }
  let s3 := (match s.chg.record with
    | some r => s2.chargeFrom r
    | none => s2).raise Src.vetch Ev.boot (s.sys.boot :: le 2 s.sys.wake.toNat)
  let s4 := (s3.onStk fun k => { k with
    wokeAt := if k.dormant then some s3.now else none, alignDue := k.dormant && s3.isWorker, realign := k.dormant && s3.isWorker, wakeM := if k.dormant then k.members else 0, dormant := false, grant := if s3.isWorker then k.safeg else k.grant }).onBus fun b => { b with stkUpdTo := if s.stk.dormant then s3.now + 10 else 0 }
  ((s4.tierFix).dormRails 0x03).pressTake

/-- WAKE_RUN_REACHED (R504). -/
def execWakeRunReached (s : State) : Out :=
  settle s (s.when (s.sys.mode == .waking && s.sys.loader == .done && s.sys.boot == 0x09 && s.clk.moscRun && !s.sys.fwUp) State.wakeRun)

/-! ## SHIP (R90 to R92, R498) -/

/-- An accepted value at SHIP_ENT (R90, R91, R498): DELAY alone is judged, bit 6 being reserved and SHIPREF read only (R6, R7). -/
def State.shipWrite (s : State) (v : Byte) : State :=
  let d := v.toNat % 64
  if d = 0 ∨ 60 < d then s.guardFail .host
  else if !s.runs || s.anyPresent || s.isWorker then (s.onSys fun y => { y with shipRef := true }).guardFail .host
  else (s.onSys fun y => { y with shipAt := some (s.now + 1000000 * d), shipRef := false }).raise Src.vetch Ev.shipPending

/-- SHIP_ENT (R498). -/
def execShipEnt (c : BitVec 8) (single : Bool) (s : State) : Out := .next (s.guardPair .host 0x40 c single fun v t => t.shipWrite v)

/-- SHIP_DELAY_END (R91): the shutdown begins. -/
def execShipDelayEnd (s : State) : Out :=
  if s.sys.shipAt.isSome && !s.sys.shipShut && s.runs then
    .next (((s.onSys fun y => { y with shipShut := true }).downRequest 0x06).shipCheck)
  else .next s

/-- SHIP_FORCE_OPEN (R91): 5 s after the delay the switch opens regardless. -/
def execShipForceOpen (s : State) : Out := .next (s.when (s.sys.shipShut && s.runs) fun t => t.dark .ship false)

/-- SHIP_EXIT (R92): a source attach; bit 0 of the mask where the button arrived together with it. -/
def execShipExit (mask : BitVec 16) (s : State) : Out :=
  .next (s.when (s.sys.mode == .ship && mask &&& 0x000E != 0) fun t => t.aonOn 0x03 (mask &&& 0x000F))

/-- PBTN_SHIP_EXIT (R92). -/
def execPbtnShipExit (s : State) : Out :=
  .next (s.when (s.sys.mode == .ship && s.sys.btnDown && s.sys.btnCounts) fun t => t.aonOn 0x02 0x0001)

/-! ## PBTN (R91, R93, R94, R229, R307) -/

/-- PBTN_PRESS (R94): the press counts when it began after a release; it cancels a SHIP entry in its delay (R91). -/
def execPbtnPress (s : State) : Out :=
  .next (s.onSys fun y => { y with btnDown := true, btnCounts := y.btnCounts || !y.btnDown }).shipCancel

/-- A press of `held` ms has ended; a short one wakes the module from DORMANT (R83, R307). -/
def State.pressEnd (s : State) (held : Nat) : State :=
  if s.sys.mode == .ship || s.sys.mode == .unpowered || s.sys.cut then s
  else if held < 1000 then
    (if s.sys.fwRun then s.shortPress held else s.onSys fun y => { y with btnShort := some held }).wakeFrom 0x0001
  else if held < 8000 then s.raise 0x40 Ev.pbtnLong (le 2 (quo held 10))
  else s

/-- PBTN_RELEASE (R307): `held` is in ms from the end of the debounce. -/
def execPbtnRelease (held : Nat) (s : State) : Out :=
  let s1 := s.onSys fun y => { y with btnDown := false, btnCounts := false }
  settle s (s1.when (s.sys.btnDown && s.sys.btnCounts) fun t => t.pressEnd held)

/-- PBTN_FORCE_OFF (R229, R302): PFW, and the shutdown that holds the rails off. -/
def execPbtnForceOff (s : State) : Out :=
  if s.sys.btnDown && s.sys.btnCounts && s.sys.mode != .ship && s.sys.mode != .unpowered then
    .next (((s.raise 0x40 Ev.pbtnForceOff).onSeq fun q => { q with foff := q.foff || s.seqEn }).downCause 0x02 0x40)
  else .next s

/-- BATTERY_CUT (R93): everything off, AON held in power-on reset. -/
def execBatteryCut (s : State) : Out :=
  .next (s.when (s.sys.btnDown && s.sys.btnCounts && s.sys.mode != .unpowered) fun t => t.dark .unpowered true)

/-- BATTERY_CUT_END (R93). -/
def execBatteryCutEnd (s : State) : Out := .next (s.when s.sys.cut fun t => t.aonOn 0x04 0)

end Sys2Proof.Machine
end

