-- ==== Sys2Proof/Machine/TypeC.lean ====
section
/-! DEFINITION. The Type-C ports and power negotiation (chapter 09; R412). -/
namespace Sys2Proof.Machine

/-- Whether task Cowslip serves port `t`. -/
def State.tcLive (s : State) (t : TcId) : Bool := s.sys.fwRun && !s.portFenced (tcPort t)

/-- A command on port `t` that task Cowslip acts on. -/
def State.onPd (s : State) (t : TcId) (f : State → State) : Out := settle s (s.when (s.tcLive t) fun u => f (u.txClear t))

/-- The sensed Rp of port `t`. -/
def State.rp (s : State) : TcId → Rp
  | .a => s.pp.rpA | .b => s.pp.rpB

/-- Sets the sensed Rp of port `t`. -/
def State.setRp (s : State) (t : TcId) (v : Rp) : State :=
  match t with
  | .a => s.onPp fun x => { x with rpA := v }
  | .b => s.onPp fun x => { x with rpB := v }

/-- Sets the node voltage last seen of port `t`. -/
def State.setNode (s : State) (t : TcId) (v : Nat) : State :=
  match t with
  | .a => s.onPp fun x => { x with nodes := { x.nodes with pa := v } }
  | .b => s.onPp fun x => { x with nodes := { x.nodes with pb := v } }

/-- Whether the port is attached. -/
def State.attached (s : State) (t : TcId) : Bool := (s.tc t).tcs == .attachedSnk || (s.tc t).tcs == .attachedSrc

/-- PD_CONTRACT (R288). -/
def State.contractEvent (s : State) (t : TcId) (o : Offer) : State :=
  s.tcEvent t Ev.pdContract ([BitVec.ofNat 8 o.pos, BitVec.ofNat 8 o.kind] ++ le 2 (quo o.volt 10) ++ le 2 (quo o.curr 10))

/-! ## Attach and detach (R266 to R269, R285) -/

/-- Whether port `t` may be found by a sink: dual-role and permitted to source, it toggles Rd and Rp while it is Unattached (R266). -/
def State.tcToggles (s : State) (t : TcId) : Bool := s.sys.fwRun && s.tcSourceOk t

/-- The terminations with which the port waits for an attach: as source Rp at 1.5 A, else Rd (R266, R267). -/
def TcPort.present (x : TcPort) (src : Bool) : TcPort := { x with asSrc := src, rdOut := !src, rpOut := if src then 1 else 0 }

/-- CC_ATTACH (R264, R266, R268): the debounce starts; a source attach needs a port that toggles. The attach of the role that Try.SNK or
Try.SRC prefers, while the other is being debounced, is that of state TRY, in which the port presents that role's termination (log entry 101). -/
def execCcAttach (t : TcId) (src : Bool) (s : State) : Out :=
  let x := s.tc t
  if s.portFenced (tcPort t) || s.sys.mode == .unpowered || s.sys.mode == .ship || (src && !s.tcToggles t) then .next s
  else if x.tcs == .unattached && !x.discharging then .next (s.onTc t fun y => { y.present src with tcs := .attachWait })
  else if x.tcs == .attachWait && x.asSrc != src && s.sys.fwRun && s.tcRole t == (if src then 2 else 1) then
    .next (s.onTc t fun y => { y.present src with tcs := .try })
  else .next s

/-- The port becomes Attached.SNK (R268). -/
def State.attachSnk (s : State) (t : TcId) (orient : Bool) (rp : Rp) (vbus : Nat) : State :=
  let s1 := ((s.setRp t rp).setNode t vbus).onTc t fun x => { x with
    tcs := .attachedSnk, src := false, roleAtt := false, orient := b2n orient, dfp := false, rdOut := true, rpOut := 0, hrTries := 0, nonPd := false }
  (((s1.setPresent (tcPort t) (decide ((uvlo (tcPort t)).1 < vbus) && rp != .none)).limpFollow).attachEvent t Ev.tcAttach).shipCancel

/-- The port becomes Attached.SRC: VBUS, the source path and VCONN start, and the cable is discovered before the first
Source_Capabilities (R268, R276). -/
def State.attachSrc (s : State) (t : TcId) (orient : Bool) : State :=
  let s1 := (s.onTc t fun x => { x with
    tcs := .attachedSrc, roleAtt := true, orient := b2n orient, dfp := true, hrTries := 0, nonPd := false, vconnOff := false }).startSource t
  let s2 := (s1.vconnOn t).attachEvent t Ev.tcAttach
  if (s2.tc t).vconn then s2.discoverCable t else s2.sendCaps t

/-- The attach debounce ends (R268); a VCONN fence lasts until this attach (R321). -/
def State.debounceEnd (s : State) (t : TcId) (orient : Bool) (rp : Rp) (vbus : Nat) : State :=
  let x := s.tc t
  if x.tcs != .attachWait && x.tcs != .try then s
  else
    let s1 := (s.liftFence (13 + portIdx (tcPort t))).onTc t fun y => { y with vconnOff := false }
    if x.asSrc then (if s1.tcSourceOk t then s1.attachSrc t orient else s1.onTc t fun y => { y.present false with tcs := .unattached })
    else s1.attachSnk t orient rp vbus

/-- ATTACH_DEBOUNCE_END (R268). -/
def execAttachDebounceEnd (t : TcId) (orient : Bool) (rp : Rp) (vbus : Nat) (s : State) : Out :=
  s.onPd t fun u => u.debounceEnd t orient rp vbus

/-- A detach; a path that the limp controller held on the port passes to the next source (R66, R269). -/
def State.detachPort (s : State) (t : TcId) : State :=
  let x := s.tc t
  if x.tcs == .unattached then s
  else if x.tcs == .attachWait || x.tcs == .try then s.onTc t fun y => { y.present false with tcs := .unattached }
  else
    let s1 := s.setNode t 0
    let s2 := if s1.sys.limpSrc == some (tcPort t) then s1.limpMove (limpPick (s1.inputs s1.pp.nodes) none) else s1
    State.detach s ((s2.setRp t .none).txClear t) t

/-- Whether a fall of VBUS on port `x` is a detach: on a sink, but neither in a Hard Reset sequence nor while VBUS is off in a PR_Swap (R269). -/
def TcPort.vbusDetach (x : TcPort) : Bool := !x.src && !x.hrst && x.swap != .prOff && x.swap != .prRdy

/-- DETACH (R269, R285). -/
def execDetach (d : DetachIn) (s : State) : Out := settle s (s.when (!d.vbus || (s.tc d.port).vbusDetach) fun u => u.detachPort d.port)

/-- Both sides of the switch are below vSafe0V (R269, R279, R283); a Hard Reset owed since a module reset stays owed (R81). -/
def State.dischargeDone (s : State) (t : TcId) : State :=
  let x := s.tc t
  if !x.discharging then s
  else
    let s1 := s.onTc t fun y => { y with discharging := false }
    if x.swap == .prOff && x.src then
      (s1.onTc t fun y => { y with swap := .prRdy, src := false, rpOut := 0, rdOut := true, tcs := .attachedSnk }).tx t .psRdy
    else if x.hrst then s1
    else s1.onTc t fun y => { tx := y.tx, hrBoot := y.hrBoot }

/-- PORT_DISCHARGE_DONE (R269). -/
def execPortDischargeDone (t : TcId) (s : State) : Out := .next ((s.txClear t).dischargeDone t)

/-- A sink port sees its source at vSafe5V again (R279, R283): the path may start under R67 and negotiation begins afresh. -/
def State.vbusBack (s : State) (t : TcId) : State :=
  let x := s.tc t
  if x.tcs == .attachedSnk && !x.src && (x.hrst || !s.present (tcPort t)) then
    ((s.setNode t 5000).setPresent (tcPort t) (s.rp t != .none)).onTc t fun y => { y with hrst := false, offers := [], discharging := false }
  else s

/-- VSAFE5V_RETURN (R283). -/
def execVsafe5vReturn (t : TcId) (s : State) : Out := s.onPd t fun u => u.vbusBack t

/-- RP_ADVERTISEMENT_CHANGE (R67, R267). -/
def execRpAdvertisementChange (t : TcId) (rp : Rp) (s : State) : Out := .next (s.setRp t rp).limpFollow

/-! ## Negotiation as sink (R270 to R274) -/

/-- New offers of the partner. -/
def State.newOffers (s : State) (t : TcId) (epr rev3 : Bool) (objs : List Pdo) : State :=
  let x := s.tc t
  if x.tcs != .attachedSnk || x.src || (epr && !x.epr) then s
  else
    let s1 := s.onTc t fun y => { y with
      offers := objs, rev3 := rev3, hrTries := 0, nonPd := false
      prDrp := if epr then y.prDrp else (objs.head?.map (·.drp)).getD false
      prEpr := if epr then y.prEpr else (objs.head?.map (·.eprCap)).getD false }
    (s1.negotiate t).eprTry t

/-- SOURCE_CAPABILITIES (R271, R272). -/
def execSourceCapabilities (t : TcId) (epr rev3 : Bool) (objs : List Pdo) (s : State) : Out :=
  s.onPd t fun u => u.newOffers t epr rev3 objs

/-- A DR_Swap takes effect (R282). -/
def State.dataSwap (s : State) (t : TcId) : State := (s.onTc t fun x => { x with dfp := !x.dfp }).swapEvent t 2 0

/-- The VBUS of a role swap goes off: the path ends, and the command is past its point of no return (R279, R406). -/
def State.swapOff (s : State) (t : TcId) : State :=
  let p := tcPort t
  let x := s.tc t
  let s1 := ((s.endPath p Why.direction).vbusRest p).setLearn p none
  let s2 := match x.swapBox with
    | some n => s1.onBox n.val fun b => { b with pnr := true }
    | none => s1
  let s3 := (s2.eprEnd t 5).onTc t fun y => { y with
    swap := .prOff, waitDue := false, contract := none, req := none, trans := none, offers := [], discharging := y.src, srcOffered := [] }
  if x.src then s3 else State.sinkEnded s p (s3.setPresent p false)

/-- An Accept of the message the module sent last: a swap, or a Request, whose transition begins (R274, R279, R281, R282). -/
def State.accepted (s : State) (t : TcId) : State :=
  let x := s.tc t
  match x.swap with
  | .prSent => s.swapOff t
  | .frSent => s.onTc t fun y => { y with swap := .frAccepted }
  | .prOff | .prRdy | .frAccepted | .none =>
    if x.drWait then ((s.dataSwap t).finishO x.drBox St.ok [0]).onTc t fun y => { y.closes with drWait := false, drBox := none, waitDue := false }
    else if x.vcWait then
      ((((s.onTc t fun y => { y.closes with vcWait := false }).vconnOn t).tx t .psRdy).swapEvent t 3 0).discoverCable t
    else
      match x.req with
      | some o => s.onTc t fun y => { y with trans := some o, req := none, waitDue := false, retries := 0 }
      | none => s

/-- ACCEPT (R274). -/
def execPdAccept (t : TcId) (s : State) : Out := s.onPd t fun u => u.accepted t

/-- A transition ends: the new contract is in force, and a change that came meanwhile is acted on (R272 to R275, R280, R284, R286). -/
def State.contractNow (s : State) (t : TcId) (o : Offer) : State :=
  let x := s.tc t
  let s1 := ((s.setLearn (tcPort t) none).onTc t fun y => { y with
    contract := some o, trans := none, reWait := y.reWait || y.fellBack, fellBack := false, prepWait := false }).limpFollow.contractEvent t o
  let s2 := (((s1.tx t .getSinkCap).eprTry t).authMaybe t).frsEval t
  let s3 := s2.reEvalNow t
  if x.prepWait then s3.dormNext else s3

/-- A swap has failed after VBUS went off: ErrorRecovery, with no termination, until both sides of the switch are discharged (R264, R279; log
entry 109). -/
def State.errorRecovery (s : State) (t : TcId) : State :=
  let x := s.tc t
  ((((s.authDetach t).onTc t fun y => { y with
    tcs := .errorRecovery, swap := .none, swapBox := none, src := false, rdOut := false, rpOut := 0, vconn := false, vconnSrc := false, discharging := true }).swapEvent
      t 0 2).finishO x.swapBox St.ok [3])

/-- The module is the new source of a power-role swap, or cannot be and goes to ErrorRecovery (R279). -/
def State.swapToSource (s : State) (t : TcId) : State :=
  let x := s.tc t
  if s.tcSourceOk t then
    let s1 := (((s.onTc t fun y => { y with tcs := .attachedSrc, swap := .none, swapBox := none }).startSource t).tx t .psRdy).swapEvent t 0 0
    (s1.finishO x.swapBox St.ok [0]).sendCaps t
  else s.errorRecovery t

/-- A PS_RDY of the partner (R274, R279, R281). -/
def State.psReady (s : State) (t : TcId) : State :=
  let x := s.tc t
  match x.swap with
  | .prOff => if x.src then s else s.swapToSource t
  | .prRdy => ((s.onTc t fun y => { y with swap := .none, swapBox := none }).swapEvent t 0 0).finishO x.swapBox St.ok [0]
  | .frAccepted =>
    (((s.onTc t fun y => { y with swap := .none, rpOut := 1, rdOut := false }).tx t .psRdy).swapEvent t 1 0).sendCaps t
  | .none | .prSent | .frSent =>
    match x.trans with
    | some o => s.contractNow t o
    | none => s

/-- PS_RDY (R274). -/
def execPsRdy (t : TcId) (s : State) : Out := s.onPd t fun u => u.psReady t

/-- A PR_Swap of the module is refused for good: `r` is RESULT (R278, R412). -/
def State.swapRefused (s : State) (t : TcId) (r : Byte) : State :=
  let x := s.tc t
  let s1 := ((s.onTc t fun y => { y.closes with swap := .none, swapBox := none, waitDue := false, retries := 0 }).swapEvent t 0 1).finishO x.swapBox St.ok [r]
  if x.swapEnd then (s1.onTc t fun y => { y with swapEnd := false }).srcRemove t else s1

/-- A DR_Swap of the module is refused for good. -/
def State.dataRefused (s : State) (t : TcId) (r : Byte) : State :=
  let x := s.tc t
  ((s.onTc t fun y => { y.closes with drWait := false, drBox := none, waitDue := false, retries := 0 }).swapEvent t 2 1).finishO x.drBox St.ok [r]

/-- What a message of the module that awaits its answer is. -/
inductive Sent where
  | prSwap | frSwap | drSwap | vconnSwap | request | nothing
  deriving DecidableEq, Repr

/-- The message of port `x` that awaits its answer. -/
def sentNow (x : TcPort) : Sent :=
  if x.swap == .prSent then .prSwap else if x.swap == .frSent then .frSwap else if x.drWait then .drSwap
  else if x.vcWait then .vconnSwap else if x.req.isSome then .request else .nothing

/-- A Reject, or the Wait after the fifth retry (R273, R278, R281). -/
def State.refused (s : State) (t : TcId) (r : Byte) : State :=
  match sentNow (s.tc t) with
  | .prSwap => s.swapRefused t r
  | .frSwap => s.hardReset t true 2
  | .drSwap => s.dataRefused t r
  | .vconnSwap => (s.onTc t fun y => { y.closes with vcWait := false }).swapEvent t 3 1
  | .request => (s.onTc t fun y => { y with waitDue := false }).fallBack t
  | .nothing => s

/-- WAIT (R273): retried 100 ms later, up to five times. -/
def execPdWait (t : TcId) (s : State) : Out :=
  s.onPd t fun u =>
    let x := u.tc t
    match sentNow x with
    | .prSwap | .drSwap | .request => if 5 ≤ x.retries then u.refused t 2 else u.onTc t fun y => { y with waitDue := true }
    | .frSwap | .vconnSwap => u.refused t 2
    | .nothing => u

/-- The same message is sent again 100 ms after a Wait. -/
def State.waitRetry (s : State) (t : TcId) : State :=
  let x := s.tc t
  if !x.waitDue then s
  else
    let s1 := s.onTc t fun y => { y with waitDue := false, retries := y.retries + 1 }
    match sentNow x, x.req with
    | .prSwap, _ => s1.tx t .prSwap
    | .drSwap, _ => s1.tx t .drSwap
    | .request, some o => s1.sendReq t o
    | _, _ => s1

/-- WAIT_RETRY (R273). -/
def execWaitRetry (t : TcId) (s : State) : Out := s.onPd t fun u => u.waitRetry t

/-- REJECT (R273): handled as a fifth Wait. -/
def execPdReject (t : TcId) (s : State) : Out := s.onPd t fun u => u.refused t 1

/-- FALLBACK_REREQUEST (R273): the refused offer is requested again, under the rules afresh. -/
def execFallbackRerequest (t : TcId) (s : State) : Out :=
  s.onPd t fun u =>
    let x := u.tc t
    match x.refused with
    | some r =>
      if x.reWait && x.req.isNone && x.trans.isNone then
        (u.onTc t fun y => { y with reWait := false, refused := none, retries := 0 }).sendReq t r
      else u
    | none => u

/-- PPS_REREQUEST (R272): the request of a PPS contract is repeated. -/
def execPpsRerequest (t : TcId) (s : State) : Out :=
  s.onPd t fun u =>
    let x := u.tc t
    match x.contract with
    | some c => if c.kind == 2 && !x.src && x.req.isNone && x.trans.isNone then u.sendReq t c else u
    | none => u

/-! ## EPR (R275, R277) -/

/-- The reason with which an Enter is refused, coded as the standard codes it (log entry 31). -/
def State.eprRefuse (s : State) (t : TcId) : Byte :=
  if !s.srcBit t 1 then 5 else if !((s.tc t).cable5A && (s.tc t).cableEpr) then 1 else 4

/-- An EPR_Mode message with action `act`: 1 Enter, 2 acknowledged, 3 succeeded, 4 failed, 5 Exit (log entry 31). A mode entered on which EPREN or
VMAX has closed meanwhile is left at once (R275). -/
def State.eprMsg (s : State) (t : TcId) (act : Nat) : State :=
  let x := s.tc t
  match act with
  | 1 =>
    if !x.src then s
    else if x.contract.isSome && s.eprSrcOk t then
      (((((s.tx t (.eprMode 2 0)).tx t (.eprMode 3 0)).onTc t fun y => { y with epr := true }).tcEvent t Ev.eprEnter [nameByte Ev.eprEnter 1])).sendCaps t
    else s.tx t (.eprMode 4 (s.eprRefuse t))
  | 3 =>
    if x.eprWait then
      ((s.onTc t fun y => { y with eprWait := false, epr := true }).tcEvent t Ev.eprEnter [nameByte Ev.eprEnter 0]).eprLeave t
    else s
  | 4 => s.onTc t fun y => { y with eprWait := false }
  | 5 =>
    if x.epr then
      let s1 := s.eprEnd t 0
      if x.src then s1.sendCaps t else s1.negotiate t true
    else s
  | _ => s

/-- EPR_MODE (R275, R277). -/
def execEprMode (t : TcId) (act : BitVec 8) (s : State) : Out := s.onPd t fun u => u.eprMsg t act.toNat

/-- EPR_KEEPALIVE (R275). -/
def execEprKeepalive (t : TcId) (s : State) : Out :=
  s.onPd t fun u => u.when ((u.tc t).epr && !(u.tc t).src) fun v => v.tx t .eprKeepAlive

/-! ## As source: the cable, VCONN, offers (R276 to R278) -/

/-- An answer of the cable, or 50 ms without one (R276). -/
def State.cableSeen (s : State) (t : TcId) (ans : Option (Bool × Bool)) : State :=
  let x := s.tc t
  if x.cableTry = 0 then s
  else
    match ans with
    | some (a, e) => (s.onTc t fun y => { y with cableTry := 0, cable5A := a, cableEpr := e, cableAns := true }).sendCaps t
    | none =>
      if x.cableTry < 3 then (s.onTc t fun y => { y with cableTry := y.cableTry + 1 }).tx t .cableIdentity
      else (s.onTc t fun y => { y with cableTry := 0, cable5A := false, cableEpr := false }).sendCaps t

/-- CABLE_DISCOVERY (R276). -/
def execCableDiscovery (t : TcId) (ans : Option (Bool × Bool)) (s : State) : Out := s.onPd t fun u => u.cableSeen t ans

/-- VCONN_OC (R276): VCONN goes off and the failure is reported. -/
def execVconnOc (t : TcId) (s : State) : Out :=
  .next (s.when (s.tcLive t && (s.tc t).vconn) fun u => (u.onTc t fun y => { y with vconn := false }).failNote (Src.tc t) Cause.vconnOc)

/-- SOURCE_CAPABILITIES_UPDATE (R277): when the offers differ from those sent, at most once per 1 s. -/
def execSourceCapabilitiesUpdate (t : TcId) (s : State) : Out :=
  s.onPd t fun u => u.capsChange t

/-- The object of the module's offers that a Request names, where it asks for no more than is offered. -/
def State.askedFor (s : State) (t : TcId) (pos mv ma : Nat) : Option Offer :=
  match (s.tc t).srcOffered.find? fun o => o.pos == pos with
  | some o =>
    let v := if pdoFixed o.kind then o.vmin else mv
    let most := if pdoAvs o.kind then min o.imax (o.pdp * 1000000 / max v 1) else o.imax
    if o.vmin ≤ v && v ≤ o.vmax && ma ≤ most then
      some { pos := pos, kind := kindCode o.kind, volt := v, curr := ma, power := quo (v * ma) 1000 }
    else none
  | none => none

/-- A Request of the partner (R267, R277, R286). -/
def State.requested (s : State) (t : TcId) (pos mv ma : Nat) : State :=
  if !(s.tc t).src || !s.sourcing (tcPort t) then s
  else
    match s.askedFor t pos mv ma with
    | some o =>
      let s1 := ((s.tx t .accept).tx t .psRdy).onTc t fun y => { y with contract := some o, rpOut := 2, hrTries := 0, nonPd := false, frsSrc := false, capsWait := false }
      ((s1.contractEvent t o).tx t .getSinkCap).authMaybe t
    | none => (s.tx t .reject).onTc t fun y => { y.closes with capsWait := false }

/-- REQUEST (R277). -/
def execPdRequest (t : TcId) (pos mv ma : Nat) (s : State) : Out := s.onPd t fun u => u.requested t pos mv ma

/-- SINK_CAPABILITIES (R278, R280): I_FRS by the standard's code, 0 none, 1 Default, 2 1.5 A, 3 3.0 A. -/
def execSinkCapabilities (t : TcId) (ifrs : BitVec 2) (drp : Bool) (s : State) : Out :=
  s.onPd t fun u => u.when (u.attached t) fun v =>
    (v.onTc t fun y => { y.closes with
      prDrp := drp
      ifrs := match ifrs.toNat with
        | 1 => 900 | 2 => 1500 | 3 => 3000 | _ => 0 }).frsEval t

/-! ## Swaps asked by the partner (R279, R282) -/

/-- PR_SWAP_RECEIVED (R279). -/
def execPrSwapReceived (t : TcId) (s : State) : Out :=
  s.onPd t fun u =>
    let x := u.tc t
    if !u.attached t then u
    else if x.contract.isSome && x.swap == .none && u.roleBit t 5 && (x.src || u.tcSourceOk t) then (u.tx t .accept).swapOff t
    else (u.tx t .reject).swapEvent t 0 1

/-- DR_SWAP_RECEIVED (R282). -/
def execDrSwapReceived (t : TcId) (s : State) : Out :=
  s.onPd t fun u => u.when (u.attached t) fun v => (v.tx t .accept).dataSwap t

/-- VCONN_SWAP_RECEIVED (R282). -/
def execVconnSwapReceived (t : TcId) (s : State) : Out :=
  s.onPd t fun u =>
    let x := u.tc t
    if !u.attached t then u
    else if x.vconnSrc then
      let big := x.src && (match x.contract with
        | some c => decide (3000 < c.curr)
        | none => false)
      if big || x.epr then (u.tx t .reject).swapEvent t 3 1
      else ((u.tx t .accept).onTc t fun y => { y with vconn := false, vconnSrc := false }).swapEvent t 3 0
    else ((((u.tx t .accept).vconnOn t).tx t .psRdy).swapEvent t 3 0).when x.src fun v => v.discoverCable t

/-! ## Hard Reset (R283, R284) -/

/-- HARD_RESET_RECEIVED (R283, R284). -/
def execHardResetReceived (t : TcId) (s : State) : Out :=
  s.onPd t fun u => u.when (u.attached t) fun v => (v.onTc t fun y => { y with hrTries := 0 }).hardReset t false 5

/-- SOURCE_CAPABILITIES_TIMEOUT (R283): Hard Reset, and after two without an answer the partner counts as non-PD. -/
def execSourceCapabilitiesTimeout (t : TcId) (s : State) : Out :=
  s.onPd t fun u =>
    let x := u.tc t
    if x.tcs == .attachedSnk && !x.src && x.contract.isNone && x.offers == [] && !x.nonPd && !x.hrst then
      (if 2 ≤ x.hrTries then u.onTc t fun y => { y with nonPd := true } else u.hardReset t true 0)
    else u

/-- HARD_RESET_SOURCE_RESTORE (R283, R327): vSafe5V is restored once HOLD permits it. -/
def execHardResetSourceRestore (t : TcId) (s : State) : Out :=
  s.onPd t fun u =>
    let x := u.tc t
    if x.hrst && x.src && !x.discharging && !u.flt.hold then
      if u.tcSourceOk t then
        let s1 := ((u.onTc t fun y => { y with hrst := false, tcs := .attachedSrc }).startSource t).vconnOn t
        s1.when (!(s1.tc t).nonPd) fun v => v.sendCaps t
      else (u.onTc t fun y => { y with hrst := false }).srcRemove t
    else u

/-- What the port awaits of its partner does not come (R278, R279, R281, R283; log entry 109): the answer to a PR_Swap, which ends a source path
that must end, else the swap alone; after VBUS has gone off the partner's PS_RDY, which ends in ErrorRecovery; a step of a fast swap, the answer to a
Request, the PS_RDY of its transition or the Request that answers Source_Capabilities, which the standard answers with Hard Reset (after two without an
answer the partner counts as non-PD); the answer to any other message, which ends its exchange (R267). -/
def State.noAnswer (s : State) (t : TcId) : State :=
  let x := s.tc t
  match x.swap with
  | .prSent => if x.swapEnd then s.srcRemove t else s.swapAbandon t
  | .prOff => if x.src then s else s.errorRecovery t
  | .prRdy => s.errorRecovery t
  | .frSent | .frAccepted => s.hardReset t true 2
  | .none =>
    if x.req.isSome || x.trans.isSome then s.hardReset t true 1
    else if x.src && x.capsWait && !x.nonPd then
      (if 2 ≤ x.hrTries then s.onTc t fun y => { y with nonPd := true, capsWait := false } else s.hardReset t true 1)
    else if x.drWait || x.vcWait then s.swapAbandon t
    else s.onTc t TcPort.closes

/-- PR_SWAP_NO_ANSWER (R278). -/
def execPrSwapNoAnswer (t : TcId) (s : State) : Out := s.onPd t fun u => u.noAnswer t

/-! ## Authentication (R286) -/

/-- The answer to a CHALLENGE but for its signature: the digest of the chain, a salt and a context hash (R286; log entries 7 and 31). -/
def State.challengeAuth (s : State) : List Byte :=
  let some32 := fun (k : Nat) => (Config.freeBytes (s.free + k) ++ List.replicate 32 0).take 32
  0x03 :: digest (certOf 2 ++ certOf 1 ++ certOf 0) ++ some32 1 ++ some32 2

/-- The module's answer in slot 0: the digest of its chain, the chain, or a challenge's response, whose signature is over the request and that response
(R286, R475; log entry 31). -/
def State.securityAnswer (s : State) (kind : Nat) (slot : Nat) (body : List Byte) : List Byte :=
  let chain := certOf 2 ++ certOf 1 ++ certOf 0
  if slot != 0 then [0x7F]
  else
    match kind with
    | 0x81 => 0x01 :: digest chain
    | 0x82 => 0x02 :: chain
    | 0x83 => s.challengeAuth ++ deviceSig s.free (digest (0x83 :: body ++ s.challengeAuth))
    | _ => [0x7F]

/-- SECURITY_REQUEST (R286). -/
def execSecurityRequest (t : TcId) (kind : BitVec 8) (slot : Nat) (body : List (BitVec 8)) (s : State) : Out :=
  s.onPd t fun u => u.when (u.attached t) fun v => (v.tx t (.security (v.securityAnswer kind.toNat slot body))).useFree 3

/-- The partner's chain has been checked: PASS where it verifies to a trusted root (R272, R286). -/
def State.authResult (s : State) (t : TcId) (pass : Bool) : State :=
  let x := s.tc t
  let s1 := (s.onTc t fun y => { y with authBusy := false, authDone := true, authOk := y.authOk || pass, authBox := none }).authEvent t (if pass then 0 else 1)
  let s2 := (s1.onTc t TcPort.closes).finishO x.authBox (if pass then St.ok else St.authFail)
  s2.when pass fun u => u.tcReeval t

/-- SECURITY_RESPONSE (R286). -/
def execSecurityResponse (t : TcId) (chainOk : Bool) (root : List (BitVec 8)) (s : State) : Out :=
  s.onPd t fun u => u.when (u.tc t).authBusy fun v => v.authResult t (chainOk && v.nvm.roots.contains (some root))

/-! ## Messages answered (R287) -/

/-- GET_SOURCE_CAP. -/
def execGetSourceCap (t : TcId) (s : State) : Out :=
  s.onPd t fun u => u.when (u.attached t) fun v =>
    if (v.tc t).src then v.sendCaps t
    else if v.dualRole t then v.tx t (.sourceCaps (v.ownCaps t))
    else v.tx t .notSupported

/-- The module's Sink_Capabilities; the operating currents are free values, as the spec names none (log entry 7). -/
def State.sinkCaps (s : State) (t : TcId) : List Pdo :=
  let fixed := ([5000, 9000, 15000, 20000].filter fun v => s.vMin t ≤ v && v ≤ s.vMax t).mapIdx fun i v =>
    { (ownFixed (i + 1) .fixed v 0) with imax := s.freeN i }
  fixed ++ (if s.roleBit t 4 then
    [{ pos := fixed.length + 1, kind := .pps, vmin := s.vMin t, vmax := s.vMax t, imax := s.freeN 4 }] else [])

/-- GET_SINK_CAP: the fast-swap current is zero. -/
def execGetSinkCap (t : TcId) (s : State) : Out :=
  s.onPd t fun u => u.when (u.attached t) fun v => (v.tx t (.sinkCaps (v.sinkCaps t) 0)).useFree 5

/-- The module's data for an answer whose contents the spec leaves to the standard (log entry 7). -/
def State.tellData (s : State) (t : TcId) (f : List Byte → PdMsg) : Out :=
  s.onPd t fun u => u.when (u.attached t) fun v => (v.tx t (f (Config.freeBytes v.free))).useFree 1

/-- GET_SOURCE_CAP_EXTENDED. -/
def execGetSourceCapExtended (t : TcId) (s : State) : Out := s.tellData t .sourceCapsExt

/-- GET_STATUS. -/
def execGetStatus (t : TcId) (s : State) : Out := s.tellData t .status

/-- GET_REVISION. -/
def execGetRevision (t : TcId) (s : State) : Out := s.tellData t .revision

/-- GET_MANUFACTURER_INFO. -/
def execGetManufacturerInfo (t : TcId) (s : State) : Out := s.tellData t .manufacturer

/-- GET_BATTERY_CAP: the design capacity from CAP, in 10 mAh. -/
def execGetBatteryCap (t : TcId) (s : State) : Out :=
  s.onPd t fun u => u.when (u.attached t) fun v => v.tx t (.batteryCap v.cap)

/-- The mean SOC of the configured cells, 0.01 %, held to an integer (log entry 34). -/
def State.meanSoc (s : State) : Nat := (quoQ ((s.ms.soc.take s.grd.cells).foldl (fun a v => a + v) (0 : Int)) (max 1 s.grd.cells : Nat)).toNat

/-- GET_BATTERY_STATUS: the charge in 10 mAh that the mean SOC makes of CAP (log entry 34). -/
def execGetBatteryStatus (t : TcId) (s : State) : Out :=
  s.onPd t fun u => u.when (u.attached t) fun v => v.tx t (.batteryStatus (quo (v.cap * v.meanSoc) 10000))

/-- ALERT. -/
def execAlert (t : TcId) (ado : BitVec 32) (s : State) : Out :=
  s.onPd t fun u => u.when (u.attached t) fun v => (v.tx t .getStatus).tcEvent t Ev.pdAlert (le 4 ado.toNat)

/-- SOFT_RESET: Accept, and negotiation afresh. -/
def execSoftReset (t : TcId) (s : State) : Out :=
  s.onPd t fun u => u.when (u.attached t) fun v =>
    let s1 := (v.tx t .accept).onTc t fun y => { y with req := none, trans := none, retries := 0, waitDue := false, offers := [], srcOffered := [], capsWait := false }
    if (v.tc t).src then s1.sendCaps t else s1

/-- DISCOVER_IDENTITY: an ACK; the vendor ID is a free value, and USB Communications Capable is 0 (log entries 7 and 31). -/
def execDiscoverIdentity (t : TcId) (s : State) : Out :=
  s.onPd t fun u => u.when (u.attached t) fun v =>
    (v.tx t (.vdm [0xFF00A041#32, BitVec.ofNat 32 (v.freeN 0 % 2 ^ 30)])).useFree 1

/-- UNSUPPORTED_VDM: a message of the kinds R287 names, or one it does not list, is answered with Not_Supported. -/
def execUnsupportedVdm (t : TcId) (s : State) : Out :=
  s.onPd t fun u => u.when (u.attached t) fun v => v.tx t .notSupported

/-- BIST: acted on at vSafe5V only, 4.75 to 5.5 V (log entry 31). -/
def execBist (t : TcId) (carrier : Bool) (mv : Nat) (s : State) : Out :=
  s.onPd t fun u => u.when (u.attached t && decide (4750 ≤ mv) && decide (mv ≤ 5500)) fun v =>
    (v.onTc t fun y => { y with bist := true }).tx t (if carrier then .bistCarrier else .bistTest)

/-! ## Mailbox commands (R412) -/

/-- The Type-C port that PORT names. -/
def tcOf (n : Nat) : TcId := if n = 0 then .a else .b

/-- The data of PORT_QUERY. -/
def State.portData (s : State) (t : TcId) : List Byte :=
  let x := s.tc t
  let (v, i) := match x.contract with
    | some c => (c.volt, c.curr)
    | none => (0, 0)
  [s.tcStat t, s.tcContract t] ++ le 2 (quo v 10) ++ le 2 (quo i 10) ++ [byteOf [x.cable5A, x.cableEpr, x.cableAns], byteOf [x.prDrp, x.prEpr, x.rev3]]
    ++ le 2 (quo x.ifrs 10) ++ [BitVec.ofNat 8 x.offers.length] ++ x.offers.flatMap fun o => le 4 o.raw.toNat

/-- PORT_QUERY. -/
def execPortQuery (n : Fin 4) (s : State) : Out :=
  .next (s.carry n.val 0x0501 (· == 1) none (s.fld n.val 0 1 ≤ 1) fun u => u.finish n.val St.ok (u.portData (tcOf (u.fld n.val 0 1))))

/-- PR_SWAP once its payload is accepted (R279, R412); a swap already under way leaves it no turn (log entry 32). -/
def State.prSwapCmd (s : State) (n : Fin 4) (t : TcId) : State :=
  let x := s.tc t
  if s.flt.hold || !s.dualRole t || x.contract.isNone || (!x.src && !s.srcMay) then s.finish n.val St.notPermitted
  else if x.swap != .none || x.drWait then s.finish n.val St.busyRetry
  else
    ((s.accept n.val).onTc t fun y => { y with swap := .prSent, swapBox := some n, swapEnd := false, retries := 0, waitDue := false }).tx t .prSwap

/-- PR_SWAP. -/
def execPrSwap (n : Fin 4) (s : State) : Out :=
  .next (s.carry n.val 0x0502 (· == 1) none (s.fld n.val 0 1 ≤ 1) fun u =>
    let t := tcOf (u.fld n.val 0 1)
    (u.txClear t).prSwapCmd n t)

/-- DR_SWAP once its payload is accepted. -/
def State.drSwapCmd (s : State) (n : Fin 4) (t : TcId) : State :=
  let x := s.tc t
  if x.contract.isNone then s.finish n.val St.notPermitted
  else if x.drWait || x.swap != .none then s.finish n.val St.busyRetry
  else ((s.accept n.val).onTc t fun y => { y with drWait := true, drBox := some n, retries := 0, waitDue := false }).tx t .drSwap

/-- DR_SWAP. -/
def execDrSwap (n : Fin 4) (s : State) : Out :=
  .next (s.carry n.val 0x0503 (· == 1) none (s.fld n.val 0 1 ≤ 1) fun u =>
    let t := tcOf (u.fld n.val 0 1)
    (u.txClear t).drSwapCmd n t)

/-- AUTH once its payload is accepted; one that runs already takes the command as its own (log entry 32). -/
def State.authCmd (s : State) (n : Fin 4) (t : TcId) : State :=
  let x := s.tc t
  if x.contract.isNone then s.finish n.val St.notPermitted
  else if x.authBox.isSome then s.finish n.val St.busyRetry
  else
    let s1 := (s.accept n.val).onTc t fun y => { y with authBox := some n }
    if x.authBusy then s1 else s1.authStart t

/-- AUTH. -/
def execAuth (n : Fin 4) (s : State) : Out :=
  .next (s.carry n.val 0x0504 (· == 1) none (s.fld n.val 0 1 ≤ 1) fun u =>
    let t := tcOf (u.fld n.val 0 1)
    (u.txClear t).authCmd n t)

/-- ROOT_SET. -/
def execRootSet (n : Fin 4) (s : State) : Out :=
  .next (s.carry n.val 0x0505 (fun l => l == 1 || l == 33) none (s.fld n.val 0 1 ≤ 3) fun u =>
    let d := if u.frameLen n.val = 33 then some (u.inBytes n.val 9 32) else none
    (u.onNvm fun x => { x with roots := x.roots.set (u.fld n.val 0 1) d }).finish n.val St.ok)

end Sys2Proof.Machine
end

