-- ==== Sys2Proof/Machine/Control.lean ====
section
/-! DEFINITION. The control tick and placement (chapter 04; R177 to R180, R324). -/
namespace Sys2Proof.Machine

/-! ## What a tick measures (R109, R117, R177) -/

/-- The entry `i` of the phase currents measured, 0 where there is none. -/
def ipOf (m : TickIn) (i : Nat) : Int := m.ip.getD i 0

/-- Power in credits of 0.1 W from mV and mA, held to an integer (R111; log entry 34). -/
def creditsOf (v : Nat) (i : Int) : Nat := quo (v * i.natAbs) 100000

/-- The measured current of a port. -/
def tickI (m : TickIn) : PortId → Int
  | .pa => m.ipa | .pb => m.ipb | .pc => m.ipc

/-- The higher of a phase's port node voltage and VSYS, mV. -/
def State.phaseVhi (s : State) (x : Phase) : Nat :=
  match x.port with
  | some p => max (nodeV s.pp.nodes p) s.pp.nodes.vsys
  | none => s.pp.nodes.vsys

/-- The denominator of the switching term of the loss model: 2000 kHz × (48 000 mV)². -/
def lossDen : Nat := 4608000000000

/-- The switching term of the loss model in mW, times `lossDen` (R117). -/
def State.lossSw (s : State) (x : Phase) : Nat := 300 * s.cc.fsw * s.phaseVhi x ^ 2

/-- The hot-spot estimate of phase `i` in 0.1 °C (R117). -/
def State.hotSpot (s : State) (i : Nat) : Int :=
  let x := s.phase i
  (if quadOf i = 0 then s.ms.tq0 else s.ms.tq1) + quoQ (3 * (s.lossSw x + 55 * (lossDen / 100000) * x.it.natAbs ^ 2)) (100 * lossDen)

/-- The tick's measurements are taken: nodes, currents, sensors, path powers and hot spots. -/
def State.tickMeasure (m : TickIn) (s : State) : State :=
  let s1 := ((s.seeNodes m.nodes).onMs fun x => { x with tq0 := m.tq0, tq1 := m.tq1 }).onSeq fun q => { q with vaux := m.vaux, iaux := m.iaux }
  let s2 := s1.onFab fun f => { f with
    ph := f.ph.mapIdx fun i x => { x with it := ipOf m i }
    path := f.path.mapIdx fun k x =>
      let p := ports.getD k .pc
      let v := nodeV m.nodes p
      let i := tickI m p
      { x with vmeas := v, imeas := i, used := if x.dir == .off then 0 else creditsOf v i } }
  s2.onFab fun f => { f with ph := f.ph.mapIdx fun i x => { x with ths := s2.hotSpot i } }

/-- The highest hot-spot estimate. -/
def State.hottest (s : State) : Int := s.fab.ph.foldl (fun a x => max a x.ths) (-1000)

/-- The thermal ceiling of R109. -/
def State.tickThermal (s : State) : State :=
  let tc := s.caseT
  let hot := s.hottest
  s.onFab fun f =>
    if 1050 ≤ tc then { f with thCeil := 0, tcLatch := true }
    else if f.tcLatch && 1040 < tc then { f with thCeil := 0 }
    else { f with tcLatch := false, thCeil :=
      if 1100 ≤ hot then f.thCeil - 20 else if 1080 < hot then f.thCeil else min 8000 (f.thCeil + 5) }

/-- The total measured path power in mW. -/
def State.pathPower (s : State) : Nat :=
  s.fab.path.foldl (fun a x => if x.dir == .off then a else a + quo (x.vmeas * x.imeas.natAbs) 1000) 0

/-- The peak episode ends and its 30 s recovery begins (R108). -/
def State.peakEnd (s : State) : State :=
  (s.onFab fun f => { f with peak := .recovery, peakAt := s.now }).raise Src.campion Ev.peakEnd

/-- The peak episode of R108 at a tick. Before ten ticks have been taken since the start the missing ones count as 0 (log entry 111). -/
def State.tickPeak (s : State) : State :=
  let h := ((s.fab.powHist ++ [s.pathPower]).reverse.take 10).reverse
  let s1 := s.onFab fun f => { f with powHist := h }
  let over600 := 6000000 < h.foldl (· + ·) 0
  match s.fab.peak with
  | .allowed => s1.when over600 fun t => (t.onFab fun f => { f with peak := .episode, peakAt := s.now }).raise Src.campion Ev.peakStart
  | .episode => s1.when (!over600 || decide (s.fab.peakAt + 10000000 ≤ s.now)) State.peakEnd
  | .recovery => s1.when (s.fab.peakAt + 30000000 ≤ s.now) fun t => t.onFab fun f => { f with peak := .allowed }

/-! ## The basin (R107, R136) -/

/-- The rating term. -/
def State.rating (s : State) : Nat := s.grpCount * (if s.fab.peak == .recovery then 6000 else 8000)

/-- The thermal term; on a loop master with what the other members report they may carry (log entry 33). -/
def State.thermTerm (s : State) : Nat :=
  s.fab.thCeil + (if s.stk.casc && s.stk.lmaster then (s.grpReps.map fun r => r.localb).foldl (· + ·) 0 else 0)

/-- B: the least of the four terms (R107); a loop master's host cap counts once for each member (R440; log entry 121). -/
def State.basinOf (s : State) : Nat := min (min s.rating s.thermTerm) (min s.stk.grant (s.grpCount * s.fab.hostCap))

/-- The term that sets `b`, the first of those equal to it (R136). -/
def State.termOf (s : State) (b : Nat) : Nat :=
  if s.rating = b then (if s.fab.peak == .recovery then 2 else 0)
  else if s.thermTerm = b then 1
  else if s.stk.grant = b then 3
  else 4

/-! ## Requests (R111, R177) -/

/-- The margin m of R111. -/
def marginOf (u : Nat) : Nat := max 20 ((u + 9) / 10)

/-- Whether a path is under the conversion controller. -/
def State.controlled (s : State) (p : PortId) : Bool := s.active p && !(s.path p).limp

/-- P_need in credits (R177). -/
def State.pNeed (s : State) (load : Nat) : Nat :=
  let chg := if s.pp.bat == .charging then quo (s.chg.iTgt * s.ms.vbat) 1000 else 0
  let src := ports.foldl (fun a p => if s.sourcing p then a + quo ((s.path p).vmeas * (s.path p).imeas.natAbs) 1000 else a) 0
  quo ((load + chg) * 9700 + src * 10000) 940900

/-- Gives each sink path of `l` the need that the earlier ones leave (R177). -/
def State.sinkReqs (s : State) : List PortId → Nat → State
  | [], _ => s
  | p :: r, need => (s.onPath p fun x => { x with req := need }).sinkReqs r (need - min need (s.capOf p false))

/-- The requests of every path. -/
def State.tickRequests (s : State) (load : Nat) : State :=
  let s1 := s.sinkReqs (s.srcList.filter fun p => s.sinking p && s.controlled p && s.sinkable p) (s.pNeed load)
  ports.foldl (fun t p => t.when (t.sourcing p) fun u => u.onPath p fun x => { x with req := x.used + marginOf x.used }) s1

/-! ## Grants (R111, R113, R130, R131) -/

/-- The controlled paths, highest priority first, ports in index order where priorities are equal. -/
def State.byPrio (s : State) : List PortId :=
  (ports.filter s.controlled).mergeSort fun a b => decide ((s.path a).prio ≤ (s.path b).prio)

/-- The sum of the grants. -/
def State.sumGrants (s : State) : Nat := s.fab.path.foldl (fun a x => a + x.grant) 0

/-- The priorities in use, lowest (largest number) first. -/
def prioDown : List Nat := [7, 6, 5, 4, 3, 2, 1, 0]

/-- Lowers the grants of the paths `l` by `e` in all, in proportion to what stands above `fl`, what each keeps rounded down, so that the grants
stay within B (R113; log entry 95). -/
def State.lowerBy (s : State) (l : List PortId) (fl e : Nat) : State :=
  let t := l.foldl (fun a p => a + ((s.path p).grant - fl)) 0
  if t = 0 then s
  else l.foldl (fun u p => u.onPath p fun x =>
    if x.grant ≤ fl then x else { x with grant := fl + (x.grant - fl) * (t - min t e) / t }) s

/-- Step 3 of R111 over the paths `ok` admits, one priority after another. -/
def State.shed (s : State) (b : Nat) (ok : PortId → Bool) : State :=
  prioDown.foldl (fun t k => t.lowerBy ((ports.filter fun p => t.controlled p && ok p && (t.path p).prio == k)) 0 (t.sumGrants - b)) s

/-- Step 4: the floor of 20 credits in priority order while credits are free. -/
def State.floors (s : State) (b : Nat) : State :=
  s.byPrio.foldl (fun t p => t.onPath p fun x => if x.grant < 20 then { x with grant := x.grant + min (20 - x.grant) (b - t.sumGrants) } else x) s

/-- What a path asks for (step 5). -/
def State.askOf (s : State) (p : PortId) : Nat :=
  if s.controlled p then min (s.path p).req (s.capOf p (s.sourcing p)) - (s.path p).grant else 0

/-- Step 5: asks of priority `k` share the free credits in proportion, each share rounded down, so that the grants stay within B (R113;
log entry 95). -/
def State.serveAsks (s : State) (b k : Nat) : State :=
  let l := ports.filter fun p => s.controlled p && (s.path p).prio == k
  let t := l.foldl (fun a p => a + s.askOf p) 0
  let f := b - s.sumGrants
  l.foldl (fun u p => u.onPath p fun x => { x with grant := x.grant + (if t ≤ f then s.askOf p else s.askOf p * f / t) }) s

/-- Lowers the paths of priority numbers above `k`, lowest priority first, towards their floors by `e` in all (step 6). -/
def State.reclaim (s : State) (k : Nat) : List Nat → Nat → State
  | [], _ => s
  | q :: r, e =>
    if q ≤ k || e = 0 then s
    else
      let l := ports.filter fun p => s.controlled p && (s.path p).prio == q && !(s.path p).fresh
      let s1 := s.lowerBy l 20 e
      s1.reclaim k r (e - (s.sumGrants - s1.sumGrants))

/-- Step 6 for asks of priority `k` still unmet. -/
def State.reclaimFor (s : State) (k : Nat) : State :=
  s.reclaim k prioDown ((ports.filter fun p => (s.path p).prio == k).foldl (fun a p => a + s.askOf p) 0)

/-- The six steps of R111 within the basin `b`. -/
def State.tickGrants (s : State) (b : Nat) : State :=
  let s1 := (ports.filter s.controlled).foldl (fun t p => t.onPath p fun x =>
    { x with grant := min (min x.grant (max x.req (x.used + marginOf x.used))) (t.capOf p (t.sourcing p)) }) s
  let s2 := (s1.shed b fun p => !(s1.path p).fresh).shed b fun _ => true
  let s3 := prioDown.reverse.foldl (fun t k => t.serveAsks b k) (s2.floors b)
  let s4 := s3.onFab fun f => { f with path := f.path.mapIdx fun i x => { x with unmet := decide (0 < s3.askOf (ports.getD i .pc)) } }
  let s5 := prioDown.reverse.foldl State.reclaimFor s4
  s5.onFab fun f => { f with path := f.path.map fun x => { x with fresh := false } }

/-- BASIN_LIMIT when one of its conditions begins or ceases (R136). -/
def State.tickBasin (s : State) : State :=
  let b := s.basinOf
  let s1 := (s.onFab fun f => { f with basin := b }).tickGrants b
  let term := s1.termOf b
  let unmet := s1.fab.path.any fun x => x.unmet
  let other := term != 0 && term != 2
  let chg := unmet != s.fab.limUnmet || other != s.fab.limOther
  let s2 := s1.onFab fun f => { f with limTerm := term, limUnmet := unmet, limOther := other }
  s2.when chg fun t => t.raise Src.campion Ev.basinLimit [BitVec.ofNat 8 term, byteOf [unmet, other]]

/-! ## Sink paths (R119, R177, R178, R190) -/

/-- Sink paths form where they are wanted, and end where they are not: at once on a port switched off, and for COMB = 0 once the
new path carries a phase (R177, R178). -/
def State.tickPaths (s : State) : State :=
  let want := s.wantSinks
  let s1 := s.when s.mayPlace fun t => want.foldl (fun u p =>
    u.when (!u.active p && !(p == .pc && u.tuningPc)) fun v => v.startPath p .sink) t
  let ready := want == [] || want.any fun p => s1.activeOn p != []
  ports.foldl (fun t p =>
    let gone := t.sinking p && !(t.path p).limp && !want.contains p && (!t.sinkable p || ready)
    t.when gone fun u => State.sinkEnded u p (u.endPath p)) s1

/-- The lead path of R119. -/
def State.leadOf (s : State) : Option PortId :=
  let l := s.srcList.filter fun p => s.sinking p && s.controlled p
  match l.reverse with
  | [] => none
  | [p] => some p
  | p :: q :: _ => if p == .pc && s.track then some q else some p

/-- A change of lead disturbs the point of a sweep, and a lead that ends without a successor aborts it (R246, R248). -/
def State.tickLead (s : State) : State :=
  let l := s.leadOf
  let s1 := s.onFab fun f => { f with lead := l }
  let s2 := s1.when (l != s.fab.lead) State.sweepDisturb
  if s2.sw.run != .none && (if s2.sw.dirDis then !s2.sourcing s2.sw.carrier else l.isNone) then s2.sweepAbort 11 else s2

/-! ## Counting phases (R114, R115) -/

/-- V_low of a path in mV. -/
def State.lowV (s : State) (p : PortId) : Nat := max 1 (min (s.path p).vmeas s.pp.nodes.vsys)

/-- The sum of a path's weights, × 16384. -/
def State.sumW (s : State) (p : PortId) : Nat := (s.portSet p).foldl (fun a i => a + (s.phase i).weight) 0

/-- The sum of the weights among which the path current is shared: on a loop master those of the group, W_g (R121, R441). -/
def State.shareW (s : State) (p : PortId) : Nat :=
  s.sumW p + (if s.stk.casc && s.stk.lmaster && p == .pc then 16384 * (s.grpReps.map fun r => r.ncasc).foldl (· + ·) 0 else 0)

/-- A measured current of the port's path as its loop takes it: on a loop master, the group's (R441). -/
def State.portCur (s : State) (p : PortId) (i : Int) : Int :=
  if s.stk.casc && s.stk.lmaster && p == .pc then
    let wm := s.sumW .pc
    if wm = 0 then i else quoQ (i * (s.shareW .pc : Int)) wm
  else i

/-- I_L of a path in mA: its present power over V_low, held to an integer (R114; log entry 34). -/
def State.iL (s : State) (p : PortId) : Nat := quo ((s.path p).vmeas * (s.path p).imeas.natAbs) (s.lowV p)

/-- `a / b` rounded up. -/
def ceilDiv (a b : Nat) : Nat := (a + b - 1) / b

/-- n_min of R115. -/
def State.nMin (s : State) (p : PortId) : Nat := max 1 (ceilDiv (s.iL p) 8000)

/-- The grant bound of R114. -/
def State.grantBound (s : State) (p : PortId) : Nat := max 1 (ceilDiv ((s.path p).grant * 50) (s.lowV p))

/-- Whether a phase of the path has a hot-spot estimate of 105.0 °C or more (R114). -/
def State.thermalAdd (s : State) (p : PortId) : Bool :=
  phaseNos.any fun i => (s.phase i).port == some p && (s.phase i).st.gatesOn && 1050 ≤ (s.phase i).ths

/-- I_L of the group in mA, at its loop master (R114, R441, R443). -/
def State.groupIL (s : State) : Nat := quo ((s.path .pc).vmeas * (s.portCur .pc (s.path .pc).imeas).natAbs) (s.lowV .pc)

/-- The phases of the group, as its loop master counts them (R443). -/
def State.groupN (s : State) : Nat := (s.serving .pc).length + (s.grpReps.map fun r => r.ncasc).foldl (· + ·) 0

/-- Whether the add condition of R114 holds for path `p`; of the group's path, at its loop master alone and over the group (R443). -/
def State.addNow (s : State) (p : PortId) : Bool :=
  s.controlled p && (if s.stk.casc && p == .pc then s.stk.lmaster && decide (2000 * s.groupN < s.groupIL)
    else decide (2000 * (s.serving p).length < s.iL p))

/-- The loop master moves the group target by R114 over the group's I_L and phases (R443). -/
def State.tickTarget (s : State) : State :=
  s.when (s.stk.casc && s.stk.lmaster && s.controlled .pc) fun t => t.onStk fun k =>
    let add := decide (2 ≤ (t.path .pc).addTicks) || t.thermalAdd .pc
    { k with nTgt := min (8 * t.grpCount) (max 1 (if add then max k.nTgt (t.groupN + 1) else k.nTgt)) }

/-- Counts the ticks for which the add condition has held. -/
def State.tickAdds (s : State) : State :=
  (ports.foldl (fun t p => t.onPath p fun x => { x with addTicks := if s.addNow p then min 2 (x.addTicks + 1) else 0 }) s).tickTarget

/-- The number of phases a path wants by its own rules. -/
def State.wantOwn (s : State) (p : PortId) : Nat :=
  let n := (s.serving p).length
  let w := if n = 0 then 1 else if 2 ≤ (s.path p).addTicks || s.thermalAdd p then n + 1 else n
  min (s.grantBound p) w

/-- The group target n_g (R443): on the loop master within the grant bound of R114; on a follower as the master reports it. -/
def State.groupTarget (s : State) : Nat :=
  if s.stk.lmaster then min (s.grantBound .pc) s.stk.nTgt
  else
    match s.stk.loopM.bind fun m => s.repOf m.val with
    | some r => r.ncasc
    | none => 0

/-- The share of member `k` of the group target (R443). -/
def State.shareOf (s : State) (k : Nat) : Nat :=
  let ids := s.grpIds
  let m := max 1 ids.length
  s.groupTarget / m + (if ids.idxOf k < s.groupTarget % m then 1 else 0)

/-- What a follower of the group falls short of its share of the target, as it reports (R443); the loop master's NCASC is the target itself. -/
def State.shortOf (s : State) (r : MemberRep) : Nat := if (s.stk.loopM.map (·.val)) == some r.id then 0 else s.shareOf r.id - r.ncasc

/-- This module's share of the group target, and what other members fell short of and no member of a lower STK_ID with spare phases takes up: one that
reports its share counts as having all the rest of its eight phases to spare, since no report says how many are (R443; log entry 125). -/
def State.groupShare (s : State) : Nat :=
  let short := (s.grpReps.map s.shortOf).foldl (· + ·) 0
  let below := ((s.grpReps.filter fun r => decide (r.id < s.stkId) && s.shortOf r == 0).map fun r => 8 - s.shareOf r.id).foldl (· + ·) 0
  s.shareOf s.stkId + (short - below)

/-- The number of phases a path wants. -/
def State.wantOf (s : State) (p : PortId) : Nat :=
  if !s.controlled p then 0
  else if p == .pc && (s.stk.refLost || s.flt.stkf.getLsbD 4) then 0
  else if s.stk.casc && p == .pc then s.groupShare
  else s.wantOwn p

/-- Whether a phase may not be moved: it is held for a fast swap (R115, R129). -/
def State.reserved (s : State) (i : Nat) : Bool := (s.fab.resA ++ s.fab.resB).any fun k => k.val == i

/-- Whether the quad of phase `i` is out of service. -/
def State.quadFenced (s : State) (i : Nat) : Bool := s.flt.fence.getLsbD (8 + quadOf i)

/-- Whether phase `i` counts among those shared (R115). -/
def State.shared (s : State) (i : Nat) : Bool :=
  let x := s.phase i
  match x.st with
  | .free => !s.reserved i && !s.quadFenced i
  | .starting | .active => true
  | .switching | .draining => x.next.isSome
  | .limp | .fenced => false

/-- Deals the `n` phases left to the paths `turn`, each in its turn up to the number it wants (R115). The first argument bounds the turns. -/
def dealTurns (want : List Nat) : Nat → List PortId → Nat → List Nat → Nat × List Nat
  | 0, _, n, got => (n, got)
  | _ + 1, [], n, got => (n, got)
  | fuel + 1, p :: r, n, got =>
    let k := portIdx p
    if n = 0 then (n, got)
    else if got.getD k 0 < want.getD k 0 then dealTurns want fuel (r ++ [p]) (n - 1) (got.set k (got.getD k 0 + 1))
    else dealTurns want fuel r n got

/-- The paths of priority `prio` in the order in which they take their turns: that of fewer phases first, of equal ones in port order (R115; log entry
112). -/
def State.turnsOf (s : State) (prio : Nat) (got : List Nat) : List PortId :=
  let l := ports.filter fun p => (s.path p).prio == prio
  (List.range 9).flatMap fun n => l.filter fun p => got.getD (portIdx p) 0 == n

/-- Deals the phases left by priority; paths of equal priority take them alternately (R115). -/
def State.dealShare (s : State) (want : List Nat) (n : Nat) (got : List Nat) : List Nat :=
  ((s.byPrio.map fun p => (s.path p).prio).eraseDups.foldl
    (fun (a : Nat × List Nat) prio => dealTurns want 16 (s.turnsOf prio a.2) a.1 a.2) (n, got)).2

/-- First each path's n_min in priority order, out of `n`. -/
def State.dealMin (s : State) : List PortId → Nat → List Nat → Nat × List Nat
  | [], n, got => (n, got)
  | p :: r, n, got =>
    let k := min n (min (s.nMin p) (s.wantOf p))
    s.dealMin r (n - k) (got.set (portIdx p) k)

/-- How many phases each port is to have (R115). -/
def State.targets (s : State) : List Nat :=
  let (n, got) := s.dealMin s.byPrio (phaseNos.filter s.shared).length [0, 0, 0]
  s.dealShare (ports.map s.wantOf) n got

/-! ## Choosing phases (R116, R122) -/

/-- The ranking keys of a gained phase. -/
def State.gainKey (s : State) (i : Nat) : Nat × Nat × Int × Nat :=
  (b2n (s.phase i).suspect, b2n !(s.quadOn (quadOf i)), if quadOf i = 0 then s.ms.tq0 else s.ms.tq1, i)

/-- Whether phase `i` ranks before phase `k`. -/
def State.gainBefore (s : State) (i k : Nat) : Bool :=
  let (a, b, c, d) := s.gainKey i
  let (e, f, g, h) := s.gainKey k
  if a != e then a < e else if b != f then b < f else if c != g then c < g else d < h

/-- The first-ranked of a list of phases. -/
def State.bestGain (s : State) (l : List Nat) : Option Nat :=
  l.foldl (fun best i => match best with
    | none => some i
    | some k => if s.gainBefore i k then some i else some k) none

/-- The FREE phases that may be placed. -/
def State.freePhases (s : State) : List Nat :=
  phaseNos.filter fun i => (s.phase i).st == .free && !s.reserved i && !s.quadFenced i

/-- Whether the path of `p` can lose one of its phases and those it holds for a fast swap still count: without them one phase or more remains,
each carrying no more than 8.0 A (R129, R130). -/
def State.reserveKept (s : State) (p : PortId) : Bool :=
  let own := (s.activeOn p).filter fun i => !s.reserved i
  own.length == (s.activeOn p).length || (2 ≤ own.length && s.iL p ≤ 8000 * (own.length - 1))

/-- The hottest of the path's ACTIVE phases that no reserve holds, the highest number among equals (R116). -/
def State.hottestOn (s : State) (p : PortId) : Option Nat :=
  ((s.activeOn p).filter fun i => !s.reserved i).foldl (fun best i => match best with
    | none => some i
    | some k => if (s.phase k).ths ≤ (s.phase i).ths then some i else some k) none

/-- The phase a path loses (R116): none where the loss would lower the fast-swap reserve (R129, R130). -/
def State.losePhase (s : State) (p : PortId) : Option Nat := if s.reserveKept p then s.hottestOn p else none

/-- Whether the remaining ACTIVE phases of the path may take over one phase's share (R122). -/
def State.donorOk (s : State) (p : PortId) : Bool :=
  let n := (s.activeOn p).length
  2 ≤ n && s.iL p ≤ 8000 * (n - 1)

/-- Asks for the quad of a phase where it is off (R106). -/
def State.powerQuad (s : State) (q : Nat) : State := s.domOn (6 + q % 2)

/-- Whether a phase may be placed on `p`: its VBUS switch is closed, or PC is present (R102). -/
def State.placeable (s : State) (p : PortId) : Bool :=
  match p with
  | .pa => s.pp.vbusA | .pb => s.pp.vbusB | .pc => s.pp.presC

/-- Places phase `i`, FREE, on `p`. In a quad that is off it is not available until the quad has powered up, and stays FREE (R106). A selector
command at an inductor current of 100 mA or more is not carried out, and is reported (R98). -/
def State.placeOn (s : State) (i : Nat) (p : PortId) (why : Nat) : State :=
  if !s.quadOn (quadOf i) then s.powerQuad (quadOf i)
  else if 100 ≤ (s.phase i).it.natAbs then s.failNote i Cause.selectorOrder
  else s.placeFree i p why

/-- The path `p` gains a phase: handed over by a path that has one too many, else a FREE one (R115, R116). -/
def State.gain (s : State) (tgt : List Nat) (p : PortId) : State :=
  let n := (s.serving p).length
  let hot := s.thermalAdd p && (s.path p).addTicks < 2
  let why := if hot then Why.thermal else Why.demandUp
  if !(n < tgt.getD (portIdx p) 0) || !s.placeable p || s.joiningOn p || (p == .pc && s.tuningPc) || (s.excites p && !s.thermalAdd p && 1 ≤ n) then s
  else
    let losers := s.byPrio.reverse.filter fun q =>
      tgt.getD (portIdx q) 0 < (s.serving q).length && !s.leavingOn q && s.donorOk q && (s.losePhase q).isSome
        && !(s.excites q && !s.thermalAdd p && 1 ≤ n)
    match losers with
    | q :: _ =>
      match s.losePhase q with
      | some i => s.handOff i p (if s.grantBound q < (s.serving q).length then Why.demandDown else why)
      | none => s
    | [] =>
      match s.bestGain s.freePhases with
      | some i => s.placeOn i p why
      | none => s

/-- A path that stands above its grant bound drops a phase, whatever the other rules say (R114); the phase is FREE as soon as it has drained, and
counts towards a reserve as such, so that the bound waits for no reserve (R129). -/
def State.bound (s : State) (p : PortId) : State :=
  if s.controlled p && s.grantBound p < (s.serving p).length && !s.leavingOn p && !(s.stk.casc && p == .pc) then
    match s.hottestOn p with
    | some i => s.drainOff i Why.demandDown
    | none => s
  else s

/-- The allocator's placement at a tick (R114 to R116). -/
def State.allocate (s : State) : State :=
  let tgt := s.targets
  let s1 := s.byPrio.foldl (fun t p => t.gain tgt p) s
  let s2 := ports.foldl State.bound s1
  s2.when (s2.stk.casc && decide (tgt.getD 2 0 < (s2.serving .pc).length) && !s2.leavingOn .pc) fun t =>
    match t.losePhase .pc with
    | some i => t.drainOff i Why.demandDown
    | none => t

/-- Every path's phases drain while the case is too hot (R109). -/
def State.drainAll (s : State) (why : Nat) : State :=
  phaseNos.foldl (fun t i =>
    match (t.phase i).st with
    | .active | .starting => t.drainOff i why
    | _ => t) s

/-! ## Fixed placement (R132, R133) -/

/-- The port to which phase `i` is mapped. -/
def State.mapOf (s : State) (i : Nat) : Option PortId :=
  let b := if i < 4 then s.grd.fplace0 else s.grd.fplace1
  portOfCode (b.toNat / 4 ^ (i % 4) % 4)

/-- The port a mapped phase is to serve: none where the path is OFF. -/
def State.mapGoal (s : State) (i : Nat) : Option PortId := (s.mapOf i).filter s.controlled

/-- One phase follows its map, one joining and one leaving phase to a path (R122, R133). -/
def State.applyMap (s : State) (i : Nat) : State :=
  let x := s.phase i
  match s.mapGoal i with
  | some p =>
    if !s.placeable p || s.joiningOn p || (p == .pc && s.tuningPc) then s
    else if x.st == .free && !s.quadFenced i then s.placeOn i p Why.forced
    else if x.st == .active && x.port != some p then
      (match x.port with
        | some q => if s.leavingOn q || !s.donorOk q then s else s.handOff i p Why.forced
        | none => s)
    else s
  | none =>
    if x.st == .active then
      (match x.port with
        | some q => if s.leavingOn q || (s.active q && !s.donorOk q) then s else s.drainOff i Why.forced
        | none => s)
    else s

/-! ## The fast-swap reserve (R129, R130) -/

/-- Whether a fast swap could be armed on `t` but for the reserve. -/
def State.armable (s : State) : List TcId := [TcId.a, .b].filter s.frsCond

/-- Whether phase `i` counts towards a reserve of port `p` beside the phases `l` already chosen (R129). -/
def State.reserveOk (s : State) (p : PortId) (l : List Nat) (i : Nat) : Bool :=
  let x := s.phase i
  if l.contains i then false
  else
    match x.st, x.port with
    | .free, _ => !x.suspect && s.quadOn (quadOf i) && !s.quadFenced i
    | .active, some q =>
      let left := ((s.activeOn q).filter fun k => k != i && !l.contains k).length
      q != p && s.sinking q && 1 ≤ left && s.iL q ≤ 8000 * left
    | _, _ => false

/-- Chooses up to `n` phases for port `p`, FREE ones first, the lowest numbers first (log entry 96). -/
def State.pickReserve (s : State) (p : PortId) : Nat → List Nat → List Nat → List Nat
  | 0, _, acc => acc
  | n + 1, l, acc =>
    match (phaseNos.filter fun i => s.reserveOk p l i && (s.phase i).st == .free) ++ (phaseNos.filter fun i => s.reserveOk p l i && (s.phase i).st == .active) with
    | i :: _ => s.pickReserve p n (i :: l) (acc ++ [i])
    | [] => acc

/-- A phase number as reserves hold it. -/
def finPh (i : Nat) : Fin 8 := ⟨i % 8, Nat.mod_lt _ (by decide)⟩

/-- The sink path of lowest priority whose grant can still be lowered towards its floor (R130). -/
def State.lowestSink (s : State) : Option PortId := (s.byPrio.filter fun p => s.sinking p && decide (20 < (s.path p).grant)).getLast?

/-- The phases in service: those that no fence holds, SUSPECT ones among them (R130; log entry 97). -/
def State.healthy (s : State) : Nat := (phaseNos.filter fun i => (s.phase i).st != .fenced && !s.quadFenced i).length

/-- The ports on which fast swap is armed. -/
def State.armed (s : State) : List TcId := [TcId.a, .b].filter fun t => (s.tc t).frsArm

/-- Fewer than three healthy phases remain per armed port: fast swap is disarmed on the armed port, on the later-armed one if both are
(R130). -/
def State.reserveShort (s : State) : State :=
  let l := s.armed
  if 3 * l.length ≤ s.healthy then s
  else
    let t := match l with
      | [x] => x
      | _ => s.fab.lastArmed.getD .b
    (s.frsDisarm t 0).raise (Src.tc t) Ev.reserveShort

/-- The ports for which a reserve is kept or sought: those armed, and those that could be armed for whose reserve the healthy phases
suffice (R129, R130). -/
def State.reservePorts (s : State) : List TcId :=
  s.armable.foldl (fun l t => if l.contains t || s.healthy < 3 * (l.length + 1) then l else l ++ [t]) (s.armed.filter s.armable.contains)

/-- The reserve is formed, PA's before PB's (log entry 96), or given up where the module is too short of healthy phases (R129, R130); by how
much a grant is lowered while it is not held is a free value (log entry 7). -/
def State.tickReserve (s : State) : State :=
  let s0 := s.reserveShort
  let ts := s0.reservePorts
  let a := if ts.contains .a then s0.pickReserve .pa 2 [] [] else []
  let b := if ts.contains .b then s0.pickReserve .pb 2 a [] else []
  let s1 := s0.onFab fun f => { f with resA := a.map finPh, resB := b.map finPh }
  let s2 := s1.when (decide (a.length + b.length < 2 * ts.length)) fun u =>
    ((((match u.lowestSink with
      | some p => (u.onPath p fun x => { x with grant := max 20 (x.grant - u.freeN 0) }).useFree 1
      | none => u)).powerQuad 0).powerQuad 1)
  (s2.frsEval .a).frsEval .b

/-! ## Health, the thermal reference and the report of the arbiter (R118, R142, R144) -/

/-- The integer square root, searched by bits. -/
def isqrt : Nat → Nat → Nat → Nat
  | 0, _, r => r
  | k + 1, v, r => let c := r + 2 ^ k; isqrt k v (if c * c ≤ v then c else r)

/-- A square root held to an integer, up or down where it is none (log entry 34). -/
def rootQ (n : Nat) (num den : Nat) : Nat :=
  let r := isqrt n (num / den) 0
  r + (if r * r * den != num && Config.roundUp num den then 1 else 0)

/-- The current at which the hot-spot estimate of phase `i` would reach 112.0 °C, mA (R142). -/
def State.iThPhase (s : State) (i : Nat) : Nat :=
  let tq := if quadOf i = 0 then s.ms.tq0 else s.ms.tq1
  rootQ 20 (((1120 - tq) * 100 * (lossDen : Int)).toNat - 3 * s.lossSw (s.phase i)) (165 * (lossDen / 100000))

/-- I_th of a path: the sum of the weights times the least phase current (R142). -/
def State.iTh (s : State) (p : PortId) : Nat :=
  let l := s.portSet p
  match l with
  | [] => 0
  | i :: r =>
    let low := r.foldl (fun a k => min a (s.iThPhase k)) (s.iThPhase i)
    quo (l.foldl (fun a k => a + (s.phase k).weight) 0 * low) 16384

/-- The position of the first greatest entry. -/
def argMax (l : List Nat) : Nat := l.idxOf (maxL l)

/-- The demand that won in most periods of the last tick is reported, GRANTLIM as at its last win, and the count begins afresh (R144). -/
def State.tickReport (s : State) : State :=
  s.onCc fun c => { c with comp := c.comp.mapIdx fun k x =>
    let p := ports.getD k .pc
    let r := if maxL x.wins = 0 then x.rep else argMax x.wins
    { x with rep := r, repGrant := if maxL x.wins = 0 then x.repGrant else x.gwins.getLsbD r, wins := List.replicate 9 0
             ith := s.iTh p, inLim := 0 } }

/-- Health of a phase (R118). -/
def State.tickHealth (s : State) : State :=
  s.onPhases fun x =>
    let recent := x.c1At.filter fun t => s.now < t + 600000000
    let ticks := if x.trim == 120 || x.trim == -120 then min 1000 (x.trimTicks + 1) else 0
    let bad := 1000 ≤ ticks || 3 ≤ recent.length
    { x with c1At := recent, trimTicks := ticks
             suspect := bad || (x.suspect && s.now < x.cleanAt + 3600000000), cleanAt := if bad then s.now else x.cleanAt }

/-! ## Quad power (R106) -/

/-- Whether a reserve is kept or sought and is not held in full (R130). -/
def State.reserveOpen (s : State) : Bool := decide (s.fab.resA.length + s.fab.resB.length < 2 * s.reservePorts.length)

/-- Whether quad `q` must be powered (R106, R130). -/
def State.quadNeeded (s : State) (q : Nat) : Bool :=
  s.anySource || s.reserveOpen || (phaseNos.any fun i => quadOf i = q && ((s.phase i).st != .free && (s.phase i).st != .fenced || s.reserved i))
    || (q == 0 && s.anyPresent)

/-- The quads' domains follow their conditions; Q1 has 1 s to stay on. -/
def State.tickQuads (s : State) : State :=
  let s1 := s.when (s.quadNeeded 0) fun t => t.powerQuad 0
  if s.quadNeeded 1 then (s1.onFab fun f => { f with q1Timer := false }).powerQuad 1
  else s1.onFab fun f => { f with q1Timer := s.quadOn 1 }

/-- Whether domain `d` of those that RUN powers as they are needed is needed now (R9). -/
def State.domNeeded (s : State) (d : Nat) : Bool :=
  let tc := fun (t : TcId) => (s.tc t).tcs != .unattached || (s.tc t).discharging || s.active (tcPort t) || !s.portOpen (tcPort t)
  match d with
  | 3 => !s.nvmIdle
  | 4 => s.tca.authBusy || s.tcb.authBusy
  | 8 => tc .a
  | 9 => tc .b
  | _ => s.pp.presC || s.active .pc || !s.portOpen .pc

/-- NVM, CRYPTO, PDA, PDB and PCIN follow what RUN needs of them (R9; log entry 100). -/
def State.tickDomains (s : State) : State :=
  [3, 4, 8, 9, 10].foldl (fun t d => if t.domNeeded d then t.domOn d else t.domOff d) s

/-! ## VSYS target and sources (R180, R197, R272) -/

/-- What the switch in LINEAR regulates to, mA: in soft connection 3.0 A out of the battery (R68); else IBAT to the charge target, within a dissipation
of 3.0 W (R189). -/
def State.linGoal (s : State) : Nat :=
  if s.pp.soft == .running then 3000
  else if s.pp.batSw == .linear then
    let dv := s.pp.nodes.vsys - s.pp.nodes.bat
    if dv = 0 then s.chg.iTgt else min s.chg.iTgt (quo 3000000 dv)
  else 0

/-- The VSYS target moves by at most 5 V/ms, VBAT's 10 ms average is taken while the switch is open, and the LINEAR switch's reference follows
(R180, R189). -/
def State.tickVsys (s : State) : State :=
  let s1 := s.when (s.pp.batSw == .off || s.pp.batSw == .diode) fun t => t.onPp fun x => { x with vbatOpen := t.vbatNow }
  let g := s1.vsysGoal
  s1.onPp fun x => { x with linRef := s1.linGoal
                            vsysTgt := if x.vsysTgt ≤ g then min g (x.vsysTgt + 500) else max g (x.vsysTgt - 500) }

/-- A PPS or AVS contract is requested anew when V_pref, in units of 10 µV, has moved more than 0.5 V, at most once in 500 ms (R272). -/
def State.tickPref (s : State) (t : TcId) : State :=
  let x := s.tc t
  match x.contract with
  | some c =>
    let v := 115 * s.pp.vsysTgt
    let moved := 100 * (c.volt + 500) < v || v + 50000 < 100 * c.volt
    if !x.src && (c.kind = 2 || c.kind = 3 || c.kind = 5) && moved && x.req.isNone && x.trans.isNone && x.reqAt + 500000 ≤ s.now
        && !s.flt.hold then
      s.negotiate t
    else s
  | none => s

/-! ## The control tick (R111) -/

/-- A phase of a measurement leaves its node (R148). -/
def State.tuneFree (s : State) (i : Nat) : State :=
  match (s.phase i).st with
  | .active | .starting => s.drainOff i Why.demandDown
  | .switching => if (s.phase i).next.isSome then (s.onPhase i fun x => { x with next := none }).place i none none Why.demandDown else s
  | _ => s

/-- The limp path is taken over at the first tick after a wake from DORMANT (R72). -/
def State.tickWake (s : State) : State :=
  match s.sys.limpSrc with
  | some p => s.when (s.sys.boot == 0x09 && s.limping p) fun t => t.takeOver p
  | none => s

/-- The hot case drains every phase; else the fixed map or the allocator places them (R109, R115, R133). -/
def State.tickPlace (s : State) : State :=
  if s.fab.tcLatch then s.drainAll Why.thermal
  else if s.cc.tuneRerun && !s.switchOn then s
  else if s.grd.fpen then phaseNos.foldl State.applyMap s
  else s.allocate

/-! ## Measurements that wait (R148, R410) -/

/-- Whether a measurement is deferred: VSYS is measured only while the battery switch is open (R148). -/
def State.tuneWaits (s : State) (r : TuneRun) : Bool := !r.pc && s.switchOn

/-- A measurement that is deferred gives way to those that wait behind it (R148). -/
def State.tuneYield (s : State) : State :=
  match s.cc.tune with
  | some r =>
    if s.tuneWaits r && !r.again && (s.cc.pcTuneDue || s.cc.tuneAsk.any (·.pc)) then
      s.onCc fun c => { c with tune := none, tuneAsk := { r with wait := true } :: c.tuneAsk }
    else s
  | none => s

/-- The next measurement that is due begins: VSYS after a change of FSW, then PC, then those asked for; one that would only be
deferred comes last (R148, R154). -/
def State.tuneNext (s : State) : State :=
  let s := s.tuneYield
  match s.cc.tune with
  | some _ => s
  | none =>
    if s.cc.tuneRerun && !(s.switchOn && s.cc.pcTuneDue) then
      s.onCc fun c => { c with tune := some { pc := false, wait := s.switchOn }, tuneRerun := !s.switchOn }
    else if s.cc.pcTuneDue then s.onCc fun c => { c with tune := some { pc := true }, pcTuneDue := false }
    else
      let l := (s.cc.tuneAsk.filter fun r => !s.tuneWaits r) ++ s.cc.tuneAsk.filter s.tuneWaits
      match l with
      | r :: rest => s.onCc fun c => { c with tune := some { r with wait := s.tuneWaits r }, tuneAsk := rest }
      | [] => s

/-- A tuning command that has waited 10 s completes BUSY_RETRY (R410). -/
def State.tuneLate (s : State) (n : Fin 4) : State :=
  let late := fun (r : TuneRun) => r.box == some n && s.tuneWaits r && decide (r.since + 10000000 ≤ s.now)
  if s.cc.tune.any late then ((s.onCc fun c => { c with tune := none }).finish n.val St.busyRetry).tuneNext
  else if s.cc.tuneAsk.any fun r => r.box == some n && decide (r.since + 10000000 ≤ s.now) then
    (s.onCc fun c => { c with tuneAsk := c.tuneAsk.filter fun r => r.box != some n }).finish n.val St.busyRetry
  else s

/-! ## The parts of a control tick -/

/-- One FREE phase of Q0 other than phase 0 goes on the source of the node while it is measured, and leaves it afterwards (R148; log entry 16);
commands that have waited 10 s are answered first (R410). -/
def State.tickTune (s : State) : State :=
  let s := (List.finRange 4).foldl State.tuneLate s
  let mine := phaseNos.filter fun i => (s.phase i).tune
  match s.cc.tune with
  | some r =>
    if !s.runs || (!r.pc && s.switchOn) then mine.foldl State.tuneFree s
    else if mine != [] then s
    else
      match [1, 2, 3].find? (fun i => (s.phase i).st == .free && !s.reserved i && !s.quadFenced i && s.quadOn 0),
          (if r.pc then some PortId.pc else (s.sys.limpSrc.orElse fun _ => s.fab.lead).orElse fun _ => ports.find? s.sinking) with
      | some i, some p =>
        let s1 := s.placeOn i p Why.demandUp
        s1.when ((s1.phase i).st == .switching) fun t => t.onPhase i fun x => { x with tune := true }
      | _, _ => s
  | none => mine.foldl State.tuneFree s

/-- What every control tick does, whatever the mode: the peak, the VSYS target, the measurement of a node, the health of the phases and the basin (R107,
R108, R118, R136).
A follower of a cascade group holds no basin (R440). -/
def State.tickAlways (s : State) : State :=
  let s1 := (((s.tickPeak).tickVsys).tickTune).tickHealth
  if s1.follower then s1 else s1.tickBasin

/-- One control tick of task Campion. A follower of a cascade group holds no basin (R440). -/
def State.tickRun (s : State) (load : Nat) : State :=
  let s1 := ((((s.tickWake).tickPeak).tickVsys).tickTune).tickPaths
  let s2 := (s1.tickLead).tickRequests load
  let s3 := ((if s2.follower then s2 else s2.tickBasin).tickReserve).tickAdds
  let s4 := (((s3.tickPlace).tickHealth).tickQuads).tickReport
  (((s4.tickPref .a).tickPref .b).capsChange .a).capsChange .b

/-- CONTROL_TICK (R111): outside RUN and DEGRADED no path is formed and no phase placed on one. -/
def execControlTick (m : TickIn) (s : State) : Out :=
  settle s (s.when s.sys.fwRun fun t =>
    let u := ((t.tickMeasure m).limpFollow).tickThermal
    (if u.runs then u.tickRun m.load else u.tickAlways).tickDomains.taskRan .campion)

/-! ## The peak episode (R108) -/

/-- PEAK_TIMEOUT (R108). -/
def execPeakTimeout (s : State) : Out := .next (s.when (s.sys.fwRun && s.fab.peak == .episode) State.peakEnd)

/-- PEAK_RECOVERY_END (R108). -/
def execPeakRecoveryEnd (s : State) : Out :=
  .next (s.when (s.sys.fwRun && s.fab.peak == .recovery) fun t => t.onFab fun f => { f with peak := .allowed })

/-! ## Phases moving (R99 to R101, R104, R114) -/

/-- The remove rule takes a phase, which goes at once to a path that is to gain one (R114, R116); in a cascade group it lowers the group target at the
loop master (R443). -/
def State.removePhase (s : State) (p : PortId) : State :=
  if s.stk.casc && p == .pc then s.when s.stk.lmaster fun t => t.onStk fun k => { k with nTgt := max 1 (k.nTgt - 1) }
  else if !s.runs || s.grd.fpen || s.fab.tcLatch || !s.controlled p || (s.serving p).length < 2 || s.leavingOn p || !s.donorOk p || s.excites p then s
  else
    match s.losePhase p with
    | none => s
    | some i =>
      let tgt := s.targets
      match s.byPrio.find? fun q => q != p && decide ((s.serving q).length < tgt.getD (portIdx q) 0) && s.placeable q && !s.joiningOn q && !(q == .pc && s.tuningPc) && !(s.excites q) with
      | some q => s.handOff i q Why.demandDown
      | none => s.drainOff i Why.demandDown

/-- PHASE_REMOVE (R114). -/
def execPhaseRemove (p : PortId) (s : State) : Out := .next (s.removePhase p)

/-- DRAIN_COMPLETE (R104). -/
def execDrainComplete (i : Fin 8) (s : State) : Out := settle s (s.drainDone i.val)

/-- SELECTOR_SETTLE (R99). -/
def execSelectorSettle (i : Fin 8) (s : State) : Out := .next (s.settleDone i.val)

/-- SOFT_START_COMPLETE (R104). -/
def execSoftStartComplete (i : Fin 8) (s : State) : Out := .next (s.startDone i.val)

/-- SELECTOR_STUCK (R101). -/
def execSelectorStuck (i : Fin 8) (s : State) : Out := settle s (s.failNote i.val Cause.selectorStuck)

/-- SELECTOR_OVERLAP (R100): class 4. -/
def execSelectorOverlap (i : Fin 8) (s : State) : Out := settle s (s.checkerFail i.val Cause.selectorOverlap)

/-- QUAD_POWER_OFF (R106). -/
def execQuadPowerOff (s : State) : Out :=
  .next (s.when (s.fab.q1Timer && !s.quadNeeded 1) fun t =>
    (t.onFab fun f => { f with q1Timer := false }).domRequest { dom := 7, on := false })

/-! ## Fast swap (R131, R281) -/

/-- The armed port's own phases reverse in place. -/
def State.flipPhase (s : State) (p : PortId) (i : Nat) : State :=
  let x := s.phase i
  if x.port == some p && (x.st == .active || x.st == .starting) then s.drainFlip i Why.fastSwap else s

/-- A reserve phase joins the port: an ACTIVE one where no phase was leaving its path in `before`, the state the signal met, and the path can
spare it (R122); that both join at once is the exception of R131. -/
def State.joinSwap (before : State) (p : PortId) (s : State) (i : Nat) : State :=
  match (s.phase i).st, (s.phase i).port with
  | .free, _ => s.placeOn i p Why.fastSwap
  | .active, some q => if before.leavingOn q || !s.donorOk q then s else s.handOff i p Why.fastSwap
  | _, _ => s

/-- The fast swap of port `t` (R131, R281). -/
def State.fastSwap (s : State) (t : TcId) : State :=
  let p := tcPort t
  let res := s.reserveOf t
  let frs := (s.tc t).ifrs
  let s0 := ((s.swapAbandon t).frsDisarm t 1).eprEnd t 5
  let s1 := (s0.onCc fun c => { c with comp := c.comp.modify (portIdx p) fun k => { k with
      diode := true, ramp := true, above := 0, en := 0, vsRef := 1000 * nodeV s.pp.nodes p, uh := s.uhPreset p } }).onPath p
    fun x => { x with dir := .source, limp := false, grant := frs / 20 + 20, req := 0, unmet := false, addTicks := 0, fresh := true }
  let s2 := phaseNos.foldl (fun u i => u.flipPhase p i) (s1.setVbus p (s1.portPowered p))
  let s3 := res.foldl (fun u i => State.joinSwap s p u i.val) s2
  let s4 := s3.onFab fun f => { f with resA := if t == .a then [] else f.resA, resB := if t == .b then [] else f.resB }
  let s5 := (s4.onTc t fun x => { x with
    swap := .frSent, frsSrc := true, src := true, tcs := .attachedSrc, contract := none, req := none, trans := none, offers := [], waitDue := false, retries := 0 }).tx t .frSwap
  State.sinkEnded s p ((s5.setLearn p none).setPresent p false)

/-- FAST_SWAP_SIGNAL (R131, R281): not acted on on a port that is not armed. -/
def execFastSwapSignal (t : TcId) (s : State) : Out := s.onPd t fun u => u.when ((u.tc t).frsArm && u.runs) fun v => v.fastSwap t

/-! ## Fixed placement registers (R132 to R134) -/

/-- FPLACE0 (R132). -/
def execFplace0 (c : BitVec 8) (single : Bool) (s : State) : Out :=
  .next (s.guardPair .host 0x48 c single fun v t => t.onGrd fun g => { g with fplace0 := v })

/-- FPLACE1 (R132). -/
def execFplace1 (c : BitVec 8) (single : Bool) (s : State) : Out :=
  .next (s.guardPair .host 0x49 c single fun v t => t.onGrd fun g => { g with fplace1 := v })

/-- Whether a write of FPEN = 1 is refused (R133). -/
def State.fpenBar (s : State) : Bool :=
  !s.runs || s.sys.tier = 0 || s.stk.casc
    || ports.any fun p => s.active p && !(phaseNos.any fun i => s.mapOf i == some p && (s.phase i).st != .fenced)

/-- A write of FPLACE_CTL (R133, R134). -/
def State.fpenWrite (s : State) (v : Byte) : State :=
  if v.getLsbD 0 then
    if s.fpenBar then (s.onGrd fun g => { g with fpref := true }).guardFail .host
    else if s.grd.fpen then s.onGrd fun g => { g with fpref := false }
    else
      ((((s.onGrd fun g => { g with fpen := true, fpref := false }).frsDisarm .a 1).frsDisarm .b 1).onFab fun f =>
        { f with resA := [], resB := [] }).raise Src.campion Ev.forcedPlacement
  else (s.onGrd fun g => { g with fpref := false }).fpEnd

/-- FPEN_SET (R133). -/
def execFpenSet (c : BitVec 8) (single : Bool) (s : State) : Out := .next (s.guardPair .host 0x4A c single fun v t => t.fpenWrite v)

/-- FPEN_CLEAR (R134). -/
def execFpenClear (c : BitVec 8) (single : Bool) (s : State) : Out := .next (s.guardPair .host 0x4A c single fun v t => t.fpenWrite v)

/-! ## The extra tick of a fault under a source path (R324) -/

/-- The phases that fail with the unit of source number `u`: a phase, or the four of a quad. -/
def unitPhases (u : Nat) : List Nat := if u < 8 then [u] else if u = 8 ∨ u = 9 then phaseNos.filter fun i => quadOf i = u - 8 else []

/-- One replacement phase for the source path of `p` outside the failing phases `bad` (R324). -/
def State.replaceFor (s : State) (bad : List Nat) (p : PortId) : State :=
  if !s.sourcing p || s.joiningOn p || !(bad.any fun i => (s.phase i).servesPort p) then s
  else
    let free := phaseNos.filter fun i => (s.phase i).st == .free && !(s.phase i).suspect && !bad.contains i && !s.quadFenced i
    match s.bestGain free with
    | some i => s.placeOn i p Why.health
    | none =>
      match s.byPrio.reverse.find? fun q => s.sinking q && s.donorOk q && !s.leavingOn q && (s.activeOn q).any fun i => !bad.contains i with
      | some q =>
        match (s.activeOn q).filter fun i => !bad.contains i with
        | i :: r => s.handOff (r.foldl (fun k j => if (s.phase k).ths ≤ (s.phase j).ths then j else k) i) p Why.health
        | [] => s
      | none => s

/-- REPLACEMENT_TICK (R324). -/
def execReplacementTick (unit : BitVec 8) (s : State) : Out :=
  .next (s.when (s.runs && !s.grd.fpen) fun t => [PortId.pa, .pb].foldl (fun u p => u.replaceFor (unitPhases unit.toNat) p) t)

end Sys2Proof.Machine
end

