-- ==== Sys2Proof/Machine/Conversion.lean ====
section
/-! DEFINITION. Conversion control (chapter 05; R199, R240, R241, R441, R442): the switching period, tuning, frequency and
synchronisation, and the last-fault record's way to the write queue. -/
namespace Sys2Proof.Machine

/-! ## Coefficients (R145 to R147, R150, R503) -/

/-- A value held to the Q2.14 range (R141, R145). -/
def satQ (v : Int) : Int := clampI (-32768) 32767 v

/-- The six words of a voltage slot of the factory set. -/
def slotV : List Int := [0x3400, -0x4000, 0x1000, 0, 0x3000, 0]

/-- The six words of a current slot of the factory set. -/
def slotI : List Int := [0x1200, -0x1000, 0, 0, 0x2000, 0]

/-- An unused slot. -/
def slot0 : List Int := [0, 0, 0, 0, 0, 0]

/-- The factory set of a kind: 0 to 2 PA, PB and PC sink, 3 and 4 PA and PB source (R503). -/
def factoryCoef (kind : Nat) : List Int :=
  [0x4000, 0, 0, 0] ++
    (if kind < 3 then slotV ++ slotV ++ slotI ++ slotI ++ slotV ++ slotI
     else slotV ++ slotI ++ slotV ++ slotI ++ slot0 ++ slot0)

/-- The set of a kind as stored, else the factory's (R503). -/
def State.coefOf (s : State) (kind : Nat) : List Int := (s.cc.coef.getD kind none).getD (factoryCoef kind)

/-- The kind of the path of `p`. -/
def State.kindOf (s : State) (p : PortId) : Nat := if s.sourcing p then 3 + portIdx p else portIdx p

/-- The slot of a demand in a set; demands in the coding of R140. -/
def slotOf (src : Bool) (d : Nat) : Nat :=
  if src then (match d with
    | 6 => 0 | 7 => 1 | 8 => 2 | _ => 3)
  else d

/-- Brings the magnitude of a gain into the Q2.14 range, which ends at `top`: the smallest shift that does, and the gain to the nearest
(R150). -/
def gainShift (top : Nat) : Nat → Nat → Nat → Nat → Nat × Nat
  | 0, num, den, k => ((2 * num + den * 2 ^ k) / (2 * den * 2 ^ k), k)
  | n + 1, num, den, k =>
    let g := (2 * num + den * 2 ^ k) / (2 * den * 2 ^ k)
    if g ≤ top then (g, k) else gainShift top n num den (k + 1)

/-- 4π × 10^15. -/
def fourPi : Nat := 12566370614359173

/-- Whether half the ESR corner of a node lies at f_sw / 40 or above, so that the crossover is not lowered (R150). -/
def cornerHigh (fsw c esr : Nat) : Bool := decide (25 * fsw * (fourPi * (esr * c)) ≤ 10 ^ 25)

/-- The crossover of a measured node in 100 Hz (R150): f_sw / 40 held to an integer (log entry 34), or half the ESR corner, rounded down, where
that is lower. -/
def crossFc (fsw c esr : Nat) : Nat :=
  if cornerHigh fsw c esr then quo fsw 4 else 10 ^ 23 / (fourPi * (esr * c))

/-- The gain and shift of a slot of stored gain `g` scaled by a tuning result (R150). -/
def scaleGain (g : Int) (sh cref fsw : Nat) (t : Tuning) : Int × Nat :=
  let num := g.natAbs * 2 ^ sh * t.c
  let top := if g < 0 then 32768 else 32767
  let (a, k) := if cornerHigh fsw t.c t.esr then gainShift top 15 num cref 0
    else gainShift top 15 (num * 10 ^ 25) (cref * (25 * fsw * (fourPi * (t.esr * t.c)))) 0
  (if g < 0 then -(a : Int) else a, k)

/-- The tuning result that scales a demand's gain on the path of `p`, with its reference capacitance (R147, R150). -/
def State.tuneFor (s : State) (p : PortId) (src : Bool) (d : Nat) : Option (Nat × Tuning) :=
  if src then none
  else if d ≤ 1 then (if s.regBit 0x0146 0 then none else s.cc.vTune.map fun t => (220, t))
  else if d = 4 ∧ p = .pc then (if s.regBit 0x0146 1 then none else s.cc.pTune.map fun t => (47, t))
  else none

/-- The gain and shift in force of a demand. -/
def State.gainOf (s : State) (p : PortId) (src : Bool) (w : List Int) (d : Nat) : Int × Nat :=
  let b := 4 + 6 * slotOf src d
  let g := w.getD (b + 4) 0
  let sh := (w.getD (b + 5) 0).toNat
  match s.tuneFor p src d with
  | some (cref, t) => scaleGain g sh cref s.cc.fsw t
  | none => (g, sh)

/-! ## References (R119, R140, R166, R189, R199, R240, R241) -/

/-- The source-path floor of VSYS in mV (R199). -/
def State.srcFloor (s : State) : Nat :=
  let f := s.vsysMin - 300
  if s.pp.batPres then max (quo (95 * (s.grd.cells * s.vRcut)) 100) f else f

/-- The contract a source port works towards. -/
def State.srcOffer (s : State) (p : PortId) : Option Offer :=
  match portTc p with
  | some t => let x := s.tc t; if x.trans.isSome then x.trans else x.contract
  | none => none

/-- The target of a path's slewing reference in mV: VSYS for a sink path, the port voltage for a source path. -/
def State.vTarget (s : State) (p : PortId) : Nat :=
  if s.sourcing p then
    match s.srcOffer p with
    | some o => o.volt
    | none => 5000
  else s.pp.vsysTgt + (if s.fab.lead == some p then 0 else 150)

/-- Whether the port carries a fast swap: until a new contract (R281). -/
def State.frsPath (s : State) (p : PortId) : Bool :=
  match portTc p with
  | some t => (s.tc t).frsSrc
  | none => false

/-- The reference after one more period of the length in force, 62.5 ps a step: on its start slew 5 V/ms on VSYS and 50 mV/µs after a fast swap, afterwards the target itself; a
source contract's reference slews as task Cowslip sets it, by a free value (R166, log entry 7). -/
def State.slewRef (s : State) (p : PortId) (k : Comp) (base : Nat) : Nat :=
  let goal := 1000 * s.vTarget p
  let stp := if s.sourcing p then (if s.frsPath p then quo (50 * s.cc.period) 16 else s.freeN base) else quo (5 * s.cc.period) 16
  if !k.ramp && !s.sourcing p then goal
  else if k.vsRef ≤ goal then min goal (k.vsRef + stp) else max goal (k.vsRef - stp)

/-- Whether the sine of a sweep is on the path of `p` now (R240, R241). -/
def State.sineOn (s : State) (p : PortId) : Bool := s.excites p && s.sw.stage == .points && !(s.sw.dirDis && s.anySink)

/-- One demand of a path: its code, reference, error and full scale, and whether its reference is the grant. -/
structure Demand where
  code : Nat
  ref : Int
  err : Int
  fs : Int
  grant : Bool := false
  deriving DecidableEq, Repr

/-- The reference set by a grant, mA: its power over the port voltage; none before the first grant after a takeover (R72, R111). -/
def State.grantRef (s : State) (p : PortId) (k : Comp) (v : Nat) : Option Nat :=
  if k.inLim != 0 then none else some (quo ((s.path p).grant * 100000) (max 1 v))

/-- Whether a scan holds the PC path at zero current (R186). -/
def State.scanHold (s : State) : Bool :=
  match s.pp.scan with
  | some c => c.step == 0
  | none => false

/-- The demands of a sink path (R140, R240); a loop master's IN_I reference is the group grant over the PC voltage alone (R441); `a` is the sine's amplitude, 0 without one, and `x` its value. -/
def State.sinkDemands (s : State) (p : PortId) (k : Comp) (m : PathSample) (i ib : Int) (a x : Int) : List Demand :=
  let lead := s.fab.lead == some p
  let chg := s.pp.bat == .charging
  let vb : Nat := s.chg.vRef + (if lead then 0 else 2 * s.grd.cells)
  let it : Nat := if s.pp.batSw == .linear then quo (s.chg.iTgt * 105) 100 else s.chg.iTgt
  let ibr : Int := ((if lead then it else it + max (quo (2 * it) 100) 50 : Nat) : Int) + x
  let grp := s.stk.casc && s.stk.lmaster && p == .pc
  let own := if p == .pc && s.scanHold then 0 else if k.inLim != 0 then k.inLim else if grp then 128000 else s.srcLimit p
  let (lim, byG) := match s.grantRef p k m.v with
    | some g => (min own g, decide (g < own))
    | none => (own, false)
  let inR : Int := lim - a + x
  let thR : Int := k.ith - a + x
  [{ code := 0, ref := k.vsRef / 1000, err := (k.vsRef : Int) / 1000 - m.vsys, fs := 64000 }]
    ++ (if chg then [{ code := 1, ref := vb, err := (vb : Int) - m.vbat, fs := 64000 },
                     { code := 2, ref := ibr, err := ibr - ib, fs := 128000 }] else [])
    ++ [{ code := 3, ref := inR, err := inR - i, fs := 128000, grant := byG },
        { code := 4, ref := s.inFloor p, err := (m.v : Int) - s.inFloor p, fs := 64000 },
        { code := 5, ref := thR, err := thR - m.ipath, fs := 128000 }]

/-- The demands of a source path (R140, R241); `x` is the sine's value in mV. A port current is positive into the module (R495). -/
def State.srcDemands (s : State) (p : PortId) (k : Comp) (m : PathSample) (x : Int) : List Demand :=
  let own : Nat := match s.srcOffer p with
    | some o => o.curr
    | none => (match portTc p with
      | some t => if s.frsPath p then (s.tc t).ifrs else 1500
      | none => 1500)
  let g := (s.path p).grant * 100000 / max 1 m.v
  let vr : Int := (k.vsRef : Int) / 1000 + x
  [{ code := 5, ref := k.ith, err := (k.ith : Int) - m.ipath, fs := 128000 },
   { code := 6, ref := vr, err := vr - m.v, fs := 64000 },
   { code := 7, ref := min own g, err := (min own g : Nat) + m.i, fs := 128000, grant := decide (g < own) },
   { code := 8, ref := s.srcFloor, err := (m.vsys : Int) - s.srcFloor, fs := 64000 }]

/-! ## The compensator (R141 to R144) -/

/-- One demand's new error history: preset where the demand is newly enabled. -/
def pushErr (old : List Int) (was : Bool) (e : Int) : List Int :=
  if was then e :: old.take 2 else [e, e, e]

/-- The normalised error of a demand. -/
def errQ (g : Int) (sh : Nat) (d : Demand) : Int := satQ (quoQ (g * 2 ^ sh * d.err) d.fs)

/-- The candidate output of a demand: `e` its errors now and before, `u` the output history. -/
def candQ (w : List Int) (slot : Nat) (e : Int) (eh u : List Int) : Int :=
  let b := 4 + 6 * slot
  let acc := w.getD b 0 * e + w.getD (b + 1) 0 * eh.getD 0 0 + w.getD (b + 2) 0 * eh.getD 1 0 + w.getD (b + 3) 0 * eh.getD 2 0
    + w.getD 0 0 * u.getD 0 0 + w.getD 1 0 * u.getD 1 0 + w.getD 2 0 * u.getD 2 0
  satQ (quoQ acc 16384)

/-- The demand with the lowest candidate, the lower code among equals. -/
def lowest : List (Demand × Int) → Option (Demand × Int)
  | [] => none
  | a :: r =>
    match lowest r with
    | some b => if a.2 < b.2 ∨ (a.2 = b.2 ∧ a.1.code < b.1.code) then some a else some b
    | none => some a

/-- The cycle-by-cycle limit in mA (R160). -/
def State.oclMa (s : State) : Nat := 500 * clampN 8 36 (s.regF 0x0144 5 0)

/-- Whether any phase of the path met its limit in the period. -/
def State.oclHit (s : State) (p : PortId) (m : PathSample) : Bool := (s.portSet p).any fun i => decide (s.oclMa ≤ m.peak.getD i 0)

/-- The battery current as the loop takes it: on a loop master × k_bat, formed of the IBATC of the last cycle's reports, its own among them (R441); the
reports show a switch that is not OFF by PATH.BAT (R200). -/
def State.batCur (s : State) (i : Int) : Int :=
  if s.stk.casc && s.stk.lmaster then
    let own := s.stk.own.ibatc
    let n := (s.grpReps.filter fun r => r.path.toNat / 32 != 0).length + b2n (s.pp.batSw != .off)
    if own.natAbs < 50 then i * (n : Int)
    else
      let total := (s.grpReps.map fun r => r.ibatc).foldl (· + ·) own
      let sg : Int := if own < 0 then -1 else 1
      quoQ (i * clampI own.natAbs (s.grpCount * own.natAbs) (sg * total)) own.natAbs
  else i

/-- The output of one compensator for one period (R141, R143): its new state, from the demands `ds`. A loop master's output is the current of its group, and
so are the limits it is held to (R440, R441; log entry 121). -/
def State.compStep (s : State) (p : PortId) (k : Comp) (m : PathSample) (ds : List Demand) : Comp :=
  let src := s.sourcing p
  let w := s.coefOf (s.kindOf p)
  let outs := ds.map fun d =>
    let (g, sh) := s.gainOf p src w d.code
    let e := errQ g sh d
    let old := k.eh.getD d.code [0, 0, 0]
    let was := k.en.getLsbD d.code
    (d, e, pushErr old was e, candQ w (slotOf src d.code) e (if was then old else [e, e, e]) k.uh)
  match lowest (outs.map fun o => (o.1, o.2.2.2)) with
  | none => k
  | some (d, low) =>
    let umax : Int := ((quo (s.shareW p * s.oclMa) 128000 : Nat) : Int)
    let u1 := clampI 0 (min 32767 umax) low
    let u2 := if s.oclHit p m then min u1 (quoQ (s.portCur p m.ipath * 16384) 128000) else u1
    let byGrant := (d.code == 3 || d.code == 7) && d.grant
    { k with
      eh := k.eh.mapIdx fun j h => match outs.find? fun o => o.1.code == j with
        | some o => o.2.2.1
        | none => h
      en := outs.foldl (fun x o => setBit x o.1.code true) 0
      uh := u2 :: k.uh.take 2, win := d.code, wins := k.wins.set d.code (k.wins.getD d.code 0 + 1)
      grantLim := byGrant, gwins := setBit k.gwins d.code byGrant, ipath := quoQ (u2 * 128000) 16384
      ref := if d.fs = 64000 then d.ref else quoQ d.ref 10 }

/-! ## Bridge mode, shares, weights, trims, angles and duties (R105, R121, R128, R137, R152, R153, R158, R159) -/

/-- The bridge mode for an input voltage `a` and an output voltage `b` (R153). -/
def bridgeNext (old : Bridge) (a b : Nat) : Bridge :=
  let enter := if 110 * b ≤ 100 * a then Bridge.buck else if 100 * a ≤ 90 * b then .boost else .buckBoost
  match old with
  | .buck => if 100 * a < 106 * b then enter else .buck
  | .boost => if 94 * b < 100 * a then enter else .boost
  | .buckBoost => enter

/-- Whether a phase of the set is changing weight or angle, or synchronisation moves them all (R157, R159). -/
def State.setMoving (s : State) (l : List Nat) : Bool :=
  s.cc.refMoving || l.any fun i => (s.phase i).weight != 16384 || (s.phase i).angle != (s.phase i).angleTo

/-- A pulse of the on time `on` steps beside what earlier skipped pulses left: what is produced, and what is carried to the next period. An
on time under 25 ns, 400 steps, is not produced (R152). -/
def pulse (N on carry : Nat) : Nat × Nat := if on + carry < 400 then (0, on + carry) else (min N (on + carry), 0)

/-- The start of a phase's own period: the duty commands computed in the last one are latched, and the dead time of each leg adapts by
at most one step within 1.0 to 8.0 ns, which way being a free value (R138, R152, log entry 7). -/
def Phase.latch (x : Phase) (N k : Nat) : Phase :=
  let a := pulse N x.nextA x.carryA
  let b := pulse N x.nextB x.carryB
  { x with dutyA := a.1, carryA := a.2, dutyB := b.1, carryB := b.2
           deadA := clampN 16 128 (x.deadA + k % 3 - 1), deadB := clampN 16 128 (x.deadB + k / 3 % 3 - 1) }

/-- The weight after one more period of a linear ramp, whose step is a free value chosen at the ramp's start (R121, R123, log entry 7). -/
def Phase.ramp (x : Phase) (k : Nat) : Phase :=
  let d := if x.wstep = 0 then max 1 k else x.wstep
  match x.st with
  | .starting => { x with wstep := d, weight := min 16384 (x.weight + d) }
  | .draining => { x with wstep := d, weight := x.weight - d }
  | _ => x

/-- The balance trim after one more period: the integral of the error against the mean, with a time constant of 500 µs, within ±3.0 % of
the period in force; cleared at a change of bridge mode and while the phase's own weight is below 1, frozen while the set moves (R121, R158, R159). -/
def Phase.balance (x : Phase) (N : Nat) (changed moving : Bool) (mean : Int) : Phase :=
  if changed || x.weight != 16384 then { x with trim := 0, tint := 0 }
  else if moving then x
  else
    let t := x.tint + (mean - x.ip.natAbs) * (N : Int)
    let raw := quoQ (Config.trimGain * t) 8000000
    { x with trim := clampI (-120) 120 raw, tint := if raw < -120 ∨ 120 < raw then x.tint else t }

/-- The reference of phase `i` on the path of `p`: its share by weight, within its 10 A average (R105, R121); a follower's is its weight of the
loop master's, within its own thermal limit (R442). -/
def State.phaseRef (s : State) (p : PortId) (i : Nat) : Int :=
  let x := s.phase i
  let w := s.shareW p
  let r := if s.follower && p == .pc then min (quoQ ((x.weight : Int) * (20 * s.stk.iunit)) 16384) (s.iThPhase i)
    else if w = 0 then 0 else quoQ ((s.cc.comp.getD (portIdx p) {}).ipath * (x.weight : Int)) w
  clampI (-10000) 10000 r

/-- The path current that the phases of `p` carry among them: I_path, and in a cascade group this module's share of it (R137, R442). -/
def State.pathRef (s : State) (p : PortId) : Int :=
  if s.stk.casc && p == .pc then (s.portSet p).foldl (fun a i => a + s.phaseRef p i) 0 else (s.cc.comp.getD (portIdx p) {}).ipath

/-- The duty commands of phase `i` for its next period. In the period of a change of bridge mode they are the feedforward of the node voltages
(R153); else a weight-1 phase takes the path's common duty with its trim added, and any other tracks its own share by a duty of its own, a free
value (R137, R167, log entry 7). The leg that does not switch is held on (R153); in diode emulation pulses are skipped while the node stands
above its reference (R166). -/
def State.phaseDuty (s : State) (p : PortId) (b : Bridge) (changed skip : Bool) (m : PathSample) (base : Nat) (x : Phase) : Phase :=
  let N := s.cc.period
  let k := s.cc.comp.getD (portIdx p) {}
  let inA := !s.sourcing p
  let onA := (b == .buck && !inA) || (b == .boost && inA)
  let onB := (b == .buck && inA) || (b == .boost && !inA)
  let tr := quoQ (x.trim * (N : Int)) 4000
  let own := x.weight != 16384
  let a := if changed then s.dutyFor 0 m.v m.vsys else if own then s.freeN base else ((k.dA : Int) + tr).toNat
  let c := if changed then s.dutyFor 1 m.v m.vsys else if own then s.freeN (base + 1) else ((k.dB : Int) + tr).toNat
  if skip then { x with nextA := 0, nextB := 0, carryA := 0, carryB := 0 }
  else { x with nextA := if onA then N else min N a, nextB := if onB then N else min N c }

/-- One phase of the path of `p` for one period: its duties are latched, its reference `iref` is taken, its weight, trim and angle move, and its
next duties are computed. -/
def State.phaseStep (s : State) (p : PortId) (b : Bridge) (changed : Bool) (mean : Int) (moving skip : Bool) (m : PathSample) (base : Nat) (iref : Int)
    (i : Nat) : State :=
  let x := (s.phase i).latch s.cc.period (s.freeN (base + 4 * i))
  let y := s.phaseDuty p b changed skip m (base + 4 * i + 1) { x with iref := iref }
  s.onPhase i fun _ =>
    { ((y.ramp (s.freeN (base + 4 * i + 3))).balance s.cc.period changed moving mean) with angle := moveAngle s.cc.period y.angle y.angleTo }

/-- The share, trims, bridge mode and duty commands of a path (R121, R128, R137, R152, R153, R158): every phase's share is formed from the
weights as the period found them. The common duty follows from gains set at
manufacture: free values (log entry 7). Diode emulation resumes when a phase's average current falls below 0.3 A, and the periods above
that are counted (R167); `fell` says that one fell. -/
def State.stagesStep (s : State) (p : PortId) (m : PathSample) (fell : Bool) (base : Nat) : State :=
  let k := s.cc.comp.getD (portIdx p) {}
  let b := if s.sourcing p then bridgeNext k.bridge m.vsys m.v else bridgeNext k.bridge m.v m.vsys
  let changed := b != k.bridge
  let l := s.portSet p
  let one := l.filter fun i => (s.phase i).weight == 16384
  let mean : Int := quoQ (one.foldl (fun a i => a + ((s.phase i).ip.natAbs : Int)) 0) (max 1 one.length : Nat)
  let moving := s.setMoving l
  let node := if s.sourcing p then m.v else m.vsys
  let diode := k.diode || fell
  let s1 := s.onCc fun c => { c with comp := c.comp.modify (portIdx p) fun y => { y with
    bridge := b, diode := diode, dA := min s.cc.period (s.freeN base), dB := min s.cc.period (s.freeN (base + 1))
    above := if 300 * l.length < (s.pathRef p).natAbs then min 32 (y.above + 1) else 0
    ramp := y.ramp && y.vsRef != 1000 * s.vTarget p } }
  let skip := diode && !(s.follower && p == .pc) && decide (k.vsRef < 1000 * node)
  let s2 := l.foldl (fun t i => t.phaseStep p b changed mean moving skip m (base + 2) (s.phaseRef p i) i) s1
  s2.when (changed && s.excites p) State.sweepDisturb

/-- The sine of `num / den` of a turn, times 10^9: the quarter by symmetry, and in it the series to its term of order 13 (R240). -/
def sineTurn (num den : Nat) : Int :=
  let q := 4 * (num % den) / den
  let r := 4 * (num % den) % den
  let x : Int := ((1570796327 * (if q % 2 = 0 then r else den - r) / den : Nat) : Int)
  let y := x * x / 1000000000
  let t := [156, 110, 72, 42, 20, 6].foldl (fun a d => 1000000000 - y * a / (d * 1000000000)) (1000000000 : Int)
  (if 2 ≤ q then -1 else 1) * (x * t / 1000000000)

/-- The amplitude and the value of the sine on the path, in the unit of `a`: A sin(2πft), t being counted from GTS 0 in the units of R24
(R240, R241; log entry 28). -/
def State.sineOf (s : State) (p : PortId) (a : Nat) : Int × Int :=
  if s.sineOn p then ((a : Int), quoQ ((a : Int) * sineTurn (s.sw.freqs.getD s.sw.idx 0 * (s.now * 128 + s.clk.fine.toNat)) 128000000000) 1000000000)
  else (0, 0)

/-- The amplitude that would move the port current by A at the present port load, limited to 2 % of the port voltage, mV (R241). -/
def State.outAmp (s : State) (m : PathSample) : Nat :=
  min (quo (2 * m.v) 100) (if m.i = 0 then quo (2 * m.v) 100 else quo (s.sw.amp * m.v) m.i.natAbs)

/-- A period of the excited path counts towards its point's window once that has settled; it counts as clipped where the cycle-by-cycle limit
acted or a demand won that does not carry the sine (R240, R241, R246). -/
def State.clipCount (s : State) (p : PortId) (hit : Bool) : State :=
  let win := (s.cc.comp.getD (portIdx p) {}).win
  let carries := if s.sw.dirDis then win == 6 else win == 2 || win == 3 || win == 5
  s.when (s.sineOn p && decide (s.sw.pointAt + settleUs (s.sw.freqs.getD s.sw.idx 0) ≤ s.now)) fun t =>
    t.onSw fun w => { w with perN := w.perN + 1, clipN := w.clipN + b2n (hit || !carries) }

/-- What a phase of the path measures in a period: its average current, and whether it met its limit (R137, R160). -/
def Phase.sense (x : Phase) (limit i : Nat) (m : PathSample) : Phase :=
  { x with ip := m.ip.getD i 0, oclMet := decide (limit ≤ m.peak.getD i 0) }

/-- Every phase on port `p` with its gates on is sensed, whatever it serves; under the limp controller phase 0 has its own limit of 16 A (R66,
R160, R161). -/
def State.sensePort (s : State) (p : PortId) (m : PathSample) : State :=
  s.onFab fun f => { f with
    ph := f.ph.mapIdx fun i x => if x.port == some p && x.st.gatesOn then x.sense (if x.st == .limp then 16000 else s.oclMa) i m else x }

/-- MEAS writes the period's item into the sample queue of `p`, and a full queue drops it, a checker failure of the port; the compensator takes
the oldest (R30, R36, R138). -/
def State.sampleThrough (s : State) (p : PortId) (m : PathSample) : State × PathSample :=
  let q := s.qs.sampleQ.getD (portIdx p) []
  let full := decide (8 ≤ q.length)
  let s1 := s.when full fun t => (t.drop (portIdx p)).failNote (Src.port p) Cause.sampleFault
  match if full then q else q ++ [m] with
  | x :: r => (s1.onQs fun y => { y with sampleQ := y.sampleQ.set (portIdx p) r }, x)
  | [] => (s1, m)

/-- One switching period of the path of `p`, from the item that its compensator takes (R137 to R143). The phases of a path that has ended go on
ramping down (R124). -/
def State.pathLoop (s : State) (p : PortId) (m : PathSample) : State :=
  let base := 40 * portIdx p
  if !s.controlled p || s.portSet p == [] then
    (s.sensePort p m).onFab fun f => { f with
      ph := f.ph.mapIdx fun i x => if x.port == some p && x.st == .draining then x.ramp (s.freeN (base + i)) else x }
  else
    let l := s.portSet p
    let fell := l.any fun i => 300 ≤ (s.phase i).ip.natAbs && (m.ip.getD i 0).natAbs < 300
    let s0 := s.sensePort p m
    let s1 := if s.follower && p == .pc then s0
      else
        let k0 := s.cc.comp.getD (portIdx p) {}
        let k := { k0 with vsRef := s.slewRef p k0 base }
        let (a, x) := s.sineOf p (if s.sw.dirDis then s.outAmp m else s.sw.amp)
        let ds := if s.sourcing p then s.srcDemands p k m x else s.sinkDemands p k m (s.portCur p m.i) (s.batCur m.ibat) a x
        s0.onCc fun c => { c with comp := c.comp.set (portIdx p) (s.compStep p k m ds) }
    let s2 := (s1.clipCount p (s1.oclHit p m)).stagesStep p m fell (base + 1)
    s2.when m.differ fun t => t.checkerFail (Src.port p) Cause.loopCompare

/-- One switching period of port `p`: where a compensator runs the item goes through its queue (R138). -/
def State.pathPeriod (s : State) (p : PortId) (m : PathSample) : State :=
  if s.controlled p && s.portSet p != [] then
    let r := s.sampleThrough p m
    r.1.pathLoop p r.2
  else s.pathLoop p m

/-! ## The period and the module phase reference (R128, R155 to R157, R436) -/

/-- The range of SYNC_IN frequencies accepted, in Hz (R155). -/
def State.syncRange (s : State) : Nat × Nat := (max 1200000 (s.cc.fsw * 900), min 3000000 (s.cc.fsw * 1100))

/-- Whether the period follows an edge: a stack member's stack edge, or SYNC_IN's while it is acquired or locked (R156, R436). -/
def State.syncing (s : State) (y : SyncIn) : Bool :=
  s.stk.joined || ((s.cc.sync == .acquiring || s.cc.sync == .locked) && y.f != 0)

/-- Where the module phase reference is to stand in a period of `N` steps: the edge plus SYNC_OFS, which a cascade group takes as 0 (R155, R436). -/
def State.refGoal (s : State) (y : SyncIn) (N : Nat) : Nat :=
  let edge := if s.stk.joined then 0 else if s.regBit 0x0142 1 then y.fall else y.rise
  let ofs := if s.stk.casc then 0 else s.regN 0x0143
  (edge + (2 * N * ofs + 256) / 512) % N

/-- The steps from `a` to `b` round a period of `N`, the shorter way. -/
def apart (N a b : Nat) : Nat := min ((b + N - a) % N) ((a + N - b) % N)

/-- The period length moves by at most 16 steps towards the synchronised length or back to that of FSW, and the phase reference by at most
45° towards its place; the edge error is judged, SYNCBAD says that edges are present outside the accepted range (R172), and with the length every set's angles are computed afresh (R127, R155, R156). -/
def State.periodStep (s : State) (y : SyncIn) : State :=
  let n := s.cc.period
  let own := stepsOf s.cc.fsw
  let goal := if s.stk.joined || !s.syncing y then own else stepsHz (clampN s.syncRange.1 s.syncRange.2 y.f)
  let N := if n ≤ goal then min goal (n + 16) else max goal (n - 16)
  let was := s.cc.phRef % N
  let want := s.refGoal y N
  let now := if s.syncing y then moveAngle N was want else was
  let bad := s.regBit 0x0142 0 && !s.stk.joined && y.f != 0 && (decide (y.f < s.syncRange.1) || decide (s.syncRange.2 < y.f))
  let s1 := s.onCc fun c => { c with
    syncBad := bad, period := N, phRef := now, refMoving := N != n || now != was
    edgeOk := if s.syncing y && N == goal && apart N was want ≤ 2 then min 64 (c.edgeOk + 1) else 0 }
  s1.when (N != n) fun t => ports.foldl State.reAngle (t.onPhases fun x => { x with angle := x.angle % N })

/-- The reference frame of the loop master (R442): IUNIT in 20 mA, BSW, STOP; in every second period above 2.0 MHz, and none in the first 10 µs of a
new master (R444). -/
def State.sendRef (s : State) : State :=
  if s.now < s.stk.refFrom || s.stk.refSkip then s.onStk fun x => { x with refTx := none, refSkip := false }
  else if s.stk.casc && s.stk.lmaster then
    let k := s.cc.comp.getD 2 {}
    let w := s.shareW .pc
    let iu : Int := if s.flt.hold || w = 0 then 0 else clampI (-1024) 1023 (quoQ (k.ipath * 16384) (20 * (w : Int)))
    s.onStk fun x => { x with refTx := some (iu, s.pp.batSw == .full, s.flt.fsafe), refSkip := decide (2000 < s.cc.fsw) }
  else s

/-- The injected check of TARGET 5 in one switching period: the next item of the lowest-numbered active path (R342, R343). While a
failure awaits its second evaluation, that is the next check. -/
def State.injSample (s : State) : State :=
  if s.grd.injArm && s.grd.injRemain != 0 && s.grd.injTarget == 5 && !(s.flt.pend.any fun p => p.injected && p.cause == Cause.sampleFault) then
    match ports.find? s.active with
    | some p => s.injectedCheck (Src.port p) Cause.sampleFault
    | none => s
  else s

/-- Whether VSYS or VBAT has won on the lead path in the last period (R248). -/
def State.leadWon (s : State) : Bool :=
  match s.fab.lead with
  | some p => decide ((s.cc.comp.getD (portIdx p) {}).win ≤ 1)
  | none => false

/-- SWITCHING_PERIOD (R137 to R143, R153, R156, R158, R172, R442). With MEAS off no period's values are available (R170). -/
def execSwitchingPeriod (a b : PathSample) (c : PcPeriod) (s : State) : Out :=
  if !s.clk.moscRun || !s.measOn then .next (s.onCc fun k => { k with samp := none })
  else
    let s1 := ((s.pathPeriod .pa a).pathPeriod .pb b).pathPeriod .pc c.path
    let hit := phaseNos.any fun i => (s1.phase i).oclMet && (s1.phase i).st.gatesOn
    let s2 := s1.onCc fun k => { k with
      oclRecent := hit || (k.oclRecent && s.now < k.oclAt + 1000), oclAt := if hit then s.now else k.oclAt }
    let s3 := s2.onCc fun k => { k with samp := some [a, b, c.path], vWonAt := if s2.leadWon then some s.now else k.vWonAt }
    settle s ((((s3.periodStep c.sync).sendRef).useFree 120).injSample)

/-! ## Limits (R161, R162, R167) -/

/-- OCL_HOLD (R161). -/
def execOclHold (i : Fin 8) (s : State) : Out :=
  .next (s.when (s.phase i.val).st.gatesOn fun t => t.raise (Src.phase i.val) Ev.oclHold)

/-- PHASE_SHORT (R162). -/
def execPhaseShort (i : Fin 8) (ma : Nat) (s : State) : Out :=
  settle s (s.when (24000 ≤ ma) fun t => t.checkerFail i.val Cause.phaseShort)

/-- QUAD_OVERTEMP (R162): `t` in 0.1 °C. -/
def execQuadOvertemp (q : Fin 2) (t : Int) (s : State) : Out :=
  let s1 := s.onMs fun m => if q.val = 0 then { m with tq0 := t } else { m with tq1 := t }
  settle s (s1.when (1150 ≤ t) fun u => u.checkerFail (Src.quad q.val) Cause.quadOvertemp)

/-- DIODE_EMULATION_END (R167): the reference stands at its target, and I_path has been above 0.3 A per phase for 32 periods. -/
def execDiodeEmulationEnd (p : PortId) (s : State) : Out :=
  .next (s.when (s.controlled p && (s.cc.comp.getD (portIdx p) {}).vsRef == 1000 * s.vTarget p
      && decide (32 ≤ (s.cc.comp.getD (portIdx p) {}).above)) fun t =>
    t.onCc fun c => { c with comp := c.comp.modify (portIdx p) fun k => { k with diode := false } })

/-! ## Automatic tuning (R148 to R151) -/

/-- Whether COEF_CFG names the studio set for a node (R147, R151). -/
def State.studio (s : State) (pc : Bool) : Bool := s.regBit 0x0146 (b2n pc)

/-- A measurement ends the run; where COEF_CFG names the studio set it changes nothing (R149 to R151). That of PC's attach is followed by a scan
(R186). -/
def State.tuneEnd (s : State) (r : TuneRun) (c esr spread : Nat) (ok : Bool) : State :=
  let t : Tuning := { c := c, esr := esr, fc := crossFc s.cc.fsw c esr }
  let keep := ok && !s.studio r.pc
  let s1 := s.onCc fun k => { k with
    tune := none, tuneRerun := k.tuneRerun && r.pc
    vTune := if r.pc || s.studio r.pc then k.vTune else if ok then some t else none
    pTune := if !r.pc || s.studio r.pc then k.pTune else if ok then some t else none
    vTuned := k.vTuned || (keep && !r.pc), pTuned := k.pTuned || (keep && r.pc) }
  let s1 := s1.when (r.pc && r.box.isNone && s.track && s.pp.voc.isNone) fun t => t.onPp fun x => { x with scanDue := true }
  let node : Byte := BitVec.ofNat 8 (b2n r.pc)
  let fc := if ok then t.fc else quo s.cc.fsw 4
  let s2 := if ok then s1.raise Src.campion Ev.tuneDone (node :: (le 2 c ++ le 2 esr ++ le 2 fc))
    else s1.raise Src.campion Ev.tuneRange (node :: (le 2 (min c 0xFFFF) ++ le 2 (min spread 0xFFFF)))
  (s2.finishO r.box St.ok (le 2 (min c 0xFFFF) ++ le 2 (min esr 0xFFFF) ++ le 2 fc ++ [BitVec.ofNat 8 (b2n ok)])).tuneNext

/-- TUNE_MEASUREMENT_DONE (R149): C in µF, ESR in 0.1 mΩ, the spread in 0.1 % of the mean. VSYS is measured only while the battery
switch is open. -/
def execTuneMeasurementDone (c esr spread : Nat) (s : State) : Out :=
  match s.cc.tune with
  | none => .next s
  | some r =>
    if !s.runs || (!r.pc && s.switchOn) then .next s
    else
      let ok := spread ≤ 100 && (if r.pc then 30 ≤ c && c ≤ 600 else 150 ≤ c && c ≤ 4200)
      if ok || r.again then .next (s.tuneEnd r c esr spread ok)
      else .next (s.onCc fun k => { k with tune := some { r with again := true, wait := false } })

/-! ## Frequency and synchronisation (R154 to R156) -/

/-- Whether no phase is under the conversion controller (R154). -/
def State.noPhaseRuns (s : State) : Bool := s.fab.ph.all fun x => x.st == .free || x.st == .limp || x.st == .fenced

/-- A pending FSW comes into force. -/
def State.fswTake (s : State) : State :=
  if s.cc.fswPend && s.noPhaseRuns then
    let s1 := (s.setReg 0x0140 (BitVec.ofNat 8 s.fswReg)).setReg 0x0141 (BitVec.ofNat 8 (s.fswReg / 256))
    (s1.onCc fun c => { c with
      fsw := s.fswReg, fswPend := false, tuneRerun := true, pcTuneDue := c.pcTuneDue || s.pp.presC
      period := if c.synced then c.period else stepsOf s.fswReg, edgeOk := 0 }).tuneNext.updShow
  else s

/-- FSW_APPLY (R154). -/
def execFswApply (s : State) : Out := .next s.fswTake

/-- SYNC_LOCK (R156): the edge error has stayed within 2 steps for 64 periods; a stack member ignores SYNC_IN (R436). -/
def execSyncLock (s : State) : Out :=
  .next (s.when (s.regBit 0x0142 0 && !s.stk.joined && s.cc.sync == .acquiring && s.cc.edgeOk == 64) fun t =>
    (t.onCc fun c => { c with sync := .locked, synced := true, syncBad := false }).raise Src.campion Ev.syncLock)

/-- SYNC_LOST (R156). -/
def execSyncLost (outOfRange : Bool) (s : State) : Out :=
  .next (s.when (s.regBit 0x0142 0 && !s.stk.joined && (s.cc.sync == .acquiring || s.cc.sync == .locked)) fun t =>
    let t1 := t.onCc fun c => { c with sync := .lost, synced := false, edgeOk := 0, syncBad := c.syncBad || outOfRange }
    t1.raise Src.campion Ev.syncLost)

/-- SYNC_REACQUISITION (R156). -/
def execSyncReacquisition (s : State) : Out :=
  .next (s.when (s.regBit 0x0142 0 && !s.stk.joined && s.cc.sync == .lost) fun t => t.onCc fun c => { c with sync := .acquiring, edgeOk := 0, syncBad := false })

/-! ## The last-fault record (R171) -/

/-- Whether energy allows a commit: the highest node has been at 6.0 V or more for 10 ms (R171, R456). -/
def State.nvmEnergy (s : State) : Bool :=
  s.sys.fwRun && 6000 ≤ s.topNode && (s.nvm.energySince.any fun t => t + 10000 ≤ s.now) && !s.seq.pfw

/-- Offers the record in RET slot `k` to the write queue. -/
def State.lfOffer (s : State) (k : Nat) : State :=
  match s.flt.lfSlot[k]? with
  | some r =>
    if r.queued || !s.nvmRoom || s.nvmFenced then s
    else
      (s.nvmPush { kind := .lastFault, slot := k }).onFlt fun f => { f with lfSlot := f.lfSlot.modify k fun x => { x with queued := true } }
  | none => s

/-- Offers every staged record once energy allows. -/
def State.lfOffers (s : State) : State := if s.nvmEnergy then (s.lfOffer 0).lfOffer 1 else s

/-- LAST_FAULT_OFFER (R171). -/
def execLastFaultOffer (s : State) : Out := .next s.lfOffers

end Sys2Proof.Machine
end

