-- ==== Sys2Proof/Machine/Power.lean ====
section
/-! DEFINITION. Sources, the battery switch, the weir and the tracker (chapter 06). -/
namespace Sys2Proof.Machine

/-! ## PC (R91, R148, R173) -/

/-- Whether the plug-detect switch permits PC (R173, R175). -/
def State.dcdetOk (s : State) : Bool := !s.regBit 0x0150 6 || s.pp.dcdetLow

/-- PC_ATTACH (R173): `dcdet` says whether DCDET is low. The node is measured before the first placement (R148). -/
def execPcAttach (n : Nodes) (dcdet : Bool) (s : State) : Out :=
  let s1 := (((s.seeNodes n).batHw).limpFollow).onPp fun x => { x with dcdetLow := dcdet }
  settle s (s1.when (s.sys.fwRun && !s.pp.presC && decide ((uvlo .pc).1 < n.pc) && s1.dcdetOk && !s.portFenced .pc) fun t =>
    (((t.setPresent .pc true).onCc fun c => { c with pcTuneDue := true, pTuned := false, pTune := none }).tuneNext).shipCancel)

/-- What follows when PC is recognised absent (R124, R173, R190). -/
def State.pcGone (s : State) : State :=
  let s0 := (s.cc.tuneAsk.filter (·.pc)).foldl (fun t r => t.finishO r.box St.withdrawn) s
  let s1 := ((s0.setPresent .pc false).onCc fun c => { c with
    pcTuneDue := false, pTuned := false, pTune := none, tuneAsk := c.tuneAsk.filter fun r => !r.pc
    tune := match c.tune with
      | some r => if r.pc && r.box.isNone then none else some r
      | none => none }).tuneNext
  if (s.path .pc).limp then State.noSource s s1 else State.sinkEnded s .pc (s1.endPath .pc)

/-- PC_REMOVAL (R173). -/
def execPcRemoval (dcdet : Bool) (s : State) : Out :=
  let s1 := s.onPp fun x => { x with dcdetLow := dcdet }
  settle s (s1.when (s.sys.fwRun && s.pp.presC) State.pcGone)

/-! ## The battery (R74, R174, R187, R196, R214, R219) -/

/-- The voltage test of R174: BAT+ while the battery switch is open; while it conducts, BAT+ against the cells,
and with CELLS not set BAT+ of 1.0 V and more (DESIGN CHOICE, log entry 107). -/
def State.voltTest (s : State) : Bool :=
  if s.switchOn && s.grd.cells != 0 then
    let sum := s.cellsV.foldl (· + ·) 0
    sum ≤ 10 * (s.pp.nodes.bat + 500) && 10 * s.pp.nodes.bat ≤ sum + 5000
  else 1000 ≤ s.pp.nodes.bat

/-- BAT_ATTACH (R174): the test that BATDET names has passed for 10 ms; never while it is NONE. -/
def execBatAttach (s : State) : Out :=
  settle s (s.when (s.sys.fwRun && !s.follower && !s.pp.batPres && s.batFound s.voltTest) fun t =>
    ((((t.onPp fun x => { x with batPres := true }).switchClose).limpFollow).raise Src.batsw Ev.batAttach).autoStart false)

/-- The battery is judged absent. -/
def State.batGone (s : State) : State :=
  let s1 := (((s.onPp fun x => { x with batPres := false, handover := false, dwell := false }).switchOff).limpFollow).raise Src.batsw Ev.batDetach
  let s2 := ((s1.sweepAbort 5).modelDrop).suspendAnew Rsn.noBattery
  s2.when (!s2.anySink) fun t => (t.srcRemove .a).srcRemove .b

/-- BAT_DETACH (R174): the test that BATDET names has failed for 1 ms. -/
def execBatDetach (s : State) : Out :=
  settle s (s.when (s.sys.fwRun && !s.follower && s.pp.batPres && !s.batFound s.voltTest) State.batGone)

/-! ## The battery switch (R187 to R189) -/

/-- Whether a sink path is under the conversion controller (R216). -/
def State.canCharge (s : State) : Bool := ports.any fun p => s.sinking p && s.controlled p

/-- BATTERY_SWITCH_RECONNECT (R53, R67, R188): VSYS more than the reconnection threshold below BAT+, its typical 20 mV (log entry 89). -/
def execBatterySwitchReconnect (n : Nodes) (s : State) : Out :=
  let s1 := ((s.seeNodes n).batHw).limpFollow
  settle s (s1.when (s1.pp.batSw == .diode && !s.follower && decide (n.vsys + 20 < n.bat)) State.switchFull)

/-- SUPPLEMENT (R67, R188, R189): VSYS at the supplement threshold, 150 mV below its target. -/
def execSupplement (n : Nodes) (s : State) : Out :=
  let s1 := ((s.seeNodes n).batHw).limpFollow
  settle s (s1.when (!s.follower && decide (n.vsys + 150 ≤ s1.vsysRef) && (s1.pp.batSw == .diode || (s1.pp.batSw == .linear && s1.pp.soft == .no))) State.switchFull)

/-- BATTERY_SWITCH_RELEASE (R188, R216). -/
def execBatterySwitchRelease (s : State) : Out :=
  settle s (s.when (s.pp.batSw == .full && !s.follower) fun t => t.onPp fun x => { x with
    batSw := if s.chg.phase.charging && s.canCharge then (if x.linBefore then .linear else .full) else .diode, linBefore := false })

/-! ## The weir (R183) -/

/-- WEIR_LEARN (R183): `avg` is the port current averaged over the 10 ms, mA. -/
def execWeirLearn (t : TcId) (avg : Nat) (s : State) : Out :=
  let p := tcPort t
  .next (s.when (s.runs && s.sinking p && s.controlled p) fun u =>
    (u.setLearn p (some (max 100 (95 * avg / 100 / 10 * 10)))).raise (Src.port p) Ev.weirLearn)

/-- WEIR_PROBE (R183). -/
def execWeirProbe (t : TcId) (s : State) : Out :=
  let p := tcPort t
  match s.learn p with
  | some l => .next (s.when s.runs fun u => u.setLearn p (if u.ownLimit p ≤ l + 100 then none else some (l + 100)))
  | none => .next s

/-! ## The tracker (R185, R186) -/

/-- V_T held between its floor and 0.95 × V_oc (R185). -/
def State.vtClamp (s : State) (v : Nat) : Nat :=
  match s.pp.voc with
  | some o => max s.pcFloor (min v (quo (95 * o) 100))
  | none => max s.pcFloor v

/-- The direction in which V_T moves (R185): the present voltage and current, and their changes. -/
def trackDir (v i dv di : Int) : Int :=
  if dv.natAbs < 10 then (if i < 100 * di then 1 else if 100 * di < -i then -1 else 0)
  else
    let n := di * v + i * dv
    if 100 * n.natAbs ≤ 2 * (i * dv).natAbs then 0 else (n * dv).sign

/-- Whether a scan is deferred (R186). -/
def State.scanDefer (s : State) : Bool :=
  s.sw.run != .none || (s.pp.batSw == .off && !(s.anySink && (s.sinking .pa || s.sinking .pb)))

/-- A scan is due: it begins, or waits while it is deferred. -/
def State.scanBegin (s : State) : State :=
  if !s.track || !s.sinking .pc || !s.controlled .pc || s.pp.scan.isSome then s
  else if s.scanDefer then s.onPp fun x => { x with scanDue := true }
  else s.onPp fun x => { x with scan := some {}, scanDue := false }

/-- TRACKER_INTERVAL (R185): `won` says that IN_V won in most periods of the interval. -/
def execTrackerInterval (v i : Nat) (won : Bool) (s : State) : Out :=
  if !s.runs || !s.track || !s.sinking .pc || !s.controlled .pc || s.pp.scan.isSome then .next s
  else
    let d := if won && s.pp.trkV != 0 then trackDir v i ((v : Int) - s.pp.trkV) ((i : Int) - s.pp.trkI) else 0
    let stp := max 50 (quo s.pp.vt 200)
    let vt := if d = 0 then s.pp.vt else if 0 < d then s.pp.vt + stp else s.pp.vt - stp
    let p := quo (v * i) 1000
    let est := if won then p else max p (s.pp.pmpp.getD 0)
    let s1 := s.onPp fun x => { x with vt := s.vtClamp vt, trkV := v, trkI := i, pmpp := some est }
    .next (s1.when s1.pp.scanDue State.scanBegin)

/-- PC_CFG.SCAN: whether scans run at an interval (R184). -/
def State.scanEvery (s : State) : Bool := s.regF 0x0154 3 1 != 0

/-- MPPT_SCAN_START (R184, R186): at PC attach after its tuning, and at each SCAN interval where there is one. -/
def execMpptScanStart (s : State) : Out := .next (s.when (s.runs && (s.pp.scanDue || s.scanEvery)) State.scanBegin)

/-- The reference of the `k`-th of the 16 steps, from 0.95 × V_oc down to the greater of 0.50 × V_oc and the floor (R186, log
entry 36). -/
def State.scanV (s : State) (voc k : Nat) : Nat :=
  let hi := quo (95 * voc) 100
  let lo := min hi (max (quo voc 2) s.pcFloor)
  hi - quo ((k - 1) * (hi - lo)) 15

/-- A scan step ends: step 0 gives V_oc, the 16th ends the scan (R186); the power of its best step becomes the maximum-power estimate (DESIGN CHOICE, log
entry 115). -/
def State.scanStep (s : State) (c : Scan) (v i : Nat) : State :=
  if c.step = 0 then
    s.onPp fun x => { x with voc := some v, vt := s.scanV v 1, scan := some { step := 1 } }
  else
    let voc := s.pp.voc.getD 0
    let p := quo (v * i) 1000
    let b := if c.step = 1 ∨ c.bestP < p then (s.scanV voc c.step, p) else (c.best, c.bestP)
    if c.step < 16 then
      s.onPp fun x => { x with vt := s.scanV voc (c.step + 1), scan := some { step := c.step + 1, best := b.1, bestP := b.2 } }
    else
      (s.onPp fun x => { x with vt := s.vtClamp b.1, pmpp := some b.2, scan := none, trkV := 0, trkI := 0 }).raise (Src.port .pc) Ev.mpptScan
        (le 2 (quo voc 10) ++ le 2 (quo b.1 10) ++ le 2 (quo b.2 100))

/-- MPPT_SCAN_STEP (R186). -/
def execMpptScanStep (v i : Nat) (s : State) : Out :=
  match s.pp.scan with
  | some c => .next (s.when s.runs fun t => if t.track && t.sinking .pc then t.scanStep c v i else t.onPp fun x => { x with scan := none })
  | none => .next s

/-! ## Hand-over (R190, R191, R195, R199) -/

/-- HANDOVER (R190): the switch conducts and every sink phase has drained; the lowest VSYS in mV and the dip in 0.1 %. -/
def execHandover (low dip : Nat) (s : State) : Out :=
  let drained := phaseNos.all fun i => !((s.phase i).st.gatesOn && (s.phase i).dir == .sink)
  let p := s.pp.lastSink.getD .pc
  settle s (s.when (s.pp.handover && s.switchOn && !s.anySink && drained) fun t =>
    (t.onPp fun x => { x with handover := false, dwell := true }).raise (Src.port p) Ev.handover
      (le 2 (quo low 10) ++ le 2 dip ++ [BitVec.ofNat 8 (Src.port p)]))

/-- DWELL_END (R191): the next control tick places what is present. -/
def execDwellEnd (s : State) : Out := .next (s.onPp fun x => { x with dwell := false })

/-- NOBAT_COLLAPSE (R195): PFW is asserted and a NOBAT shutdown begins. -/
def execNobatCollapse (s : State) : Out :=
  .next (s.when (s.sys.fwRun && !s.pp.batPres) fun t => (t.onPp fun x => { x with noBatPfw := true }).downCause 0x05 0x40)

/-- REV_CUTOFF (R199): VBAT at the cut-off with no sink path active, or with the battery DISCHARGING or SUPPLEMENTING, for 1 s. The grant is
released and the source path ends. -/
def execRevCutoff (t : TcId) (s : State) : Out :=
  let p := tcPort t
  settle s (s.when (s.runs && s.sourcing p && decide (s.ms.vbat ≤ s.grd.cells * s.vRcut)
      && (!s.anySink || s.pp.bat == .discharging || s.pp.bat == .supplementing)) fun u =>
    ((u.onPath p fun x => { x with grant := 0 }).raise (Src.port p) Ev.revCutoff).srcMustEnd t)

end Sys2Proof.Machine
end

