-- ==== Sys2Proof/Machine/Charge.lean ====
section
/-! DEFINITION. Charging: the Teasel tick, the model limit it works with, zones, timers, the chemistry and the charge commands
(chapter 07; R252 to R258, R409). -/
namespace Sys2Proof.Machine

/-! ## Exponentials and roots in fixed point -/

/-- The fixed-point unit. -/
def fxOne : Nat := 10 ^ 15

/-- e to the power of minus 1, in units of 10^-15. -/
def fxE1 : Nat := 367879441171442

/-- e^-x for x = num / den, in units of 10^-15: whole powers of 1/e times the Taylor series of the rest. -/
def expNeg (num den : Nat) : Nat :=
  if den = 0 then 0
  else
    let n := num / den
    if 36 ≤ n then 0
    else
      let f := (num % den) * fxOne / den
      let ser := (List.range 24).foldl (fun (p : Int × Nat) k =>
        (p.1 + (if k % 2 = 0 then (p.2 : Int) else -(p.2 : Int)), p.2 * f / fxOne / (k + 1))) (0, fxOne)
      iter n (fun v => v * fxE1 / fxOne) ser.1.toNat

/-! ## The model at a tick (R252 to R254) -/

/-- The mapped pack thermistors' readings (R222): none where one of them is not valid or none is mapped. -/
def State.ntcReads (s : State) : Option (List Int) :=
  let l := (List.range 6).filter fun n => (s.reg 0x016D).getLsbD n
  if l = [] then none
  else l.foldr (fun n acc => match acc, s.ms.ntc.getD n .opened with
    | some r, .valid t => some (t :: r)
    | _, _ => none) (some [])

/-- T_min in 0.1 °C; 25.0 °C stands in where no thermistor is valid, when no use is made of it. -/
def State.tMin (s : State) : Int :=
  match s.ntcReads with
  | some (a :: r) => r.foldl min a
  | _ => 250

/-- T_max in 0.1 °C; as T_min. -/
def State.tMax (s : State) : Int :=
  match s.ntcReads with
  | some (a :: r) => r.foldl max a
  | _ => 250

/-- SOC of every cell at this tick (R252): the base plus the count since over CAP. -/
def State.socNow (s : State) : List Int :=
  let d := (s.ms.cc - s.ms.socCc) * 10000 / ((max 10 s.cap * 36000000 : Nat) : Int)
  s.ms.soc0.map fun v => v + d

/-- k_T as a ratio over 10^15 (R253): ARRH in 0.001 /K, temperatures in 0.1 °C. -/
def State.kT (s : State) (ts : Int) : Nat :=
  let d := ts - s.tMin
  let e := expNeg (s.regN 0x0187 * d.natAbs) 10000
  if d < 0 then e else if e = 0 then 0 else fxOne * fxOne / e

/-- R_eff of a fitted cell in nΩ (R254). -/
def State.rEff (s : State) (m : CellModel) : Nat :=
  let t := clampN 5 120 (s.regN 0x0184)
  let f := m.fit
  let a := f.ra * 10000 * (fxOne - expNeg (100000 * t) f.taua) / fxOne
  let b := f.rb * 10000 * (fxOne - expNeg (100 * t) f.taub) / fxOne
  let w := f.sigma * 1000 * isqrt 70 (8 * t * 10 ^ 24 * 10 ^ 15 / 3141592653589793) 0 / 10 ^ 12
  s.kT m.ts * (f.rser * 10000 + a + b + w) / fxOne

/-- The grade factor in percent. -/
def gradeFactor : Grade → Nat
  | .high => 100 | .medium => 110 | _ => 125

/-- The anode potential at a SOC, in 0.1 µV; outside 0 to 100 % it has no stated value, and `fr` stands for it (log entry 7). -/
def State.anodeU (s : State) (soc : Int) (fr : Nat) : Nat :=
  if soc < 0 ∨ 10000 < soc then fr else interp (s.chemTab s.grd.chem 0) soc.toNat

/-- I_k in 10 mA as a ratio, a denominator of 0 standing for no limit (R254, R255). -/
def State.cellLimit (s : State) (m : CellModel) (soc : Int) (fr : Nat) : Nat × Nat :=
  if m.grade == .expired || m.grade == .fail then (s.cRate s.eCons, 1)
  else
    let u := s.anodeU soc fr
    let mg := 10000 * min 100 (s.regF 0x0182 6 0)
    let d := clampN 40 200 (s.regN 0x0183) * gradeFactor m.grade * s.rEff m
    if u ≤ mg then (0, 1) else if d = 0 then (1, 0) else (200000000 * (u - mg), d)

/-- A limit as ILIM and MLIM show it, rounded down; 0xFFFF above their range (R254, R261). -/
def limitShown (r : Nat × Nat) : Nat := if r.2 = 0 then 0xFFFF else min 0xFFFF (r.1 / r.2)

/-- The cell that sets the limit, from 1, and its limit: the least, of equals the lowest number (R254). -/
def weakest : List (Nat × Nat) → Nat → Nat × (Nat × Nat)
  | [], _ => (0, 1, 0)
  | a :: r, k =>
    let (j, b) := weakest r (k + 1)
    if j = 0 ∨ a.1 * b.2 ≤ b.1 * a.2 then (k, a) else (j, b)

/-- The model's part of a tick: SOC, R_eff, I_k, MLIM and WEAK (R252, R254, R258). -/
def State.modelTick (s : State) : State :=
  let soc := s.socNow
  let s1 := s.onMs fun x => { x with soc := soc }
  if s.sw.model = [] || !s.sw.seeded then s1.onSw fun w => { w with mlim := 0xFFFF, weak := 0 }
  else
    let lims := s.sw.model.mapIdx fun i m => s.cellLimit m (soc.getD i 0) (s.freeN i)
    let l := s.sw.model.mapIdx fun i m => { m with reff := s.rEff m / 10000, ilim := limitShown (lims.getD i (1, 0)) }
    let (k, lim) := weakest lims 1
    (s1.onSw fun w => { w with model := l, mlim := limitShown lim, weak := k }).useFree 10

/-! ## Polarisation (R257) -/

/-- The open-circuit voltage at a SOC in 0.1 µV; outside 0 to 100 % it has no stated value, and `fr` stands for it (log entry 7). -/
def State.ocvU (s : State) (soc : Int) (fr : Nat) : Nat :=
  if soc < 0 ∨ 10000 < soc then fr else interp (s.chemTab s.grd.chem 1) soc.toNat

/-- The polarisations of cell `k` in pV: measured, V_k less its open-circuit voltage, and modelled, I times R_eff (R257). -/
def State.polarOf (s : State) (k : Nat) : Int × Int :=
  (100000000 * ((s.ms.cell.getD k 0 : Nat) : Int) - 100000 * ((s.ocvU (s.ms.soc.getD k 0) (s.freeN k) : Nat) : Int),
    s.ms.ibat * ((s.rEff (s.sw.model.getD k {}) : Nat) : Int))

/-- Whether measured and modelled polarisation differ by more than 30 % of the modelled. -/
def polarOff (p : Int × Int) : Bool := decide (3 * p.2.natAbs < 10 * (p.1 - p.2).natAbs)

/-- The part of a tick that compares the cells with their models (R257): the current is steady while it stays within ±5 % of what it was when
that began. A cell that agrees, or a current that is not steady, begins the 60 s afresh (log entry 54). -/
def State.polarTick (s : State) : State :=
  let i := s.ms.ibat
  let same := decide (200 ≤ i.natAbs) && decide (100 * (i - s.sw.steadyI).natAbs ≤ 5 * s.sw.steadyI.natAbs)
  let s1 := s.onSw fun w => { w with steadyI := if same then w.steadyI else i, steadyAt := if same then w.steadyAt else s.now }
  let steady := same && decide (s.sw.steadyAt + 1000000 * clampN 5 120 (s.regN 0x0184) ≤ s.now)
  (s1.onSw fun w => { w with offAt := (List.range 10).map fun k =>
    if steady && s.sw.seeded && decide (k < s.sw.model.length) && polarOff (s.polarOf k) then (w.offAt.getD k none).orElse fun _ => some s.now
    else none }).useFree 10

/-- An accepted fit takes the model's place at the tick (R252, R255, R257). -/
def State.modelTake (s : State) : State :=
  match s.sw.newFit with
  | none => s.modelTick
  | some l =>
    let mt := s.sw.newMeta
    let full := mt.kind == .full
    let used := mt.used
    let s1 := (s.onSw fun w => { w with
      model := l.map fun f => { fit := f, grade := gradeOf full used f, ts := mt.ts, gts := mt.gts }
      newFit := none, seeded := true, mismatch := false, modelOf := mt }).modelTick
    (s1.tierFix).raise Src.yarrow Ev.modelUpdate (BitVec.ofNat 8 s1.sw.weak :: le 2 s1.sw.mlim)

/-! ## Targets (R209, R210, R216, R222, R242) -/

/-- The terms of the target in mA, each with its TGTSRC code, in the order in which the first of equals names it (R209); precharge
stands first, which the rule does not place (DESIGN CHOICE, log entry 104). -/
def State.tgtTerms (s : State) : List (Nat × Nat) :=
  let ich := if s.chg.safeUse && s.safeSetNow.ichg < s.reg16 0x0161 then 4 else 0
  match s.chg.phase with
  | .precharge => [(10 * s.eIpre, 5), (s.iZone, 3)]
  | .shaped | .cv | .topoff =>
    [(10 * s.eIchg, ich), (s.iZone, 3)] ++ (if s.sys.tier = 2 then [(10 * s.sw.mlim, 1)] else [(10 * s.cRate s.eCons, 2)])
  | _ => [(0, 0)]

/-- The least term, the first of equals. -/
def leastTerm : List (Nat × Nat) → Nat × Nat
  | [] => (0, 0)
  | [a] => a
  | a :: r => let b := leastTerm r; if a.1 ≤ b.1 then a else b

/-- I_tgt and TGTSRC at a tick: rises of at most 0.50 A, none while a sweep runs, falls at once (R209, R216, R242). -/
def State.tgtTick (s : State) : State :=
  let (v, src) := leastTerm s.tgtTerms
  let g := if !s.canCharge || !s.chg.phase.charging then 0 else if 0 < v && v < 100 then 100 else v
  let t := if g ≤ s.chg.iTgt then g else if s.sw.run != .none then s.chg.iTgt else min g (s.chg.iTgt + 500)
  let s1 := s.onChg fun c => { c with iTgt := t, tgtSrc := if s.chg.phase.charging then src else 0 }
  s1.when (s.sw.run != .none && !s.sw.dirDis && decide (t < s.chg.iTgt)) State.sweepDisturb

/-- V_ref at a tick, moving by at most 20 mV; the first of a charge starts at its goal (R210, log entry 37). -/
def State.vrefTick (s : State) : State :=
  let vlim : Int := s.vLim
  let vmax : Int := quo (maxL s.cellsV) 10
  let goal := (min ((s.grd.cells : Int) * vlim) ((s.ms.vbat : Int) - (vmax - vlim))).toNat
  s.onChg fun c => { c with vRef :=
    if c.vRef = 0 then goal else if c.vRef ≤ goal then min goal (c.vRef + 20) else max goal (c.vRef - 20) }

/-- The battery switch as the charge needs it: LINEAR in precharge and while VBAT + 200 mV is below VSYS_MIN, else FULL; in DIODE
before the takeover, but for a supplement (R187, R188, R216). -/
def State.switchTick (s : State) : State :=
  if !s.chg.phase.charging || s.pp.soft != .no || s.pp.batSw == .off then s
  else if !s.canCharge then s.when (s.pp.batSw == .linear || s.pp.bat != .supplementing) State.switchIdle
  else if s.pp.linBefore then s
  else
    let lin := s.chg.phase == .precharge || s.ms.vbat + 200 < s.vsysMin
    match s.pp.batSw, lin with
    | .diode, true | .full, true => s.onPp fun x => { x with batSw := .linear }
    | .diode, false | .linear, false => (s.switchFull).onPp fun x => { x with linBefore := false }
    | _, _ => s

/-! ## The steps of a tick (R221) -/

/-- Step 1: CHGEN, profile, the battery and the host's stop. -/
def State.tick1 (s : State) : State :=
  let en := s.regBit 0x0160 0 && !s.follower
  let s0 := s.onChg fun c => { c with zones := c.zoneTabNext.getD c.zones, zoneTabNext := none }
  if !en then s0.when (s.chg.phase != .off) State.chgOff
  else
    let s1 := s0.when (s.chg.phase == .off) fun t => t.chargeStart false
    let s2 := s1.when (!s1.profSet) fun t => t.suspend Rsn.profile
    let s3 := s2.when (s.chg.batPrev && !s2.pp.batPres) fun t => t.suspendAnew Rsn.noBattery
    (s3.when s.chg.stopReq fun t => t.suspendAnew Rsn.host).onChg fun c => { c with stopReq := false, batPrev := s.pp.batPres }

/-- Step 2: HOLD and the switch's faults. -/
def State.tick2 (s : State) : State :=
  if s.flt.hold || s.flt.bsOpen || s.flt.fence.getLsbD 15 then s.suspend Rsn.fault else s.clearReason Rsn.fault

/-- Step 3: the end of the last sink path, and the start of the first (R214, R219). What HOLD ends is placed again when it ends, and the charge stays
SUSPENDED with FAULT for it (R327, R332). -/
def State.tick3 (s : State) : State :=
  let now := if s.flt.hold then s.chg.sinkPrev else s.anySink
  let s1 := s.when (s.chg.sinkPrev && !now) fun t => t.suspendAnew Rsn.noSource
  let s2 := s1.when (!s.chg.sinkPrev && now) fun t => t.autoStart false
  s2.onChg fun c => { c with sinkPrev := now }

/-- Step 4: the cell over-voltage fence. -/
def State.tick4 (s : State) : State := s.when (s.flt.fence.getLsbD 16) fun t => t.suspend Rsn.cellOv

/-- The zone of the readings `lo` to `hi` in 0.1 °C, tested in the order of R222; the zone `cur` in force is left only once the reading that set
it is 2.0 °C back beyond its threshold. -/
def zoneOf (z : ZoneTab) (cur : Option Zone) (lo hi : Int) : Zone :=
  if 5 * z.t4 ≤ hi ∨ (cur = some .hot ∧ 5 * z.t4 - 20 < hi) then .hot
  else if lo < 5 * z.t1 ∨ (cur = some .cold ∧ lo < 5 * z.t1 + 20) then .cold
  else if 5 * z.t3 ≤ hi ∨ (cur = some .warm ∧ 5 * z.t3 - 20 < hi) then .warm
  else if lo < 5 * z.t2 ∨ (cur = some .cool ∧ lo < 5 * z.t2 + 20) then .cool
  else .normal

/-- A zone takes effect, with its event and its suspensions (R219, R222). -/
def State.zoneTake (s : State) (z : Zone) : State :=
  let s1 := (s.onChg fun c => { c with zone := z, zoneUnknown := false }).raise Src.teasel Ev.zone
    ([BitVec.ofNat 8 s.zoneShown, BitVec.ofNat 8 (zoneCode z)] ++ s16 s.tMin ++ s16 s.tMax)
  let s2 := if z == .cold then s1.suspend Rsn.tempCold else s1.clearReason Rsn.tempCold
  if z == .hot then s2.suspend Rsn.tempHot else s2.clearReason Rsn.tempHot

/-- The zone found at a tick, and for how many ticks it has been found (R222). -/
def State.zoneFind (s : State) : State :=
  if s.ntcReads.isNone then s.onChg fun c => { c with zoneTicks := 0 }
  else
    let z := zoneOf s.chg.zones (if s.chg.zoneUnknown then none else some s.chg.zone) s.tMin s.tMax
    s.onChg fun c => { c with zoneNext := z, zoneTicks := if c.zoneNext = z then min 100 (c.zoneTicks + 1) else 1 }

/-- Step 5: thermistors and zone (R219, R222). Once every mapped thermistor has been valid for 1 s, the zone they show is known. -/
def State.tick5 (s : State) : State :=
  let n := if s.ntcReads.isSome then min 100 (s.chg.ntcOk + 1) else 0
  let s1 := (s.zoneFind).onChg fun c => { c with ntcOk := n }
  let s2 := s1.when (s.regF 0x016D 5 0 == 0) fun t => (t.onChg fun c => { c with zoneUnknown := true }).suspend Rsn.ntcFault
  let s3 := s2.when (n == 100) fun t => (t.when t.chg.zoneUnknown fun u => u.zoneTake u.chg.zoneNext).clearReason Rsn.ntcFault
  if s3.chg.zoneUnknown then s3
  else
    let s4 := if s3.chg.zone == .cold then s3.suspend Rsn.tempCold else s3.clearReason Rsn.tempCold
    if s4.chg.zone == .hot then s4.suspend Rsn.tempHot else s4.clearReason Rsn.tempHot

/-- Step 6: the phase triggers, one at a tick (R211); `was` says that the charge was DONE when the tick began. -/
def State.tick6 (was : Bool) (s : State) : State :=
  let won := s.fab.lead.isSome && (match s.fab.lead with
    | some p => (s.cc.comp.getD (portIdx p) {}).rep == 1
    | none => false)
  let n := if won then min 1000 (s.chg.vbatTicks + 1) else 0
  let pre := if 10 * (vPre s.grd.chem + 100) ≤ minL s.cellsV then min 100 (s.chg.preTicks + 1) else 0
  let s1 := s.onChg fun c => { c with vbatTicks := n, preTicks := if c.phase == .precharge then pre else 0 }
  match s.chg.phase with
  | .precharge => s1.when (pre == 100) fun t => t.onChg fun c => { c with phase := .shaped }
  | .shaped => s1.when (10 ≤ n) fun t => t.onChg fun c => { c with phase := .cv }
  | .cv => s1.when (n == 1000 && s.i10sLe s.eItop) fun t => t.onChg fun c => { c with phase := .topoff }
  | .topoff => s1.when (n == 1000 && s.i10sLe s.eIterm) fun t => t.chgDone 0
  | .done => s1.when (was && s.eMaint) fun t => t.onChg fun c => { c with phase := .maintain }
  | .maintain => s1.when (s.v10sLow && s.anySink) fun t => t.autoStart true
  | .suspended | .off => s1

/-- The limiters that held in the tick, lowest code first (R144, R208, R225). -/
def State.limiters (s : State) : List Nat :=
  let k := match s.fab.lead with
    | some p => s.cc.comp.getD (portIdx p) {}
    | none => {}
  (if k.rep = 1 then [1] else [])
    ++ (if (k.rep = 3 ∨ k.rep = 4) && !k.repGrant then [2] else [])
    ++ (if k.rep = 3 && k.repGrant then [3] else [])
    ++ (if k.rep = 5 then [4] else [])
    ++ (if s.suppIn 10000 then [5] else []) ++ (if s.pp.batSw == .linear && s.pp.soft == .no && s.pp.linRef < s.chg.iTgt then [6] else [])

/-- The safety timers' limits in 5 ms (R224). -/
def preLimit : Nat := 720000
def topLimit : Nat := 360000
def State.fastLimit (s : State) : Nat := 720000 * s.eTfc

/-- Step 7: the timers advance and their expiries are tested (R224 to R226). -/
def State.tick7 (s : State) : State :=
  if !s.chg.phase.charging || !s.canCharge then s.onChg fun c => { c with half := false, limiter := 0 }
  else
    let tg : Int := 1000 * s.chg.iTgt
    let (i, n) := s.curSum 160
    let low := decide (50 * i < n * (50 * tg - max tg 2500000))
    let l := if low then s.limiters else []
    let half := l != [] && l.head? != some 1
    let top := s.chg.phase == .topoff
    let s1 := s.onChg fun c => { c with
      half := half, limiter := l.head?.getD 0
      tPre := if c.phase == .precharge then c.tPre + 2 else c.tPre
      tFast := c.tFast + (if half then 1 else 2), tTop := if top then c.tTop + 2 else c.tTop }
    if s1.chg.phase == .precharge && preLimit ≤ s1.chg.tPre then s1.suspend Rsn.timerPrecharge
    else if top && topLimit ≤ s1.chg.tTop then s1.chgDone 1
    else if s1.fastLimit ≤ s1.chg.tFast then s1.suspend (if half then Rsn.timerUnderLimit else Rsn.timerExpired)
    else s1

/-! ## Sweeps by the schedule (R73, R247, R248) -/

/-- The schedule at a tick: a sweep that falls due while another runs is refused BUSY and tried again; the first tick in SHAPED after a charge
start passes without one while AUTOSWP is 0; a mismatch's sweep runs at the first permitted moment, and a retry that waits goes on waiting
(R247, R248). -/
def State.tickSweep (s : State) : State :=
  let s := s.when (s.sw.run != .none) fun t =>
    match [1, 2, 3, 4, 5, 6, 8, 11].find? t.sweepFault with
    | some c => t.sweepAbort c
    | none => t.when (!t.swpEn && !t.sw.stopping) State.sweepStop
  if s.sw.startDue && s.chg.phase == .shaped then
    let t := s.onSw fun w => { w with startDue := false }
    if !s.autoSwp then t else t.trigSweep .start
  else if !s.autoSwp || s.sw.run != .none || s.sw.stage == .fitting then s
  else if s.sw.quickDue && (s.sweepBar false).isNone then
    (s.onSw fun w => { w with quickDue := false }).sweepBegin .quick false [] none
  else if s.sw.fullDue && s.chg.phase == .shaped && !(s.sw.retry.any fun r => r.trig == .start) then
    (s.onSw fun w => { w with fullDue := false }).trigSweep .follow
  else s

/-! ## The end of a tick (R217, R235) -/

/-- The charge record kept in RET. -/
def State.tickKeep (s : State) : State :=
  let r : ChgRecord :=
    { phase := if s.chg.phase == .suspended then s.chg.heldPh else s.chg.phase, reasons := s.chg.reasons
      tPre := s.chg.tPre, tFast := s.chg.tFast, tTop := s.chg.tTop, suspGts := s.chg.suspGts, cellSum := s.cellsV.foldl (· + ·) 0, ccStart := s.chg.ccStart }
  s.onChg fun c => { c with record := some r }

/-- The charge's part of a tick: the steps of R221, the schedule of the sweeps, the targets and the record. Until the cells have been measured
after Tier 1 began, the charge waits (R217). -/
def State.tickCharge (s : State) : State :=
  if s.chg.tier1Due && !s.ms.fresh then s
  else
    let s0 := s.when s.chg.tier1Due fun t => t.chargeTier1
    let s1 := ((((s0.tick1).tick2).tick3).tick4).tick5
    let s2 := ((s1.tick6 (s.chg.phase == .done)).tick7).tickSweep
    (((s2.tgtTick).vrefTick).switchTick).tickKeep

/-- The end of a tick: the coulomb copy in RET, and the registers that the tick updates (R208, R235, R258), and the return to
DORMANT after the housekeeping of a timer wake (R87). -/
def State.tickEnd (m : TeaselIn) (s : State) : State :=
  let s1 := (s.onMs fun x => { x with ccCopy := x.cc }).onSw fun w => { w with statShown := s.swpStat, weakShown := s.weakByte }
  let s2 := s1.onChg fun c => { c with statReg := s.chgStat, rsnReg := s.chg.shown, limReg := s.chgLim }
  s2.when s2.sys.timerWake fun t =>
    (t.onSys fun y => { y with timerWake := false }).when (t.sys.dorm == .none && t.dormCond m.load none false) State.dormBegin

/-- TEASEL_TICK (R221). -/
def execTeaselTick (m : TeaselIn) (s : State) : Out :=
  if !s.sys.fwRun then .next s
  else
    let s0 := ((s.onSw fun w => { w with chem := s.chemAll, chemNext := [] }).onChg fun c => { c with safeUse := c.safe }).when (!s.balOk) State.bleedStop
    settle s ((((((s0.applyHeld).modelTake).polarTick).tickCharge).tickEnd m).taskRan .teasel)

/-! ## Timers as events (R214, R224) -/

/-- PRECHARGE_TIMER (R216, R224): the advance that brings the count to its limit (log entry 41). -/
def execPrechargeTimer (s : State) : Out :=
  settle s (s.when (s.sys.fwRun && s.canCharge && s.chg.phase == .precharge && decide (preLimit ≤ s.chg.tPre + 2)) fun t => (t.onChg fun c => { c with tPre := preLimit }).suspend Rsn.timerPrecharge)

/-- FAST_CHARGE_TIMER (R216, R224 to R226): the advance that brings the count to its limit. -/
def execFastChargeTimer (s : State) : Out :=
  settle s (s.when (s.sys.fwRun && s.canCharge && s.chg.phase.charging && decide (s.fastLimit ≤ s.chg.tFast + (if s.chg.half then 1 else 2))) fun t =>
    (t.onChg fun c => { c with tFast := t.fastLimit }).suspend (if s.chg.half then Rsn.timerUnderLimit else Rsn.timerExpired))

/-- TOPOFF_TIMER (R216, R224): the advance that brings the count to its limit. -/
def execTopoffTimer (s : State) : Out :=
  settle s (s.when (s.sys.fwRun && s.canCharge && s.chg.phase == .topoff && decide (topLimit ≤ s.chg.tTop + 2)) fun t => (t.onChg fun c => { c with tTop := topLimit }).chgDone 1)

/-- TIMER_SUSPENSION_RESTART (R214): `v10s` is VBAT averaged over 10 s, mV, as the sample sets have it (log entry 2). -/
def execTimerSuspensionRestart (v10s : Nat) (s : State) : Out :=
  let r := s.chg.shown.toNat
  settle s (s.when (s.sys.fwRun && s.chg.phase == .suspended && (r == Rsn.timerPrecharge || r == Rsn.timerExpired || r == Rsn.timerUnderLimit)
      && decide (s.chg.suspGts + 1800000000 ≤ s.now) && v10s == quo (s.volSum 160000).1 (s.volSum 160000).2 && s.v10sLow) fun t => t.autoStart true)

/-! ## Zone and thermistors (R219, R222) -/

/-- ZONE (R222): the zone `z` has been found for 1 s, at the readings `tmin` and `tmax`; a report of a zone or of readings that the ticks have
not found changes nothing (log entry 2). -/
def execZone (z : Zone) (tmin tmax : Int) (s : State) : Out :=
  let found := s.chg.zoneNext == z && s.chg.zoneTicks == 100 && tmin == s.tMin && tmax == s.tMax
  settle s (s.when (s.sys.fwRun && !s.chg.zoneUnknown && s.chg.zone != z && found) fun t =>
    (t.zoneTake z).when (z == .cold || z == .hot) fun u => u.sweepAbort 6)

/-- NTC_FAULT (R54, R219): a mapped thermistor open or short for 1 s. -/
def execNtcFault (n : Fin 6) (s : State) : Out :=
  let bad := s.ms.ntc.getD n.val .opened == .opened || s.ms.ntc.getD n.val .opened == .shorted
  settle s (s.when (s.sys.fwRun && (s.reg 0x016D).getLsbD n.val && bad) fun t =>
    ((t.onChg fun c => { c with zoneUnknown := true, ntcOk := 0 }).suspend Rsn.ntcFault).sweepAbort 6)

/-! ## CHEM_CFG (R204 to R206) -/

/-- An accepted or refused value of CHEM_CFG. -/
def State.chemWrite (s : State) (v : Byte) : State :=
  let chem := v.toNat % 4
  let cells := v.toNat / 4 % 16
  if chem = 0 ∨ cells < 2 ∨ 10 < cells then s.guardFail .host
  else if s.chg.phase.charging then (s.onGrd fun g => { g with chref := true }).guardFail .host
  else
    let d := vchgDefault chem
    let s1 := s.onGrd fun g => { g with chem := chem, cells := cells, chref := false }
    let s2 := ((s1.setReg 0x0163 (BitVec.ofNat 8 d)).setReg 0x0164 (BitVec.ofNat 8 (d / 256))).setReg 0x0157 (rcutDefault chem)
    let s3 := (s2.onChg fun c => { c with zones := zoneDefault chem, zoneTabNext := none }).modelDrop
    s3.when (s3.sys.fwRun && s3.regBit 0x0160 0) fun t => t.chargeStart false

/-- CHEM_CFG (R205). -/
def execChemCfg (c : BitVec 8) (single : Bool) (s : State) : Out := settle s (s.guardPair .host 0x44 c single fun v t => t.chemWrite v)

/-! ## Mailbox commands (R409) -/

/-- The data of CHG_QUERY. -/
def State.chgData (s : State) : List Byte :=
  [s.chg.statReg, s.chg.rsnReg, s.chg.limReg, BitVec.ofNat 8 (chgCode s.chg.heldPh)] ++ le 2 s.chg.reasons.toNat ++ le 2 (quo s.chg.iTgt 10)
    ++ le 2 s.chg.vRef ++ le 4 s.chg.tPre ++ le 4 s.chg.tFast ++ le 4 s.chg.tTop ++ le 2 s.eIchg ++ le 2 s.eVchg
    ++ [BitVec.ofNat 8 s.eTfc] ++ le 2 s.qChg

/-- CHG_QUERY. -/
def execChgQuery (n : Fin 4) (s : State) : Out := .next (s.query n.val 0x0201 State.chgData)

/-- CHG_START (R214, R215). -/
def execChgStart (n : Fin 4) (s : State) : Out :=
  settle s (s.carry n.val 0x0202 (· == 0) none true fun t =>
    if !t.regBit 0x0160 0 || t.follower then t.finish n.val St.notPermitted
    else (t.chargeStart true).finish n.val (if t.startBlock.isSome then St.notPermitted else St.ok))

/-- CHG_STOP. -/
def execChgStop (n : Fin 4) (s : State) : Out :=
  .next (s.carry n.val 0x0203 (· == 0) none true fun t =>
    ((t.onChg fun c => { c with stopReq := c.phase != .off }).finish n.val St.ok))

/-- Whether a zone table is within the ranges and the order of R223. -/
def zoneOk (z : ZoneTab) : Bool :=
  -80 ≤ z.t1 && z.t1 ≤ 120 && z.t1 ≤ z.t2 && z.t2 ≤ z.t3 && z.t3 ≤ z.t4 && z.t4 ≤ 160 && z.coolI ≤ 100 && z.coolDv ≤ 60
    && z.warmI ≤ 100 && z.warmDv ≤ 60 && 3380 ≤ z.bval && z.bval ≤ 3950

/-- The zone table of a ZONE_SET payload. -/
def State.zoneFld (s : State) (n : Nat) : ZoneTab :=
  { t1 := s.fldI n 0 2, t2 := s.fldI n 2 2, t3 := s.fldI n 4 2, t4 := s.fldI n 6 2, coolI := s.fld n 8 1, coolDv := s.fld n 9 1
    warmI := s.fld n 10 1, warmDv := s.fld n 11 1, bval := s.fld n 12 2 }

/-- ZONE_SET (R223). -/
def execZoneSet (n : Fin 4) (s : State) : Out :=
  .next (s.carry n.val 0x0204 (· == 14) none (zoneOk (s.zoneFld n.val)) fun t =>
    (t.onChg fun c => { c with zoneTabNext := some (t.zoneFld n.val) }).finish n.val St.ok)

/-- The bytes of a zone table. -/
def zoneBytes (z : ZoneTab) : List Byte :=
  leI 2 z.t1 ++ leI 2 z.t2 ++ leI 2 z.t3 ++ leI 2 z.t4
    ++ [BitVec.ofNat 8 z.coolI, BitVec.ofNat 8 z.coolDv, BitVec.ofNat 8 z.warmI, BitVec.ofNat 8 z.warmDv] ++ le 2 z.bval

/-- ZONE_GET. -/
def execZoneGet (n : Fin 4) (s : State) : Out := .next (s.query n.val 0x0205 fun t => zoneBytes t.chg.zones)

/-- The safe set of a SAFE_SET payload. -/
def State.safeFld (s : State) (n : Nat) : SafeSet :=
  { ichg := s.fld n 0 2, vchg := s.fld n 2 2, ipre := s.fld n 4 1, cons := s.fld n 5 1, tfc := s.fld n 6 1, iterm := s.fld n 7 1
    itop := s.fld n 8 1, rechg := s.fld n 9 1, maint := s.fld n 10 1 == 1 }

/-- Whether a safe set is within the ranges of R207. -/
def State.safeOk (s : State) (n : Nat) : Bool :=
  let z := s.safeFld n
  let v := vchgRange s.grd.chem
  10 ≤ z.ichg && z.ichg ≤ 2000 && v.1 ≤ z.vchg && z.vchg ≤ v.2 && 10 ≤ z.ipre && z.ipre ≤ 100 && 5 ≤ z.cons && z.cons ≤ 100
    && 1 ≤ z.tfc && z.tfc ≤ 20 && 5 ≤ z.iterm && z.iterm ≤ 200 && 5 ≤ z.itop && 5 ≤ z.rechg && z.rechg ≤ 40 && s.fld n 10 1 ≤ 1

/-- SAFE_SET (R227). -/
def execSafeSetCmd (n : Fin 4) (s : State) : Out :=
  .next (s.carry n.val 0x0206 (· == 11) none (s.safeOk n.val) fun t =>
    (t.onChg fun c => { c with safeSet := some (t.safeFld n.val) }).finish n.val St.ok)

/-- The bytes of a safe set. -/
def safeBytes (z : SafeSet) : List Byte :=
  le 2 z.ichg ++ le 2 z.vchg ++ [BitVec.ofNat 8 z.ipre, BitVec.ofNat 8 z.cons, BitVec.ofNat 8 z.tfc, BitVec.ofNat 8 z.iterm,
    BitVec.ofNat 8 z.itop, BitVec.ofNat 8 z.rechg, BitVec.ofNat 8 (b2n z.maint)]

/-- SAFE_GET (R227). -/
def execSafeGet (n : Fin 4) (s : State) : Out :=
  .next (s.query n.val 0x0207 fun t => safeBytes t.safeSetNow ++ [BitVec.ofNat 8 (b2n t.chg.safeSet.isNone)])

end Sys2Proof.Machine
end

