-- ==== Sys2Proof/Machine/Measure.lean ====
section
/-! DEFINITION. Measurement, the coulomb count, balancing, sweeps and the measurement commands (chapter 08; R381, R411). -/
namespace Sys2Proof.Machine

/-! ## Sampling (R231 to R235, R381) -/

/-- The coulomb count after one sample set of `ua` µA, a sixteen-thousandth of a second long: whole µC are counted and the
rest is carried; at its limits the count stops (R235). -/
def State.ccAdd (s : State) (ua : Int) : State :=
  let v := s.ms.ccFrac + ua
  let q := s.ms.cc + v / 16000
  let lim := ccLimit q
  if s.ms.ccSat then s
  else if q = lim then s.onMs fun x => { x with cc := q, ccFrac := v % 16000 }
  else (s.onMs fun x => { x with cc := lim, ccFrac := 0, ccSat := true }).raise Src.yarrow Ev.ccSat

/-- MEAS puts a sample set on the telemetry ring, with its stamp: the newest is dropped when the ring is full. While task Yarrow runs it takes
what the ring holds (R24, R30). -/
def State.sampleTake (s : State) (x : SampleSet) : State :=
  if s.qs.telemetry.length < 64 then
    (s.onQs fun q => { q with telemetry := q.telemetry ++ [⟨s.stamp, x⟩] }).yarrow
  else s.drop 3

/-- SAMPLE_SET (R54, R201, R231, R235): the battery current of the last 100 µs is this set's 62.5 µs and 37.5 µs of the one before (log entry 99). -/
def execSampleSet (x : SampleSet) (s : State) : Out :=
  if !s.measOn then .next s
  else
    let s1 := (s.ccAdd x.ibatUa).onMs fun m => { m with
      hist := (x :: m.hist).take 160000, setAt := (s.now :: m.setAt).take 2, ntc := x.ntc.map s.ntcOf, ibatLast := x.ibatUa, ibatFast := quoQ (5 * x.ibatUa + 3 * m.ibatLast) 8000 }
    settle s (s1.sampleTake x)

/-- REPORTED_CELL_VOLTAGE (R233): the averages of the sets since the last; which way an average that does not divide is held to an integer
the operands say, value by value (log entry 34). A cell balanced in the frame keeps the reading of the last
off-time (R238). While the switch conducts, the cell sum is VBAT for the VSYS target (R180). -/
def execReportedCellVoltage (cells : List Bool) (vbat ibat : Bool) (s : State) : Out :=
  let n := s.ms.accN
  settle s (s.when (s.sys.fwRun && s.measOn && n != 0) fun t =>
    let t1 := t.onMs fun x => { x with
      cell := (List.range 10).map fun k => if x.balNow.contains k then x.balRead.getD k 0 else codeMean (cells.getD k false) (x.accCell.getD k 0) n
      vbat := (meanOf vbat x.accV (1000 * n)).toNat, ibat := meanOf ibat x.accI (1000 * n)
      accN := 0, accV := 0, accI := 0, accCell := List.replicate 10 0, fresh := true }
    t1.when (t1.switchOn && t1.grd.cells != 0) fun u => u.onPp fun p => { p with vbatOpen := quo (u.cellsV.foldl (· + ·) 0) 10 })

/-- AUTO_ZERO (R234): it interrupts no sample set. -/
def execAutoZero (s : State) : Out := .next (s.when s.measOn fun t => t.onMs fun x => { x with azCount := x.azCount + 1 })

/-- The mean of some readings in µV or µA in units of `u` of them, rounded towards zero; of no reading there is no mean, and the free value `fr`
stands for it (R495; log entry 7). -/
def meanTo0 (u : Nat) (fr : Int) (l : List Int) : Int := if l = [] then fr else Int.tdiv (l.foldl (· + ·) 0) (u * l.length : Nat)

/-- A current of the mirrors: 10 mA towards zero, saturating at ±32767 (R495). -/
def mirI (fr : Int) (l : List Int) : BitVec 16 := BitVec.ofInt 16 (clampI (-32767) 32767 (meanTo0 10000 fr l))

/-- A voltage of the mirrors. -/
def mirU (fr : Int) (l : List Int) : BitVec 16 := BitVec.ofNat 16 (min (meanTo0 1000 fr l).toNat 0xFFFF)

/-- The sample sets taken in the last 100 µs (R495). -/
def State.mirSets (s : State) : List SampleSet := ((s.ms.hist.zip s.ms.setAt).filter fun x => decide (s.now < x.2 + 100)).map (·.1)

/-- The mirror set that an update at this moment writes (R381, R495). -/
def State.mirNow (s : State) (m : MirIn) : MirSet :=
  { vsys := mirU (s.freeI 0) m.vsys, vbat := mirU (s.freeI 1) (s.mirSets.map fun x => (x.vpack : Int))
    ibat := mirI (s.freeI 2) (s.mirSets.map (·.ibatUa)), ipa := mirI (s.freeI 3) m.ipa, ipb := mirI (s.freeI 4) m.ipb, ipc := mirI (s.freeI 5) m.ipc
    ts := BitVec.ofNat 16 s.clk.gts.toNat }

/-- MIRROR_UPDATE (R381, R495). -/
def execMirrorUpdate (m : MirIn) (s : State) : Out :=
  .next (s.when (s.measOn && s.ms.mirEn) fun t => (t.onMs fun x => { x with mir := t.mirNow m, mirAt := some t.now }).useFree 6)

/-! ## Balancing (R237 to R239) -/

/-- BAL_START in force, mV. -/
def State.balStart (s : State) : Nat := clampN 5 100 (s.regN 0x0185)

/-- BAL_STOP as applied, mV (R259). -/
def State.balStop (s : State) : Nat :=
  s.regN 0x0186

/-- The candidates for balancing, from the readings of the last off-time in 0.1 mV (R238). -/
def State.balCands (s : State) : List Nat :=
  let v := s.ms.balRead
  let lo := minL (v.take s.grd.cells)
  (List.range s.grd.cells).filter fun k =>
    let d := v.getD k 0 - lo
    (decide (10 * s.vLim ≤ v.getD k 0 + 2000) && decide (10 * s.balStart ≤ d))
      || (s.ms.balNow.contains k && decide (10 * s.balStop < d))

/-- The cell with the highest reading of a list, the first of equals. -/
def State.highest (s : State) : List Nat → Option Nat
  | [] => none
  | k :: r =>
    match s.highest r with
    | some j => if s.ms.balRead.getD j 0 ≤ s.ms.balRead.getD k 0 then some k else some j
    | none => some k

/-- The cells chosen: the highest candidate and the next highest not adjacent to it (R238). -/
def State.balChoice (s : State) : List Nat :=
  let c := s.balCands
  match s.highest c with
  | none => []
  | some a =>
    match s.highest (c.filter fun k => k != a && k != a + 1 && k + 1 != a) with
    | some b => [a, b]
    | none => [a]

/-- The readings of the off-time that ends with the frame (R238): a balanced cell's is the mean of the samples of its last 20 ms, which stands
for the whole frame; the others are read continuously (R233). -/
def State.offRead (s : State) : List Nat :=
  let l := s.lastSets 320
  (List.range 10).map fun k =>
    if s.ms.balNow.contains k && s.ms.hist != [] then
      codeMean (s.ms.balUp.getD k false) (l.foldl (fun a x => a + ((x.cell.getD k 0).toNat : Int)) 0) l.length
    else s.ms.cell.getD k 0

/-- BALANCING_FRAME (R238, R239). -/
def execBalancingFrame (s0 : State) : Out :=
  if !s0.sys.fwRun then .next s0
  else
    let s := s0.onMs fun x => { x with balRead := s0.offRead, cell := s0.offRead }
    let l := if s.balOk then s.balChoice else []
    let s1 := (s.bleedStop).onMs fun x => { x with balPrev := x.balNow, balNow := l, bleed := l != [], balAt := s.now }
    let m := le 2 s1.balMask
    if s.ms.balNow = [] ∧ l ≠ [] then .next (s1.raise Src.yarrow Ev.balOn m)
    else if s.ms.balNow ≠ [] ∧ l = [] then .next (s1.raise Src.yarrow Ev.balOff m)
    else .next s1

/-- BALANCE_OFF_TIME (R238, R239): the bleed has been on for 960 ms; `ups` says which way each reading of the off-time is held to 0.1 mV (log
entry 34). -/
def execBalanceOffTime (ups : List Bool) (s : State) : Out :=
  if !s.sys.fwRun then .next s
  else
    let s1 := s.when s.ms.bleed fun t => (t.onMs fun x => { x with bleed := false }).balCount 960 s.ms.balNow
    .next (s1.onMs fun x => { x with balUp := ups })

/-! ## Sweeps (R243 to R252) -/

/-- QUICK_SWEEP_INTERVAL (R247): 10 min after the end of the last sweep of any kind; one that falls within another sweep is skipped. -/
def execQuickSweepInterval (s : State) : Out :=
  .next (s.when (s.sys.fwRun && s.trigHolds .interval) fun t => t.trigSweep .interval)

/-- SWEEP_REFUSAL_RETRY (R247): 10 s after a refusal the sweep is tried again if its trigger still applies, and else no more. -/
def execSweepRefusalRetry (s : State) : Out :=
  if !s.sys.fwRun then .next s
  else
    match s.sw.retry.find? fun r => decide (r.since + 10000000 ≤ s.now) with
    | none => .next s
    | some r =>
      let t := s.onSw fun w => { w with retry := w.retry.filter fun x => x.trig != r.trig }
      .next (t.when (t.trigHolds r.trig) fun u => u.trigSweep r.trig)

/-- A point's sine begins: its window's counts start afresh (R245, R246). -/
def State.pointBegin (s : State) : State := s.onSw fun w => { w with disturbed := false, clipN := 0, perN := 0, pointAt := s.now, win := [] }

/-- The sum of a list. -/
def sumI (l : List Int) : Int := l.foldl (· + ·) 0

/-- SWEEP_BASELINE_END (R244): the DC battery current, held to 1 mA as `up` says (log entry 34), and the offset of each channel are the means of
the sets of the baseline; where none was taken they are free values (log entry 7). -/
def execSweepBaselineEnd (up : Bool) (s : State) : Out :=
  .next (s.when (s.sys.fwRun && s.sw.run != .none && s.sw.stage == .baseline) fun t =>
    let l := t.sw.win
    let mean := fun (x : Int) (k : Nat) => if l = [] then t.freeI k else quoQ x l.length
    let offs := ((List.range 10).map fun k => mean (sumI (l.map fun x => ((x.cell.getD k 0).toNat : Int))) k) ++ [mean (sumI (l.map (·.ibatUa))) 10]
    let idc := if l = [] then t.freeI 11 else meanOf up (sumI (l.map (·.ibatUa))) (1000 * l.length)
    ((t.onSw fun w => { w with stage := .points, idc := idc, idx := 0, offs := offs }).useFree 12).pointBegin)

/-! ## Demodulation (R243, R246) -/

/-- N (N² − 1) / 3, the sum of the squares of 2n + 1 − N over the N sets of a window. -/
def trendDen (n : Nat) : Nat := n * (n * n - 1) / 3

/-- A channel less the straight line of least squares through it, times N × `trendDen N` (R243). -/
def detrend (l : List Int) : List Int :=
  let n := l.length
  let d : Int := trendDen n
  let y := fun (k : Nat) => 2 * (k : Int) + 1 - n
  let sx := sumI l
  let sxy := sumI (l.mapIdx fun k x => y k * x)
  l.mapIdx fun k x => n * d * x - d * sx - n * sxy * y k

/-- The single bin at `f` mHz of a channel sampled every 62.5 µs, real and imaginary part times 10^9 (R243). -/
def bin (f : Nat) (l : List Int) : Int × Int :=
  (sumI (l.mapIdx fun k x => x * sineTurn (4 * f * k + 16000000) 64000000), -sumI (l.mapIdx fun k x => x * sineTurn (f * k) 16000000))

/-- The squared magnitude of a bin. -/
def normSq (z : Int × Int) : Nat := (z.1 * z.1 + z.2 * z.2).toNat

/-- The amplitude in mA of the bin `z` of a current in µA over `n` sets (R260). -/
def binAmp (n : Nat) (z : Int × Int) : Nat := rootQ 24 (4 * normSq z) ((n * n * trendDen n * 1000000000000) ^ 2)

/-- V / I in 10 µΩ from the bins of a voltage in codes of 5.0 V / 2^18 and a current in µA, held to the unit as `up` says and to ±32767 (R243, R260); without a
current it has no value, and the free values `fr` stand for it (log entry 7). -/
def binZ (v i : Int × Int) (fr : Int × Int) (up : Bool × Bool) : Int × Int :=
  let d : Int := normSq i
  let q := fun (x f : Int) (u : Bool) => clampI (-32767) 32767 (if d = 0 then f else meanOf u (500000000000 * x) (262144 * d))
  (q (v.1 * i.1 + v.2 * i.2) fr.1 up.1, q (v.2 * i.1 - v.1 * i.2) fr.2 up.2)

/-- The voltages of cell `k` in a window less the channel's offset, in codes. -/
def State.cellWin (s : State) (win : List SampleSet) (k : Nat) : List Int := win.map fun x => ((x.cell.getD k 0).toNat : Int) - s.sw.offs.getD k 0

/-- The battery current in a window less the channel's offset, µA. -/
def State.curWin (s : State) (win : List SampleSet) : List Int := win.map fun x => x.ibatUa - s.sw.offs.getD 10 0

/-- Whether the second harmonic of a cell's voltage exceeds 10 % of its fundamental (R246). -/
def nonlin (f : Nat) (l : List Int) : Bool :=
  let d := detrend l
  decide (normSq (bin f d) < 100 * normSq (bin (2 * f) d))

/-- The lowest mapped pack thermistor over a window, 0.1 °C; T_min where none was valid (R260; log entry 28). -/
def State.winTmin (s : State) (win : List SampleSet) : Int := (s.lowNtc win).getD s.tMin

/-- The flags of a point of amplitude `amp` mA on `idc` mA (R246): the sine was clipped in more than 1 % of the window's switching periods. -/
def State.pointFlags (s : State) (amp : Nat) (idc : Int) (nl : Bool) : Byte :=
  byteOf [decide (100 * amp < 2 * idc.natAbs) || decide (amp < 20), decide (s.sw.perN < 100 * s.sw.clipN), nl, s.sw.disturbed, s.sw.repeating]

/-- The record of the point in progress from the sample sets of its window; its DC current, and that of LOWSIG, is the one the sweep measured in its
baseline (R243, R244, R246, R260; DEDUCED, log entry 118). -/
def State.pointRec (s : State) (win : List SampleSet) (ups : List Bool) : PointRec :=
  let f := s.pointFreq
  let n := win.length
  let i := bin f (detrend (s.curWin win))
  let amp := binAmp n i
  let ks := List.range s.grd.cells
  { freq := f, amp := amp, idc := quoQ s.sw.idc 10
    flags := s.pointFlags amp s.sw.idc (ks.any fun k => nonlin f (s.cellWin win k))
    index := s.sw.idx, tmin := s.winTmin win
    z := ks.map fun k => binZ (bin f (detrend (s.cellWin win k))) i (s.freeI (2 * k), s.freeI (2 * k + 1)) (ups.getD (2 * k) false, ups.getD (2 * k + 1) false) }

/-- SWEEP_POINT (R243, R245 to R247, R249): the window of the point is whole; a point flagged DISTURBED is repeated once, and its repeat
takes its place. `ups` says which way each part of an impedance is held to 10 µΩ (log entry 34). -/
def execSweepPoint (ups : List Bool) (s : State) : Out :=
  if !s.sys.fwRun || s.sw.run == .none || s.sw.stage != .points || decide (s.sw.win.length < winSets s.pointFreq) then .next s
  else
    let p := s.pointRec s.sw.win.reverse ups
    let s1 := (s.onSw fun w => { w with pts := (if w.repeating then w.pts.dropLast else w.pts) ++ [p] }).useFree 20
    if s.sw.stopping then .next (s1.sweepAbort 9)
    else if s.sw.disturbed && !s.sw.repeating then .next (s1.onSw fun w => { w with repeating := true }).pointBegin
    else
      .next (s1.onSw fun w => { w with
        repeating := false, idx := w.idx + 1
        stage := if w.idx + 1 < w.freqs.length then .points else .fitting }).pointBegin

/-- τ_b of cell `k` that a quick sweep takes over: of the model in force, else the chemistry's prior (R251). -/
def State.taubBase (s : State) (k : Nat) : Nat :=
  match s.sw.model[k]? with
  | some m => m.fit.taub
  | none => (s.chemTab s.grd.chem 2).getD 1 0

/-- The points a fit of cell `k` takes (R251). -/
def fitPoints (pts : List PointRec) (k : Nat) : List Config.FitPoint :=
  (pts.filter fun p => p.flags.toNat % 8 == 0).map fun p => (p.freq, p.z.getD k (0, 0))

/-! ## The model function and the fit (R251), impedances in units of 10^-11 Ω

The six quantities of a fit stand in a list in the order and the units of R261: R_ser, R_a, τ_a, R_b, τ_b, σ. -/

/-- 2π in units of 10^-15. -/
def twoPi : Nat := 6283185307179586

/-- r / (1 + jωτ) for ωτ = w in units of 10^-12. -/
def rcZ (r w : Int) : Int × Int :=
  let d := 10 ^ 24 + w * w
  (r * 10 ^ 24 / d, -(r * 10 ^ 12 * w / d))

/-- The part of Z(ω) that R_b, τ_b and σ give at `f` mHz. -/
def slowZ (f : Nat) (c : List Int) : Int × Int :=
  let b := rcZ (1000000 * c.getD 3 0) ((twoPi * f : Nat) * c.getD 4 0 / 10 ^ 8)
  let w := 100000000000 * c.getD 5 0 / max 1 (isqrt 40 (twoPi * f / 1000000) 0 : Nat)
  (b.1 + w, b.2 - w)

/-- The part that R_ser, R_a and τ_a give. -/
def fastZ (f : Nat) (c : List Int) : Int × Int :=
  let a := rcZ (1000000 * c.getD 1 0) ((twoPi * f : Nat) * c.getD 2 0 / 10 ^ 11)
  (1000000 * c.getD 0 0 + a.1, a.2)

/-- The measured impedance of a point. -/
def pointZ (p : Config.FitPoint) : Int × Int := (1000000 * p.2.1, 1000000 * p.2.2)

/-- What the fit makes least: the sum over the points of |Z − Z(ω)|² / |Z|², in units of 10^-18. -/
def fitCost (l : List Config.FitPoint) (c : List Int) : Nat :=
  (l.map fun p =>
    let a := fastZ p.1 c
    let b := slowZ p.1 c
    normSq ((pointZ p).1 - a.1 - b.1, (pointZ p).2 - a.2 - b.2) * 10 ^ 18 / normSq (pointZ p)).foldl (· + ·) 0

/-- ε, the RMS relative residual in 0.1 %, held to an integer (log entry 34). A point without impedance has no relative residual, and the free
value `fr` stands for ε (log entry 7). -/
def residOf (fr : Nat) (l : List Config.FitPoint) (c : List Int) : Nat :=
  if l = [] || l.any fun p => normSq (pointZ p) == 0 then fr else rootQ 24 (fitCost l c) (l.length * 10 ^ 12)

/-- The factor for R_b and σ together that fits the points at 1 Hz and 5 Hz best, each weighted by 1 / |Z|: the quotient of the two sums of least
squares. Without such a point, or where they do not determine it, it is `Config.fitScale` (log entry 50). -/
def slowScale (l : List Config.FitPoint) (c : List Int) : Int × Int :=
  let u := l.filter fun p => (p.1 == 1000 || p.1 == 5000) && normSq (pointZ p) != 0
  let part := fun (g : Int × Int → Int × Int → Int) => u.foldl (fun (a : Int) p =>
    let z := fastZ p.1 c
    let y := slowZ p.1 c
    a + g ((pointZ p).1 - z.1, (pointZ p).2 - z.2) y * 10 ^ 18 / (normSq (pointZ p) : Nat)) 0
  let den := part fun _ y => y.1 * y.1 + y.2 * y.2
  if den = 0 then Config.fitScale l c else (part fun d y => d.1 * y.1 + d.2 * y.2, den)

/-- A quick sweep's six quantities from the three it fits: τ_b, and R_b and σ but for one factor, are those of the model in force of cell `k`, or
without one of the chemistry's priors (R251). -/
def State.fitSlow (s : State) (k : Nat) (l : List Config.FitPoint) (c : List Int) : List Int :=
  let (rb, sigma) := match s.sw.model[k]? with
    | some m => ((m.fit.rb : Int), (m.fit.sigma : Int))
    | none =>
      let pr := s.chemTab s.grd.chem 2
      (quoQ ((pr.getD 0 0 : Nat) * c.getD 0 0) 1000, quoQ ((pr.getD 2 0 : Nat) * c.getD 0 0) 100)
  let c0 := c.take 3 ++ [rb, (s.taubBase k : Int), sigma]
  let (num, den) := slowScale l c0
  c.take 3 ++ [quoQ (rb * num) den, (s.taubBase k : Int), quoQ (sigma * num) den]

/-- The fit's moves: one quantity of `ks` changed by a power of two of its unit. -/
def fitMoves (ks : List Nat) (c : List Int) : List (List Int) :=
  ks.flatMap fun i => (List.range 16).flatMap fun j => [c.set i (c.getD i 0 + 2 ^ (15 - j)), c.set i (c.getD i 0 - 2 ^ (15 - j))]

/-- The descent of the fit: moves are made while one lowers the cost, so that at its end none does (log entry 50). -/
def fitSearch (cost : List Int → Nat) (ks : List Nat) : Nat → List Int → List Int
  | 0, c => c
  | n + 1, c =>
    match (fitMoves ks c).find? fun x => decide (cost x < cost c) with
    | some x => fitSearch cost ks n x
    | none => c

/-- The fit of cell `k` to the points `pts`, and whether none of its quantities is negative (R251): of all quantities, or for a quick sweep of R_ser, R_a
and τ_a. It starts from `f0` (log entry 50). -/
def State.fitCell (s : State) (quick : Bool) (f0 : CellFit) (pts : List PointRec) (k : Nat) : CellFit × Bool :=
  let l := fitPoints pts k
  let whole := fun (c : List Int) => if quick then s.fitSlow k l c else c
  let start : List Int := [f0.rser, f0.ra, f0.taua, f0.rb, f0.taub, f0.sigma]
  let c := whole (fitSearch (fun x => fitCost l (whole x)) (List.range (if quick then 3 else 6)) 65536 start)
  let n := fun i => (c.getD i 0).toNat
  ({ rser := n 0, ra := n 1, taua := n 2, rb := n 3, taub := n 4, sigma := n 5, resid := residOf (s.freeN k) l c }, c.all fun x => decide (0 ≤ x))

/-- The worse of two grades. -/
def worse (a b : Grade) : Grade := if gradeCode a ≤ gradeCode b then b else a

/-- T_s: the mean of T_min over the sets of the sweep in 0.1 °C, held to an integer (R252; log entry 34); T_min where no thermistor was valid. -/
def State.sweepTs (s : State) : Int := if s.sw.tN = 0 then s.tMin else quoQ s.sw.tSum s.sw.tN

/-- SWEEP_FIT (R251, R252, R249): a complete sweep ends accepted, or is aborted with FIT_FAIL when any configured cell fails; a
partial full sweep is fitted as a quick sweep. `fits` is where the fit of each cell starts (log entry 50). -/
def execSweepFit (fits : List CellFit) (s : State) : Out :=
  if !s.sys.fwRun || s.sw.stage != .fitting then .next s
  else
    let part := s.sw.run == .none
    let pts := if part then s.sw.lastPts else s.sw.pts
    let kind : SweepKind := if part then .quick else s.sw.run
    let shown := if part then s.sw.lastKind else s.sw.run
    let used := usable pts
    let fs := (List.range s.grd.cells).map fun k => s.fitCell (kind == .quick) (fits.getD k {}) pts k
    let cf := fs.map (·.1)
    let worst := (fs.map fun f => if f.2 then gradeOf (kind == .full) used f.1 else .fail).foldl worse .high
    let bad := worst == .fail || cf == []
    let g := BitVec.ofNat 8 (gradeCode worst)
    let s1 := if part then s.onSw fun w => { w with stage := .idle } else s.sweepClose false (!bad)
    let s2 := (s1.onSw fun w => { w with lastUsed := used }).useFree 10
    if bad then
      if part then .next (s2.sweepAnswer shown s.sw.endRsn true used g)
      else
        .next (((s2.onSw fun w => { w with lastRsn := 10 }).raise Src.yarrow Ev.sweepAborted
          [BitVec.ofNat 8 (sweepCode shown), 10, BitVec.ofNat 8 pts.length]).sweepAnswer shown 10 false used g)
    else
      let s3 := s2.onSw fun w => { w with
        newFit := some cf
        newMeta := { kind := kind, gts := if part then stampAt w.lastStamp else s.now, ts := s.sweepTs
                     stamp := w.lastStamp, shown := shown, part := part, used := used } }
      .next ((s3.raise Src.yarrow Ev.sweepDone [BitVec.ofNat 8 (sweepCode shown), BitVec.ofNat 8 (b2n part), BitVec.ofNat 8 used, g]).sweepAnswer
        shown (if part then s.sw.endRsn else 0) part used g)

/-- SWEEP_ABORTED (R248, R249): an abort condition that holds, with its code; BUSY aborts nothing, and a failed fit ends a sweep in
SWEEP_FIT. -/
def execSweepAborted (code : Fin 16) (s : State) : Out :=
  .next (s.when (s.sys.fwRun && s.sw.run != .none && s.sweepFault code.val) fun t => t.sweepAbort code.val)

/-! ## State of charge and grades (R252, R255, R257) -/

/-- REST_CORRECTION (R252). -/
def execRestCorrection (s : State) : Out :=
  .next (s.when (s.sys.fwRun && s.pp.batPres && s.profSet) fun t =>
    (t.socSeed).onMs fun x => { x with est := false, rested := true })

/-- A grade one step lower (R255). -/
def Grade.down : Grade → Grade
  | .high => .medium | .medium => .low | .low | .expired => .expired | .fail => .fail

/-- The model of cell `k` with another grade. -/
def State.setGrade (s : State) (k : Nat) (f : Grade → Grade) : State :=
  s.onSw fun w => { w with model := w.model.mapIdx fun i m => if i = k then { m with grade := f m.grade } else m }

/-- GRADE_DECAY (R255): 30 min of charge since the last accepted fit of cell `k`, or since its last decay. -/
def execGradeDecay (k : Fin 10) (s : State) : Out :=
  .next (s.when (s.sys.fwRun && s.sw.seeded && s.chg.phase.charging) fun t => t.setGrade k.val Grade.down)

/-- A polarisation in pV as MODEL_MISMATCH shows it: its magnitude in 0.1 mV (R262; log entry 54). -/
def polarBytes (up : Bool) (v : Int) : List Byte := le 2 (min 0xFFFF (meanOf up v.natAbs 100000000).toNat)

/-- MODEL_MISMATCH (R257): cell `k` has differed from its model for 60 s. The operands say which way the two polarisations shown are held to
0.1 mV (log entry 34). -/
def execModelMismatch (k : Fin 10) (meas model : Bool) (s : State) : Out :=
  let p := s.polarOf k.val
  .next (s.when (s.sys.fwRun && s.sw.seeded && (s.sw.offAt.getD k.val none).any fun t => decide (t + 60000000 ≤ s.now)) fun t =>
    (((t.setGrade k.val fun _ => .low).onSw fun w => { w with
      mismatch := true, quickDue := t.autoSwp, offAt := w.offAt.set k.val none }).raise Src.yarrow Ev.modelMismatch
      (BitVec.ofNat 8 (k.val + 1) :: (polarBytes meas p.1 ++ polarBytes model p.2))).useFree 10)

/-! ## Mailbox commands (R411) -/

/-- A thermistor in MEAS_QUERY. -/
def ntcBytes : NtcRead → List Byte
  | .valid t => leI 2 t
  | .opened | .shorted => [0x00, 0x80]

/-- The data of MEAS_QUERY. -/
def State.measData (s : State) : List Byte :=
  BitVec.ofNat 8 s.grd.cells
    :: (((List.range 10).flatMap fun k => le 2 (if k < s.grd.cells then min 0xFFFF (s.ms.cell.getD k 0) else 0))
      ++ le 2 s.ms.vbat ++ leI 4 s.ms.ibat ++ ((List.range 6).flatMap fun i => ntcBytes (s.ms.ntc.getD i .opened)) ++ leI 2 s.caseT
      ++ [byteOf [s.ms.est]])

/-- MEAS_QUERY. -/
def execMeasQuery (n : Fin 4) (s : State) : Out := .next (s.query n.val 0x0401 State.measData)

/-- CC_GET. -/
def execCcGet (n : Fin 4) (s : State) : Out :=
  .next (s.query n.val 0x0402 fun t =>
    leI 8 t.ms.cc ++ [byteOf [t.ms.ccSat, t.ms.est]] ++ ((List.range 10).flatMap fun k => le 2 (t.ms.balQ.getD k 0)))

/-- The count set to `v`: the charge delivered so far and the SOC keep their differences (R213, R252). -/
def State.ccPreset (s : State) (v : Int) : State :=
  let d := v - s.ms.cc
  (s.onMs fun x => { x with cc := v, ccFrac := 0, ccSat := false, socCc := x.socCc + d }).onChg fun c => { c with ccStart := c.ccStart + d }

/-- CC_SET (R235, R239). -/
def execCcSet (n : Fin 4) (s : State) : Out :=
  let k := n.val
  let op := s.fld k 0 1
  .next (s.carry k 0x0403 (· == 11) (some 9) (decide (1 ≤ op) && decide (op ≤ 3)) fun t =>
    let t1 := t.when (op % 2 == 1) fun u => u.ccPreset (u.fldI k 1 8)
    let t2 := t1.when (2 ≤ op) fun u => u.onMs fun x => { x with
      balQ := List.replicate 10 0, balFrac := List.replicate 10 0, balSat := 0 }
    t2.finish k St.ok)

/-- The frequencies of a SWEEP command, mHz. -/
def State.sweepFld (s : State) (n : Nat) : List Nat := (List.range (min 24 (s.fld n 2 1))).map fun i => s.fld n (3 + 4 * i) 4

/-- Whether the fields of a SWEEP command are in range. -/
def State.sweepRange (s : State) (n : Nat) : Bool :=
  let k := s.fld n 0 1
  let c := s.fld n 2 1
  let l := s.sweepFld n
  1 ≤ k && k ≤ 3 && s.fld n 1 1 ≤ 1 && (if k = 3 then 1 ≤ c && c ≤ 24 else c == 0)
    && (l.all fun f => 10 ≤ f && f ≤ 2000000) && decide l.Nodup

/-- The kind of sweep a code names. -/
def kindOf : Nat → SweepKind
  | 1 => .quick | 2 => .full | 3 => .custom | _ => .none

/-- SWEEP (R244, R247, R248). -/
def execSweep (n : Fin 4) (_m : Unit) (s : State) : Out :=
  let i := n.val
  .next (s.carry i 0x0404 (· == 3 + 4 * s.fld i 2 1) none (s.sweepRange i) fun t =>
    let k := kindOf (t.fld i 0 1)
    let dis := t.fld i 1 1 == 1
    match t.sweepBar dis with
    | some 7 => (t.sweepRefuse k 7).finish i St.busyRetry
    | some c => (t.sweepRefuse k c).finish i St.notPermitted
    | none => (t.accept i).sweepBegin k dis (t.sweepFld i) (some n))

/-- SWEEP_STOP (R249). -/
def execSweepStop (n : Fin 4) (s : State) : Out :=
  .next (s.carry n.val 0x0405 (· == 0) none true fun t => (t.sweepStop).finish n.val St.ok)

/-- POINTS_GET: as many whole records as fit in 238 bytes. -/
def execPointsGet (n : Fin 4) (s : State) : Out :=
  let i := n.val
  let first := s.fld i 0 1
  let total := s.sw.lastPts.length
  .next (s.carry i 0x0406 (· == 1) none (decide (first ≤ 23) && (total == 0 || decide (first < total))) fun t =>
    let size := 12 + 4 * (match t.sw.lastPts with
      | p :: _ => p.z.length
      | [] => 0)
    let l := (t.sw.lastPts.drop first).take (238 / size)
    t.finish i St.ok ([BitVec.ofNat 8 total, BitVec.ofNat 8 l.length] ++ l.flatMap pointBytes))

/-- SOC as a model record gives it, 0.5 %; a SOC below 0 % or above 127.5 % has no stated form, and a free value stands for
it (log entry 7). -/
def State.socByte (s : State) (k : Nat) : Byte :=
  let v := s.ms.soc.getD k 0
  BitVec.ofNat 8 (if v < 0 ∨ 12799 < v then s.freeN k else (v / 50).toNat)

/-- MODEL_GET: its summary is that of the sweep whose fit is the model in force, and while no model is seeded of the sweep that ended last (DEDUCED, log
entry 122). -/
def execModelGet (n : Fin 4) (s : State) : Out :=
  let i := n.val
  let first := s.fld i 0 1
  .next (s.carry i 0x0407 (· == 1) none (decide (1 ≤ first) && decide (first ≤ 10)) fun t =>
    let ks := if t.sw.seeded then ((List.range t.sw.model.length).drop (first - 1)).take 9 else []
    let recs := ks.flatMap fun k => modelBytes (k + 1) (t.sw.model.getD k {}) (t.socByte k)
    let m := if t.sw.seeded then t.sw.modelOf else { stamp := t.sw.lastStamp, shown := t.sw.lastKind, part := t.sw.lastPartial, used := t.sw.lastUsed }
    (t.finish i St.ok (stampBytes m.stamp ++ [BitVec.ofNat 8 (sweepCode m.shown), byteOf [m.part], BitVec.ofNat 8 m.used,
      BitVec.ofNat 8 ks.length] ++ recs)).useFree 10)

/-- Whether a list rises. -/
def rising : List Nat → Bool
  | a :: b :: r => decide (a < b) && rising (b :: r)
  | _ => true

/-- The values of a CHEM_SET payload. -/
def State.chemFld (s : State) (n : Nat) : ChemTab :=
  let t := s.fld n 1 1
  { chem := s.fld n 0 1, table := t, vals := (List.range (if t = 2 then 3 else 11)).map fun i => s.fld n (2 + 2 * i) 2 }

/-- CHEM_SET (R256). -/
def execChemSet (n : Fin 4) (s : State) : Out :=
  let i := n.val
  let c := s.chemFld i
  .next (s.carry i 0x0408 (fun l => if c.table = 2 then l == 8 else if c.table ≤ 1 then l == 24 else l == 8 || l == 24) none
    (decide (1 ≤ c.chem) && decide (c.chem ≤ 3) && decide (c.table ≤ 2) && (c.table != 1 || rising c.vals)) fun t =>
    (t.onSw fun w => { w with chemNext := chemPut w.chemNext c }).finish i St.ok)

/-- CHEM_GET (R256): a table that waits for the tick reads as written. -/
def execChemGet (n : Fin 4) (s : State) : Out :=
  let i := n.val
  let c := s.fld i 0 1
  let k := s.fld i 1 1
  .next (s.carry i 0x0409 (· == 2) none (decide (1 ≤ c) && decide (c ≤ 3) && decide (k ≤ 2)) fun t =>
    let u := t.onSw fun w => { w with chem := t.chemAll }
    t.finish i St.ok (BitVec.ofNat 8 k :: (u.chemTab c k).flatMap (le 2)))

end Sys2Proof.Machine
end

