-- ==== Sys2Proof/Machine/Bus.lean ====
section
/-! DEFINITION. The two-wire ports: transfers, the control region, clear-on-read, attention, guarded values, and the application
of buffered writes (chapter 13; R490 to R500). -/
namespace Sys2Proof.Machine

/-! ## What a read returns (R379, R490 to R500) -/

/-- The address a control-region address answers as, by its line's decode mask (R379, R500). -/
def decodeLine (a : Nat) : Nat :=
  match a / 16 with
  | 0x14 | 0x20 => a - a / 8 % 2 * 8
  | 0x17 => 0x0170
  | 0x24 => 0x0240 + a % 4
  | _ => a

/-- The sequencer's status registers; while SEQ is off each reads its after-reset value (R296). -/
def State.seqReg (s : State) (a : Nat) : Byte :=
  if !s.sys.dom.getLsbD 11 then 0
  else match a with
    | 0x01E6 => s.seqStat
    | 0x01E7 => s.seq.on
    | 0x01E8 => s.seq.good
    | 0x01E9 => s.seq.fenced
    | 0x01EA => s.seq.rsn
    | _ => s.seqInfo

/-- The read-only control registers (R499). -/
def State.statusReg (s : State) (a : Nat) : Byte :=
  match a with
  | 0x0145 => s.ccStat
  | 0x0158 => s.pathInfo
  | 0x016E => s.chg.statReg
  | 0x016F => s.chg.rsnReg
  | 0x0170 => s.chg.limReg
  | 0x0188 => s.sw.statShown
  | 0x0189 => BitVec.ofNat 8 s.balMask
  | 0x018A => BitVec.ofNat 8 (s.balMask / 256)
  | 0x018B => BitVec.ofNat 8 s.sw.mlim
  | 0x018C => BitVec.ofNat 8 (s.sw.mlim / 256)
  | 0x018D => s.sw.weakShown
  | 0x01A6 => s.tcStat .a
  | 0x01A7 => s.tcContract .a
  | 0x01AE => s.tcStat .b
  | 0x01AF => s.tcContract .b
  | 0x01E6 | 0x01E7 | 0x01E8 | 0x01E9 | 0x01EA | 0x01EB => s.seqReg a
  | 0x0203 => BitVec.ofNat 8 s.flt.recCnt
  | 0x0204 => BitVec.ofNat 8 (s.flt.recCnt / 256)
  | 0x0205 => s.finjStat
  | 0x0220 => s.wdgStat
  | 0x0222 => BitVec.ofNat 8 s.wd.rst
  | 0x0223 => BitVec.ofNat 8 (s.wd.rst / 256)
  | 0x0224 => BitVec.ofNat 8 s.wd.dup
  | 0x0225 => BitVec.ofNat 8 (s.wd.dup / 256)
  | 0x0229 => s.hcwStat
  | 0x0240 => s.stkStat
  | 0x0241 => s.stkIdByte
  | 0x0242 => BitVec.ofNat 8 s.stk.grant
  | 0x0243 => BitVec.ofNat 8 (s.stk.grant / 256)
  | _ => 0

/-- The value written to the register at `a` and not yet applied: of an immediate write and its shadow the one that the block's IMM bit says
was written last (R383, R390). -/
def State.pendingAt (s : State) (a : Nat) : Option Byte :=
  let q := shadowAt s.bus.immQ.reverse a
  let h := shadowAt s.bus.shadow a
  if (blockOf a).any fun k => s.bus.imm.getLsbD k then q.orElse fun _ => h else h.orElse fun _ => q

/-- The byte of a control-region address as resident firmware supplies it: an RB register reads the value written until its block
is applied, and the value in force from then on (R383). -/
def State.controlByte (s : State) (addr : Nat) : Byte :=
  let a := decodeLine addr
  match blockOf a with
  | some _ =>
    let v := (s.pendingAt a).getD (s.reg a)
    if a = 0x0151 then setBit v 6 s.pp.prioBad else v
  | none => s.statusReg a

/-- The bytes of a mirror set from 0x0012 on (R495). -/
def mirBytes (m : MirSet) : List Byte :=
  le 2 m.vsys.toNat ++ le 2 m.vbat.toNat ++ le 2 m.ibat.toNat ++ le 2 m.ipa.toNat ++ le 2 m.ipb.toNat ++ le 2 m.ipc.toNat ++ le 2 m.ts.toNat

/-- The guarded primaries (R497): each reads the value in force. -/
def State.guardByte (s : State) (a : Nat) : Byte :=
  match a with
  | 0x0040 => s.shipByte
  | 0x0044 => s.chemCfgByte
  | 0x0048 => s.grd.fplace0
  | 0x0049 => s.grd.fplace1
  | 0x004A => s.fplaceCtl
  | 0x004C => s.finjByte
  | 0x004E => byteOf [false, s.grd.relref]
  | 0x0050 => s.wdgCfgByte
  | 0x0051 => BitVec.ofNat 8 s.grd.wdgPer
  | 0x0054 => s.fuseByte
  | _ => 0

/-- The swift window (R490) as port `bp` reads it. -/
def State.swiftByte (s : State) (bp : BusPort) (a : Nat) : Byte :=
  let p := s.port bp
  if 0x0004 ≤ a ∧ a ≤ 0x0007 then BitVec.ofNat 8 (s.qs.evt.toNat / 256 ^ (a - 4))
  else if 0x000A ≤ a ∧ a ≤ 0x000F then BitVec.ofNat 8 (p.gtsL.toNat / 256 ^ (a - 0x0A))
  else if 0x0012 ≤ a ∧ a ≤ 0x001F then (mirBytes p.mirL).getD (a - 0x12) 0
  else if 0x0040 ≤ a ∧ a ≤ 0x005F then s.guardByte a
  else match a with
  | 0x0000 => 0x86
  | 0x0001 => 0xB1
  | 0x0002 => s.modeByte
  | 0x0003 => s.pathByte
  | 0x0008 => s.fltSum
  | 0x0009 => s.fltClass
  | 0x0010 => p.epL
  | 0x0011 => p.mirStat
  | 0x0021 => s.bus.imm
  | 0x0023 => BitVec.ofNat 8 (s.mb.outrdy.toNat + 16 * s.mb.inuse.toNat)
  | 0x0025 => s.bus.attnCfg
  | 0x0026 => p.stat
  | 0x0027 => s.bus.updStat
  | 0x0028 => s.bus.hp.filt
  | 0x0029 => s.bus.sp.filt
  | _ => 0

/-- The byte a read of address `addr` through port `bp` returns (R368, R378, R379, R384, R398). -/
def State.busRead (s : State) (bp : BusPort) (addr : Nat) : Byte :=
  let a := addr % 4096
  if a < 0x0100 then s.swiftByte bp a
  else if a < 0x0400 then
    if !s.sys.fwRun || (s.port bp).allFF then 0xFF
    else match (s.port bp).line with
      | some (l, bytes) => if l = a / 16 then bytes.getD (a % 16) 0 else s.controlByte a
      | none => s.controlByte a
  else if a < 0x0800 || bp == .safety then 0
  else if a < 0x0C00 then memGet zeroByte s.mb.inb (a - 0x0800)
  else if s.mb.outrdy.getLsbD ((a - 0x0C00) / 256) then memGet zeroByte s.mb.outb (a - 0x0C00)
  else 0

/-- The byte at the port's pointer has been read: it is driven and the pointer advances (R367). -/
def State.driven (s : State) (bp : BusPort) (v : Byte) : State := s.onPort bp fun p => { p with rd := v, ptr := (p.ptr + 1) % 4096 }

/-! ## Transfers (R367 to R374) -/

/-- ADDRESS_MATCH_DORMANT (R372, R373): the recogniser acknowledges, holds SCL low and raises its wake source. -/
def execAddressMatchDormant (bp : BusPort) (s : State) : Out :=
  if !s.bus.recog || s.sys.dom.getLsbD 13 || (bp == .safety && !s.grd.fuseLive.getLsbD 1) then .next s
  else settle s ((s.onPort bp fun p => { p with ackHold := true }).wakeFrom (match bp with
    | .host => 0x0020
    | .safety => 0x0040))

/-- POINTER_SET (R367, R378): a new transfer, in which no line has been supplied yet. -/
def execPointerSet (bp : BusPort) (a : BitVec 16) (s : State) : Out :=
  .next (s.when (s.busUp bp) fun t => t.onPort bp fun p => { p with ptr := a.toNat % 4096, stretch := none, line := none, allFF := false })

/-- BUS_TIMEOUT (R369). -/
def execBusTimeout (bp : BusPort) (s : State) : Out :=
  .next (s.when (s.busUp bp) fun t => (t.onPort bp fun p => { p with stretch := none, line := none, allFF := false, ackHold := false }).busFlag bp 4)

/-- FILTER_APPLY (R371). -/
def execFilterApply (bp : BusPort) (s : State) : Out :=
  .next (s.when (s.busUp bp) fun t => t.onPort bp fun p => { p with filtUse := p.filt &&& 0x1F })

/-! ## Reads with an effect (R25, R381, R382, R385, R386) -/

/-- A byte read in the control region (R382, R384): the first in a line stretches SCL until its bytes are supplied, and the others return what was
supplied; after the stretch limit the rest of the transfer returns 0xFF. -/
def State.readLine (s : State) (bp : BusPort) : State :=
  let a := (s.port bp).ptr
  if !s.sys.fwRun then (s.driven bp 0xFF).busFlag bp 1
  else if (s.port bp).allFF then s.driven bp 0xFF
  else
    match (s.port bp).line with
    | some (l, bytes) =>
      if l = a / 16 then s.driven bp (bytes.getD (a % 16) 0) else s.onPort bp fun p => { p with stretch := some (a / 16), line := none }
    | none => s.onPort bp fun p => { p with stretch := some (a / 16) }

/-- LINE_SUPPLIED (R382): all bytes of the line are taken in one step. -/
def execLineSupplied (bp : BusPort) (s : State) : Out :=
  match (s.port bp).stretch with
  | some l =>
    if !s.busUp bp || !s.sys.fwRun then .next s
    else
      let bytes := (List.range 16).map fun i => s.controlByte (16 * l + i)
      .next ((s.onPort bp fun p => { p with stretch := none, line := some (l, bytes) }).driven bp (bytes.getD ((s.port bp).ptr % 16) 0))
  | none => .next s

/-- STRETCH_LIMIT (R382): every remaining byte of the transfer returns 0xFF. -/
def execStretchLimit (bp : BusPort) (s : State) : Out :=
  .next (s.when (s.busUp bp && (s.port bp).stretch.isSome) fun t =>
    (((t.onPort bp fun p => { p with stretch := none, line := none, allFF := true }).busFlag bp 2).driven bp 0xFF))

/-- The RC bytes, EVT0 to EVT3 and BUS_STAT. -/
def rcAddr (a : Nat) : Bool := (0x0004 ≤ a && a ≤ 0x0007) || a == 0x0026

/-- The RC byte at the pointer is read: a host-port read clears the bits returned as 1 in EVT0 to EVT3, and each port's read those of its own BUS_STAT
(R366, R385, R386). -/
def State.readRc (s : State) (bp : BusPort) : State :=
  let a := (s.port bp).ptr
  let v := s.swiftByte bp a
  let s1 := s.driven bp v
  if a = 0x0026 then s1.onPort bp fun p => { p with stat := p.stat &&& ~~~v }
  else if bp == .host then s1.onQs fun q => { q with evt := q.evt &&& ~~~(v.setWidth 32 <<< (8 * (a - 4))) }
  else s1

/-- A read of 0x000A (R25, R492). -/
def State.readGts (s : State) (bp : BusPort) : State :=
  (s.onPort bp fun p => { p with gtsL := s.clk.gts, epL := s.clk.epoch, ptr := 0x0A }).driven bp (BitVec.ofNat 8 s.clk.gts.toNat)

/-- A read of 0x0011 (R381, R492). -/
def State.readMir (s : State) (bp : BusPort) : State :=
  let stale := match s.ms.mirAt with
    | some k => decide (200 < s.now - k)
    | none => true
  let v := byteOf [stale, !(s.measOn && s.ms.mirEn)]
  (s.onPort bp fun p => { p with mirL := s.ms.mir, mirStat := v, ptr := 0x11 }).driven bp v

/-- A data byte is read at the pointer, which moves on (R367). -/
def State.readByte (s : State) (bp : BusPort) : State :=
  let a := (s.port bp).ptr
  if rcAddr a then s.readRc bp
  else if a = 0x0A then s.readGts bp
  else if a = 0x11 then s.readMir bp
  else if 0x0100 ≤ a ∧ a < 0x0400 then s.readLine bp
  else s.driven bp (s.busRead bp a)

/-- CONTROL_LINE_READ (R367, R382, R384): a data byte is read; with the first of a transfer no line has been supplied yet (log entry 57). -/
def execControlLineRead (r : ReadIn) (s : State) : Out :=
  .next (s.when (s.busUp r.port) fun t =>
    (t.when r.first fun u => u.onPort r.port fun p => { p with stretch := none, line := none, allFF := false }).readByte r.port)

/-- CLEAR_ON_READ (R366, R385, R386, R493): the RC byte at the pointer is read; it takes effect once its acknowledge bit is clocked. -/
def execClearOnRead (bp : BusPort) (clocked : Bool) (s : State) : Out :=
  .next (s.when (s.busUp bp && clocked && rcAddr (s.port bp).ptr) fun t => t.readRc bp)

/-- GTS_LATCH (R25, R492). -/
def execGtsLatch (bp : BusPort) (s : State) : Out := .next (s.when (s.busUp bp) fun t => t.readGts bp)

/-- MIR_STAT (R381, R492). -/
def execMirStat (bp : BusPort) (s : State) : Out := .next (s.when (s.busUp bp) fun t => t.readMir bp)

/-! ## Register writes (R364, R366, R371, R375, R383, R384, R398) -/

/-- The writable bits of an RB register. -/
def wmask (a : Nat) : Byte :=
  if 0x01C0 ≤ a ∧ a < 0x01E0 then (if a % 4 = 0 then 0x3F else 0xFF)
  else match a with
  | 0x0142 | 0x0146 | 0x0160 | 0x0200 => 0x03
  | 0x0144 | 0x0151 | 0x016D | 0x01E0 => 0x3F
  | 0x0150 | 0x0182 | 0x01A0 | 0x01A8 => 0x7F
  | 0x0154 | 0x0181 | 0x01A5 | 0x01AD => 0x0F
  | 0x016C => 0x1F
  | 0x0180 | 0x01E3 => 0x07
  | _ => 0xFF

/-- The shadow page with `v` written at `a`, addresses rising. -/
def shadowPut (l : List Host.Cell) (a : Nat) (v : Byte) : List Host.Cell := memPut (fun _ => v + 1) l a v

/-- A write to the buffered register `r`: into its shadow, or for itself while its block's IMM bit is set (R383, R390). -/
def State.bufferWrite (s : State) (r : Nat) (v : Byte) : State :=
  match blockOf r with
  | none => s
  | some k =>
    (s.onBus fun b =>
      if b.imm.getLsbD k then { b with immQ := b.immQ ++ [(r, v &&& wmask r)] }
      else { b with shadow := shadowPut b.shadow r (v &&& wmask r) }).updShow

/-- A host-port write of `v` at `a` of the 4 KiB map. -/
def State.hostWrite (s : State) (a : Nat) (v : Byte) : State :=
  if a = 0x0025 then s.onBus fun b => { b with attnCfg := v &&& 0x7F }
  else if a = 0x0028 then s.onPort .host fun p => { p with filt := v &&& 0x1F }
  else if a = 0x0029 then s.onPort .safety fun p => { p with filt := v &&& 0x1F }
  else if 0x00C0 ≤ a ∧ a ≤ 0x00FF then
    (if (0x40 + a % 32) ∈ [0x40, 0x44, 0x48, 0x49, 0x4A, 0x4C, 0x4E, 0x50, 0x51, 0x54] then s else s.guardFail .host)
  else if 0x0100 ≤ a ∧ a < 0x0400 then
    if !s.sys.fwRun then s.busFlag .host 1
    else s.bufferWrite (decodeLine a) v
  else if 0x0800 ≤ a ∧ a < 0x0C00 then
    (if s.mb.lock.getLsbD ((a - 0x0800) / 256) then s else s.onMb fun m => { m with inb := memPut zeroByte m.inb (a - 0x0800) v })
  else s

/-- REGISTER_WRITE (R366, R368, R383, R384, R388, R396, R398): a data byte at the pointer, at an address without a command of its own. It
breaks the port's pending pair, but a complement byte of the guarded window is itself part of one. HCW_KICK and HOLD_REL, which the safety port may
write (R364), have commands of their own. A write of the safety port into the control
region sets DENIED alone, whether firmware runs or not (DESIGN CHOICE, log entry 120). -/
def execRegisterWrite (bp : BusPort) (v : BitVec 8) (single : Bool) (s : State) : Out :=
  let a := (s.port bp).ptr
  if !s.busUp bp then .next s
  else
    let comp := 0x00C0 ≤ a && a ≤ 0x00FF
    let s1 := if comp && single then s.onPort bp fun p => { p with ptr := (a + 1) % 4096 } else s.wrote bp a
    match bp with
    | .safety => if a == 0x24 || a == 0x4E || (comp && 0x40 + a % 32 == 0x4E) then .next s1 else .next ((if comp && single then s1.wrote .safety a else s1).busFlag .safety 3)
    | .host => if a = 0x22 then settle s (s1.doorbell (v.setWidth 4) (BitVec.ofNat 4 (v.toNat / 16))) else .next (s1.hostWrite a v)

/-! ## Guarded values (R387, R388) -/

/-- GUARDED_VALUE (R366, R387, R388): an earlier pending pair is discarded; a value within a longer transfer is discarded itself. -/
def execGuardedValue (bp : BusPort) (g : BitVec 8) (v : BitVec 8) (single : Bool) (s : State) : Out :=
  let a := g.toNat
  if !s.busUp bp || a < 0x40 || 0x5F < a then .next s
  else
    let s1 := s.wrote bp a
    if bp == .safety && a != 0x4E then .next (s1.busFlag .safety 3)
    else if !single then .next (s1.guardFail bp)
    else .next (s1.onPort bp fun p => { p with pend := some { addr := a, val := v, since := s.now } })

/-! ## Attention (R375 to R377) -/

/-- The attention condition (R375). -/
def State.attnHolds (s : State) : Bool :=
  s.sys.dom.getLsbD 13 && ((s.bus.attnCfg.getLsbD 4 && s.mb.outrdy != 0) || (s.bus.attnCfg.getLsbD 5 && s.qs.evt != 0)
    || (s.bus.attnCfg.getLsbD 6 && s.flt.hold))

/-- Whether NALERT is driven low (R375). -/
def State.nalertLow (s : State) : Bool := s.attnHolds && s.bus.attnCfg.getLsbD 0

/-- The five bytes of an attention write (R376). -/
def State.attnBytes (s : State) : List Byte :=
  let l := [s.bus.hostAddr &&& 0x7F, s.fltSum, s.swiftByte .host 0x23, s.modeByte]
  l ++ [~~~(l.foldl (fun x y => x ^^^ y) 0)]

/-- An attempt to send the attention write ends with `r` (R376, R377): after three failures it waits for the next trigger. -/
def State.attnTry (s : State) (r : AttnRes) : State :=
  match r with
  | .sent => s.onBus fun b => { b with attnSent := s.attnBytes, attnFails := 0, attnDue := false }
  | .lostOwn => s.onBus fun b => { b with attnDue := true }
  | .nackAddr | .nackData | .lostOther =>
    if s.bus.attnFails < 2 then s.onBus fun b => { b with attnFails := b.attnFails + 1, attnDue := true }
    else (s.onBus fun b => { b with attnFails := 0, attnDue := false }).busFlag .host 5

/-- ATTENTION_WRITE (R376): the condition becomes true. -/
def execAttentionWrite (r : AttnRes) (s : State) : Out :=
  .next (s.when (s.attnHolds && s.bus.attnCfg.getLsbD 1) fun t => (t.onBus fun b => { b with attnFails := 0 }).attnTry r)

/-- ATTENTION_RETRY (R376). -/
def execAttentionRetry (r : AttnRes) (s : State) : Out := .next (s.when (s.sys.dom.getLsbD 13 && s.bus.attnDue) fun t => t.attnTry r)

/-- ATTENTION_REPEAT (R375, R376). -/
def execAttentionRepeat (r : AttnRes) (s : State) : Out :=
  .next (s.when (s.attnHolds && s.bus.attnCfg.getLsbD 1 && s.bus.attnCfg.toNat / 4 % 4 != 0) fun t =>
    (t.onBus fun b => { b with attnFails := 0 }).attnTry r)

/-! ## Application of blocks (R389 to R391) -/

/-- The conversion block in force (R154, R155, R160); `fsw` says that FSW was among the registers written. -/
def State.applyConv (s : State) (fsw : Bool) (before : State) : State :=
  let s1 := s.clampReg 0x0144 8 36
  let on := s1.regBit 0x0142 0
  let was := before.regBit 0x0142 0
  let s2 := s1.when (on && !was) fun t => t.onCc fun c => { c with sync := .acquiring, edgeOk := 0 }
  let s3 := s2.when (!on && was) fun t => t.onCc fun c => { c with sync := .free, synced := false, syncBad := false, edgeOk := 0 }
  s3.when fsw fun t => (t.onCc fun c => { c with fswPend := true }).fswTake

/-- Whether SRC_PRIO names each port once (R176). -/
def prioOk (v : Byte) : Bool :=
  let l := [v.toNat % 4, v.toNat / 4 % 4, v.toNat / 16 % 4]
  decide l.Nodup && !l.contains 0

/-- The path block in force (R174 to R186): a port switched off drains at once (R124), one switched on again requests anew, or as source sends its offers anew (R285), BATDET NONE judges the battery absent, and without TRACK
neither V_oc nor an estimate is kept. -/
def State.applyPath (s : State) (prio : Bool) (before : State) : State :=
  let bad := prio && !prioOk (s.reg 0x0151)
  let s1 := if bad then (s.setReg 0x0151 (before.reg 0x0151)).onPp fun x => { x with prioBad := true }
    else s.when prio fun t => t.onPp fun x => { x with prioBad := false }
  let s2 := ((s1.clampPair 0x0152 600 4400).clampReg 0x0155 34 240).clampReg 0x0156 5 150
  let pc := s2.reg 0x0154
  let s3 := s2.when (decide (6 ≤ pc.toNat / 2 % 8)) fun t => t.setReg 0x0154 (0x06 ||| (pc &&& 0x01))
  let s4 := s3.when (!s3.track) fun t => t.onPp fun x => { x with scan := none, scanDue := false, voc := none, pmpp := none }
  let s5 := ports.foldl (fun t p =>
    t.when (before.sinkEn p && !t.sinkEn p && t.sinking p && !(t.path p).limp) fun u => State.sinkEnded u p (u.endPath p)) s4
  let s6 := [TcId.a, .b].foldl (fun t c =>
    t.when (!before.sinkEn (tcPort c) && t.sinkEn (tcPort c) && (t.tc c).contract.isSome) fun u =>
      if (u.tc c).src then (u.txClear c).sendCaps c else u.when ((u.tc c).tcs == .attachedSnk) fun v => (v.txClear c).negotiate c true) s5
  s6.when (s6.batDet == 3 && s6.pp.batPres && !s6.follower) State.batGone

/-- The measurement block in force (R249, R259): SWPEN = 0 stops a running sweep and withdraws those waiting. -/
def State.applyMeas (s : State) (before : State) : State :=
  let s1 := ((((s.clampReg 0x0181 2 10).clampReg 0x0182 0 100).clampReg 0x0183 40 200).clampReg 0x0184 5 120).clampReg 0x0185 5 100
  let st := s1.regN 0x0185
  let s2 := (s1.clampReg 0x0186 2 95).clampReg 0x0187 10 60
  let s3 := s2.when (decide (st ≤ s2.regN 0x0186)) fun t => t.setReg 0x0186 (BitVec.ofNat 8 (st - 5))
  let s4 := s3.when (!s3.balEn) State.bleedStop
  s4.when (before.swpEn && !s4.swpEn) fun t =>
    (t.sweepStop).withdrawQueued (· == 0x0404)

/-- The registers of one Type-C port in force, and what follows from their change (R265, R272, R276, R280). -/
def State.applyTc (t : TcId) (s : State) : State :=
  let b := tcBase t
  let r := s.reg b
  let s1 := s.when (r.toNat % 4 == 3) fun u => u.setReg b (r &&& 0x7C)
  let s2 := s1.clampReg (b + 1) 20 192
  let s3 := ((s2.clampReg (b + 2) 20 (s2.regN (b + 1))).clampReg (b + 3) 0 240).clampReg (b + 4) 0 240
  let s4 := s3.when (s3.tc t).vconnSrc fun u => u.vconnOn t
  (s4.tcReeval t).frsEval t

/-- The sequencer block in force (R291, R294, R295, R306, R308); `slots` says that the slot table was among the registers written. -/
def State.applySeq (s : State) (slots imm : Bool) (before : State) : State :=
  let s1 := ((s.clampReg 0x01E1 1 50).clampReg 0x01E2 32 220).clampReg 0x01E5 1 255
  let s2 := (List.range 8).foldl (fun t k => t.clampReg (0x01C2 + 4 * k) 1 255) s1
  let s3 := s2.when (s2.seq.on.getLsbD 2 && s2.reg 0x01E2 != before.reg 0x01E2) fun t => t.onSeq fun q => { q with aux2Moving := true }
  let s4 := s3.when slots fun t => if imm || t.seqIdle then t.tableApply else t.onSeq fun q => { q with tblPend := true }
  let s5 := s4.when (before.rstEn && !s4.rstEn) fun t => t.onSeq fun q => { q with nrstSeq := false, nrstDue := false }
  let s6 := s5.when (s5.seq.st == .up) fun t => t.nrstJudge t.seq.slot
  s6.when (before.seqEn && !s6.seqEn) fun t => (t.seqDisable).withdrawQueued fun op => 0x0601 ≤ op && op ≤ 0x0604

/-- The low bytes of the register pairs (R390). -/
def lowBytes : List Nat := [0x0140, 0x0152, 0x0161, 0x0163, 0x0169, 0x0201]

/-- Block `k` takes its shadows: those that `take` admits change together, and the block's own rules judge them (R389). The charge block's wait
in the shadows while SAFE is set (R228). -/
def State.applyBlock (s : State) (imm : Bool) (take : Nat → Bool) (k : Nat) : State :=
  let l := s.bus.shadow.filter fun c => blockOf c.1 == some k && take c.1
  if l = [] then s
  else if k = 2 && s.chg.safe then s.onChg fun c => { c with heldRegs := c.heldRegs ++ l.map (·.1) }
  else
    let s1 := s.takeShadows k take
    let has := fun (lo hi : Nat) => l.any fun c => lo ≤ c.1 && c.1 ≤ hi
    let s2 := match k with
      | 0 => s1.applyConv (has 0x0140 0x0141) s
      | 1 => s1.applyPath (has 0x0151 0x0151) s
      | 2 => s1.applyChg
      | 3 => s1.applyMeas s
      | 4 => (s1.applyTc .a).applyTc .b
      | 5 => s1.applySeq (has 0x01C0 0x01DF) imm s
      | 6 => s1.clampPair 0x0201 1 6000
      | _ => s1.clampReg 0x0228 10 160
    s2.updShow

/-- UPDATE (R366, R389, R391, R496): a stack member arms the blocks, and a manager then pulls STK_UPD low for 10 µs. -/
def execUpdate (bp : BusPort) (mask : BitVec 8) (s : State) : Out :=
  if !s.busUp bp then .next s
  else
    let s1 := s.wrote bp 0x20
    if bp == .safety then .next (s1.busFlag .safety 3)
    else if mask = 0 then .next s1
    else if s.stk.joined then .next (s1.onBus fun b => { b with armed := b.armed ||| mask, stkUpdTo := if s.isManager then s.now + 10 else b.stkUpdTo })
    else .next (s1.onBus fun b => { b with updMask := b.updMask ||| mask })

/-- UPDATE_APPLY (R389). -/
def execUpdateApply (s : State) : Out :=
  if !s.sys.fwRun then .next s
  else
    let s1 := s.onBus fun b => { b with updMask := 0 }
    settle s ((bitsOf 8 s.bus.updMask).foldl (fun t k => t.applyBlock false (fun _ => true) k) s1)

/-- IMM (R366, R390): what was pending when a bit was set stays due, though the bit is cleared before the tick. -/
def execImm (bp : BusPort) (mask : BitVec 8) (s : State) : Out :=
  if !s.busUp bp then .next s
  else
    let s1 := s.wrote bp 0x21
    if bp == .safety then .next (s1.busFlag .safety 3)
    else .next (s1.onBus fun b => { b with imm := mask, immDue := b.immDue ||| (mask &&& ~~~b.imm) })

/-- One immediate write is applied on its own; the low byte of a pair waits in the shadow for its high byte (R390). -/
def State.immWrite (s : State) (c : Host.Cell) : State :=
  let s1 := s.onBus fun b => { b with shadow := shadowPut b.shadow c.1 c.2 }
  match blockOf c.1 with
  | none => s
  | some k =>
    if lowBytes.contains c.1 then s1.updShow
    else s1.applyBlock true (fun a => a == c.1 || (a + 1 == c.1 && lowBytes.contains a)) k

/-- IMM_WRITE_APPLY (R390): the shadows that were pending when a block's IMM bit was set, then each immediate write in the order written. -/
def execImmWriteApply (s : State) : Out :=
  if !s.sys.fwRun then .next s
  else
    let s1 := s.onBus fun b => { b with immDue := 0, immQ := [] }
    let s2 := (bitsOf 8 s.bus.immDue).foldl (fun t k => t.applyBlock true (fun _ => true) k) s1
    settle s (s.bus.immQ.foldl State.immWrite s2)

/-- STK_UPD_EDGE (R391, R450): the blocks armed become due; in a stack DORMANT the edge is a wake source. -/
def execStkUpdEdge (s : State) : Out :=
  let s1 := s.onBus fun b => { b with edgeDue := b.edgeDue ||| b.armed }
  settle s (s1.when s.stk.dormant fun t => t.wakeFrom 0x0800)

/-- STK_UPD_APPLY (R391). -/
def execStkUpdApply (s : State) : Out :=
  if !s.sys.fwRun then .next s
  else
    let d := s.bus.edgeDue
    let s1 := s.onBus fun b => { b with edgeDue := 0, armed := b.armed &&& ~~~d }
    settle s ((bitsOf 8 d).foldl (fun t k => t.applyBlock false (fun _ => true) k) s1)

end Sys2Proof.Machine
end

