-- ==== Sys2Proof/Machine/Mailbox.lean ====
section
/-! DEFINITION. The mailbox exchange and the system commands of the 0x01xx family (chapter 14). -/
namespace Sys2Proof.Machine

/-! ## Rings and releases (R396 to R402) -/

/-- MAILBOX_RING (R398 to R400, R403): the RING bits of one DOORBELL write. -/
def execMailboxRing (mask : BitVec 4) (s : State) : Out := settle s (s.when (s.busUp .host) fun t => (t.wrote .host 0x22).doorbell mask 0)

/-- MAILBOX_DONE (R398, R402): the DONE bits of one DOORBELL write. -/
def execMailboxDone (mask : BitVec 4) (s : State) : Out := settle s (s.when (s.busUp .host) fun t => (t.wrote .host 0x22).doorbell 0 mask)

/-- The final response decided for mailbox `n` is posted once its interim response has been released (R398). -/
def State.postFinal (s : State) (n : Nat) : State :=
  let b := s.box n
  match b.st, b.fin with
  | .working, some f => (s.postFrame n f.status f.data).onBox n fun x => { x with st := .final, fin := none }
  | _, _ => s

/-- COMMAND_COMPLETION (R398, R401). -/
def execCommandCompletion (n : Fin 4) (s : State) : Out := .next ((s.tuneLate n).postFinal n.val)

/-- MAILBOX_AUTO_RELEASE (R402): 100 ms after the response was posted, without DONE. -/
def execMailboxAutoRelease (n : Fin 4) (s : State) : Out :=
  settle s (s.when ((s.box n.val).st == .final && (s.box n.val).act && decide ((s.box n.val).postAt + 100000 ≤ s.now)) fun t => t.release n.val)

/-! ## Queries and settings (R407) -/

/-- SYS_STATUS. -/
def execSysStatus (n : Fin 4) (s : State) : Out :=
  .next (s.query n.val 0x0101 fun t =>
    [t.modeByte, t.pathByte] ++ le 2 t.sys.dom.toNat ++ [t.sys.boot] ++ le 2 t.sys.wake.toNat ++ [BitVec.ofNat 8 t.sys.image]
      ++ le 2 t.sys.imageVer.toNat ++ [0xB1])

/-- EVENT_READ (R408): at most MAX records, oldest first, which leave the event queue (R29). -/
def execEventRead (n : Fin 4) (s : State) : Out :=
  let m := s.fld n.val 0 1
  .next (s.carry n.val 0x0102 (· == 1) none (decide (1 ≤ m) && decide (m ≤ 9)) fun t =>
    let l := t.qs.events.take m
    let rest := t.qs.events.drop m
    (t.onQs fun q => { q with events := rest }).finish n.val St.ok
      ([BitVec.ofNat 8 l.length, BitVec.ofNat 8 (min 255 rest.length)] ++ le 2 (t.qs.drops.getD 4 0) ++ l.flatMap eventBytes))

/-- QUEUE_STAT (R35). -/
def execQueueStat (n : Fin 4) (s : State) : Out :=
  .next (s.query n.val 0x0103 fun t => (List.range 13).flatMap (fun k => le 2 (t.qs.drops.getD k 0)) ++ le 2 t.qs.sat.toNat)

/-- QUEUE_CLEAR (R35): the counters named are zero again, and their SAT flags clear. -/
def execQueueClear (n : Fin 4) (s : State) : Out :=
  let m := s.fld n.val 0 2
  .next (s.carry n.val 0x0104 (· == 2) none (decide (m < 8192)) fun t =>
    (t.onQs fun q => { q with drops := q.drops.mapIdx fun k v => if m.testBit k then 0 else v, sat := q.sat &&& ~~~(BitVec.ofNat 13 m) }).finish
      n.val St.ok)

/-- DORMANT_CFG (R84, R87), in force at once. -/
def execDormantCfg (n : Fin 4) (s : State) : Out :=
  let i := s.fld n.val 0 2
  let w := s.fld n.val 2 2
  .next (s.carry n.val 0x0105 (· == 4) none (decide (i ≤ 600) && decide (w ≤ 3600)) fun t =>
    (t.onSys fun y => { y with idleS := i, wakeS := w, wakeNow := w }).finish n.val St.ok)

/-- DORMANT_ENTER once its frame is accepted: the preparations begin, or go on where an automatic entry has begun them (R84, R305). -/
def State.dormAsk (s : State) (n : Fin 4) (load : Nat) : State :=
  let s1 := s.accept n.val
  if !s1.dormCond load (some n) false then s1.finish n.val St.notPermitted
  else
    let s2 := s1.onSys fun y => { y with dormBox := some n }
    if s1.sys.dorm == .none then s2.dormBegin else s2

/-- DORMANT_ENTER (R84, R305); `load` is the VSYS load averaged over the last 1 s, mW. -/
def execDormantEnter (n : Fin 4) (load : Nat) (s : State) : Out :=
  .next (s.carry n.val 0x0106 (· == 0) none true fun t => t.dormAsk n load)

/-- RESET (R402): the module reset follows the release. -/
def execMbxReset (n : Fin 4) (s : State) : Out := .next (s.carry n.val 0x0107 (· == 2) (some 0) true fun t => t.finishAct n.val)

/-! ## WITHDRAW (R406) -/

/-- SEQ_UP is withdrawn: held behind a shutdown it leaves that alone; its own run stops after its step (R304, R306). -/
def State.withdrawUp (s : State) (k : Fin 4) : State :=
  if s.seq.st == .up && s.seq.req == 5 then
    ((s.onSeq fun q => { q with upBox := [] }).finishL s.seq.upBox St.withdrawn).seqStop
  else
    let rest := s.seq.upBox.filter (· != k)
    (s.onSeq fun q => { q with upBox := rest, upHeld := if rest == [] && q.upHeld == some 5 then none else q.upHeld }).finish k.val St.withdrawn

/-- SEQ_DOWN is withdrawn (R306): its own run stops after its step; one that waits for a step is given up. -/
def State.withdrawDown (s : State) (k : Fin 4) : State :=
  if s.seq.st == .down && s.seq.rsn == 0x01 then
    ((s.onSeq fun q => { q with downBox := [] }).finishL s.seq.downBox St.withdrawn).seqStop
  else
    let rest := s.seq.downBox.filter (· != k)
    (s.onSeq fun q => { q with downBox := rest, downHeld := if rest == [] && q.downHeld == some 1 then none else q.downHeld }).finish
      k.val St.withdrawn

/-- A command answered ACCEPTED whose work has not ended is withdrawn where it has a safe point left; RESULT 2 where it has
none (R406). -/
def State.withdrawWork (s : State) (k : Fin 4) : State × Nat :=
  let op := (s.box k.val).op.toNat
  if op = 0x0106 ∧ s.sys.dormBox = some k then (s.dormCancel St.withdrawn, 0)
  else if op = 0x0404 ∧ s.sw.cmd = some k ∧ s.sw.stage ≠ .fitting then
    (((s.onSw fun w => { w with cmd := none }).finish k.val St.withdrawn).sweepStop, 0)
  else if op = 0x0601 ∧ k ∈ s.seq.upBox then (s.withdrawUp k, 0)
  else if op = 0x0602 ∧ k ∈ s.seq.downBox then (s.withdrawDown k, 0)
  else if op = 0x0308 ∧ s.cc.tuneAsk.any (fun r => r.box == some k) then
    ((s.onCc fun c => { c with tuneAsk := c.tuneAsk.filter fun r => r.box != some k }).finish k.val St.withdrawn, 0)
  else if op = 0x0308 ∧ s.cc.tune.any (fun r => r.box == some k && r.wait && s.tuneWaits r) then
    (((s.onCc fun c => { c with tune := none }).finish k.val St.withdrawn).tuneNext, 0)
  else if op = 0x0801 ∧ s.nvm.q.any (fun r => r.box == some k) then
    (((s.onNvm fun x => { x with q := x.q.filter fun r => r.box != some k }).finish k.val St.withdrawn).shipCheck, 0)
  else if op = 0x0904 ∧ s.stk.dormBox = some k ∧ s.stk.dormPh ≤ 2 then
    (((s.onStk fun x => { x with dormBox := none, dormPh := 0, scmdQ := x.scmdQ.filter fun c => c.1 != 0x0C }).onQs fun q =>
      { q with stkTx := if s.stk.dormPh = 2 then q.stkTx.erase 0 else q.stkTx }).finish k.val St.withdrawn, 0)
  else (s, 2)

/-- What a WITHDRAW that names the command in mailbox `k` does, and its RESULT. -/
def State.withdrawBox (s : State) (k : Fin 4) : State × Nat :=
  let b := s.box k.val
  match b.st with
  | .taken => ((s.finish k.val St.withdrawn).onMb fun m => { m with ring := m.ring.filter fun j => j != k }, 0)
  | .interim | .working => if b.fin.isSome then (s, 2) else s.withdrawWork k
  | .final => (s, 2)
  | .free => (s, 1)

/-- WITHDRAW (R406): of several commands with the tag, the one in the lowest mailbox is meant. -/
def execWithdraw (n : Fin 4) (s : State) : Out :=
  settle s (s.carry n.val 0x0108 (· == 1) none true fun t =>
    let tag := t.inByte n.val 8
    match (List.finRange 4).find? fun k => k != n && (t.box k.val).st != .free && (t.box k.val).tag == tag with
    | some k =>
      let r := t.withdrawBox k
      r.1.finish n.val St.ok [BitVec.ofNat 8 r.2]
    | none => t.finish n.val St.ok [1])

end Sys2Proof.Machine
end

