-- ==== Sys2Proof/Machine/Route.lean ====
section
/-! DEFINITION. The path, fabric and basin commands of the 0x03xx family (R410). -/
namespace Sys2Proof.Machine

/-! ## Queries -/

/-- A phase entry of PLACE_QUERY. -/
def State.placeEntry (s : State) (i : Nat) : List Byte :=
  let x := s.phase i
  let src := match x.port with
    | some p => s.sourcing p
    | none => false
  [BitVec.ofNat 8 (phCode x.st), BitVec.ofNat 8 (portCode x.port + 4 * b2n src + 8 * b2n x.suspect)]
    ++ s16 (quoQ x.ip 10) ++ le 2 x.angle ++ s16 x.ths

/-- PLACE_QUERY. -/
def execPlaceQuery (n : Fin 4) (s : State) : Out :=
  .next (s.query n.val 0x0301 fun t =>
    phaseNos.flatMap t.placeEntry
      ++ [byteOf (phaseNos.map fun i => t.fab.resA.any (·.val == i) || t.fab.resB.any (·.val == i)), BitVec.ofNat 8 (b2n t.grd.fpen)])

/-- CAP of BASIN_QUERY: a port without a path shows the cap of the path that would form on it now, 0 where it is fenced. -/
def State.capShown (s : State) (p : PortId) : Nat :=
  if s.active p then s.capOf p (s.sourcing p)
  else if s.portFenced p then 0
  else
    match portTc p with
    | some t => if (s.tc t).tcs == .attachedSrc then s.capOf p true else if s.present p then s.capOf p false else (s.path p).limit
    | none => if s.present p then s.capOf p false else (s.path p).limit

/-- PEAK of BASIN_QUERY. -/
def peakCode : PeakSt → Byte
  | .allowed => 0 | .episode => 1 | .recovery => 2

/-- PTIME: the time elapsed in an episode, or what remains of the recovery, in 10 ms. -/
def State.peakTime (s : State) : Nat :=
  match s.fab.peak with
  | .allowed => 0
  | .episode => quo (s.now - s.fab.peakAt) 10000
  | .recovery => quo (s.fab.peakAt + 30000000 - s.now) 10000

/-- A port's entry of BASIN_QUERY. -/
def State.basinEntry (s : State) (p : PortId) : List Byte :=
  let x := s.path p
  let a := s.active p
  le 2 (if a then x.grant else 0) ++ le 2 (if a then x.req else 0) ++ le 2 (s.capShown p) ++ [BitVec.ofNat 8 x.prio, byteOf [a, s.sourcing p, a && x.unmet]]

/-- BASIN_QUERY. -/
def execBasinQuery (n : Fin 4) (s : State) : Out :=
  .next (s.query n.val 0x0302 fun t =>
    le 2 t.fab.basin ++ le 2 t.rating ++ le 2 t.fab.thCeil ++ le 2 t.stk.grant ++ le 2 t.fab.hostCap
      ++ [peakCode t.fab.peak] ++ le 2 t.peakTime ++ [BitVec.ofNat 8 (portCode t.fab.lead)] ++ ports.flatMap t.basinEntry)

/-- The port a PORT byte names: 0 PA, 1 PB, 2 PC. -/
def portAt : Nat → PortId
  | 0 => .pa | 1 => .pb | _ => .pc

/-- A tracker value, or 0xFFFF on PA and PB and without tracking. -/
def State.trackField (s : State) (p : PortId) (v : Option Nat) : List Byte := u16o (if p == .pc && s.track then v else none)

/-- BRIDGE of PATH_QUERY. -/
def bridgeCode : Bridge → Byte
  | .buck => 0 | .buckBoost => 1 | .boost => 2

/-- The data of PATH_QUERY. -/
def State.pathData (s : State) (p : PortId) : List Byte :=
  let c := s.cc.comp.getD (portIdx p) {}
  [BitVec.ofNat 8 (c.rep + 16 * b2n c.repGrant)] ++ le 2 (quo (s.srcLimit p) 10) ++ u16o ((s.learn p).map fun v => quo v 10)
    ++ le 2 (quo (s.inFloor p) 10) ++ s.trackField p (some (quo s.pp.vt 10)) ++ s.trackField p (s.pp.pmpp.map fun v => quo v 100)
    ++ s.trackField p (s.pp.voc.map fun v => quo v 10)
    ++ [bridgeCode c.bridge, BitVec.ofNat 8 ((phaseNos.filter fun i => (s.phase i).port == some p && (s.phase i).st != .free && (s.phase i).st != .fenced).length)]

/-- PATH_QUERY. -/
def execPathQuery (n : Fin 4) (s : State) : Out :=
  .next (s.carry n.val 0x0303 (· == 1) none (decide (s.fld n.val 0 1 ≤ 2)) fun t => t.finish n.val St.ok (t.pathData (portAt (t.fld n.val 0 1))))

/-! ## Settings -/

/-- PATH_SET (R110): limit and priority, which the next control tick uses; a higher limit may permit EPR mode (R275). -/
def execPathSet (n : Fin 4) (s : State) : Out :=
  let p := s.fld n.val 0 1
  let l := s.fld n.val 1 2
  let r := s.fld n.val 3 1
  .next (s.carry n.val 0x0304 (· == 4) none (decide (p ≤ 2) && decide (l ≤ if p = 2 then 8000 else 2400) && decide (r ≤ 7)) fun t =>
    let u := t.onPath (portAt p) fun x => { x with limit := l, prio := r }
    (match portTc (portAt p) with
      | some c => u.eprTry c
      | none => u).finish n.val St.ok)

/-- HOST_CAP (R107). -/
def execHostCap (n : Fin 4) (s : State) : Out :=
  let c := s.fld n.val 0 2
  .next (s.carry n.val 0x0305 (· == 2) none (decide (10 ≤ c) && decide (c ≤ 8000)) fun t =>
    (t.onFab fun f => { f with hostCap := c }).finish n.val St.ok)

/-- The 40 words of a COEF_SET. -/
def State.coefWords (s : State) (n : Nat) : List Int := (List.range 40).map fun i => s.fldI n (1 + 2 * i) 2

/-- Whether the words of a set may be written: shifts of 0 to 15, and nothing in a reserved or unused word (R146). -/
def coefOk (kind : Nat) (w : List Int) : Bool :=
  w.getD 3 0 == 0 && ((List.range 6).all fun k => let s := w.getD (9 + 6 * k) 0; decide (0 ≤ s) && decide (s ≤ 15))
    && (kind < 3 || (w.drop 28).all (· == 0))

/-- COEF_SET (R146, R147): the set is used from the next switching period on. -/
def execCoefSet (n : Fin 4) (s : State) : Out :=
  let k := s.fld n.val 0 1
  .next (s.carry n.val 0x0306 (· == 81) none (decide (k ≤ 4) && coefOk k (s.coefWords n.val)) fun t =>
    (t.onCc fun c => { c with coef := c.coef.set k (some (t.coefWords n.val)) }).finish n.val St.ok)

/-- COEF_GET: the set as stored, or the factory's where none has been stored (R147). -/
def execCoefGet (n : Fin 4) (s : State) : Out :=
  let k := s.fld n.val 0 1
  .next (s.carry n.val 0x0307 (· == 1) none (decide (k ≤ 4)) fun t => t.finish n.val St.ok ((t.coefOf k).flatMap (leI 2)))

/-! ## TUNE (R148) -/

/-- Whether a tuning command is not permitted now (R410). -/
def State.tuneBar (s : State) (pc : Bool) : Bool :=
  s.flt.hold || s.grd.fpen || (pc && !s.pp.presC)
    || !([1, 2, 3].any fun i => (s.phase i).st == .free && !s.quadFenced i)

/-- TUNE once its frame is accepted: it waits while its measurement is deferred or another is under way, unless NOWAIT. -/
def State.tuneCmd (s : State) (n : Fin 4) (pc : Bool) : State :=
  let r : TuneRun := { pc := pc, box := some n, since := s.now }
  let waits := s.tuneWaits r || (match s.cc.tune with
    | some o => !s.tuneWaits o
    | none => false)
  if s.tuneBar pc then s.finish n.val St.notPermitted
  else if waits && s.noWait n.val then s.finish n.val St.busyRetry
  else ((s.accept n.val (!waits)).onCc fun c => { c with tuneAsk := c.tuneAsk ++ [r] }).tuneNext

/-- TUNE. -/
def execTune (n : Fin 4) (s : State) : Out :=
  .next (s.carry n.val 0x0308 (· == 1) none (decide (s.fld n.val 0 1 ≤ 1)) fun t => t.tuneCmd n (t.fld n.val 0 1 == 1))

end Sys2Proof.Machine
end

