-- ==== Sys2Proof/Machine/FaultCmd.lean ====
section
/-! DEFINITION. The fault commands of the 0x07xx family and the watchdog commands of the 0x0Axx family (R414, R417). -/
namespace Sys2Proof.Machine

/-! ## Faults (R414) -/

/-- FAULT_QUERY. -/
def execFaultQuery (n : Fin 4) (s : State) : Out :=
  .next (s.query n.val 0x0701 fun t =>
    le 4 t.flt.fence.toNat ++ [BitVec.ofNat 8 t.flt.recs.length] ++ le 2 t.flt.lost ++ le 2 t.flt.lfLost ++ le 2 t.flt.recCnt
      ++ [BitVec.ofNat 8 (t.nvm.lfRing.filter fun r => !r.torn).length])

/-- A record put into its place by RECNO. -/
def recByNo (r : FaultRec) : List FaultRec → List FaultRec
  | [] => [r]
  | x :: l => if r.recno ≤ x.recno then r :: x :: l else x :: recByNo r l

/-- The bytes of a stored record that fails its check are not known: free values (R338, R357; log entries 7 and 123). -/
def State.badBytes (s : State) (n : Nat) : List Byte := (List.range n).map fun k => BitVec.ofNat 8 (s.freeN k)

/-- REC_GET: records in RECNO order; one whose CRC fails has RSTAT 0x20 (R338). -/
def execRecGet (n : Fin 4) (s : State) : Out :=
  let first := s.fld n.val 0 1
  let most := s.fld n.val 1 1
  .next (s.carry n.val 0x0702 (· == 2) none (decide (first ≤ 23) && decide (1 ≤ most) && decide (most ≤ 7)) fun t =>
    let l := ((t.flt.recs.foldr recByNo []).drop first).take most
    (t.finish n.val St.ok (BitVec.ofNat 8 l.length :: l.flatMap fun r => if r.bad then St.nvmFail :: t.badBytes 32 else 0 :: faultBytes r)).useFree 32)

/-- Whether a last-fault record is valid: its MAGIC, FORMAT and CRC check, as those of a torn one do not (R170, R462). -/
def LfRec.ok (r : LfRec) : Bool :=
  !r.torn && ofLe (r.bytes.take 2) == 0x4C46 && r.bytes.getD 2 0 == 0x01 && ofLe ((r.bytes.drop 252).take 4) == crc32 (r.bytes.take 252)

/-- The last-fault records committed, newest first (R462). -/
def State.lfList (s : State) : List LfRec := (s.nvm.lfRing.filter LfRec.ok).reverse

/-- LF_GET: half of a committed last-fault record. -/
def execLfGet (n : Fin 4) (s : State) : Out :=
  let i := s.fld n.val 0 1
  let part := s.fld n.val 1 1
  .next (s.carry n.val 0x0703 (· == 2) none (decide (i < s.lfList.length) && decide (part ≤ 1)) fun t =>
    t.finish n.val St.ok ([BitVec.ofNat 8 t.lfList.length, BitVec.ofNat 8 part]
      ++ ((t.lfList.getD i {}).bytes.drop (128 * part)).take 128))

/-- FAULT_CLEAR (R337): the store is emptied and COMPOUND clears; not in HOLD, whose exit reads the records. -/
def execFaultClear (n : Fin 4) (s : State) : Out :=
  .next (s.carry n.val 0x0704 (· == 2) (some 0) true fun t =>
    if t.flt.hold then t.finish n.val St.notPermitted
    else (t.onFlt fun f => { f with recs := [], compound := false }).finish n.val St.ok)

/-- RELEASE (R331): a release of HOLD through the host port; `failing` lists the sources and causes that fail their checkers now. -/
def execRelease (n : Fin 4) (failing : List (Nat × Nat)) (s : State) : Out :=
  settle s (s.carry n.val 0x0705 (· == 0) none true fun t =>
    let r := t.holdRelease .host failing
    r.1.finish n.val (if r.2 then St.ok else St.notPermitted))

/-- UNFENCE (R323): one unit, or every fence; a unit that is not fenced is left as it is. -/
def execUnfence (n : Fin 4) (s : State) : Out :=
  let u := s.fld n.val 0 1
  settle s (s.carry n.val 0x0706 (· == 3) (some 1) (decide (u ≤ 25) || u == 0xFF) fun t =>
    (if u = 0xFF then (List.range 26).foldl State.liftFence t else t.liftFence u).finish n.val St.ok)

/-- FCNT_CLEAR (R334, R337, R169): the counters named are zero again, and their SAT flags clear. -/
def execFcntClear (n : Fin 4) (s : State) : Out :=
  let m := s.fld n.val 0 1
  .next (s.carry n.val 0x0707 (· == 1) none (decide (m ≤ 7)) fun t =>
    (t.onFlt fun f => { f with
      recCnt := if m.testBit 0 then 0 else f.recCnt, lost := if m.testBit 1 then 0 else f.lost
      lfLost := if m.testBit 2 then 0 else f.lfLost
      satf := f.satf &&& ~~~(BitVec.ofNat 4 (b2n (m.testBit 0) + 2 * b2n (m.testBit 1) + 8 * b2n (m.testBit 2))) }).finish n.val St.ok)

/-- The 20 bytes of FEC_GET without a capture: free values, but for the reserved bits, which read 0 (R6, R341; log entry 7). -/
def State.fecNone (s : State) : List Byte :=
  (List.range 20).map fun i =>
    if 18 ≤ i then 0 else if i = 13 then BitVec.ofNat 8 (s.freeN i) &&& 0x1F else BitVec.ofNat 8 (s.freeN i)

/-- FEC_GET (R340, R341); CLEAR takes the capture and the saturation of MORE. -/
def execFecGet (n : Fin 4) (s : State) : Out :=
  let c := s.fld n.val 0 1
  .next (s.carry n.val 0x0708 (· == 1) none (decide (c ≤ 1)) fun t =>
    match t.flt.fec with
    | some f =>
      (t.when (c == 1) fun u => u.onFlt fun x => { x with fec := none, satf := setBit x.satf 2 false }).finish n.val St.ok (1 :: fecBytes f)
    | none => (t.useFree 20).finish n.val St.ok (0 :: t.fecNone))

/-! ## Watchdogs (R417) -/

/-- HCWLEFT: the time to the host-contact deadline in 0.1 s, 0 when it has expired or does not run. -/
def State.hcwLeft (s : State) : Nat :=
  if s.wd.hRun && !s.wd.hExp then min 0xFFFF (quo (s.wd.hDead - s.now) 100000) else 0

/-- WDG_QUERY. -/
def execWdgQuery (n : Fin 4) (s : State) : Out :=
  .next (s.query n.val 0x0A01 fun t =>
    [t.wdgStat, BitVec.ofNat 8 t.grd.wdgPer] ++ le 2 t.wd.rst ++ le 2 t.wd.dup ++ [BitVec.ofNat 8 t.wd.evid.length] ++ le 2 t.hcwLeft)

/-- EVID_GET: newest first; one whose CHK fails has RSTAT 0x20 (R356, R357). -/
def execEvidGet (n : Fin 4) (s : State) : Out :=
  .next ((s.query n.val 0x0A02 fun t => BitVec.ofNat 8 t.wd.evid.length :: t.wd.evid.reverse.flatMap fun e => if e.bad then St.nvmFail :: t.badBytes 16 else 0 :: evidBytes e).useFree 16)

/-- WCNT_CLEAR (R354). -/
def execWcntClear (n : Fin 4) (s : State) : Out :=
  let m := s.fld n.val 0 1
  .next (s.carry n.val 0x0A03 (· == 1) none (decide (m ≤ 3)) fun t =>
    (t.onWd fun w => { w with
      rst := if m.testBit 0 then 0 else w.rst, rstSat := w.rstSat && !m.testBit 0
      dup := if m.testBit 1 then 0 else w.dup, dupSat := w.dupSat && !m.testBit 1 }).finish n.val St.ok)

end Sys2Proof.Machine
end

