-- ==== Sys2Proof/Machine/Nvm.lean ====
section
/-! DEFINITION. The non-volatile memory, the option fuses and the identity (chapter 16, R415). -/
namespace Sys2Proof.Machine

/-! ## Commands (R415) -/

/-- NVM_STORE once its frame is accepted (R415, R464). -/
def State.storeCmd (s : State) (n : Fin 4) (region : Nat) : State :=
  let running := (region == 2 && s.sys.image == 1) || (region == 3 && s.sys.image == 2)
  if running || (2 ≤ region && !s.nvm.staged) then s.finish n.val St.notPermitted
  else if s.nvmFenced then s.finish n.val St.nvmFail
  else if !s.nvmRoom then (s.drop 12).finish n.val St.busyRetry
  else (s.accept n.val false).nvmPush { kind := if region = 1 then .cfg else if region = 2 then .imgA else .imgB, box := some n }

/-- NVM_STORE. -/
def execNvmStore (n : Fin 4) (s : State) : Out :=
  let r := s.fld n.val 0 1
  .next (s.carry n.val 0x0801 (· == 3) (some 1) (decide (1 ≤ r) && decide (r ≤ 3)) fun t => t.storeCmd n r)

/-- VERSION of an image region as NVM_STAT shows it: 0xFFFF when blank (R463). -/
def State.verShown (s : State) (k : Nat) : Nat := if s.imgMagic k then s.imgVer k else 0xFFFF

/-- NVM_STAT (R455, R466, R469). -/
def execNvmStat (n : Fin 4) (s : State) : Out :=
  .next (s.query n.val 0x0802 fun t =>
    ((List.range 4).flatMap fun r => le 4 (t.regionErases r)) ++ le 2 (t.verShown 1) ++ le 2 (t.verShown 2) ++ le 2 t.rollbackNow
      ++ [BitVec.ofNat 8 t.sys.image, byteOf ((List.range 4).map fun r => decide (0xFFFFFFFF ≤ t.regionErases r))])

/-- Whether an image store is queued or being programmed (R464). -/
def State.imgStoring (s : State) : Bool :=
  (s.nvm.q ++ s.nvm.prog.toList).any fun r => r.kind == .imgA || r.kind == .imgB

/-- IMAGE_LOAD (R464): bytes of the staging buffer. -/
def execImageLoad (n : Fin 4) (s : State) : Out :=
  let o := s.fld n.val 0 4
  let k := s.frameLen n.val - 4
  .next (s.carry n.val 0x0803 (fun l => decide (5 ≤ l) && decide (l ≤ 244)) none (decide (o ≤ 98303) && decide (o + k ≤ 98304)) fun t =>
    if t.imgStoring then t.finish n.val St.busyRetry
    else (t.onNvm fun x => { x with stage := memPuts zeroByte x.stage o (t.inBytes n.val 12 k), staged := true }).finish n.val St.ok)

/-- How IMAGE_ACT of image `k` completes (R465). -/
def State.imgActStatus (s : State) (k : Nat) : Byte :=
  let o := 3 - k
  if !s.imgOk k then St.authFail
  else if s.imgVer k < s.rollbackNow then St.notPermitted
  else if s.imgOk o && (s.imgVer k < s.imgVer o || (s.imgVer k == s.imgVer o && k == 2)) then St.notPermitted
  else St.ok

/-- IMAGE_ACT (R465): the module reset follows the release. -/
def execImageAct (n : Fin 4) (s : State) : Out :=
  let k := s.fld n.val 0 1
  .next (s.carry n.val 0x0804 (· == 3) (some 1) (decide (1 ≤ k) && decide (k ≤ 2)) fun t =>
    if t.imgActStatus k = St.ok then t.finishAct n.val else t.finish n.val (t.imgActStatus k))

/-- ADDR_SET (R365): the attention address acts at once, the host-port address through a store and a reset. -/
def execAddrSet (n : Fin 4) (s : State) : Out :=
  let h := s.fld n.val 0 1
  let a := s.fld n.val 1 1
  .next (s.carry n.val 0x0805 (· == 2) none (decide (0x08 ≤ h) && decide (h ≤ 0x77) && decide (0x08 ≤ a) && decide (a ≤ 0x77)) fun t =>
    (t.onBus fun b => { b with cfgAddr := BitVec.ofNat 8 h, attnAddr := BitVec.ofNat 8 a }).finish n.val St.ok)

/-- The device public key in uncompressed form, 65 bytes (R476). -/
def pubKeyBytes : List Byte := 0x04 :: (Config.pubKey ++ List.replicate 64 0).take 64

/-- ID_GET (R473, R474). -/
def execIdGet (n : Fin 4) (s : State) : Out :=
  .next (s.query n.val 0x0806 fun _ => le 8 Config.serial ++ pubKeyBytes ++ ([0, 1, 2].flatMap fun k => le 2 (certOf k).length))

/-- CERT_GET (R474): at most 224 bytes from OFFSET. -/
def execCertGet (n : Fin 4) (s : State) : Out :=
  let k := s.fld n.val 0 1
  let o := s.fld n.val 1 2
  .next (s.carry n.val 0x0807 (· == 3) none (decide (k ≤ 2) && decide (o < (certOf k).length)) fun t =>
    let l := ((certOf k).drop o).take 224
    t.finish n.val St.ok (le 2 (certOf k).length ++ [BitVec.ofNat 8 l.length] ++ l))

/-- The data of LOG_SIGN: the valid entries of the range, then the nonce, are digested and the digest is signed (R475). -/
def State.signData (s : State) (n : Nat) : List Byte :=
  let l := s.nvm.ring.filter fun e => e.ok && s.fld n 16 4 ≤ e.seqno && e.seqno ≤ s.fld n 20 4
  let d := digest (l.flatMap (·.bytes) ++ s.inBytes n 8 16)
  le 2 l.length ++ d ++ deviceSig s.free d

/-- LOG_SIGN. -/
def execLogSign (n : Fin 4) (s : State) : Out :=
  .next (s.carry n.val 0x0808 (· == 24) none (decide (s.fld n.val 16 4 ≤ s.fld n.val 20 4)) fun t =>
    ((t.accept n.val).useFree 1).finish n.val St.ok (t.signData n.val))

/-! ## The write queue at work (R457 to R469) -/

/-- The bank that does not hold the copy in force (R460). -/
def State.bankFree (s : State) : Nat :=
  match s.bankNow with
  | some (0, _) => 1
  | _ => 0

/-- A rollback record is programmed before the bank where the running image's release exceeds the counter (R466). -/
def State.rollbackRise (s : State) : State :=
  if s.sys.image != 0 && s.rollbackNow < s.sys.imageVer.toNat then
    if s.nvm.rollback.length < 256 then s.onNvm fun x => { x with rollback := x.rollback ++ [rbRecord s.sys.imageVer] }
    else s.when (!s.nvm.rbFullSent) fun t => (t.onNvm fun x => { x with rbFullSent := true }).raise Src.nvm Ev.rollbackFull
  else s

/-- An image store begins: the write count of its region rises and its sectors are erased, that of the header first (R455, R464). -/
def State.imgBegin (s : State) (k : Nat) : State :=
  (s.onNvm fun x => { x with writeCnt := x.writeCnt.modify (k - 1) (satInc 0xFFFFFFFF) }).eraseBegin (k - 1) (regionSectors (k - 1))

/-- A configuration store begins: the values in force are taken, and the bank not in force is erased, after the rollback record where one is due (R459,
R460, R466). -/
def State.cfgBegin (s : State) (r : NvmReq) : State :=
  let b := s.bankFree
  let s1 := s.rollbackRise
  let rb := decide (s.nvm.rollback.length < s1.nvm.rollback.length)
  let s2 := s1.onNvm fun x => { x with prog := some { r with cfg := s.cfgStored, bank := b, rb := rb, left := bankSectors b } }
  if rb then s2 else s2.eraseBegin 2 (bankSectors b)

/-- The erases of a store that are still to come are done (R460, R464). -/
def State.eraseRest (s : State) (r : NvmReq) : State :=
  match r.kind with
  | .cfg => s.eraseSectors 2 r.left
  | .imgA => s.eraseSectors 0 r.left
  | .imgB => s.eraseSectors 1 r.left
  | .lastFault | .snapshot => s

/-- The bytes of a body, whose layout the spec does not give (R460, log entry 7). -/
def State.bodyBytes (s : State) : List Byte := (Config.freeBytes s.free).take 12256

/-- A request leaves the head of the queue unwritten with `status` (R321, R458): a staged record stays staged, a snapshot is
dropped, and counted where `count` says so. -/
def State.reqGone (s : State) (r : NvmReq) (status : Byte) (count : Bool) : State :=
  match r.kind with
  | .cfg | .imgA | .imgB => s.finishO r.box status
  | .lastFault => s.lfUnqueue r.slot
  | .snapshot => s.when count fun t => t.drop 12

/-- NVM_REQUEST_START (R458): `energy` says whether the highest of BAT+, PA, PB and PC has been at least 6.0 V for 10 ms. With NVM
writes fenced nothing is written (R321). -/
def execNvmRequestStart (energy : Bool) (s : State) : Out :=
  match s.nvm.q, s.nvm.prog with
  | r :: rest, none =>
    if !s.sys.fwRun then .next s
    else if s.nvmFenced then settle s (((s.onNvm fun x => { x with q := rest }).reqGone r St.nvmFail false).shipCheck)
    else if !energy || s.seq.pfw then .next s
    else
      let s1 := (s.aheadEnd false).onNvm fun x => { x with q := rest, prog := some r }
      let s2 := match r.box with
        | some n => s1.onBox n.val fun b => { b with begun := true, pnr := true }
        | none => s1
      .next (match r.kind with
        | .cfg => s2.cfgBegin r
        | .imgA => s2.imgBegin 1
        | .imgB => s2.imgBegin 2
        | .lastFault | .snapshot => s2)
  | _, _ => .next s

/-- RET slot `k` is freed; the other record moves up, with the request that names it (R169). -/
def State.lfFree (s : State) (k : Nat) : State :=
  (s.onFlt fun f => { f with lfSlot := f.lfSlot.eraseIdx k }).onNvm fun x => { x with
    q := x.q.map fun r => if r.kind == .lastFault && k < r.slot then { r with slot := r.slot - 1 } else r }

/-- The write of `r` stands (R460, R462, R464). -/
def State.writeDone (s : State) (r : NvmReq) : State :=
  let t := (s.onNvm fun x => { x with prog := none }).eraseRest r
  match r.kind with
  | .cfg =>
    let seq := match s.bankNow with
      | some (_, b) => b.seq + 1
      | none => 1
    ((t.onNvm fun x => { x with
      cfg := x.cfg.set r.bank (some { hdr := bankHdr seq s.sys.imageVer s.bodyBytes, body := s.bodyBytes, cfg := r.cfg }) }).useFree 1).finishO r.box St.ok
  | .imgA => (t.onNvm fun x => { x with imgA := stagedCells 98304 0 x.stage }).finishO r.box St.ok
  | .imgB => (t.onNvm fun x => { x with imgB := stagedCells 98304 0 x.stage }).finishO r.box St.ok
  | .lastFault => (((t.lfPut (t.flt.lfSlot.getD r.slot {})).lfFree r.slot)).lfAhead
  | .snapshot => (t.ringPut r.snap).ringAhead

/-- The write of `r` fails its read-back twice (R468): a store fails; a log write stays torn and is written again at the next
slot. -/
def State.writeFailed (s : State) (r : NvmReq) : State :=
  let t := s.raise Src.nvm Ev.nvmVerify
  match r.kind with
  | .cfg | .imgA | .imgB => ((t.onNvm fun x => { x with prog := none }).eraseRest r).finishO r.box St.nvmFail
  | .lastFault => (t.lfPut { (t.flt.lfSlot.getD r.slot {}) with torn := true }).lfAhead
  | .snapshot => (t.ringPut { r.snap with torn := true }).ringAhead

/-- NVM_PROGRAM_DONE (R468): whether the first read-back compared, and the second where it did not. Staged records are offered
at each completion (R171). With no write in progress it ends an erase ahead. -/
def execNvmProgramDone (first again : Bool) (s : State) : Out :=
  match s.nvm.prog with
  | some r => settle s (((if first || again then s.writeDone r else s.writeFailed r).lfOffers).shipCheck)
  | none => .next (s.aheadEnd false)

/-- NVM_ENERGY_WAIT_EXPIRY (R458): the head of the queue has waited 1 s for energy. -/
def execNvmEnergyWaitExpiry (s : State) : Out :=
  match s.nvm.q, s.nvm.prog with
  | r :: rest, none => settle s (((s.onNvm fun x => { x with q := rest }).reqGone r St.nvmAbandoned true).shipCheck)
  | _, _ => .next s

/-- NVM_CUT (R311, R467): the energy condition is lost during programming, or in an erase ahead. -/
def execNvmCut (s : State) : Out :=
  match s.nvm.prog with
  | some r => settle s ((((s.cutProg).finishO r.box St.nvmAbandoned).snapsDrop).shipCheck)
  | none => settle s (if s.nvm.ahead.isSome then ((s.aheadEnd true).snapsDrop).shipCheck else s)

/-! ## Option fuses (R471, R472) -/

/-- Whether a blow of the fuses `ask` is refused, with the node voltages `n` (R472). -/
def State.fuseBar (s : State) (ask : BitVec 5) (n : Nodes) : Bool :=
  s.sys.mode != .run || max (max n.pa n.pb) (max n.pc n.bat) < 6000 || s.caseT < 0 || 850 < s.caseT || (ask.getLsbD 4 && s.sys.halted)

/-- An accepted pair at FUSE. -/
def State.fuseWrite (s : State) (v : Byte) (n : Nodes) : State :=
  let ask := v.setWidth 5 &&& ~~~s.grd.fuse
  if s.grd.fbusy then s.guardFail .host
  else if ask = 0 then s
  else if s.fuseBar ask n then (s.guardFail .host).onGrd fun g => { g with fref := true }
  else s.onGrd fun g => { g with fuseAsk := ask, fbusy := true, fref := false }

/-- FUSE (R471, R472). -/
def execFuse (c : BitVec 8) (single : Bool) (n : Nodes) (s : State) : Out :=
  .next (s.guardPair .host 0x54 c single fun v t => t.fuseWrite v n)

/-- FUSE_BLOW_DONE (R472): `sensed` are the fuses that read blown. ROLELOCK and DBGLOCK act at once. -/
def execFuseBlowDone (sensed : BitVec 5) (s : State) : Out :=
  if !s.grd.fbusy then .next s
  else
    let won := s.grd.fuseAsk &&& sensed
    let lost := s.grd.fuseAsk &&& ~~~sensed
    let s1 := s.onGrd fun g => { g with
      fuse := g.fuse ||| won, fuseLive := g.fuseLive ||| (won &&& 0x18), fbusy := false, fuseAsk := 0, fref := g.fref || lost != 0
      fuseStraps := if won.getLsbD 3 then s.sys.straps else g.fuseStraps }
    .next (s1.when (lost != 0) fun t => t.raise Src.nvm Ev.fuseFail)

end Sys2Proof.Machine
end

