-- ==== Sys2Proof/Machine/StkOps.lean ====
section
/-! DEFINITION. Shared operations of the stack (chapter 15): frames and reports, steps of the time base, the stack basin and its
grants, the cascade group and the order of a stack election. -/
namespace Sys2Proof.Machine

/-! ## Frames (R426, R429) -/

/-! Stack command codes (R428). -/
namespace Scmd
def none : Nat := 0x00
def time1 : Nat := 0x01
def time2 : Nat := 0x02
def scap : Nat := 0x03
def safeg : Nat := 0x04
def expectLo : Nat := 0x05
def expectHi : Nat := 0x06
def delay : Nat := 0x07
def tstep : Nat := 0x08
def seqLo : Nat := 0x09
def seqHi : Nat := 0x0A
def seqGo : Nat := 0x0B
def dormant : Nat := 0x0C
def jstart : Nat := 0x0D
def jdata : Nat := 0x0E
def jresult : Nat := 0x0F
end Scmd

/-- Exactly `n` bytes: cut or filled with zeros. -/
def fixLen (n : Nat) (l : List Byte) : List Byte := (l ++ List.replicate n 0).take n

/-- A frame of 44 bytes before the whitening of the line (R426). -/
def State.frame (s : State) (type arg : Nat) (payload : List Byte) : List Byte :=
  let body := [BitVec.ofNat 8 (s.stkId + 32 * b2n s.stk.acting + 64), BitVec.ofNat 8 type] ++ le 2 s.stk.cyc ++ le 2 arg ++ fixLen 32 payload
  [0x55, 0xD5] ++ body ++ le 4 (crc32 body)

/-- The module sends a frame. -/
def State.sendFrame (s : State) (type arg : Nat) (payload : List Byte) : State :=
  s.onStk fun k => { k with txFrame := s.frame type arg payload }

/-- LOCALB: the least of rating, thermal ceiling and host cap (R429). -/
def State.localB (s : State) : Nat := min (if s.fab.peak == .recovery then 6000 else 8000) (min s.fab.thCeil s.fab.hostCap)

/-- The FSW of member `k` as it stated it in its join request, or a free value where this module knows none (R430, R439, log entry 7). -/
def State.fswOf (s : State) (k : Nat) : Nat :=
  match s.stk.fsws.find? fun p => p.1 == k with
  | some p => p.2
  | none => s.freeN 0

/-- The other members of this module's group that were READY in the reports of the previous cycle (R439). -/
def State.readyOthers (s : State) (g : Nat) : List Nat :=
  (bitsOf 4 (0xF : BitVec 4)).map (fun k => 4 * g + k) |>.filter fun id =>
    id != s.stkId && s.stk.reports.any fun r => r.id == id && r.fresh && r.rflags.getLsbD 2

/-- Whether this module is READY for its cascade group (R439): not while ALIGN_LOST holds, with which it has left its group (R445). -/
def State.ready (s : State) : Bool :=
  let others := s.readyOthers (s.stkId / 4)
  let ref := match s.stk.loopM with
    | some m => if m.val != s.stkId && others.contains m.val then some m.val else none
    | none => others.find? fun k => decide (k < s.stkId)
  s.inGroup && s.stk.joined && s.stk.aligned && s.runs && s.pp.presC && !s.flt.stkf.getLsbD 3 && !s.flt.stkf.getLsbD 4
    && (match ref with
      | some k => s.fswOf k == s.cc.fsw
      | none => true)

/-- What has become of the run that SEQ_GO started: 0 in progress, 1 done, 2 failed (R429). -/
def State.seqProg (s : State) : Nat :=
  match s.stk.seqAct with
  | 1 => if s.seq.st == .up || s.seq.upHeld.isSome then 0 else if s.seq.st == .on then 1 else 2
  | 2 =>
    if s.seq.st == .warning || s.seq.st == .down || (s.seq.st == .up && s.seq.downHeld.isSome) then 0
    else if s.seq.st == .off then 1 else 2
  | 3 => 1
  | _ => 2

/-- ACK: the stack command last acted on and its outcome (R429). -/
def State.ackNow (s : State) : Byte :=
  if s.stk.seqAct = 1 ∨ s.stk.seqAct = 2 then BitVec.ofNat 8 (Scmd.seqGo + 32 * s.seqProg) else s.stk.ack

/-- NCASC: the phases on the cascade port; on the loop master the group target (R429). -/
def State.ncasc (s : State) : Nat := if s.stk.casc && s.stk.lmaster then s.groupTarget else (s.serving .pc).length

/-- The report of this module (R429). -/
def State.ownRep (s : State) (c : CycIn) : MemberRep :=
  { id := s.stkId, mode := s.modeByte, path := s.pathByte, flt := s.fltSum
    rflags := byteOf [s.stk.aligned, s.pp.batPres, s.ready, s.dormCond c.load none true]
    req := ports.foldl (fun a p => a + (if s.active p then min (s.path p).req (s.capOf p (s.sourcing p)) else 0)) 0
    used := c.used, localb := s.localB
    prio := ports.foldl (fun a p => if s.active p && (s.path p).unmet then min a (s.path p).prio else a) 7
    ncasc := s.ncasc, ack := s.ackNow, ibatc := c.ibatc, iportc := c.iportc, fresh := true }

/-- The payload of a report, with the fault report `fr` where one waits (R429). -/
def State.repPayload (s : State) (c : CycIn) (fr : Option FaultRep) : List Byte :=
  let r := s.ownRep c
  [r.mode, r.path, r.flt, r.rflags] ++ le 2 (min r.req 0xFFFF) ++ le 2 (min r.used 0xFFFF) ++ le 2 r.localb
    ++ [BitVec.ofNat 8 r.prio, BitVec.ofNat 8 r.ncasc, r.ack, 0] ++ s16 r.ibatc ++ s16 r.iportc
    ++ (match fr with
      | some f => stampBytes f.stamp ++ [BitVec.ofNat 8 f.source.toNat] ++ le 2 f.cause.toNat ++ [f.cls, f.seq, 1]
      | none => List.replicate 14 0)

/-! ## The transmit queue (R33, R428) -/

/-- A stack command joins the manager's transmit queue, or is dropped with 12 or more entries occupied (R33). -/
def State.queueScmd (s : State) (code arg : Nat) : State :=
  if s.qs.stkTx.length < 12 then
    (s.onQs fun q => { q with stkTx := q.stkTx ++ [0] }).onStk fun k => { k with scmdQ := k.scmdQ ++ [(code, BitVec.ofNat 16 arg)] }
  else s.drop 11

/-- The rotation's commands in order, with their arguments (R428). -/
def State.rotCmd (s : State) : Nat × Nat :=
  match s.stk.rot with
  | 0 => (Scmd.time1, s.stk.cyc / 2 ^ 16 % 2 ^ 16)
  | 1 => (Scmd.time2, s.stk.cyc / 2 ^ 32 % 256 + 256 * s.clk.epoch.toNat)
  | 2 => (Scmd.scap, s.stk.scap / 4)
  | 3 => (Scmd.safeg, s.stk.safegSet)
  | 4 => (Scmd.expectLo, s.stk.expect.toNat % 2 ^ 16)
  | _ => (Scmd.expectHi, s.stk.expect.toNat / 2 ^ 16)

/-- The next join data takes an entry of the transmit queue while there is room for it and none is queued (R29, R33, R428, R430). -/
def State.feedJoin (s : State) : State :=
  match s.stk.joinOut with
  | a :: r =>
    if s.qs.stkTx.length < 12 && !(s.stk.scmdQ.any fun c => c.1 == Scmd.jdata) then
      (s.onStk fun k => { k with joinOut := r.drop 1 }).queueScmd Scmd.jdata (a.toNat + 256 * (r.headD 0).toNat)
    else s
  | [] => s

/-- The stack command of this cycle is chosen and leaves its queue (R428): a rotation command after 63 cycles without one, else
the first queued, else the rotation. -/
def State.nextScmd (s : State) : State × Nat × Nat :=
  let s := s.feedJoin
  let rotNow := (s.onStk fun k => { k with rot := (k.rot + 1) % 6, sinceRot := 0 }, s.rotCmd.1, s.rotCmd.2)
  let t := s.onStk fun k => { k with sinceRot := k.sinceRot + 1 }
  if 63 ≤ s.stk.sinceRot then rotNow
  else
    match s.stk.scmdQ with
    | (c, a) :: rest => ((t.onStk fun k => { k with scmdQ := rest }).onQs fun q => { q with stkTx := q.stkTx.erase 0 }, c, a.toNat)
    | [] => rotNow

/-! ## Steps of the time base (R433, R435) -/

/-- GTS steps forward by `n` µs, with STK_TIME_STEP; the epoch changes by each wrap that the step passes. -/
def State.timeStep (s : State) (n : Nat) : State :=
  if n = 0 then s
  else
    let t := ((List.range (n / 2 ^ 48)).foldl (fun u _ => u.gtsAdd (2 ^ 48)) s).gtsAdd (n % 2 ^ 48)
    t.raise Src.stack Ev.stkTimeStep (le 4 s.clk.gts.toNat ++ le 4 t.clk.gts.toNat)

/-- A lag of `ticks` cycles of MOSC is removed by a forward step of GTS and FINE. -/
def State.lagStep (s : State) (ticks : Nat) : State :=
  let v := s.clk.fine.toNat + ticks
  let t := (s.onClk fun c => { c with fine := BitVec.ofNat 7 (v % 128) }).gtsAdd (v / 128)
  t.raise Src.stack Ev.stkTimeStep (le 4 s.clk.gts.toNat ++ le 4 t.clk.gts.toNat)

/-- The manager's time at the start of the cycle that follows the one this worker knows, with the TSTEP that acts there (R432, R433): GTS 0 of the next
epoch where the cycle before is shortened by a wrap (R424). -/
def State.mgrNext (s : State) : Nat :=
  let g := (s.stk.cyc + 1) * 1000
  (s.stk.mgrEpoch.toNat * 2 ^ 48 + min g (2 ^ 48) + s.stk.tstep * 1000) % 2 ^ 56

/-- A worker's cycle number at a cycle start (R426, R432). -/
def State.nextCyc (s : State) : State :=
  let t := s.mgrNext
  s.onStk fun k => { k with cyc := t % 2 ^ 48 / 1000, mgrEpoch := BitVec.ofNat 8 (t / 2 ^ 48) }

/-- A step to the manager's time at this cycle start (R433). A module that is ahead waits for the TSTEP that lets the others pass it, since GTS never
decreases (log entry 110). -/
def State.alignStep (s : State) : State :=
  let lag := (s.mgrNext + 2 ^ 56 - s.now) % 2 ^ 56
  if lag < 2 ^ 55 then (s.onStk fun k => { k with alignDue := false }).timeStep lag
  else s.onStk fun k => { k with alignDue := decide (2 < 2 ^ 56 - lag) }

/-! ## Fences of the stack (R322, R445, R446) -/

/-- The stack cause of index `k` no longer holds: UNFENCE. -/
def State.stkLift (s : State) (k : Nat) : State :=
  if s.flt.stkf.getLsbD k then
    ((s.onFlt fun f => { f with stkf := setBit f.stkf k false }).raise Src.stack Ev.unfence
      ([BitVec.ofNat 8 Src.stack] ++ le 2 (0x0600 + k))).modeFix
  else s

/-- Worker `k` is no longer fenced from the stack. -/
def State.memberLift (s : State) (k : Nat) : State :=
  if s.stk.fencedM.getLsbD k then
    (((s.onStk fun x => { x with fencedM := setBit x.fencedM k false, fencedBy := x.fencedBy.set k 0 }).raise Src.stack Ev.unfence
      ([BitVec.ofNat 8 Src.stack] ++ le 2 (s.memberCause k))).modeFix).useFree 32
  else s

/-- SYNC_IN is ignored while the module is a member (R436). -/
def State.syncIgnore (s : State) : State :=
  s.onCc fun c => { c with synced := false, sync := if c.sync == .locked then .acquiring else c.sync }

/-! ## The cascade group (R439, R440, R444) -/

/-- Every gate of the cascade port turns off at once (R442, R445). -/
def State.cascGatesOff (s : State) : State :=
  phaseNos.foldl (fun t i =>
    let x := t.phase i
    if x.port == some .pc && x.st.gatesOn && x.st != .limp then (t.onPhase i freed).place i (some .pc) none Why.fence else t) s

/-- This module comes to run its own compensator of the PC path: its path begins under R166 (R444). -/
def State.pcRestart (s : State) : State :=
  s.onCc fun c => { c with comp := c.comp.modify 2 fun k => { k with
    diode := true, ramp := true, above := 0, vsRef := 1000 * s.pp.nodes.vsys, uh := s.uhPreset .pc } }

/-- This module comes to follow a loop master, or another one: references zero, switch DIODE, charge OFF, ports only Rd (R440, R444). -/
def State.followNew (s : State) : State :=
  let s1 := (s.onStk fun k => { k with iunit := 0, bsw := false }).onCc fun c => { c with comp := c.comp.modify 2 fun k => { k with ipath := 0 } }
  let s2 := (s1.onPp fun x => { x with batSw := if x.batSw == .off then .off else .diode, soft := .no, linBefore := false, linRef := 0 })
  s2.when (s2.chg.phase != .off) State.chgOff

/-- The loop master of a group whose READY members are `l`: the one that was, while it stays READY, else the lowest (R439). -/
def leadFrom (was : Option Nat) (l : List Nat) : Option Nat :=
  match was with
  | some m => if l.contains m then some m else l.head?
  | none => l.head?

/-- Whether this module was READY in its own report of the previous cycle; a manager, which sends none, whether it is (R439). -/
def State.ownReady (s : State) : Bool := if s.isManager then s.ready else s.stk.own.fresh && s.stk.own.rflags.getLsbD 2

/-- The READY members of this module's group, itself among them where it is, ascending. -/
def State.groupIds (s : State) : List Nat :=
  let g := s.stkId / 4
  let o := s.readyOthers g
  (List.range 4).map (fun k => 4 * g + k) |>.filter fun k => if k = s.stkId then s.ownReady else o.contains k

/-- CASC_REF_LOST no longer counts once the loop master whose frames were missing has left the group (R439). -/
def State.refForgive (s : State) : State :=
  match s.stk.loopM with
  | some m =>
    s.when (s.flt.stkf.getLsbD 4 && m.val != s.stkId && !(s.readyOthers (s.stkId / 4)).contains m.val) fun t =>
      (t.onStk fun k => { k with refLost := false }).stkLift 4
  | none => s

/-- A change of loop master (R444): no reference frame for 10 µs. A new master takes the group's phases as its target (R443). -/
def State.masterNew (s : State) (lm : Bool) : State :=
  s.onStk fun k => { k with refFrom := s.now + 10, refSkip := false, nTgt := if lm then s.groupN else k.nTgt }

/-- The group is computed at a cycle start from the previous cycle's reports, with CASC_FORM and CASC_MASTER (R439, R440, R444). -/
def State.groupCompute (s0 : State) : State :=
  if !s0.inGroup then s0
  else
    let s := s0.refForgive
    let g := s.stkId / 4
    let l := s.groupIds
    let mask : BitVec 4 := BitVec.ofNat 4 ((l.map fun k => 2 ^ (k % 4)).foldl (· + ·) 0)
    let lead := leadFrom (s.stk.loopM.map (·.val)) l
    let leadF : Option (Fin 32) := lead.map fun k => ⟨k % 32, Nat.mod_lt _ (by decide)⟩
    let on := decide (2 ≤ l.length) && l.contains s.stkId
    let lm := on && lead == some s.stkId
    let moved := s.stk.loopM != leadF
    let s1 := s.onStk fun k => { k with group := mask, loopM := leadF, casc := on, lmaster := lm }
    let s2 := s1.when (mask != s.stk.group) fun t => t.raise Src.stack Ev.cascForm [BitVec.ofNat 8 g, BitVec.ofNat 8 mask.toNat]
    let s3 := s2.when moved fun t => match lead with
      | some k => t.raise Src.stack Ev.cascMaster [BitVec.ofNat 8 g, BitVec.ofNat 8 k]
      | none => t
    let s4 := s3.when (moved && s.stk.loopM.isSome) fun t => (t.onStk fun k => { k with refLost := false }).stkLift 4
    let was := s.follower
    let now := on && !lm
    let s5 := s4.when (now && (!was || moved)) State.followNew
    let s6 := s5.when (!now && (was || (lm && !(s.stk.casc && s.stk.lmaster)))) State.pcRestart
    let s7 := s6.when (on && !s.stk.casc) fun t => (((t.frsDisarm .a 1).frsDisarm .b 1).srcRemove .a).srcRemove .b
    let s8 := s7.when (moved || (on && !s.stk.casc)) fun t => t.masterNew lm
    let s9 := if on then s8.groupAngle (fun _ => true) else s8.when s.stk.casc fun t => t.reAngle .pc
    s9.when now fun t => match lead.bind t.repOf with
      | some r => t.onPp fun x => { x with batPres := r.rflags.getLsbD 1 }
      | none => t

/-! ## The stack basin (R437, R438) -/

/-- One unit of the stack basin: a member by its STK_ID, or group g as 32 + g. -/
structure StkUnit where
  key : Nat
  req : Nat := 0
  used : Nat := 0
  cap : Nat := 0
  prio : Nat := 7
  grant : Nat := 0
  scale : Nat := 32
  fresh : Bool := true
  deriving DecidableEq, Repr

/-- The sum of the grants of a list of units. -/
def sumU (l : List StkUnit) : Nat := l.foldl (fun a u => a + u.grant) 0

/-- Lowers the grants of the units that `ok` admits by `e` in all, in proportion to what stands above `fl`. -/
def lowerU (ok : StkUnit → Bool) (fl e : Nat) (l : List StkUnit) : List StkUnit :=
  let t := (l.filter ok).foldl (fun a u => a + (u.grant - fl)) 0
  if t = 0 then l
  else l.map fun u => if ok u && decide (fl < u.grant) then { u with grant := fl + (u.grant - fl) * (t - min t e) / t } else u

/-- Raises each unit of priority `k` to the floor of 32 credits while credits are free. -/
def floorU (b k : Nat) : List StkUnit → List StkUnit → List StkUnit
  | done, [] => done
  | done, u :: r =>
    let free := b - sumU (done ++ u :: r)
    let v := if u.fresh && u.prio == k && decide (u.grant < 32) then { u with grant := u.grant + min (32 - u.grant) free } else u
    floorU b k (done ++ [v]) r

/-- What a unit asks for (step 5 of R111). -/
def askU (u : StkUnit) : Nat := if u.fresh then min u.req u.cap - u.grant else 0

/-- Asks of priority `k` share the free credits in proportion. -/
def serveU (b k : Nat) (l : List StkUnit) : List StkUnit :=
  let t := (l.filter fun u => u.prio == k).foldl (fun a u => a + askU u) 0
  let f := b - sumU l
  l.map fun u => if u.prio == k then { u with grant := u.grant + (if t ≤ f then askU u else askU u * f / t) } else u

/-- Step 6 for asks of priority `k` still unmet: lower-priority units are lowered towards their floors, lowest priority first. -/
def reclaimU (k : Nat) : List Nat → Nat → List StkUnit → List StkUnit
  | [], _, l => l
  | q :: r, e, l =>
    if q ≤ k || e = 0 then l
    else
      let l1 := lowerU (fun u => u.fresh && u.prio == q) 32 e l
      reclaimU k r (e - (sumU l - sumU l1)) l1

/-- The six steps of R111 as R438 substitutes them; a unit without a fresh report keeps its grant, and each grant is rounded down
to its unit of R427. -/
def grantUnits (b : Nat) (l : List StkUnit) : List StkUnit :=
  let l1 := l.map fun u => if u.fresh then { u with grant := min (min u.grant (max u.req (u.used + marginOf u.used))) u.cap } else u
  let l2 := prioDown.foldl (fun x k => lowerU (fun u => u.fresh && u.prio == k) 0 (sumU x - b) x) l1
  let l3 := prioDown.reverse.foldl (fun x k => floorU b k [] x) l2
  let l4 := prioDown.reverse.foldl (fun x k => serveU b k x) l3
  let l5 := prioDown.reverse.foldl (fun x k => reclaimU k prioDown ((x.filter fun u => u.prio == k).foldl (fun a u => a + askU u) 0) x) l4
  l5.map fun u => if u.fresh then { u with grant := u.scale * min 250 (u.grant / u.scale) } else u

/-- The grant a unit held. -/
def State.heldGrant (s : State) (key : Nat) : Nat :=
  match s.stk.mgrants.find? fun p => p.1 == key with
  | some p => p.2
  | none => 0

/-- The members not fenced from the stack: the manager and its workers. -/
def State.memberIds (s : State) : List Nat :=
  (bitsOf 32 s.stk.members).filter fun k => !s.stk.fencedM.getLsbD k

/-- The report of member `k` as the manager takes it: its own for itself. -/
def State.repFor (s : State) (c : CycIn) (k : Nat) : Option MemberRep := if k = s.stkId then some (s.ownRep c) else s.repOf k

/-- The members of group `g` that are READY, ascending. -/
def State.groupOf (s : State) (c : CycIn) (g : Nat) : List Nat :=
  s.memberIds.filter fun k => k / 4 == g && (match s.repFor c k with
    | some r => r.fresh && r.rflags.getLsbD 2
    | none => false)

/-- The groups of two or more, each with its loop master (R437, R439). -/
def State.groupsNow (s : State) (c : CycIn) : List (Nat × Nat × List Nat) :=
  (List.range 8).filterMap fun g =>
    let l := s.groupOf c g
    let was := (s.stk.gLead.find? fun p => p.1 == g).map (·.2)
    match leadFrom was l with
    | some m => if 2 ≤ l.length then some (g, m, l) else none
    | none => none

/-- The units of the stack basin (R437): each group as one, and every other member. -/
def State.unitsNow (s : State) (c : CycIn) : List StkUnit :=
  let gs := s.groupsNow c
  let singles := s.memberIds.filter fun k => !(gs.any fun g => g.2.2.contains k)
  let one := singles.map fun k =>
    match s.repFor c k with
    | some r => { key := k, req := r.req, used := r.used, cap := r.localb, prio := r.prio, grant := s.heldGrant k, fresh := r.fresh : StkUnit }
    | none => { key := k, grant := s.heldGrant k, fresh := false }
  let grp := gs.map fun g =>
    let reps := g.2.2.filterMap (s.repFor c)
    let lead := (s.repFor c g.2.1).getD {}
    { key := 32 + g.1, req := lead.req, used := reps.foldl (fun a r => a + r.used) 0, cap := reps.foldl (fun a r => a + r.localb) 0
      prio := lead.prio, grant := s.heldGrant (32 + g.1), scale := 32 * g.2.2.length, fresh := lead.fresh : StkUnit }
  one ++ grp

/-- B_s (R437). -/
def State.sBasin (s : State) (c : CycIn) : Nat :=
  min s.stk.scap (s.memberIds.foldl (fun a k => a + (match s.repFor c k with
    | some r => r.localb
    | none => 0)) 0)

/-- The grant byte of member `k` (R427, R446). -/
def State.grantByte (s : State) (gs : List (Nat × Nat × List Nat)) (k : Nat) : Byte :=
  if s.stk.fencedM.getLsbD k then 0xFE
  else if !s.stk.members.getLsbD k then 0xFF
  else
    match gs.find? fun g => g.2.2.contains k with
    | some g => if g.2.1 = k then BitVec.ofNat 8 (s.heldGrant (32 + g.1) / (32 * g.2.2.length)) else 0xFD
    | none => BitVec.ofNat 8 (s.heldGrant k / 32)

/-- The 31 grant bytes (R427); an acting manager's own slot stands for STK_ID 0 (R449). -/
def State.grantBytes (s : State) (gs : List (Nat × Nat × List Nat)) : List Byte :=
  (List.range 31).map fun j => s.grantByte gs (if j + 1 = s.stkId then 0 else j + 1)

/-- The manager forms the stack basin and grants it (R437, R438); in HOLD its own grant is 0 (R446). -/
def State.basinStep (s : State) (c : CycIn) : State × List (Nat × Nat × List Nat) :=
  let gs := s.groupsNow c
  let b := s.sBasin c
  let l := grantUnits b (s.unitsNow c)
  let mine := fun (u : StkUnit) => u.key == s.stkId || (gs.any fun g => u.key == 32 + g.1 && g.2.1 == s.stkId)
  let l1 := if s.flt.hold then l.map fun u => if u.key = s.stkId then { u with grant := 0 } else u else l
  let own := match l1.find? mine with
    | some u => u.grant
    | none => s.stk.grant
  (s.onStk fun k => { k with
    sbasin := b, mgrants := l1.map fun u => (u.key, u.grant), gLead := gs.map fun g => (g.1, g.2.1), grant := if s.flt.hold then 0 else own }, gs)

/-! ## The order of a stack election (R27, R447) -/

/-- A stamp's full time in units of 7.8125 ns within its epoch; a COARSE stamp takes FINE as 0 (R27). -/
def fullTime (t : Stamp) : Nat := t.gts.toNat * 128 + (if t.coarse then 0 else t.fine.toNat)

/-- Whether a report is earlier in (epoch, full time). -/
def earlier (a b : FaultRep) : Bool :=
  decide (a.stamp.epoch.toNat < b.stamp.epoch.toNat) || (a.stamp.epoch == b.stamp.epoch && decide (fullTime a.stamp < fullTime b.stamp))

/-- The first of the reports in the order of R27: the lowest source number in the group of the earliest. -/
def rootOf : List FaultRep → Option FaultRep
  | [] => none
  | a :: r =>
    let e := r.foldl (fun x y => if earlier y x then y else x) a
    let grp := (a :: r).filter fun y => y.stamp.epoch == e.stamp.epoch && decide (10 * (fullTime y.stamp - fullTime e.stamp) < 256)
    some (grp.foldl (fun x y => if y.source.toNat < x.source.toNat then y else x) e)

/-- The record of a root on a worker (R338, R447). -/
def rootRec (r : FaultRep) : FaultRec :=
  { stamp := r.stamp, source := r.source, cause := r.cause, cls := r.cls.toNat % 8
    lasting := r.cls.getLsbD 3, transient := r.cls.getLsbD 4, hwFirst := r.cls.getLsbD 5, injected := r.cls.getLsbD 6 }

/-- A consequent is folded: COUNT, LASTDT and the MASK bit of its module (R447). -/
def foldMember (x : FaultRec) (c : FaultRep) : FaultRec :=
  { x with lastDt := min 0xFFFF (max x.lastDt (stampAt c.stamp - stampAt x.stamp)), mask := setBit x.mask (c.source.toNat / 256) true }

/-- Folds the consequents `l` into record `no`. -/
def State.foldMembers (s : State) (no : Nat) (l : List FaultRep) : State :=
  l.foldl (fun t c => (t.recAdd no 1).onRec no fun x => foldMember x c) s

/-- Whether an election closes now: 8 cycles after the end of its window (R447). -/
def State.electDue (s : State) (e : Election) : Bool :=
  match e.reps.head? with
  | some a => decide (stampAt a.stamp + 9000 ≤ s.now)
  | none => true

/-- Whether member `k` reported RUN or DEGRADED in the previous cycle. -/
def State.reportsRun (s : State) (k : Nat) : Bool :=
  match s.repOf k with
  | some r => r.fresh && (r.mode.toNat % 8 == 3 || r.mode.toNat % 8 == 4)
  | none => false

/-- The cycles in a row in which each fenced worker has reported RUN or DEGRADED, up to 1000 (R446). -/
def State.fenceWatch (s : State) : State :=
  let was := fun (k : Nat) => match s.stk.fenceRun.find? fun p => p.1 == k with
    | some p => p.2
    | none => 0
  let l := (bitsOf 32 s.stk.fencedM).map fun k => (k, if s.reportsRun k then min 1000 (was k + 1) else 0)
  s.onStk fun x => { x with fenceRun := l }

/-- The oldest open election closes; reports of its window that come later are not taken into another (R447). -/
def State.electClose (s0 : State) (e : Election) : State :=
  match rootOf e.reps with
  | none => s0
  | some a =>
    let s := s0.onStk fun k => { k with electShut := max k.electShut (((e.reps.head?.map fun x => stampAt x.stamp).getD 0) + 1000) }
    let rest := e.reps.erase a
    if a.source.toNat / 256 = s.stkId then
      match s.flt.recs.find? fun r => r.source == a.source && r.stamp == a.stamp && r.cause == a.cause with
      | some r => s.foldMembers r.recno rest
      | none => s
    else
      let t := s.openRec (rootRec a) false
      if t.flt.recno = s.flt.recno then t else t.foldMembers t.flt.recno rest

end Sys2Proof.Machine
end

