-- ==== Sys2Proof/Machine/Stack.lean ====
section
/-! DEFINITION. The stack bus, joining, the cascade group, takeover and stack dormancy (chapter 15), and the mailbox commands of
the 0x09xx family (R416). -/
namespace Sys2Proof.Machine

/-! ## Mailbox commands (R416) -/

/-- STACK_STAT. -/
def execStackStat (n : Fin 4) (s : State) : Out :=
  .next (s.query n.val 0x0901 fun t =>
    [BitVec.ofNat 8 t.stkRole, BitVec.ofNat 8 t.stkId] ++ le 4 t.stk.members.toNat ++ le 4 t.stk.fencedM.toNat
      ++ le 4 (if t.isManager then t.stk.sbasin else 0) ++ le 2 t.stk.grant)

/-- Whether the commands of the family but STACK_STAT are permitted: on a joined manager. -/
def State.stkCmdOk (s : State) : Bool := s.stk.joined && s.isManager

/-- STACK_SET: in force from the next stack cycle. -/
def execStackSet (n : Fin 4) (s : State) : Out :=
  let cap := s.fld n.val 4 4
  let sg := s.fld n.val 8 2
  .next (s.carry n.val 0x0902 (· == 12) (some 10) (10 ≤ cap && cap ≤ 256000 && sg ≤ 8000) fun t =>
    if t.stkCmdOk then
      (t.onStk fun k => { k with setNext := some (BitVec.ofNat 32 (t.fld n.val 0 4), cap, sg) }).finish n.val St.ok
    else t.finish n.val St.notPermitted)

/-- STACK_SEQ: the mask in two halves and SEQ_GO are queued (R428). One that finds another under way, or no room for its three
commands, is answered BUSY_RETRY. -/
def execStackSeq (n : Fin 4) (s : State) : Out :=
  let m := s.fld n.val 0 4
  let a := s.fld n.val 4 1
  .next (s.carry n.val 0x0903 (· == 5) none (a == 1 || a == 2) fun t =>
    if !t.stkCmdOk then t.finish n.val St.notPermitted
    else if t.stk.seqBox.isSome || 9 < t.qs.stkTx.length then t.finish n.val St.busyRetry
    else
      ((((t.accept n.val).onStk fun k => { k with seqBox := some n, seqPend := BitVec.ofNat 32 m, seqFail := 0, seqAct := 0 }).queueScmd
        Scmd.seqLo (m % 2 ^ 16)).queueScmd Scmd.seqHi (m / 2 ^ 16)).queueScmd Scmd.seqGo a)

/-- STACK_DORMANT: the manager watches the reports from now on (R450). -/
def execStackDormant (n : Fin 4) (s : State) : Out :=
  .next (s.carry n.val 0x0904 (· == 0) none true fun t =>
    if !t.stkCmdOk then t.finish n.val St.notPermitted
    else if t.stk.dormPh != 0 then t.finish n.val St.busyRetry
    else (t.accept n.val).onStk fun k => { k with dormBox := some n, dormPh := 1, notReady := 0 })

/-! ## A cycle start (R422, R424, R428, R433, R437 to R440, R450) -/

/-- SEQ_GO acts on this module (R298, R302, R428): its run begins, or the outcome stands already. -/
def State.seqGoAct (s : State) (a : Nat) : State :=
  let t := s.onStk fun k => { k with seqDo := none, seqAct := if s.isManager then 3 else 0 }
  if !s.stk.seqMask.getLsbD s.stkId then t
  else if a = 1 then
    if s.upCheck true == .refused then (t.upRequest 0x06 true).onStk fun k => { k with seqAct := if s.isManager then 4 else 0, ack := 0x4B }
    else (t.upRequest 0x06 true).onStk fun k => { k with seqAct := 1 }
  else if a = 2 then (t.downRequest 0x07).onStk fun k => { k with seqAct := 2 }
  else t

/-- DORMANT acts on a worker (R450): R84 is tested afresh with the stack condition met. -/
def State.dormAct (s : State) (iv load : Nat) : State :=
  if s.sys.dorm != .none then s
  else if s.dormCond load none true then
    ((s.onSys fun y => { y with wakeNow := if iv = 0 then y.wakeNow else iv }).onStk fun k => { k with ack := 0x0C, seqAct := 0 }).dormBegin
  else s.onStk fun k => { k with dormDo := none, ack := 0x4C, seqAct := 0 }

/-- What the previous cycle's commands do at a cycle start. -/
def State.cycleDue (s : State) (c : CycIn) : State :=
  let s1 := if s.stk.alignDue then s.alignStep else s.timeStep (s.stk.tstep * 1000)
  let s2 := (s1.when s.isWorker State.nextCyc).onStk fun k => { k with tstep := 0 }
  let s3 := match s.stk.seqDo with
    | some a => s2.seqGoAct a
    | none => s2
  match s.stk.dormDo with
  | some iv => s3.when s.isWorker fun t => t.dormAct iv c.load
  | none => s3

/-- A worker's grant without a manager: held, or falling to the lesser of the last grant and the local safe grant; that of a worker never joined is
the local safe grant (R422). -/
def State.grantDecay (s : State) : State :=
  let goal := min s.stk.grant s.stk.safeg
  let g := if !s.stk.everJoined then s.stk.safeg else if s.stk.fall then max (s.stk.grant - 500) goal else s.stk.grant
  s.onStk fun k => { k with
    grant := g, decay := k.everJoined && !k.heardCyc && k.wokeAt.isNone && !(k.fall && decide (g = goal)), heardCyc := false }

/-- What the manager makes of the reports to SEQ_GO (R416, R429): a run that did not end as ordered, or a member that is none any
more, has failed. -/
def State.seqWatch (s : State) : State :=
  if s.stk.seqAct = 0 ∨ s.stk.seqBox = none then s
  else
    let res := fun (k : Nat) =>
      if k = s.stkId then s.seqProg
      else if !s.memberIds.contains k then 2
      else match s.repOf k with
        | some r => if r.fresh && r.ack.toNat % 32 == Scmd.seqGo then r.ack.toNat / 32 % 4 else 0
        | none => 0
    let l := bitsOf 32 s.stk.seqPend
    let still := l.filter fun k => res k == 0
    let bad := l.filter fun k => res k == 2
    let fail := bad.foldl (fun m k => setBit m k true) s.stk.seqFail
    let pend := still.foldl (fun m k => setBit m k true) (0 : BitVec 32)
    let t := s.onStk fun k => { k with seqPend := pend, seqFail := fail }
    if still.isEmpty then (t.onStk fun k => { k with seqBox := none, seqAct := 0 }).finishO s.stk.seqBox St.ok (le 4 fail.toNat) else t

/-- STACK_DORMANT at a cycle start (R450): readiness, the sending of the command, and what the workers answered. -/
def State.dormWatch (s : State) (c : CycIn) : State :=
  match s.stk.dormPh with
  | 1 =>
    let late := (s.memberIds.filter fun k => k != s.stkId).filter fun k =>
      match s.repOf k with
      | some r => !(r.fresh && r.rflags.getLsbD 3)
      | none => true
    let mask := late.foldl (fun m k => setBit m k true) (if s.dormCond c.load s.stk.dormBox true then (0 : BitVec 32) else 1)
    let t := s.onStk fun k => { k with notReady := mask }
    if mask != 0 then t
    else
      let u := t.queueScmd Scmd.dormant s.sys.wakeS
      if s.qs.stkTx.length < 12 then u.onStk fun k => { k with dormPh := 2 } else u
  | 3 => s.onStk fun k => { k with dormPh := 4 }
  | 4 =>
    let bad := s.memberIds.filter fun k => k != s.stkId && (match s.repOf k with
      | some r => r.fresh && r.ack == 0x4C
      | none => false)
    if bad.isEmpty then
      match s.stk.dormBox with
      | some n => (s.onStk fun k => { k with dormPh := 5 }).finishAct n.val (le 4 0)
      | none => s.onStk fun k => { k with dormPh := 0 }
    else
      let mask := bad.foldl (fun m k => setBit m k true) (0 : BitVec 32)
      ((s.finishO s.stk.dormBox St.notPermitted (le 4 mask.toNat)).onStk fun k =>
        { k with dormPh := 0, dormBox := none, wakeM := k.members }).onBus fun b => { b with stkUpdTo := s.now + 10 }
  | _ => s

/-- What a stack command that the manager sends does on the manager itself (R428, R433). -/
def State.scmdSent (s : State) (code arg : Nat) : State :=
  s.onStk fun k =>
    match code with
    | 0x08 => { k with tstep := arg }
    | 0x09 => { k with seqMask := (k.seqMask &&& 0xFFFF0000) ||| BitVec.ofNat 32 arg }
    | 0x0A => { k with seqMask := (k.seqMask &&& 0xFFFF) ||| BitVec.ofNat 32 (65536 * arg) }
    | 0x0B => { k with seqDo := some arg }
    | 0x0C => { k with dormPh := if k.dormPh = 2 then 3 else k.dormPh }
    | _ => k

/-- The manager's slot 0 (R421, R424, R427, R437, R438). -/
def State.managerCycle (s : State) (c : CycIn) : State :=
  let own : BitVec 32 := BitVec.ofNat 32 (2 ^ s.stkId)
  let s0 := s.when (!s.stk.joined) State.syncIgnore
  let s1 := s0.onStk fun k => { k with
    joined := true, aligned := true, everJoined := true, joinSt := .idle, fall := false, decay := false
    members := k.members ||| own, cyc := s.now % 2 ^ 48 / 1000, mgrEpoch := s.clk.epoch
    expect := match k.setNext with
      | some x => x.1
      | none => k.expect
    scap := match k.setNext with
      | some x => x.2.1
      | none => k.scap
    safegSet := match k.setNext with
      | some x => x.2.2
      | none => k.safegSet
    setNext := none }
  let s2 := ((s1.fenceWatch).seqWatch).dormWatch c
  let (s3, gs) := s2.basinStep c
  let (s4, code, arg) := s3.nextScmd
  ((s4.sendFrame 0x01 arg (s3.grantBytes gs ++ [BitVec.ofNat 8 code])).scmdSent code arg)

/-- Whether the manager transmits at this cycle start: an acting one from 1 ms after its takeover began (R448). -/
def State.slot0Due (s : State) : Bool := s.isManager && (!s.stk.acting || decide (s.stk.takeAt + 1000 ≤ s.now))

/-- One cycle start. -/
def State.cycleStart (s : State) (c : CycIn) : State :=
  let s1 := s.cycleDue c
  let s2 := s1.when s.isWorker State.grantDecay
  let s3 := s2.groupCompute
  let s4 := s3.when s3.slot0Due fun t => (t.managerCycle c).onStk fun k => { k with own := t.ownRep c }
  (s4.onStk fun k => { k with reports := k.reports.map fun r => { r with fresh := false }, own := { k.own with fresh := false } }).useFree 2

/-- STACK_CYCLE_START (R424). -/
def execStackCycleStart (c : CycIn) (s : State) : Out := settle s (s.when (s.sys.fwRun && s.inStack) fun t => t.cycleStart c)

/-! ## A worker's slot (R425, R429, R430) -/

/-- The module's certificates as it sends them: device, then product CA (R430). -/
def ownCerts : List Byte := certOf 0 ++ certOf 1

/-- What the manager sent in the join: its nonce, certificates and signature (R430). -/
def State.mgrProof (s : State) : List Byte × List Byte × List Byte :=
  let d := s.stk.joinData
  (d.take 16, (d.drop 16).take (d.length - 80), d.drop (d.length - 64))

/-- Whether the manager's chain and signature verify, once all of it has come (R430, R431). -/
def State.mgrProved (s : State) : Bool :=
  let p := s.mgrProof
  80 ≤ s.stk.joinData.length && Config.joinChainOk p.2.1 (digest (s.stk.nonceW ++ p.1 ++ [BitVec.ofNat 8 s.stkId])) p.2.2

/-- The join frame of this slot: certificates first, then the signature where the manager has proved itself (R430). -/
def State.joinFrame (s : State) : State :=
  let i := s.stk.joinSent
  let n := (ownCerts.length + 31) / 32
  let next := s.onStk fun k => { k with joinSent := i + 1 }
  if i < n then next.sendFrame 0x04 i (ownCerts.drop (32 * i))
  else if n + 2 ≤ i || !s.mgrProved then s.onStk fun k => { k with txFrame := [] }
  else
    let sig := deviceSig (s.freeN 0) (digest (s.mgrProof.1 ++ s.stk.nonceW ++ [BitVec.ofNat 8 s.stkId]))
    let s1 := next.onStk fun k => { k with joinSig := if i = n then sig else k.joinSig }
    (s1.sendFrame 0x05 (i - n) ((s1.stk.joinSig).drop (32 * (i - n)))).useFree 1

/-- The report of this slot, with the first fault report that waits (R429). -/
def State.reportFrame (s : State) (c : CycIn) : State :=
  let t := (s.sendFrame 0x02 0 (s.repPayload c s.stk.frepQ.head?)).onStk fun k => { k with own := s.ownRep c }
  match s.stk.frepQ with
  | _ :: r => (t.onStk fun k => { k with frepQ := r }).onQs fun q => { q with stkTx := q.stkTx.erase 1 }
  | [] => t

/-- The join request (R430), with the module's own stamp at the SFD of the last slot-0 frame. -/
def State.requestFrame (s : State) : State :=
  s.sendFrame 0x03 0 (stampBytes s.stk.sfd ++ le 2 s.sys.imageVer.toNat ++ le 2 s.cc.fsw ++ fixLen 16 s.stk.nonceW ++ le 2 (certOf 0).length
    ++ le 2 (certOf 1).length)

/-- After a wake a worker asks the manager to realign it, by a join request once it has heard a valid slot-0 frame (R450; log entry 127). -/
def State.realignFrame (s : State) : State := (s.requestFrame).onStk fun k => { k with realign := false }

/-- SLOT_START (R425). -/
def execSlotStart (c : CycIn) (s : State) : Out :=
  .next (s.when (s.sys.fwRun && s.isWorker) fun t =>
    match t.stk.joinSt with
    | .idle => t.when t.stk.everJoined fun u =>
      if u.stk.realign && u.stk.wokeAt.isNone then u.realignFrame else (u.reportFrame c).useFree 1
    | .requested => t.requestFrame
    | .exchanging => t.joinFrame
    | .listening | .refused => t)

/-! ## Slot 0 at a worker (R421, R422, R427, R435, R446, R449) -/

/-- A member no longer: it takes its local safe grant and joins afresh. -/
def State.notMember (s : State) : State :=
  s.onStk fun k => { k with
    joined := false, aligned := false, grant := k.safeg, joinSt := if k.joinSt == .idle then .listening else k.joinSt }

/-- The grant byte of this worker is taken (R422, R427, R446). -/
def State.takeGrant (s : State) (b : Byte) : State :=
  if b == 0xFF then s.notMember
  else if b == 0xFE then s.onStk fun k => { k with joined := false, grant := 0 }
  else
    let s1 := s.onStk fun k => { k with joined := k.joined || (k.everJoined && k.joinSt == .idle) }
    if 250 < b.toNat then s1
    else s1.onStk fun k => { k with grant := b.toNat * 32 * (if s.stk.casc then s.grpIds.length else 1) }

/-- The alignment error at the SFD end of a slot-0 frame, in 1/16 ns: GTS and FINE less C × 1000 µs, 1.78 µs and the one-way delay (R435). -/
def State.alignErr (s : State) : Int :=
  let mgr := s.stk.mgrEpoch.toNat * 2 ^ 48 + s.stk.cyc * 1000
  let us : Int := (((s.now + 2 ^ 55 + 2 ^ 56 - mgr) % 2 ^ 56 : Nat) : Int) - 2 ^ 55
  us * 16000 + 125 * (s.clk.fine.toNat : Int) - 28480 - 125 * (s.stk.delayNs : Int)

/-- The alignment error is corrected and judged (R435); `e` in 1/16 ns. -/
def State.alignFrame (s : State) (e : Int) : State :=
  if e < -32000 then
    (s.lagStep (quo (e.natAbs * 8) 1000)).onStk fun k => { k with aligned := false, alignRun := 0, trimN := 0 }
  else
    let n := if e.natAbs ≤ 1600 then min 8 (s.stk.alignRun + 1) else 0
    s.onStk fun k => { k with
      trimN := clampI (-62) 62 (quoQ (-e * 8) 1000), alignRun := n, aligned := if 16000 < e.natAbs then false else k.aligned || n == 8 }

/-- A valid manager frame (R427). -/
def State.slot0Frame (s : State) (f : MgrFrame) : State :=
  let g := f.grants
  let slot := if s.stkId = 0 then f.id.toNat else s.stkId
  let others := (List.range 31).foldl (fun m j => setBit m (j + 1) (g.getD j 0xFF != 0xFF)) (BitVec.ofNat 32 (2 ^ f.id.toNat))
  let fenced := (List.range 31).foldl (fun m j => setBit m (j + 1) (g.getD j 0xFF == 0xFE)) (0 : BitVec 32)
  let s1 := s.onStk fun k => { k with
    sfd := s.stamp, heardCyc := true, decay := false, fall := false, wokeAt := none, actId := f.id.toNat, heardG := fixLen 31 g
    cyc := k.cyc / 2 ^ 16 * 2 ^ 16 + f.cycle.toNat, members := others, fencedM := fenced, fencedBy := List.replicate 32 0 }
  let s2 := s1.takeGrant (g.getD (slot - 1) 0xFF)
  s2.when s2.stk.joined fun t => t.alignFrame t.alignErr

/-- Whether a frame of slot 0 is valid (R426). -/
def frameOk (f : MgrFrame) : Bool := f.crcOk && f.ver == 1 && (f.id == 0 || f.acting)

/-- A module with STK_ID 0 that has not yet acted as manager hears an acting manager and becomes a worker (R449). -/
def State.yieldStart (s : State) (f : MgrFrame) : State :=
  s.when (s.inStack && s.stkId == 0 && !s.stk.worker0 && !s.stk.joined && frameOk f && f.acting) fun t =>
    t.onStk fun k => { k with worker0 := true, joinSt := .listening }

/-- An injected check of TARGET 6 falls on this frame (R343). -/
def State.injFrame (s : State) : Bool :=
  s.grd.injArm && s.grd.injRemain != 0 && s.grd.injTarget == 6 && !(s.flt.pend.any fun p => p.injected && p.cause == Cause.frameCrc)

/-- MANAGER_FRAME (R427, R435); frames are not used while FRAME_CRC holds (R445). -/
def execManagerFrame (f : MgrFrame) (s : State) : Out :=
  .next (s.when s.sys.fwRun fun t =>
    let u := t.yieldStart f
    if !u.isWorker then u
    else if u.injFrame then u.injectedCheck Src.stack Cause.frameCrc
    else u.when (frameOk f && !u.flt.stkf.getLsbD 6) fun v => v.slot0Frame f)

/-! ## Reports at the other members (R424, R429, R434, R446, R447) -/

/-- The manager's one-way delay to worker `k`, half the lateness of its SFD in units of 7.8125 ns; sent where it is new or has
changed by more than 16 ns (R434). -/
def State.delayMeas (s : State) (k late : Nat) : State :=
  let d := min 2047 (quo (late * 8) 125)
  let old := (s.stk.delays.find? fun p => p.1 == k).map (·.2)
  let far := match old with
    | some o => decide (2048 < 1000 * (max o d - min o d))
    | none => true
  s.when far fun t =>
    (t.onStk fun x => { x with delays := x.delays.filter (fun p => p.1 != k) ++ [(k, d)] }).queueScmd Scmd.delay (2048 * k + d)

/-- A report as a member holds it. -/
def State.keepReport (s : State) (r : MemberRep) : State :=
  s.onStk fun k => { k with reports := k.reports.filter (fun x => x.id != r.id) ++ [{ r with fresh := true }] }

/-- What the manager makes of a worker's report (R434, R446, R447). -/
def State.reportTake (s : State) (r : MemberRep) (fr : Option FaultRep) (late : Nat) : State :=
  let s1 := s.delayMeas r.id late
  let s2 := s1.when (r.flt.getLsbD 0) fun t => t.memberFence r.id (match fr with
    | some f => f.cause.toNat
    | none => s.freeN 0 % 2 ^ 16)
  match fr with
  | some f => s2.electJoin { f with source := BitVec.ofNat 16 (256 * r.id + f.source.toNat % 256) }
  | none => s2

/-- REPORT (R429): every member receives every slot (R424). -/
def execMemberReport (r : MemberRep) (fr : Option FaultRep) (late : Nat) (s : State) : Out :=
  .next (s.when (s.sys.fwRun && s.inStack && decide (r.id < 32) && r.id != s.stkId) fun t =>
    ((t.keepReport r).when (t.isManager && t.stk.joined && t.stk.members.getLsbD r.id) fun u => u.reportTake r fr late).useFree 1)

/-! ## Joining at the manager (R430, R431, R433, R434) -/

/-- The manager serves the join of `k`: it takes its nonce and its own proof, and sends JSTART. -/
def State.joinServe (s : State) (k : Fin 32) (r : JoinReq) (lead : Int) : State :=
  let nw := fixLen 16 r.nonce
  let nm := (List.range 16).map fun i => BitVec.ofNat 8 (s.freeN i)
  let sig := deviceSig (s.freeN 16) (digest (nw ++ nm ++ [BitVec.ofNat 8 k.val]))
  ((s.onStk fun x => { x with
    joiner := some k, joinReq := some r, nonceW := nw, nonceM := nm, joinData := [], joinSig := [], joinLead := lead
    joinWait := x.joinWait.filter fun p => p.1 != k, joinOut := nm ++ certOf 0 ++ certOf 1 ++ sig }).queueScmd Scmd.jstart k.val).useFree 17

/-- The request of the lowest STK_ID among those that wait (R430). -/
def joinFirst : List (Fin 32 × JoinReq × Int) → Option (Fin 32 × JoinReq × Int)
  | [] => none
  | a :: l => some (l.foldl (fun x y => if y.1.val < x.1.val then y else x) a)

/-- The lead in µs of the module that asks: its stamp of the slot-0 SFD against the manager's own time there (R430, R433). -/
def State.joinLeadOf (s : State) (r : JoinReq) : Int :=
  let own := s.stk.mgrEpoch.toNat * 2 ^ 48 + s.stk.cyc * 1000 + 1
  (((r.epoch.toNat * 2 ^ 48 + r.gts.toNat + 2 ^ 55 + 2 ^ 56 - own) % 2 ^ 56 : Nat) : Int) - 2 ^ 55

/-- The requests that wait once that of `k` has come. -/
def State.joinQueue (s : State) (k : Fin 32) (r : JoinReq) : List (Fin 32 × JoinReq × Int) :=
  s.stk.joinWait.filter (fun p => p.1 != k) ++ [(k, r, s.joinLeadOf r)]

/-- The manager aligns worker `k` (R433, R434): DELAY with its one-way delay, and TSTEP where it leads. -/
def State.alignWorker (s : State) (k late : Nat) (lead : Int) : State :=
  ((s.onStk fun x => { x with delays := x.delays.filter fun p => p.1 != k }).delayMeas k late).when (decide (0 < lead)) fun u =>
    u.queueScmd Scmd.tstep (min 65535 ((lead.toNat + 999) / 1000))

/-- A request at the manager joins those that wait, but for one of the module being served; with no join under way the lowest STK_ID is served. The
first request of a member after a wake realigns it without a new exchange (R450; log entry 127). -/
def State.joinAsk (s : State) (k : Fin 32) (r : JoinReq) : State :=
  if s.stk.joiner == some k then s
  else if s.stk.wakeM.getLsbD k.val && s.stk.members.getLsbD k.val && !s.stk.fencedM.getLsbD k.val then
    (s.onStk fun x => { x with wakeM := setBit x.wakeM k.val false }).alignWorker k.val r.late (s.joinLeadOf r)
  else
    let t := s.onStk fun x => { x with joinWait := s.joinQueue k r }
    if s.stk.joiner.isSome then t
    else match joinFirst (s.joinQueue k r) with
      | some p => t.joinServe p.1 p.2.1 p.2.2
      | none => t

/-- JOIN_REQUEST (R430): one join is served at a time, in ascending STK_ID of those that wait. -/
def execJoinRequest (k : Fin 32) (r : JoinReq) (s : State) : Out :=
  .next (s.when (s.sys.fwRun && s.inStack && k.val != s.stkId) fun t =>
    let t1 := t.onStk fun x => { x with fsws := x.fsws.filter (fun p => p.1 != k.val) ++ [(k.val, r.fsw.toNat)] }
    t1.when (t1.isManager && t1.stk.joined) fun u => u.joinAsk k r)

/-- JOIN_CERTIFICATE (R430): 32 bytes at the offset ARG, counted in frames of 32 bytes. -/
def execJoinCertificate (k : Fin 32) (off : BitVec 16) (data : List (BitVec 8)) (s : State) : Out :=
  .next (s.when (s.isManager && s.stk.joiner == some k && decide (off.toNat < 64)) fun t =>
    t.onStk fun x => { x with
      joinData := fixLen (32 * off.toNat) x.joinData ++ fixLen 32 data ++ x.joinData.drop (32 * off.toNat + 32) })

/-- The manager ends the join of `k` with a result (R430, R431). -/
def State.joinEnd (s : State) (k : Fin 32) (code : Nat) : State :=
  let late := match s.stk.joinReq with
    | some r => r.late
    | none => 0
  let lead := s.stk.joinLead
  let s1 := (s.onStk fun x => { x with joiner := none, joinReq := none, joinData := [], joinSig := [], joinOut := [], nonceW := [], nonceM := [] }).queueScmd
    Scmd.jresult (2048 * k.val + code)
  let s2 := s1.when (code == 0) fun t =>
    ((t.memberLift k.val).onStk fun x => { x with members := setBit x.members k.val true }).alignWorker k.val late lead
  s2.raise Src.stack Ev.stkJoin [BitVec.ofNat 8 k.val, BitVec.ofNat 8 code]

/-- The result of a join whose data is complete (R431); of several causes the lowest code. -/
def State.joinResult (s : State) (k : Fin 32) : Nat :=
  match s.stk.joinReq with
  | none => 1
  | some r =>
    let certs := s.stk.joinData.take (r.len0.toNat + r.len1.toNat)
    if !Config.joinChainOk certs (digest (s.stk.nonceM ++ s.stk.nonceW ++ [BitVec.ofNat 8 k.val])) s.stk.joinSig then 1
    else if s.stk.expect != 0 && !s.stk.expect.getLsbD k.val then 2
    else if r.rel.toNat / 256 != s.sys.imageVer.toNat / 256 then 3
    else 0

/-- JOIN_SIGNATURE (R430, R431): r, then s; with s the join is decided. -/
def execJoinSignature (k : Fin 32) (part : BitVec 16) (data : List (BitVec 8)) (s : State) : Out :=
  .next (s.when (s.isManager && s.stk.joiner == some k) fun t =>
    if part = 0 then t.onStk fun x => { x with joinSig := fixLen 32 data }
    else if part = 1 then
      let u := t.onStk fun x => { x with joinSig := fixLen 32 x.joinSig ++ fixLen 32 data }
      u.joinEnd k (u.joinResult k)
    else t)

/-! ## Stack commands at a worker (R428) -/

/-- Whether this module takes the stack command of a manager frame: a worker, while FRAME_CRC does not hold (R445). -/
def State.scmdOk (s : State) : Bool := s.sys.fwRun && s.isWorker && !s.flt.stkf.getLsbD 6

/-- Whether a stack command that acts on members acts on this module (R428). -/
def State.memberOk (s : State) : Bool := s.scmdOk && s.stk.joined

/-- NONE. -/
def execScmdNone (_arg : BitVec 16) (s : State) : Out := .next s

/-- TIME1 (R432): C[31:16]. -/
def execTime1 (arg : BitVec 16) (s : State) : Out :=
  .next (s.when s.scmdOk fun t => t.onStk fun k => { k with cyc := k.cyc / 2 ^ 32 * 2 ^ 32 + arg.toNat * 2 ^ 16 + k.cyc % 2 ^ 16 })

/-- TIME2 (R432): C[39:32] and the epoch. -/
def execTime2 (arg : BitVec 16) (s : State) : Out :=
  .next (s.when s.scmdOk fun t => t.onStk fun k => { k with
    cyc := arg.toNat % 256 * 2 ^ 32 + k.cyc % 2 ^ 32, mgrEpoch := BitVec.ofNat 8 (arg.toNat / 256) })

/-- SCAP: kept by the backup manager, in units of 4 credits. -/
def execScap (arg : BitVec 16) (s : State) : Out :=
  .next (s.when (s.scmdOk && s.isBackup) fun t => t.onStk fun k => { k with scap := 4 * arg.toNat })

/-- SAFEG: the local safe grant, 0 to 8000 credits. -/
def execSafeg (arg : BitVec 16) (s : State) : Out :=
  .next (s.when (s.scmdOk && decide (arg.toNat ≤ 8000)) fun t => t.onStk fun k => { k with safeg := arg.toNat })

/-- EXPECT_LO: kept by the backup manager. -/
def execExpectLo (arg : BitVec 16) (s : State) : Out :=
  .next (s.when (s.scmdOk && s.isBackup) fun t => t.onStk fun k => { k with expect := (k.expect &&& 0xFFFF0000) ||| arg.setWidth 32 })

/-- EXPECT_HI: kept by the backup manager. -/
def execExpectHi (arg : BitVec 16) (s : State) : Out :=
  .next (s.when (s.scmdOk && s.isBackup) fun t =>
    t.onStk fun k => { k with expect := (k.expect &&& 0xFFFF) ||| BitVec.ofNat 32 (65536 * arg.toNat) })

/-- DELAY (R434): the one-way delay of the worker named. -/
def execDelay (arg : BitVec 16) (s : State) : Out :=
  .next (s.when (s.memberOk && arg.toNat / 2048 == s.stkId) fun t => t.onStk fun k => { k with delayNs := arg.toNat % 2048 })

/-- TSTEP (R433): every member steps at the next cycle start. -/
def execTstep (arg : BitVec 16) (s : State) : Out := .next (s.when s.memberOk fun t => t.onStk fun k => { k with tstep := arg.toNat })

/-- SEQ_LO: the low half of the member mask is latched. -/
def execSeqLo (arg : BitVec 16) (s : State) : Out :=
  .next (s.when s.memberOk fun t => t.onStk fun k => { k with seqMask := (k.seqMask &&& 0xFFFF0000) ||| arg.setWidth 32 })

/-- SEQ_HI: the high half of the member mask is latched. -/
def execSeqHi (arg : BitVec 16) (s : State) : Out :=
  .next (s.when s.memberOk fun t =>
    t.onStk fun k => { k with seqMask := (k.seqMask &&& 0xFFFF) ||| BitVec.ofNat 32 (65536 * arg.toNat) })

/-- SEQ_GO: acts at the next cycle start (R428). -/
def execSeqGo (arg : BitVec 16) (s : State) : Out := .next (s.when s.memberOk fun t => t.onStk fun k => { k with seqDo := some arg.toNat })

/-- DORMANT: acts at the next cycle start (R428, R450). -/
def execDormant (arg : BitVec 16) (s : State) : Out :=
  .next (s.when (s.memberOk && decide (arg.toNat ≤ 3600)) fun t => t.onStk fun k => { k with dormDo := some arg.toNat })

/-! ## Joining at the worker (R430, R431) -/

/-- JSTART (R430): the manager serves this worker. -/
def execJstart (arg : BitVec 16) (s : State) : Out :=
  .next (s.when (s.sys.fwRun && s.isWorker && s.stk.joinSt == .requested && arg.toNat == s.stkId) fun t =>
    t.onStk fun k => { k with joinSt := .exchanging, joinData := [], joinSent := 0, joinSig := [] })

/-- JDATA (R430): two bytes of the manager's join data, the low byte first. -/
def execJdata (arg : BitVec 16) (s : State) : Out :=
  .next (s.when (s.sys.fwRun && s.isWorker && s.stk.joinSt == .exchanging) fun t =>
    t.onStk fun k => { k with joinData := k.joinData ++ le 2 arg.toNat })

/-- A join has been refused (R431): STK_JOIN with the code, the local safe grant, and a new try after 10 s. -/
def State.joinRefused (s : State) (code : Nat) : State :=
  (s.onStk fun k => { k with joinSt := .refused, grant := k.safeg, joinData := [] }).raise Src.stack Ev.stkJoin
    [BitVec.ofNat 8 s.stkId, BitVec.ofNat 8 code]

/-- A join has been accepted (R421, R431, R433): grants from the next cycle, and a step to the manager's time at its start. -/
def State.joinDone (s : State) : State :=
  let s1 := ((s.syncIgnore).onStk fun k => { k with
    joined := true, everJoined := true, joinSt := .idle, alignDue := true, aligned := false, alignRun := 0, joinData := [], fall := false }).raise
      Src.stack Ev.stkJoin [BitVec.ofNat 8 s.stkId, 0]
  (s1.stkLift 5).stkLift 6

/-- JRESULT (R431). -/
def execJresult (arg : BitVec 16) (s : State) : Out :=
  let code := arg.toNat % 256
  .next (s.when (s.sys.fwRun && s.isWorker && (s.stk.joinSt == .requested || s.stk.joinSt == .exchanging) && arg.toNat / 2048 == s.stkId)
    fun t => if code = 0 then t.joinDone else t.joinRefused code)

/-- SLOT_LISTEN_END (R430): three cycles of the own slot have been heard; a slot in use raises STK_ID_TAKEN, and the worker listens
again; a free one lets it send its request with a fresh nonce. -/
def execSlotListenEnd (heard : Bool) (s : State) : Out :=
  .next (s.when (s.sys.fwRun && s.isWorker && s.stk.joinSt == .listening) fun t =>
    if heard then t.raise Src.stack Ev.stkIdTaken
    else (t.onStk fun k => { k with
      joinSt := .requested, nonceW := (List.range 16).map fun i => BitVec.ofNat 8 (t.freeN i) }).useFree 16)

/-- JOIN_TIMEOUT (R431): 2 s from JSTART, at the manager and at the worker. -/
def execJoinTimeout (s : State) : Out :=
  .next (s.when s.sys.fwRun fun t =>
    if t.isManager then
      match t.stk.joiner with
      | some k => t.joinEnd k 4
      | none => t
    else t.when (t.isWorker && t.stk.joinSt == .exchanging) fun u => u.joinRefused 4)

/-- JOIN_RETRY (R431, R445): 10 s after a refusal, 1 s after FRAME_CRC. -/
def execJoinRetry (s : State) : Out :=
  .next (s.when (s.sys.fwRun && s.isWorker && s.stk.joinSt == .refused) fun t => t.onStk fun k => { k with joinSt := .listening })

/-! ## Failures of the stack bus (R421, R422, R445, R446) -/

/-- MGR_SILENT (R421, R422, R445): no valid slot-0 frame for 20 ms. -/
def execMgrSilent (s : State) : Out :=
  .next (s.when (s.sys.fwRun && s.isWorker && (s.stk.joined || (s.stk.everJoined && !s.stk.fall))) fun t =>
    let u := t.onStk fun k => { k with joined := false, fall := true, decay := true, joinSt := if k.joinSt == .idle then .listening else k.joinSt }
    u.when t.stk.joined fun v => v.raise Src.stack Ev.stkLeave (BitVec.ofNat 8 s.stkId :: le 2 Cause.mgrSilent.toNat))

/-- Whether a missing slot counts: not while the stack is dormant, nor within 100 ms of the manager's wake (R450). -/
def State.slotCounts (s : State) : Bool :=
  s.stk.dormPh < 3 && (match s.stk.wokeAt with
    | some t => decide (t + 100000 ≤ s.now)
    | none => true)

/-- SLOT_FAIL (R445). -/
def execSlotFail (k : Fin 32) (s : State) : Out :=
  settle s (s.when (s.sys.fwRun && s.isManager && s.stk.members.getLsbD k.val && k.val != s.stkId && !s.stk.fencedM.getLsbD k.val && s.slotCounts)
    fun t => t.failNote Src.stack Cause.slotFail k.val false none (some k))

/-- SLOT0_COLLISION (R445). -/
def execSlot0Collision (other : Fin 32) (s : State) : Out :=
  settle s (s.when (s.sys.fwRun && s.isManager && s.stk.joined) fun t => t.failNote Src.stack Cause.slot0Collision other.val false none (some other))

/-- ALIGN_LOST (R435, R445): ALIGNED clears at once. -/
def execAlignLost (s : State) : Out :=
  settle s (s.when (s.sys.fwRun && s.isWorker && s.stk.joined && !s.flt.stkf.getLsbD 3) fun t =>
    (t.onStk fun k => { k with aligned := false, alignRun := 0 }).failNote Src.stack Cause.alignLost)

/-- ALIGN_LOST_LIFT (R445): ALIGNED has held for 1 s. -/
def execAlignLostLift (s : State) : Out := settle s (s.when (s.sys.fwRun && s.stk.aligned) fun t => t.stkLift 3)

/-- FRAME_CRC (R445). -/
def execFrameCrc (s : State) : Out :=
  settle s (s.when (s.sys.fwRun && s.isWorker && !s.flt.stkf.getLsbD 6) fun t => t.failNote Src.stack Cause.frameCrc)

/-- STACK_FENCE_LIFT (R446): 1000 cycles of RUN or DEGRADED in a row. -/
def execStackFenceLift (k : Fin 32) (s : State) : Out :=
  .next (s.when (s.sys.fwRun && s.isManager && s.stk.fenceRun.any fun p => p.1 == k.val && decide (1000 ≤ p.2)) fun t => t.memberLift k.val)

/-! ## The reference frame (R442, R445) -/

/-- Even parity over start, IUNIT, BSW, STOP and the parity bit. -/
def refParity (iunit : BitVec 11) (bsw stop parity : Bool) : Bool :=
  (1 + (bitsOf 11 iunit).length + b2n bsw + b2n stop + b2n parity) % 2 == 0

/-- A frame is missed: the cascade port's gates turn off (R445). -/
def State.refMiss (s : State) : State := (s.cascGatesOff).onStk fun k => { k with refLost := true, refGood := 0 }

/-- A good reference frame (R442): each phase's reference is its weight × IUNIT, cut by its own thermal limit, which is reported. -/
def State.refTake (s : State) (iunit : BitVec 11) (bsw stop : Bool) : State :=
  let i : Int := 20 * iunit.toInt
  let refs := (s.portSet .pc).map fun p =>
    let w : Int := quoQ (((s.phase p).weight : Int) * i) 16384
    (min w (s.iThPhase p), decide ((s.iThPhase p : Int) < w))
  let cut := refs.any fun r => r.2
  let s1 := s.onStk fun k => { k with iunit := iunit.toInt, bsw := bsw, refLost := stop || s.flt.stkf.getLsbD 4 }
  let s2 := s1.onCc fun c => { c with comp := c.comp.modify 2 fun k => { k with
    ipath := refs.foldl (fun a r => a + r.1) 0
    win := if cut then 5 else k.win, wins := if cut then k.wins.set 5 (k.wins.getD 5 0 + 1) else k.wins } }
  let s3 := if s2.pp.batSw == .off || s2.pp.soft == .running || (bsw && s2.pp.batSw == .full) then s2
    else if bsw then (s2.switchFull).onPp fun x => { x with linBefore := false }
    else s2.onPp fun x => { x with batSw := .diode }
  s3.when stop State.cascGatesOff

/-- REFERENCE_FRAME (R442): at a follower, and at a member that waits for good frames again, which counts them (R445). -/
def execReferenceFrame (iunit : BitVec 11) (bsw stop parity : Bool) (s : State) : Out :=
  settle s (s.when (s.sys.fwRun && s.inGroup && (s.follower || s.stk.refLost)) fun t =>
    if refParity iunit bsw stop parity then
      let v := t.onStk fun k => { k with refGood := min 64 (k.refGood + 1) }
      v.when v.follower fun u => u.refTake iunit bsw stop
    else t.refMiss)

/-- Whether frames may be missing: from a change of loop master to the new master's first period boundary at least 10 µs after it, or the second where
it sends in every second period (R442, R444). -/
def State.refExcused (s : State) : Bool :=
  decide (s.now < s.stk.refFrom + (if 2000 < s.cc.fsw then 2 else 1) * ceilDiv 1000 (max 1 s.cc.fsw))

/-- CASC_REF_LOST (R445): two frames missing or with bad parity; the gates are off from the first. -/
def execCascRefLost (s : State) : Out :=
  settle s (s.when (s.sys.fwRun && s.follower && !s.flt.stkf.getLsbD 4 && !s.refExcused) fun t => (t.refMiss).failNote Src.stack Cause.cascRefLost)

/-- CASC_REF_LOST_LIFT (R445): 64 valid frames. -/
def execCascRefLostLift (s : State) : Out :=
  settle s (s.when (s.sys.fwRun && s.inGroup && decide (64 ≤ s.stk.refGood)) fun t => (t.onStk fun k => { k with refLost := false }).stkLift 4)

/-! ## Elections, takeover and dormancy (R447 to R450) -/

/-- STACK_ELECTION_CLOSE (R447): the oldest open election, 8 cycles after its window. -/
def execStackElectionClose (s : State) : Out :=
  match s.stk.elect with
  | e :: rest => .next (s.when (s.sys.fwRun && s.isManager && s.electDue e) fun t => (t.onStk fun k => { k with elect := rest }).electClose e)
  | [] => .next s

/-- The grants last heard, as the acting manager starts from them (R448): of a group, that of the byte beside its followers. -/
def State.heardGrants (s : State) : List (Nat × Nat) :=
  let byte := fun (k : Nat) => (s.stk.heardG.getD (k - 1) 0xFF).toNat
  let foll := fun (g : Nat) => ((List.range 4).filter fun j => 4 * g + j != 0 && byte (4 * g + j) == 0xFD).length
  ((List.range 31).map (· + 1)).filterMap fun k =>
    if k = s.stkId then some (k, s.stk.grant)
    else if 250 < byte k then none
    else if foll (k / 4) = 0 then some (k, 32 * byte k)
    else some (32 + k / 4, 32 * byte k * (foll (k / 4) + 1))

/-- STK_TAKEOVER (R448). -/
def execStkTakeover (s : State) : Out :=
  .next (s.when (s.sys.fwRun && s.isBackup && !s.stk.acting) fun t =>
    ((t.onStk fun k => { k with
      acting := true, takeAt := t.now, delays := [], mgrants := t.heardGrants, safegSet := k.safeg, joinSt := .idle
      members := (k.members &&& 0xFFFFFFFE) ||| BitVec.ofNat 32 (2 ^ t.stkId), decay := false, fall := false }).raise Src.stack Ev.stkTakeover).modeFix)

/-- MANAGER_RECLAIM (R449): no valid slot-0 frame for 5 ms. -/
def execManagerReclaim (s : State) : Out :=
  .next (s.when (s.sys.fwRun && s.stkId == 0 && s.stk.worker0) fun t =>
    t.onStk fun k => { k with worker0 := false, joinSt := .idle, members := 0, fencedM := 0, decay := false, fall := false })

/-- STACK_DORMANT_TIMEOUT (R450): 100 ms without a cycle in which every member was ready. -/
def execStackDormantTimeout (s : State) : Out :=
  .next (s.when (s.stk.dormPh == 1) fun t =>
    (t.finishO t.stk.dormBox St.notPermitted (le 4 t.stk.notReady.toNat)).onStk fun k => { k with dormPh := 0, dormBox := none })

end Sys2Proof.Machine
end

