-- ==== Sys2Proof/Machine/Watchdog.lean ====
section
/-! DEFINITION. The internal and the host-contact watchdog (chapter 12). -/
namespace Sys2Proof.Machine

/-- WDG_BOOT_PERIOD_END (R355): an expiry of kind BOOT, but not while a debugger has frozen the tick count. -/
def execWdgBootPeriodEnd (s : State) : Out := if s.wd.run == .boot && !s.sys.halted then settle s (s.wdgExpire 3 0xFF) else .next s

/-- The first heartbeat in an inbox is handled. -/
def dropBeat : List InboxItem → List InboxItem
  | [] => []
  | .heartbeat :: r => r
  | x :: r => x :: dropBeat r

/-- WDG_CHECKIN_CALL (R39, R350): the task has completed a run by handling its heartbeat, without which it makes no call in the period; its bit is written at once in the open part, held in the closed part, or counted as a duplicate. -/
def execWdgCheckinCall (t : FwTask) (s : State) : Out :=
  let i := taskIdx t
  if s.wd.run != .normal || !s.sys.fwRun || !(s.wd.called.getLsbD i || (s.qs.inbox.getD i []).contains .heartbeat) then .next s
  else if s.wd.called.getLsbD i then .next (s.wdgDup 1)
  else
    let s1 := ((s.onWd fun w => { w with called := setBit w.called i true }).onFlt fun f => { f with taskOnce := setBit f.taskOnce i false }).onQs fun q => { q with
      inbox := q.inbox.set i (dropBeat (q.inbox.getD i [])) }
    if s.wd.tick < s.wdgOpenAt then .next (s1.onWd fun w => { w with heldm := setBit w.heldm i true })
    else settle s (s1.wdgWrite (setBit 0 i true))

/-- WDG_WINDOW_OPEN (R350): the opening tick; the held mask is written. -/
def execWdgWindowOpen (s : State) : Out :=
  if s.wd.run == .normal && !s.sys.halted then
    let s1 := s.onWd fun w => { w with tick := max w.tick s.wdgOpenAt, heldm := 0 }
    settle s (s1.wdgWrite s.wd.heldm)
  else .next s

/-- WDG_CHECKIN_WRITE (R346 to R349): a write in the privilege of a task is a memory-protection violation of that task; in supervisor privilege a
write that lands no bit reports a repeated call. -/
def execWdgCheckinWrite (mask : BitVec 6) (writer : Option FwTask) (s : State) : Out :=
  match writer with
  | none => settle s (if mask = 0 then s.when (s.wd.run == .normal) fun t => t.wdgDup 1 else s.wdgWrite mask)
  | some t => settle s (s.when s.sys.fwRun fun u => u.taskFail t Cause.taskMpu)

/-- WDG_LATE (R351): the closing tick without service. -/
def execWdgLate (s : State) : Out :=
  if s.wd.run == .normal && !s.sys.halted then settle s (s.wdgExpire 1 0xFF) else .next s

/-- WDO_PULSE_END (R352). -/
def execWdoPulseEnd (s : State) : Out := .next (s.onWd fun w => { w with wdoPulse := false })

/-- WDG_CFG (R362): EN, for the next start; under hardware start it cannot be cleared. -/
def execWdgCfg (c : BitVec 8) (single : Bool) (s : State) : Out :=
  .next (s.guardPair .host 0x50 c single fun v t => t.onGrd fun g => { g with wdgEn := v.getLsbD 0 })

/-- WDG_PER (R362): 5 to 100 ms, from the next period. -/
def execWdgPer (c : BitVec 8) (single : Bool) (s : State) : Out :=
  .next (s.guardPair .host 0x51 c single fun v t =>
    let p := v.toNat % 128
    if 5 ≤ p ∧ p ≤ 100 then t.onGrd fun g => { g with wdgPer := p } else t.guardFail .host)

/-- HCW_KICK (R359, R360). -/
def execHcwKick (bp : BusPort) (v : BitVec 8) (s : State) : Out := .next (s.when (s.busUp bp) fun t => (t.wrote bp 0x24).hcwKick bp v)

/-- HCW_EXPIRY (R360, R361): the deadline has come. -/
def execHcwExpiry (s : State) : Out := .next (s.when (s.sys.fwRun && s.wd.hRun && !s.wd.hExp && decide (s.wd.hDead ≤ s.now)) State.hcwExpire)

/-- Resident firmware goes on after a halt: it takes what DOORBELL was written, the latched events and the latched kicks, and a HOLD latched meanwhile is its mode, in
which source ports send Hard Reset (R309, R327, R359). -/
def State.fwResume (s : State) : State :=
  let u := ((s.doorbellHeld).yarrow).snapTake
  let t := (u.wd.kicks.foldl State.hcwServe u).onWd fun w => { w with kicks := [] }
  t.when (t.flt.hold && t.runs) fun u => (u.onSys fun y => { y with mode := .hold }).holdSources

/-- DEBUG_HALT (R311, R355, R384): only while the debug lock fuse is intact. -/
def execDebugHalt (halt : Bool) (s : State) : Out :=
  if s.grd.fuse.getLsbD 4 then .next s
  else
    let t := s.onSys fun y => { y with halted := halt, fwRun := y.fwUp && !halt }
    settle s (if halt then t.logCut else t.when t.sys.fwRun State.fwResume)

end Sys2Proof.Machine
end

