-- ==== Sys2Proof/Machine/Dispatch.lean ====
section
/-! DEFINITION. The meaning of every command: one arm per constructor. -/
namespace Sys2Proof.Machine

/-- What a command does to everything but the queue of waiting commands. -/
def exec (i : Instr) (s : State) : Host.Outcome State Fault Refusal :=
  match i with
  | .aonPowerOn straps => Sys2Proof.Machine.execAonPowerOn straps s
  | .tier0Ready n => Sys2Proof.Machine.execTier0Ready n s
  | .moscStart => Sys2Proof.Machine.execMoscStart s
  | .clockLoss => Sys2Proof.Machine.execClockLoss s
  | .aoscFreq ps => Sys2Proof.Machine.execAoscFreq ps s
  | .gtsCalibration count => Sys2Proof.Machine.execGtsCalibration count s
  | .gtsWrap => Sys2Proof.Machine.execGtsWrap s
  | .pllLock => Sys2Proof.Machine.execPllLock s
  | .dllCal => Sys2Proof.Machine.execDllCal s
  | .domainSwitchRequest d on => Sys2Proof.Machine.execDomainSwitchRequest d on s
  | .domainPowerUpDone d => Sys2Proof.Machine.execDomainPowerUpDone d s
  | .domainSwitchOffDone d => Sys2Proof.Machine.execDomainSwitchOffDone d s
  | .taskDeadline t => Sys2Proof.Machine.execTaskDeadline t s
  | .taskMpu t => Sys2Proof.Machine.execTaskMpu t s
  | .limpSourceChange n => Sys2Proof.Machine.execLimpSourceChange n s
  | .softConnectComplete => Sys2Proof.Machine.execSoftConnectComplete s
  | .softConnect => Sys2Proof.Machine.execSoftConnect s
  | .softConnectRetry => Sys2Proof.Machine.execSoftConnectRetry s
  | .imageVerification => Sys2Proof.Machine.execImageVerification s
  | .configurationLoad => Sys2Proof.Machine.execConfigurationLoad s
  | .takeover p => Sys2Proof.Machine.execTakeover p s
  | .takeoverDeferralExpiry p => Sys2Proof.Machine.execTakeoverDeferralExpiry p s
  | .dormantIdleExpiry load => Sys2Proof.Machine.execDormantIdleExpiry load s
  | .dormantEntry count load => Sys2Proof.Machine.execDormantEntry count load s
  | .dormantWake mask => Sys2Proof.Machine.execDormantWake mask s
  | .wakeTimer => Sys2Proof.Machine.execWakeTimer s
  | .wakeRunReached => Sys2Proof.Machine.execWakeRunReached s
  | .shipEnt c single => Sys2Proof.Machine.execShipEnt c single s
  | .shipDelayEnd => Sys2Proof.Machine.execShipDelayEnd s
  | .shipForceOpen => Sys2Proof.Machine.execShipForceOpen s
  | .shipExit mask => Sys2Proof.Machine.execShipExit mask s
  | .pbtnShipExit => Sys2Proof.Machine.execPbtnShipExit s
  | .pbtnPress => Sys2Proof.Machine.execPbtnPress s
  | .pbtnRelease held => Sys2Proof.Machine.execPbtnRelease held s
  | .pbtnForceOff => Sys2Proof.Machine.execPbtnForceOff s
  | .batteryCut => Sys2Proof.Machine.execBatteryCut s
  | .batteryCutEnd => Sys2Proof.Machine.execBatteryCutEnd s
  | .controlTick m => Sys2Proof.Machine.execControlTick m s
  | .peakTimeout => Sys2Proof.Machine.execPeakTimeout s
  | .peakRecoveryEnd => Sys2Proof.Machine.execPeakRecoveryEnd s
  | .phaseRemove p => Sys2Proof.Machine.execPhaseRemove p s
  | .drainComplete idx => Sys2Proof.Machine.execDrainComplete idx s
  | .selectorSettle idx => Sys2Proof.Machine.execSelectorSettle idx s
  | .softStartComplete idx => Sys2Proof.Machine.execSoftStartComplete idx s
  | .selectorStuck idx => Sys2Proof.Machine.execSelectorStuck idx s
  | .selectorOverlap idx => Sys2Proof.Machine.execSelectorOverlap idx s
  | .quadPowerOff => Sys2Proof.Machine.execQuadPowerOff s
  | .fastSwapSignal t => Sys2Proof.Machine.execFastSwapSignal t s
  | .fplace0 c single => Sys2Proof.Machine.execFplace0 c single s
  | .fplace1 c single => Sys2Proof.Machine.execFplace1 c single s
  | .fpenSet c single => Sys2Proof.Machine.execFpenSet c single s
  | .fpenClear c single => Sys2Proof.Machine.execFpenClear c single s
  | .replacementTick unit => Sys2Proof.Machine.execReplacementTick unit s
  | .switchingPeriod a b c => Sys2Proof.Machine.execSwitchingPeriod a b c s
  | .oclHold idx => Sys2Proof.Machine.execOclHold idx s
  | .phaseShort idx ma => Sys2Proof.Machine.execPhaseShort idx ma s
  | .quadOvertemp q t => Sys2Proof.Machine.execQuadOvertemp q t s
  | .tuneMeasurementDone c esr spread => Sys2Proof.Machine.execTuneMeasurementDone c esr spread s
  | .fswApply => Sys2Proof.Machine.execFswApply s
  | .syncLock => Sys2Proof.Machine.execSyncLock s
  | .syncLost outOfRange => Sys2Proof.Machine.execSyncLost outOfRange s
  | .syncReacquisition => Sys2Proof.Machine.execSyncReacquisition s
  | .diodeEmulationEnd p => Sys2Proof.Machine.execDiodeEmulationEnd p s
  | .lastFaultOffer => Sys2Proof.Machine.execLastFaultOffer s
  | .pcAttach n dcdet => Sys2Proof.Machine.execPcAttach n dcdet s
  | .pcRemoval dcdet => Sys2Proof.Machine.execPcRemoval dcdet s
  | .batAttach => Sys2Proof.Machine.execBatAttach s
  | .batDetach => Sys2Proof.Machine.execBatDetach s
  | .batterySwitchReconnect n => Sys2Proof.Machine.execBatterySwitchReconnect n s
  | .supplement n => Sys2Proof.Machine.execSupplement n s
  | .batterySwitchRelease => Sys2Proof.Machine.execBatterySwitchRelease s
  | .weirLearn t avg => Sys2Proof.Machine.execWeirLearn t avg s
  | .weirProbe t => Sys2Proof.Machine.execWeirProbe t s
  | .trackerInterval v idx won => Sys2Proof.Machine.execTrackerInterval v idx won s
  | .mpptScanStart => Sys2Proof.Machine.execMpptScanStart s
  | .mpptScanStep v idx => Sys2Proof.Machine.execMpptScanStep v idx s
  | .handover low dip => Sys2Proof.Machine.execHandover low dip s
  | .dwellEnd => Sys2Proof.Machine.execDwellEnd s
  | .nobatCollapse => Sys2Proof.Machine.execNobatCollapse s
  | .revCutoff t => Sys2Proof.Machine.execRevCutoff t s
  | .chemCfg c single => Sys2Proof.Machine.execChemCfg c single s
  | .teaselTick m => Sys2Proof.Machine.execTeaselTick m s
  | .prechargeTimer => Sys2Proof.Machine.execPrechargeTimer s
  | .fastChargeTimer => Sys2Proof.Machine.execFastChargeTimer s
  | .topoffTimer => Sys2Proof.Machine.execTopoffTimer s
  | .timerSuspensionRestart v10s => Sys2Proof.Machine.execTimerSuspensionRestart v10s s
  | .zone z tmin tmax => Sys2Proof.Machine.execZone z tmin tmax s
  | .ntcFault n => Sys2Proof.Machine.execNtcFault n s
  | .cellOv k => Sys2Proof.Machine.execCellOv k s
  | .sampleSet x => Sys2Proof.Machine.execSampleSet x s
  | .reportedCellVoltage cells vbat ibat => Sys2Proof.Machine.execReportedCellVoltage cells vbat ibat s
  | .autoZero => Sys2Proof.Machine.execAutoZero s
  | .mirrorUpdate m => Sys2Proof.Machine.execMirrorUpdate m s
  | .balancingFrame => Sys2Proof.Machine.execBalancingFrame s
  | .balanceOffTime ups => Sys2Proof.Machine.execBalanceOffTime ups s
  | .quickSweepInterval => Sys2Proof.Machine.execQuickSweepInterval s
  | .sweepRefusalRetry => Sys2Proof.Machine.execSweepRefusalRetry s
  | .sweepBaselineEnd up => Sys2Proof.Machine.execSweepBaselineEnd up s
  | .sweepPoint ups => Sys2Proof.Machine.execSweepPoint ups s
  | .sweepFit fits => Sys2Proof.Machine.execSweepFit fits s
  | .sweepAborted code => Sys2Proof.Machine.execSweepAborted code s
  | .restCorrection => Sys2Proof.Machine.execRestCorrection s
  | .gradeDecay k => Sys2Proof.Machine.execGradeDecay k s
  | .modelMismatch k meas model => Sys2Proof.Machine.execModelMismatch k meas model s
  | .ccAttach t src => Sys2Proof.Machine.execCcAttach t src s
  | .attachDebounceEnd t orient rp vbus => Sys2Proof.Machine.execAttachDebounceEnd t orient rp vbus s
  | .detach d => Sys2Proof.Machine.execDetach d s
  | .portDischargeDone t => Sys2Proof.Machine.execPortDischargeDone t s
  | .sourceCapabilities t epr rev3 objs => Sys2Proof.Machine.execSourceCapabilities t epr rev3 objs s
  | .pdRequest t pos mv ma => Sys2Proof.Machine.execPdRequest t pos mv ma s
  | .pdAccept t => Sys2Proof.Machine.execPdAccept t s
  | .psRdy t => Sys2Proof.Machine.execPsRdy t s
  | .pdWait t => Sys2Proof.Machine.execPdWait t s
  | .waitRetry t => Sys2Proof.Machine.execWaitRetry t s
  | .pdReject t => Sys2Proof.Machine.execPdReject t s
  | .fallbackRerequest t => Sys2Proof.Machine.execFallbackRerequest t s
  | .ppsRerequest t => Sys2Proof.Machine.execPpsRerequest t s
  | .eprMode t act => Sys2Proof.Machine.execEprMode t act s
  | .eprKeepalive t => Sys2Proof.Machine.execEprKeepalive t s
  | .cableDiscovery t ans => Sys2Proof.Machine.execCableDiscovery t ans s
  | .vconnOc t => Sys2Proof.Machine.execVconnOc t s
  | .sourceCapabilitiesUpdate t => Sys2Proof.Machine.execSourceCapabilitiesUpdate t s
  | .sinkCapabilities t ifrs drp => Sys2Proof.Machine.execSinkCapabilities t ifrs drp s
  | .prSwapReceived t => Sys2Proof.Machine.execPrSwapReceived t s
  | .drSwapReceived t => Sys2Proof.Machine.execDrSwapReceived t s
  | .vconnSwapReceived t => Sys2Proof.Machine.execVconnSwapReceived t s
  | .hardResetReceived t => Sys2Proof.Machine.execHardResetReceived t s
  | .sourceCapabilitiesTimeout t => Sys2Proof.Machine.execSourceCapabilitiesTimeout t s
  | .hardResetSourceRestore t => Sys2Proof.Machine.execHardResetSourceRestore t s
  | .securityRequest t kind slot body => Sys2Proof.Machine.execSecurityRequest t kind slot body s
  | .securityResponse t chainOk root => Sys2Proof.Machine.execSecurityResponse t chainOk root s
  | .getSourceCap t => Sys2Proof.Machine.execGetSourceCap t s
  | .getSinkCap t => Sys2Proof.Machine.execGetSinkCap t s
  | .getSourceCapExtended t => Sys2Proof.Machine.execGetSourceCapExtended t s
  | .getStatus t => Sys2Proof.Machine.execGetStatus t s
  | .getRevision t => Sys2Proof.Machine.execGetRevision t s
  | .getManufacturerInfo t => Sys2Proof.Machine.execGetManufacturerInfo t s
  | .getBatteryCap t => Sys2Proof.Machine.execGetBatteryCap t s
  | .getBatteryStatus t => Sys2Proof.Machine.execGetBatteryStatus t s
  | .alert t ado => Sys2Proof.Machine.execAlert t ado s
  | .softReset t => Sys2Proof.Machine.execSoftReset t s
  | .discoverIdentity t => Sys2Proof.Machine.execDiscoverIdentity t s
  | .unsupportedVdm t => Sys2Proof.Machine.execUnsupportedVdm t s
  | .bist t carrier mv => Sys2Proof.Machine.execBist t carrier mv s
  | .onDelayExpiry => Sys2Proof.Machine.execOnDelayExpiry s
  | .railGood r => Sys2Proof.Machine.execRailGood r s
  | .upTimeout => Sys2Proof.Machine.execUpTimeout s
  | .nobatSupplyReturn => Sys2Proof.Machine.execNobatSupplyReturn s
  | .railFault r => Sys2Proof.Machine.execRailFault r s
  | .tpfwExpiry => Sys2Proof.Machine.execTpfwExpiry s
  | .railFallDone r => Sys2Proof.Machine.execRailFallDone r s
  | .fallTimeout => Sys2Proof.Machine.execFallTimeout s
  | .offDelayExpiry => Sys2Proof.Machine.execOffDelayExpiry s
  | .aux2MoveDone good => Sys2Proof.Machine.execAux2MoveDone good s
  | .nrstoRelease => Sys2Proof.Machine.execNrstoRelease s
  | .nrstoPulseEnd => Sys2Proof.Machine.execNrstoPulseEnd s
  | .gateSupply q => Sys2Proof.Machine.execGateSupply q s
  | .quadSensor q => Sys2Proof.Machine.execQuadSensor q s
  | .sampleFault p drop => Sys2Proof.Machine.execSampleFault p drop s
  | .vbusSwitch t => Sys2Proof.Machine.execVbusSwitch t s
  | .portOv p mv => Sys2Proof.Machine.execPortOv p mv s
  | .pcReverse ma => Sys2Proof.Machine.execPcReverse ma s
  | .batswOc ma => Sys2Proof.Machine.execBatswOc ma s
  | .lockstep => Sys2Proof.Machine.execLockstep s
  | .nvmEcc => Sys2Proof.Machine.execNvmEcc s
  | .sramEcc1 => Sys2Proof.Machine.execSramEcc1 s
  | .sramEcc2 => Sys2Proof.Machine.execSramEcc2 s
  | .retParity item => Sys2Proof.Machine.execRetParity item s
  | .secondEvaluation source cause passes => Sys2Proof.Machine.execSecondEvaluation source cause passes s
  | .quietPeriodEnd failing => Sys2Proof.Machine.execQuietPeriodEnd failing s
  | .holdRel bp c single failing => Sys2Proof.Machine.execHoldRel bp c single failing s
  | .fecCapture addr init access cause => Sys2Proof.Machine.execFecCapture addr init access cause s
  | .finj c single => Sys2Proof.Machine.execFinj c single s
  | .testWordRead => Sys2Proof.Machine.execTestWordRead s
  | .wdgBootPeriodEnd => Sys2Proof.Machine.execWdgBootPeriodEnd s
  | .wdgCheckinCall t => Sys2Proof.Machine.execWdgCheckinCall t s
  | .wdgWindowOpen => Sys2Proof.Machine.execWdgWindowOpen s
  | .wdgCheckinWrite mask writer => Sys2Proof.Machine.execWdgCheckinWrite mask writer s
  | .wdgLate => Sys2Proof.Machine.execWdgLate s
  | .wdoPulseEnd => Sys2Proof.Machine.execWdoPulseEnd s
  | .wdgCfg c single => Sys2Proof.Machine.execWdgCfg c single s
  | .wdgPer c single => Sys2Proof.Machine.execWdgPer c single s
  | .hcwKick bp v => Sys2Proof.Machine.execHcwKick bp v s
  | .hcwExpiry => Sys2Proof.Machine.execHcwExpiry s
  | .addressMatchDormant bp => Sys2Proof.Machine.execAddressMatchDormant bp s
  | .pointerSet bp a => Sys2Proof.Machine.execPointerSet bp a s
  | .registerWrite bp v single => Sys2Proof.Machine.execRegisterWrite bp v single s
  | .controlLineRead r => Sys2Proof.Machine.execControlLineRead r s
  | .lineSupplied bp => Sys2Proof.Machine.execLineSupplied bp s
  | .stretchLimit bp => Sys2Proof.Machine.execStretchLimit bp s
  | .clearOnRead bp clocked => Sys2Proof.Machine.execClearOnRead bp clocked s
  | .gtsLatch bp => Sys2Proof.Machine.execGtsLatch bp s
  | .mirStat bp => Sys2Proof.Machine.execMirStat bp s
  | .busTimeout bp => Sys2Proof.Machine.execBusTimeout bp s
  | .filterApply bp => Sys2Proof.Machine.execFilterApply bp s
  | .attentionWrite r => Sys2Proof.Machine.execAttentionWrite r s
  | .attentionRetry r => Sys2Proof.Machine.execAttentionRetry r s
  | .attentionRepeat r => Sys2Proof.Machine.execAttentionRepeat r s
  | .guardedValue bp g v single => Sys2Proof.Machine.execGuardedValue bp g v single s
  | .update bp mask => Sys2Proof.Machine.execUpdate bp mask s
  | .updateApply => Sys2Proof.Machine.execUpdateApply s
  | .imm bp mask => Sys2Proof.Machine.execImm bp mask s
  | .immWriteApply => Sys2Proof.Machine.execImmWriteApply s
  | .stkUpdEdge => Sys2Proof.Machine.execStkUpdEdge s
  | .stkUpdApply => Sys2Proof.Machine.execStkUpdApply s
  | .mailboxRing mask => Sys2Proof.Machine.execMailboxRing mask s
  | .mailboxDone mask => Sys2Proof.Machine.execMailboxDone mask s
  | .commandCompletion n => Sys2Proof.Machine.execCommandCompletion n s
  | .mailboxAutoRelease n => Sys2Proof.Machine.execMailboxAutoRelease n s
  | .sysStatus n => Sys2Proof.Machine.execSysStatus n s
  | .eventRead n => Sys2Proof.Machine.execEventRead n s
  | .queueStat n => Sys2Proof.Machine.execQueueStat n s
  | .queueClear n => Sys2Proof.Machine.execQueueClear n s
  | .dormantCfg n => Sys2Proof.Machine.execDormantCfg n s
  | .dormantEnter n load => Sys2Proof.Machine.execDormantEnter n load s
  | .mbxReset n => Sys2Proof.Machine.execMbxReset n s
  | .withdraw n => Sys2Proof.Machine.execWithdraw n s
  | .chgQuery n => Sys2Proof.Machine.execChgQuery n s
  | .chgStart n => Sys2Proof.Machine.execChgStart n s
  | .chgStop n => Sys2Proof.Machine.execChgStop n s
  | .zoneSet n => Sys2Proof.Machine.execZoneSet n s
  | .zoneGet n => Sys2Proof.Machine.execZoneGet n s
  | .safeSetCmd n => Sys2Proof.Machine.execSafeSetCmd n s
  | .safeGet n => Sys2Proof.Machine.execSafeGet n s
  | .placeQuery n => Sys2Proof.Machine.execPlaceQuery n s
  | .basinQuery n => Sys2Proof.Machine.execBasinQuery n s
  | .pathQuery n => Sys2Proof.Machine.execPathQuery n s
  | .pathSet n => Sys2Proof.Machine.execPathSet n s
  | .hostCap n => Sys2Proof.Machine.execHostCap n s
  | .coefSet n => Sys2Proof.Machine.execCoefSet n s
  | .coefGet n => Sys2Proof.Machine.execCoefGet n s
  | .tune n => Sys2Proof.Machine.execTune n s
  | .measQuery n => Sys2Proof.Machine.execMeasQuery n s
  | .ccGet n => Sys2Proof.Machine.execCcGet n s
  | .ccSet n => Sys2Proof.Machine.execCcSet n s
  | .sweep n m => Sys2Proof.Machine.execSweep n m s
  | .sweepStop n => Sys2Proof.Machine.execSweepStop n s
  | .pointsGet n => Sys2Proof.Machine.execPointsGet n s
  | .modelGet n => Sys2Proof.Machine.execModelGet n s
  | .chemSet n => Sys2Proof.Machine.execChemSet n s
  | .chemGet n => Sys2Proof.Machine.execChemGet n s
  | .portQuery n => Sys2Proof.Machine.execPortQuery n s
  | .prSwap n => Sys2Proof.Machine.execPrSwap n s
  | .drSwap n => Sys2Proof.Machine.execDrSwap n s
  | .auth n => Sys2Proof.Machine.execAuth n s
  | .rootSet n => Sys2Proof.Machine.execRootSet n s
  | .seqUp n => Sys2Proof.Machine.execSeqUp n s
  | .seqDown n => Sys2Proof.Machine.execSeqDown n s
  | .nrstPulse n => Sys2Proof.Machine.execNrstPulse n s
  | .logRead n => Sys2Proof.Machine.execLogRead n s
  | .faultQuery n => Sys2Proof.Machine.execFaultQuery n s
  | .recGet n => Sys2Proof.Machine.execRecGet n s
  | .lfGet n => Sys2Proof.Machine.execLfGet n s
  | .faultClear n => Sys2Proof.Machine.execFaultClear n s
  | .release n failing => Sys2Proof.Machine.execRelease n failing s
  | .unfence n => Sys2Proof.Machine.execUnfence n s
  | .fcntClear n => Sys2Proof.Machine.execFcntClear n s
  | .fecGet n => Sys2Proof.Machine.execFecGet n s
  | .nvmStore n => Sys2Proof.Machine.execNvmStore n s
  | .nvmStat n => Sys2Proof.Machine.execNvmStat n s
  | .imageLoad n => Sys2Proof.Machine.execImageLoad n s
  | .imageAct n => Sys2Proof.Machine.execImageAct n s
  | .addrSet n => Sys2Proof.Machine.execAddrSet n s
  | .idGet n => Sys2Proof.Machine.execIdGet n s
  | .certGet n => Sys2Proof.Machine.execCertGet n s
  | .logSign n => Sys2Proof.Machine.execLogSign n s
  | .stackStat n => Sys2Proof.Machine.execStackStat n s
  | .stackSet n => Sys2Proof.Machine.execStackSet n s
  | .stackSeq n => Sys2Proof.Machine.execStackSeq n s
  | .stackDormant n => Sys2Proof.Machine.execStackDormant n s
  | .wdgQuery n => Sys2Proof.Machine.execWdgQuery n s
  | .evidGet n => Sys2Proof.Machine.execEvidGet n s
  | .wcntClear n => Sys2Proof.Machine.execWcntClear n s
  | .stackCycleStart c => Sys2Proof.Machine.execStackCycleStart c s
  | .slotStart c => Sys2Proof.Machine.execSlotStart c s
  | .managerFrame f => Sys2Proof.Machine.execManagerFrame f s
  | .memberReport r fr late => Sys2Proof.Machine.execMemberReport r fr late s
  | .joinRequest k r => Sys2Proof.Machine.execJoinRequest k r s
  | .joinCertificate k off data => Sys2Proof.Machine.execJoinCertificate k off data s
  | .joinSignature k part data => Sys2Proof.Machine.execJoinSignature k part data s
  | .scmdNone arg => Sys2Proof.Machine.execScmdNone arg s
  | .time1 arg => Sys2Proof.Machine.execTime1 arg s
  | .time2 arg => Sys2Proof.Machine.execTime2 arg s
  | .scap arg => Sys2Proof.Machine.execScap arg s
  | .safeg arg => Sys2Proof.Machine.execSafeg arg s
  | .expectLo arg => Sys2Proof.Machine.execExpectLo arg s
  | .expectHi arg => Sys2Proof.Machine.execExpectHi arg s
  | .delay arg => Sys2Proof.Machine.execDelay arg s
  | .tstep arg => Sys2Proof.Machine.execTstep arg s
  | .seqLo arg => Sys2Proof.Machine.execSeqLo arg s
  | .seqHi arg => Sys2Proof.Machine.execSeqHi arg s
  | .seqGo arg => Sys2Proof.Machine.execSeqGo arg s
  | .dormant arg => Sys2Proof.Machine.execDormant arg s
  | .jstart arg => Sys2Proof.Machine.execJstart arg s
  | .jdata arg => Sys2Proof.Machine.execJdata arg s
  | .jresult arg => Sys2Proof.Machine.execJresult arg s
  | .slotListenEnd heard => Sys2Proof.Machine.execSlotListenEnd heard s
  | .joinTimeout => Sys2Proof.Machine.execJoinTimeout s
  | .joinRetry => Sys2Proof.Machine.execJoinRetry s
  | .mgrSilent => Sys2Proof.Machine.execMgrSilent s
  | .slotFail k => Sys2Proof.Machine.execSlotFail k s
  | .slot0Collision other => Sys2Proof.Machine.execSlot0Collision other s
  | .alignLost => Sys2Proof.Machine.execAlignLost s
  | .alignLostLift => Sys2Proof.Machine.execAlignLostLift s
  | .frameCrc => Sys2Proof.Machine.execFrameCrc s
  | .referenceFrame iunit bsw stop parity => Sys2Proof.Machine.execReferenceFrame iunit bsw stop parity s
  | .cascRefLost => Sys2Proof.Machine.execCascRefLost s
  | .cascRefLostLift => Sys2Proof.Machine.execCascRefLostLift s
  | .stackFenceLift k => Sys2Proof.Machine.execStackFenceLift k s
  | .stackElectionClose => Sys2Proof.Machine.execStackElectionClose s
  | .stkTakeover => Sys2Proof.Machine.execStkTakeover s
  | .managerReclaim => Sys2Proof.Machine.execManagerReclaim s
  | .stackDormantTimeout => Sys2Proof.Machine.execStackDormantTimeout s
  | .nvmRequestStart energy => Sys2Proof.Machine.execNvmRequestStart energy s
  | .nvmProgramDone first again => Sys2Proof.Machine.execNvmProgramDone first again s
  | .nvmEnergyWaitExpiry => Sys2Proof.Machine.execNvmEnergyWaitExpiry s
  | .nvmCut => Sys2Proof.Machine.execNvmCut s
  | .fuse c single n => Sys2Proof.Machine.execFuse c single n s
  | .fuseBlowDone sensed => Sys2Proof.Machine.execFuseBlowDone sensed s
  | .aonPowerLoss => Sys2Proof.Machine.execAonPowerLoss s
  | .rpAdvertisementChange t rp => Sys2Proof.Machine.execRpAdvertisementChange t rp s
  | .vsafe5vReturn t => Sys2Proof.Machine.execVsafe5vReturn t s
  | .prSwapNoAnswer t => Sys2Proof.Machine.execPrSwapNoAnswer t s
  | .debugHalt halt => Sys2Proof.Machine.execDebugHalt halt s

end Sys2Proof.Machine
end

