-- ==== Sys2Proof/Safety.lean ====
section
/-! DEFINITION. What every state a run passes through keeps: the shape of the block's banks, the depths of its queues, the canonical
form of its addressed buffers, and open selectors on phases that serve no port. -/
namespace Sys2Proof.Safety

open Sys2Proof.Machine

/-- A FREE or FENCED phase has its selectors open and is on its way nowhere, and no weight passes 1 (R103, R121). -/
def phaseOk (x : Phase) : Prop := ((x.st = .free ∨ x.st = .fenced) → x.port = none ∧ x.next = none) ∧ x.weight ≤ 16384

/-- Eight phases and three paths (R102). -/
def fabOk (f : Fabric) : Prop := f.ph.length = 8 ∧ f.path.length = 3 ∧ ∀ x ∈ f.ph, phaseOk x

/-- One compensator per path (R137). -/
def ccOk (c : Conv) : Prop := c.comp.length = 3

/-- The event queue, the telemetry ring, the sample queues, the inboxes and the stack transmit queue keep within their depths; thirteen drop
counters of 16 bits (R30, R35). -/
def qsOk (q : Queues) : Prop :=
  q.events.length ≤ 256 ∧ q.stkTx.length ≤ 16 ∧ q.telemetry.length ≤ 64 ∧ (∀ l ∈ q.sampleQ, l.length ≤ 8) ∧ (∀ l ∈ q.inbox, l.length ≤ 16) ∧ q.drops.length = 13
    ∧ ∀ d ∈ q.drops, d ≤ 0xFFFF

/-- The control registers of a stored set are in canonical form. -/
def cfgOk (c : CfgSet) : Prop := Memory.wf regDefault c.page = true

/-- Four mailboxes of buffers in canonical form (R30). -/
def mbOk (m : Mail) : Prop := m.box.length = 4 ∧ Memory.wf zeroByte m.inb = true ∧ Memory.wf zeroByte m.outb = true

/-- The write queue keeps within its depth (R30), there are two banks (R460), and images and stored sets are in canonical form. -/
def nvmOk (n : NvmS) : Prop :=
  n.q.length ≤ 8 ∧ n.cfg.length = 2 ∧ Memory.wf blankByte n.imgA = true ∧ Memory.wf blankByte n.imgB = true
    ∧ Memory.wf zeroByte n.stage = true ∧ (∀ b, some b ∈ n.cfg → cfgOk b.cfg) ∧ (∀ r ∈ n.q, cfgOk r.cfg) ∧ ∀ r, n.prog = some r → cfgOk r.cfg

/-- The record store and the last-fault slots keep within their sizes (R169, R337). -/
def fltOk (f : Faults) : Prop := f.recs.length ≤ 24 ∧ f.lfSlot.length ≤ 2

/-- The settings that RET saves over DORMANT are in canonical form (R504). -/
def sysOk (y : Sys) : Prop := ∀ v, y.saved = some v → cfgOk v.cfg

/-- The invariant of the block. -/
def Inv (s : State) : Prop :=
  fabOk s.fab ∧ ccOk s.cc ∧ qsOk s.qs ∧ mbOk s.mb ∧ nvmOk s.nvm ∧ fltOk s.flt ∧ sysOk s.sys ∧ Memory.wf regDefault s.bus.page = true

/-! ## Parts of the state -/

/-- The parts of `State`; the queue of waiting commands stands apart. -/
inductive Part where
  | clk | sys | qs | bus | grd | fab | cc | pp | chg | ms | sw | seq | flt | wd | mb | stk | nvm | tca | tcb | free
  deriving DecidableEq, Repr

/-- From `s` to `t` at most the parts of `l` change; the queue of waiting commands does not. -/
def changesOnly (l : List Part) (s t : State) : Prop :=
  t.pending = s.pending
    ∧ (Part.clk ∈ l ∨ t.clk = s.clk)
    ∧ (Part.sys ∈ l ∨ t.sys = s.sys)
    ∧ (Part.qs ∈ l ∨ t.qs = s.qs)
    ∧ (Part.bus ∈ l ∨ t.bus = s.bus)
    ∧ (Part.grd ∈ l ∨ t.grd = s.grd)
    ∧ (Part.fab ∈ l ∨ t.fab = s.fab)
    ∧ (Part.cc ∈ l ∨ t.cc = s.cc)
    ∧ (Part.pp ∈ l ∨ t.pp = s.pp)
    ∧ (Part.chg ∈ l ∨ t.chg = s.chg)
    ∧ (Part.ms ∈ l ∨ t.ms = s.ms)
    ∧ (Part.sw ∈ l ∨ t.sw = s.sw)
    ∧ (Part.seq ∈ l ∨ t.seq = s.seq)
    ∧ (Part.flt ∈ l ∨ t.flt = s.flt)
    ∧ (Part.wd ∈ l ∨ t.wd = s.wd)
    ∧ (Part.mb ∈ l ∨ t.mb = s.mb)
    ∧ (Part.stk ∈ l ∨ t.stk = s.stk)
    ∧ (Part.nvm ∈ l ∨ t.nvm = s.nvm)
    ∧ (Part.tca ∈ l ∨ t.tca = s.tca)
    ∧ (Part.tcb ∈ l ∨ t.tcb = s.tcb)
    ∧ (Part.free ∈ l ∨ t.free = s.free)

/-! ## Conditions and effects that statements name -/

/-- No failure and no record of `cause` is recent enough for a new report of it to fold into (R335). -/
def fresh (s : State) (cause : BitVec 16) : Prop :=
  (s.flt.pend.find? fun p => p.cause == cause && s.foldable p.stamp) = none
    ∧ (s.flt.recs.find? fun r => r.cause == cause && !r.bad && s.foldable r.stamp) = none

/-- A failure of `src` with `cause` awaits its second evaluation (R317). -/
def awaits (s : State) (src : Nat) (cause : BitVec 16) (detail : Nat := 0xFFFFFFFF) (item : Option (Fin 14) := none)
    (member : Option (Fin 32) := none) : State :=
  s.onFlt fun f => { f with pend := f.pend ++ [{ source := s.source src, cause := cause, stamp := s.stamp
                                                 detail := BitVec.ofNat 32 detail, item := item, member := member }] }

/-- The complement `c` of the value `v` pending at the guarded register `g` arrives in time, in a transfer of its own (R387). -/
def pairOk (s : State) (bp : BusPort) (g : Nat) (c : Byte) (single : Bool) (v : Byte) : Prop :=
  s.busUp bp = true ∧ single = true ∧ c = ~~~v
    ∧ ∃ k, (s.port bp).pend = some { addr := g, val := v, since := k } ∧ s.now ≤ k + 1000

/-- The complement `c` for the guarded register `g` fails its pair (R387, R388): it came within a longer transfer, without a value pending, for
another register, not the complement of the value, or more than 1000 µs after it. -/
def pairBad (s : State) (bp : BusPort) (g : Nat) (c : Byte) (single : Bool) : Prop :=
  single = false ∨ (s.port bp).pend = none
    ∨ ∃ p, (s.port bp).pend = some p ∧ (p.addr ≠ g ∨ c ≠ ~~~p.val ∨ p.since + 1000 < s.now)

/-- What a failed pair of port `bp` leaves (R388): the pair is discarded, GUARDF is set, GUARD_FAIL of class 0 is raised with the port's source
where the queue has room, the guarded registers hold `g`, and the other port keeps what it holds. -/
def pairFailed (s : State) (bp : BusPort) (g : Guard) (t : State) : Prop :=
  (t.port bp).pend = none ∧ (t.port bp).stat.getLsbD 0 = true ∧ t.grd = g
    ∧ (∀ q, q ≠ bp → t.port q = s.port q) ∧ changesOnly [.bus, .qs, .grd] s t
    ∧ (s.qs.events.length < 224 → t.qs.events = eventPut s.qs.events (s.mkEvent (Src.bus bp) Ev.guardFail 0 []))

/-- The state in which the value of an accepted pair is written: the pointer stands behind the complement, nothing is pending. -/
def pairDone (s : State) (bp : BusPort) (g : Nat) : State :=
  (s.onPort bp fun p => { p with ptr := g + 0x81 }).onPort bp fun p => { p with pend := none }

/-- Mailbox `n` holds the frame to be carried out next, with OPCODE `op` and a payload of `len` bytes (R400, R404). -/
def ready (s : State) (n : Fin 4) (op len : Nat) : Prop := s.carries n.val op = true ∧ s.frameLen n.val = len

/-- The state in which the work of the command in mailbox `n` has begun: task Vetch has taken its ring (R39). -/
def begun (s : State) (n : Fin 4) : State :=
  ((s.taskRan .vetch).onMb fun m => { m with ring := m.ring.filter fun k => k.val != n.val }).onBox n.val fun b => { b with begun := true }

/-! ## Frames of commands -/

/-- Whenever command `c` answers a next state, at most the parts of `l` change. -/
def frame (l : List Part) (c : Instr) : Prop := ∀ s t : State, exec c s = .next t → changesOnly l s t

/-- The same outside DORMANT, for a command that may report a failure of class 4: in DORMANT that report also wakes the module (R325),
which may change every part. -/
def frameAwake (l : List Part) (c : Instr) : Prop :=
  ∀ s t : State, s.sys.mode ≠ .dormant → exec c s = .next t → changesOnly l s t

end Sys2Proof.Safety
end

