-- ==== Sys2Proof/Certificates/Slice0/Obligations.lean ====
section
/-! DEFINITION. The statements for the provers. -/

open Sys2Proof Sys2Proof.Machine Sys2Proof.Safety

/-- A step with a command in front is that command on the rest of the queue (the block model of this row; log entry 1). -/
def Obligations.StepFront : Prop :=
  ∀ (c : Instr) (rest : List Instr) (s : State),
    step { s with pending := c :: rest } = exec c { s with pending := rest }

/-- With no command waiting a cycle of the clock passes (the model's choice, log entry 1). -/
def Obligations.StepIdle : Prop :=
  ∀ s : State, s.pending = [] → step s = .next s.idleTick

/-- No row of the table gives its command a word, so no word spells a command. -/
def Obligations.TableWords : Prop :=
  ∀ (nbits w : Nat) (s : State), decodeTableWord nbits w = none ∧ s.withFetchWord nbits w = s

/-- Reset meets the invariant of Safety.lean. -/
def Obligations.InvAtReset : Prop :=
  Safety.Inv State.reset

/-- What AON power-on leaves, as the rules give it: time at zero (R22), the nominal increment (R19), MOSC stopped (the model's choice, log entry 4: no rule gives its state before Tier 0), no boot cause but power-on (R82), queues, drop counters and EVT empty (R35, R493), filters 0x07 (R371), the host address 0x5C (R365), attention 0x75 (R375), both BUS_STAT 0 and both pointers 0 (R367, R385). -/
def Obligations.ResetValues : Prop :=
  State.reset.now = 0 ∧ State.reset.clk.incr = 0x1E8480 ∧ State.reset.clk.moscRun = false ∧ State.reset.sys.mode = .waking
    ∧ State.reset.sys.tier = 0 ∧ State.reset.sys.boot = 0x01 ∧ State.reset.qs.events = [] ∧ State.reset.qs.evt = 0
    ∧ (∀ k, State.reset.qs.drops.getD k 0 = 0) ∧ State.reset.bus.hostAddr = 0x5C ∧ State.reset.bus.attnCfg = 0x75
    ∧ (∀ bp, (State.reset.port bp).ptr = 0 ∧ (State.reset.port bp).stat = 0 ∧ (State.reset.port bp).filt = 0x07 ∧ (State.reset.port bp).pend = none)
    ∧ State.reset.flt.recs = [] ∧ State.reset.flt.hold = false ∧ State.reset.flt.fence = 0
    ∧ (∀ i, (State.reset.phase i).st = .free) ∧ State.reset.mb.inuse = 0 ∧ State.reset.mb.outrdy = 0 ∧ State.reset.pending = []

/-- Every step keeps the invariant of Safety.lean. -/
def Obligations.InvStep : Prop :=
  ∀ s t : State, Safety.Inv s → step s = .next t → Safety.Inv t

/-- No step restores a fuse (R472). -/
def Obligations.FusesStayBlown : Prop :=
  ∀ s t : State, Safety.Inv s → step s = .next t → s.grd.fuse &&& t.grd.fuse = s.grd.fuse

/-- Every command leads to a next state, and leaves the queue of waiting commands to the step. -/
def Obligations.EveryCommandAnswers : Prop :=
  ∀ (c : Instr) (s : State), Safety.Inv s → ∃ t : State, exec c s = .next t ∧ t.pending = s.pending

/-- How time passes (R18, R19): while MOSC runs GTS advances by one for every 128 MOSC cycles, and while it is stopped each AOSC cycle adds the 22-bit increment to the fraction; a cycle being a step on an empty queue (log entry 1); trimming is for stack members (R435). -/
def Obligations.IdleAdvancesTime : Prop :=
  (∀ s : State, s.clk.moscRun = true → s.stk.joined = false → s.sys.mode ≠ .unpowered → s.sys.mode ≠ .ship → s.sys.cut = false →
    s.clk.fine = 0 →
    (∀ k, k < 128 → ((fun t => State.idleTick t)^[k] s).clk.gts = s.clk.gts)
      ∧ ((fun t => State.idleTick t)^[128] s).clk.gts = s.clk.gts + 1 ∧ ((fun t => State.idleTick t)^[128] s).clk.fine = 0)
  ∧ ∀ s : State, s.clk.moscRun = false → s.sys.mode ≠ .unpowered → s.sys.mode ≠ .ship → s.sys.cut = false →
    s.idleTick.clk.frac.toNat = (s.clk.frac.toNat + s.clk.incr.toNat) % 65536
      ∧ s.idleTick.clk.gts = s.clk.gts + BitVec.ofNat 48 ((s.clk.frac.toNat + s.clk.incr.toNat) / 65536)

/-- GTS_WRAP and EPOCH_WRAP (R23). -/
def Obligations.WrapStampsEvents : Prop :=
  (∀ s : State, s.clk.gts.toNat = 2 ^ 48 - 1 → s.gtsAdd 1 = s.gtsWrap)
    ∧ ∀ s : State, s.counts = true → s.clk.gts = 0xFFFFFFFFFFFF → s.qs.events.length < 222 →
      ∃ t : State, exec .gtsWrap s = .next t ∧ t.clk.gts = 0 ∧ t.clk.fine = 0 ∧ t.clk.epoch = s.clk.epoch + 1 ∧ t.now = (s.clk.epoch + 1).toNat * 2 ^ 48
        ∧ t.qs.events = (if s.clk.epoch = 255 then fun l => eventPut l (t.mkEvent Src.vetch Ev.epochWrap 0 []) else id)
            (eventPut s.qs.events (t.mkEvent Src.vetch Ev.gtsWrap 0 []))

/-- The event queue keeps 32 of its 256 entries for fault-class events (R31). -/
def Obligations.EventReserve : Prop :=
  ∀ (s : State) (src : Nat) (code : BitVec 16) (d : List Byte) (cls : Nat), qsOk s.qs →
    ((if cls = 0 then s.qs.events.length < 224 else s.qs.events.length < 256) →
        s.raise src code d cls = s.onQs fun q => { q with
          events := eventPut q.events (s.mkEvent src code cls d), evt := setBit q.evt (code.toNat / 256) true })
      ∧ (¬(if cls = 0 then s.qs.events.length < 224 else s.qs.events.length < 256) →
        (s.raise src code d cls).qs.events = s.qs.events ∧ (s.raise src code d cls).qs.evt = s.qs.evt
          ∧ (s.raise src code d cls).qs.drops = s.qs.drops.set 4 (min 0xFFFF (s.qs.drops.getD 4 0 + 1))
          ∧ (s.raise src code d cls).flt = s.flt ∧ (s.raise src code d cls).fltSum = s.fltSum ∧ (s.raise src code d cls).fltClass = s.fltClass)

/-- The stack transmit queue keeps 4 of its 16 entries for fault reports (R33). -/
def Obligations.StackQueueReserve : Prop :=
  ∀ s : State,
    (∀ code arg : Nat, (s.qs.stkTx.length < 12 →
          (s.queueScmd code arg).qs.stkTx.length = s.qs.stkTx.length + 1 ∧ (s.queueScmd code arg).stk.scmdQ = s.stk.scmdQ ++ [(code, BitVec.ofNat 16 arg)])
        ∧ (12 ≤ s.qs.stkTx.length → s.queueScmd code arg = s.drop 11))
      ∧ ∀ r : FaultRec, s.stk.joined = true → s.isWorker = true →
        (s.qs.stkTx.length < 16 → (s.frepSend r).qs.stkTx.length = s.qs.stkTx.length + 1 ∧ (s.frepSend r).stk.frepQ.length = s.stk.frepQ.length + 1)
        ∧ (16 ≤ s.qs.stkTx.length → s.frepSend r = s.drop 11)

/-- The drop counter of a queue stops at 0xFFFF, sets its SAT flag and raises one QUEUE_SAT event (R35); QUEUE_CLEAR clears the counters named and their SAT flags. -/
def Obligations.DropCounts : Prop :=
  (∀ (s : State) (k : Nat), qsOk s.qs → k < 13 → s.qs.events.length < 224 →
      (s.qs.drops.getD k 0 < 0xFFFE → s.drop k = s.onQs fun q => { q with drops := q.drops.set k (q.drops.getD k 0 + 1) })
      ∧ (s.qs.drops.getD k 0 = 0xFFFE → (s.drop k).qs.drops = s.qs.drops.set k 0xFFFF ∧ (s.drop k).qs.sat = setBit s.qs.sat k true
          ∧ ∃ e, (s.drop k).qs.events = eventPut s.qs.events e ∧ e.code = Ev.queueSat ∧ e.detail = [BitVec.ofNat 8 k])
      ∧ (s.qs.drops.getD k 0 = 0xFFFF → s.drop k = s))
    ∧ ∀ (s : State) (n : Fin 4) (m : Nat), ready s n 0x0104 2 → s.fld n.val 0 2 = m → m < 8192 →
      ∃ t : State, exec (.queueClear n) s = .next t ∧ ∀ k, k < 13 → m.testBit k = true → t.qs.drops.getD k 0 = 0 ∧ t.qs.sat.getLsbD k = false

/-- Addressed buffers (mailboxes, images, register pages) read back what was written and leave every other address alone, and a write keeps the canonical form. -/
def Obligations.BufferReadsBack : Prop :=
  ∀ (d : Nat → Byte) (m : List Host.Cell) (a b : Nat) (v : Byte), Memory.wf d m = true →
    memGet d (memPut d m a v) b = (if b = a then v else memGet d m b) ∧ Memory.wf d (memPut d m a v) = true

/-- What a host-port byte does to an inbound mailbox, and what OUTn reads (R398). -/
def Obligations.MailboxBytes : Prop :=
  (∀ (s : State) (v : Byte) (single : Bool), Safety.Inv s → s.busUp .host = true → 0x0800 ≤ s.bus.hp.ptr → s.bus.hp.ptr < 0x0C00 →
      ∃ t : State, exec (.registerWrite .host v single) s = .next t ∧ t.mb.outb = s.mb.outb ∧ t.mb.box = s.mb.box
        ∧ ∀ a, 0x0800 ≤ a → a < 0x0C00 → t.busRead .host a =
          if a = s.bus.hp.ptr ∧ s.mb.lock.getLsbD ((a - 0x0800) / 256) = false then v else s.busRead .host a)
    ∧ (∀ (s : State) (v : Byte) (single : Bool), 0x0C00 ≤ s.bus.hp.ptr → s.bus.hp.ptr < 0x1000 →
      ∃ t : State, exec (.registerWrite .host v single) s = .next t ∧ t.mb = s.mb)
    ∧ ∀ (s : State) (a : Nat), 0x0C00 ≤ a → a < 0x1000 → s.mb.outrdy.getLsbD ((a - 0x0C00) / 256) = false → s.busRead .host a = 0

/-- The response to a command goes into its own outbound mailbox and nowhere else (R394, R398). -/
def Obligations.AnswerFrame : Prop :=
  ∀ (s : State) (n : Fin 4) (status : Byte) (data : List Byte), Safety.Inv s → data.length ≤ 240 →
    changesOnly [.mb] s (s.finish n.val status data) ∧ (s.finish n.val status data).mb.inb = s.mb.inb
      ∧ (s.finish n.val status data).mb.inuse = s.mb.inuse ∧ (s.finish n.val status data).mb.lock = s.mb.lock
      ∧ (∀ a, a < 256 * n.val ∨ 256 * (n.val + 1) ≤ a →
          memGet zeroByte (s.finish n.val status data).mb.outb a = memGet zeroByte s.mb.outb a)
      ∧ (∀ k : Fin 4, k ≠ n → (s.finish n.val status data).box k.val = s.box k.val
          ∧ (s.finish n.val status data).mb.outrdy.getLsbD k.val = s.mb.outrdy.getLsbD k.val)
      ∧ ((s.box n.val).st = .taken → (s.finish n.val status data).mb.outrdy.getLsbD n.val = true
          ∧ memGet zeroByte (s.finish n.val status data).mb.outb (256 * n.val + 1) = status)

/-- A guarded pair that fails (R388), for every guarded primary of R497: the pair is discarded, GUARDF is set, GUARD_FAIL raised with the port's source, and the guarded registers keep their values. The complement is wrong, late, within a longer transfer, for another register, or without a value pending; or the register's own rule refuses the value (R90, R133, R204, R205, R331, R343, R362, R472), where the refusal bit, where the register has one, is set. HOLD_REL is shown through both ports. -/
def Obligations.GuardedPairFails : Prop :=
  (∀ (s : State) (c : Byte) (single : Bool), s.busUp .host = true →
      (pairBad s .host 0x40 c single → (∃ t, exec (.shipEnt c single) s = .next t ∧ pairFailed s .host s.grd t))
      ∧ (pairBad s .host 0x44 c single → (∃ t, exec (.chemCfg c single) s = .next (t.pathNote s.pathByte) ∧ pairFailed s .host s.grd t))
      ∧ (pairBad s .host 0x48 c single → (∃ t, exec (.fplace0 c single) s = .next t ∧ pairFailed s .host s.grd t))
      ∧ (pairBad s .host 0x49 c single → (∃ t, exec (.fplace1 c single) s = .next t ∧ pairFailed s .host s.grd t))
      ∧ (pairBad s .host 0x4A c single → (∃ t, exec (.fpenSet c single) s = .next t ∧ pairFailed s .host s.grd t) ∧ (∃ t, exec (.fpenClear c single) s = .next t ∧ pairFailed s .host s.grd t))
      ∧ (pairBad s .host 0x4C c single → (∃ t, exec (.finj c single) s = .next t ∧ pairFailed s .host s.grd t))
      ∧ (pairBad s .host 0x50 c single → (∃ t, exec (.wdgCfg c single) s = .next t ∧ pairFailed s .host s.grd t))
      ∧ (pairBad s .host 0x51 c single → (∃ t, exec (.wdgPer c single) s = .next t ∧ pairFailed s .host s.grd t))
      ∧ (pairBad s .host 0x54 c single → ∀ n, (∃ t, exec (.fuse c single n) s = .next t ∧ pairFailed s .host s.grd t)))
    ∧ (∀ (s : State) (bp : BusPort) (c : Byte) (single : Bool) (failing : List (Nat × Nat)), s.busUp bp = true → pairBad s bp 0x4E c single →
      (∃ t, exec (.holdRel bp c single failing) s = .next (t.pathNote s.pathByte) ∧ pairFailed s bp s.grd t))
    ∧ (∀ (s : State) (c v : Byte),
      (pairOk s .host 0x40 c true v → v.toNat % 64 = 0 ∨ 60 < v.toNat % 64 → (∃ t, exec (.shipEnt c true) s = .next t ∧ pairFailed s .host s.grd t))
      ∧ (pairOk s .host 0x44 c true v → v.toNat % 4 = 0 ∨ v.toNat / 4 % 16 < 2 ∨ 10 < v.toNat / 4 % 16 → (∃ t, exec (.chemCfg c true) s = .next (t.pathNote s.pathByte) ∧ pairFailed s .host s.grd t))
      ∧ (pairOk s .host 0x51 c true v → v.toNat % 128 < 5 ∨ 100 < v.toNat % 128 → (∃ t, exec (.wdgPer c true) s = .next t ∧ pairFailed s .host s.grd t)))
    ∧ (∀ (s : State) (c v : Byte),
      (pairOk s .host 0x44 c true v → v.toNat % 4 ≠ 0 → 2 ≤ v.toNat / 4 % 16 → v.toNat / 4 % 16 ≤ 10 → s.chg.phase.charging = true →
        (∃ t, exec (.chemCfg c true) s = .next (t.pathNote s.pathByte) ∧ pairFailed s .host { s.grd with chref := true } t))
      ∧ (pairOk s .host 0x4A c true v → v.getLsbD 0 = true → s.fpenBar = true → (∃ t, exec (.fpenSet c true) s = .next t ∧ pairFailed s .host { s.grd with fpref := true } t))
      ∧ (pairOk s .host 0x4C c true v → v.getLsbD 7 = true → s.finjBar (v.toNat % 16) (v.toNat / 16 % 8) = true →
        (∃ t, exec (.finj c true) s = .next t ∧ pairFailed s .host { s.grd with injRef := true } t))
      ∧ ∀ n, pairOk s .host 0x54 c true v → v.setWidth 5 &&& ~~~s.grd.fuse ≠ 0 → s.grd.fbusy = false → s.fuseBar (v.setWidth 5 &&& ~~~s.grd.fuse) n = true →
        (∃ t, exec (.fuse c true n) s = .next t ∧ pairFailed s .host { s.grd with fref := true } t))
    ∧ ∀ (s : State) (bp : BusPort) (c v : Byte) (failing : List (Nat × Nat)), pairOk s bp 0x4E c true v → v.getLsbD 0 = true →
      s.sys.mode ≠ .hold ∨ s.causesPass failing = false ∨ (s.grd.fuseLive.getLsbD 2 = true ∧ bp = .host) →
      ∃ t : State, exec (.holdRel bp c true failing) s = .next (t.pathNote s.pathByte) ∧ (t.port bp).pend = none ∧ (t.port bp).stat.getLsbD 0 = true
        ∧ t.grd = { s.grd with relref := true } ∧ changesOnly [.bus, .qs, .grd] s t

/-- The latch of GTS and the epoch (R25), one per port (R492). -/
def Obligations.GtsLatchRead : Prop :=
  ∀ (s : State) (bp : BusPort), s.busUp bp = true →
    ∃ t : State, exec (.gtsLatch bp) s = .next t ∧ changesOnly [.bus] s t
      ∧ (∀ a, 0x000A ≤ a → a ≤ 0x000F → t.busRead bp a = BitVec.ofNat 8 (s.clk.gts.toNat / 256 ^ (a - 0x0A)))
      ∧ t.busRead bp 0x0010 = s.clk.epoch ∧ (t.port bp).rd = BitVec.ofNat 8 s.clk.gts.toNat ∧ (t.port bp).ptr = 0x000B
      ∧ (∀ q, q ≠ bp → t.port q = s.port q)
      ∧ ∀ u : State, u.port bp = t.port bp → ∀ a, 0x000A ≤ a → a ≤ 0x0010 → u.busRead bp a = t.busRead bp a

/-- A read through one port never replaces what the other has latched (R492). -/
def Obligations.LatchesApart : Prop :=
  ∀ (s : State) (bp q : BusPort), q ≠ bp →
    (∃ t : State, exec (.gtsLatch bp) s = .next t ∧ t.port q = s.port q) ∧ (∃ t : State, exec (.mirStat bp) s = .next t ∧ t.port q = s.port q)
      ∧ (s.busUp bp = true → ∃ t : State, exec (.mirStat bp) s = .next t ∧ (t.port bp).mirL = s.ms.mir ∧ (t.port bp).gtsL = (s.port bp).gtsL)

/-- A transfer abandoned by the bus timeout (R369). -/
def Obligations.BusTimeoutEnds : Prop :=
  ∀ (s : State) (bp : BusPort), s.busUp bp = true →
    (∃ t : State, exec (.busTimeout bp) s = .next t ∧ changesOnly [.bus] s t ∧ (t.port bp).stat.getLsbD 4 = true
      ∧ (t.port bp).stretch = none ∧ (t.port bp).ackHold = false ∧ (t.port bp).line = none ∧ (t.port bp).allFF = false
      ∧ (t.port bp).ptr = (s.port bp).ptr
      ∧ (∀ q, q ≠ bp → t.port q = s.port q) ∧ t.bus.shadow = s.bus.shadow ∧ t.bus.page = s.bus.page)
    ∧ exec (.clearOnRead bp false) s = .next s

/-- What the safety port may write and what its reads clear (R364, R366). The addresses that R364 permits (HCW_KICK, HOLD_REL, its complement and the alias of that) are excluded; they have rows of their own (log entry 57). A write into the control region while firmware does not run sets DENIED all the same (log entry 120). -/
def Obligations.SafetyPortDenied : Prop :=
  (∀ (s : State) (v : Byte) (single : Bool), s.busUp .safety = true →
      s.bus.sp.ptr ≠ 0x0024 → s.bus.sp.ptr ≠ 0x004E → s.bus.sp.ptr ≠ 0x00CE → s.bus.sp.ptr ≠ 0x00EE →
      ∃ t : State, exec (.registerWrite .safety v single) s = .next t ∧ t.bus.sp.stat.getLsbD 3 = true ∧ changesOnly [.bus, .qs] s t
        ∧ t.bus = { s.bus with sp := t.bus.sp })
    ∧ (∀ (s : State) (g v : Byte) (single : Bool), s.busUp .safety = true → 0x40 ≤ g.toNat → g.toNat ≤ 0x5F → g ≠ 0x4E →
      ∃ t : State, exec (.guardedValue .safety g v single) s = .next t ∧ t.bus.sp.stat.getLsbD 3 = true ∧ changesOnly [.bus, .qs] s t
        ∧ t.bus = { s.bus with sp := t.bus.sp })
    ∧ (∀ (s : State) (m : Byte), s.busUp .safety = true →
      (∃ t : State, exec (.update .safety m) s = .next t ∧ t.bus.sp.stat.getLsbD 3 = true ∧ t.bus = { s.bus with sp := t.bus.sp })
      ∧ ∃ t : State, exec (.imm .safety m) s = .next t ∧ t.bus.sp.stat.getLsbD 3 = true ∧ t.bus = { s.bus with sp := t.bus.sp })
    ∧ ∀ s : State, s.busUp .safety = true →
      ∃ t : State, exec (.clearOnRead .safety true) s = .next t ∧ t.qs = s.qs ∧ t.bus.hp = s.bus.hp
        ∧ (s.bus.sp.ptr = 0x0026 → t.bus.sp.rd = s.bus.sp.stat ∧ t.bus.sp.stat = 0)
        ∧ (0x0004 ≤ s.bus.sp.ptr → s.bus.sp.ptr ≤ 0x0007 → t.bus.sp.rd = BitVec.ofNat 8 (s.qs.evt.toNat / 256 ^ (s.bus.sp.ptr - 4)))

/-- A host-port read clears the bits it returned as 1 (R385, R386). -/
def Obligations.HostClearOnRead : Prop :=
  ∀ s : State, s.busUp .host = true →
    (0x0004 ≤ s.bus.hp.ptr → s.bus.hp.ptr ≤ 0x0007 →
      ∃ t : State, exec (.clearOnRead .host true) s = .next t ∧ t.bus.hp.rd = BitVec.ofNat 8 (s.qs.evt.toNat / 256 ^ (s.bus.hp.ptr - 4))
        ∧ (∀ i, t.qs.evt.getLsbD i = (s.qs.evt.getLsbD i && decide (i / 8 ≠ s.bus.hp.ptr - 4)))
        ∧ t.qs.events = s.qs.events ∧ t.qs.drops = s.qs.drops ∧ t.bus.sp = s.bus.sp)
    ∧ (s.bus.hp.ptr = 0x0026 →
      ∃ t : State, exec (.clearOnRead .host true) s = .next t ∧ t.bus.hp.rd = s.bus.hp.stat ∧ t.bus.hp.stat = 0 ∧ t.bus.sp = s.bus.sp ∧ t.qs = s.qs)

/-- Selector failures (R100, R101): an overlap is class 4 and acts at once; a stuck selector awaits its second evaluation, which fences the phase. -/
def Obligations.SelectorChecks : Prop :=
  (∀ (s : State) (i : Fin 8), fresh s Cause.selectorStuck →
      exec (.selectorStuck i) s = .next ((awaits s i.val Cause.selectorStuck).pathNote s.pathByte))
    ∧ causeClass Cause.selectorStuck = 2 ∧ (∀ i : Fin 8, fenceBit i.val Cause.selectorStuck = some i.val)
    ∧ causeClass Cause.selectorOverlap = 4
    ∧ ∀ (s : State) (i : Fin 8), exec (.selectorOverlap i) s = .next ((s.checkerFail i.val Cause.selectorOverlap).pathNote s.pathByte)

/-- The required set and the check-in register (R347, R349). -/
def Obligations.CheckIns : Prop :=
  ∀ (s : State) (m : BitVec 6), s.wd.run = .normal → s.sys.halted = false → m ≠ 0 →
    500 * s.wd.per ≤ s.wd.tick → s.wd.tick < 1000 * s.wd.per →
    (s.wd.landed ||| m ≠ 0x3F →
      ∃ t : State, exec (.wdgCheckinWrite m none) s = .next (t.pathNote s.pathByte) ∧ t.wd.landed = s.wd.landed ||| m ∧ t.wd.tick = s.wd.tick
        ∧ t.wd.run = .normal)
    ∧ (s.wd.landed ||| m = 0x3F →
      ∃ t : State, exec (.wdgCheckinWrite m none) s = .next (t.pathNote s.pathByte) ∧ t.wd.landed = 0 ∧ t.wd.tick = 0 ∧ t.wd.run = .normal)
    ∧ ∀ k : FwTask, ∃ t : State, exec (.wdgCheckinWrite m (some k)) s = .next t ∧ (s.sys.fwRun = true → s.flt.taskOnce = 0 → fresh s Cause.taskMpu → t.wd = s.wd)

/-- The guarded SHIP entry register (R90). -/
def Obligations.ShipDelay : Prop :=
  ∀ (s : State) (c v : Byte), pairOk s .host 0x40 c true v →
    (1 ≤ v.toNat % 64 → v.toNat % 64 ≤ 60 → s.runs = true → s.anyPresent = false → s.isWorker = false →
      ∃ t : State, exec (.shipEnt c true) s = .next t ∧ t.sys.shipAt = some (s.now + 1000000 * (v.toNat % 64)) ∧ t.sys.shipRef = false ∧ t.sys.mode = s.sys.mode)
    ∧ (v.toNat % 64 = 0 ∨ 60 < v.toNat % 64 → ∃ t : State, exec (.shipEnt c true) s = .next t ∧ t.sys = s.sys ∧ t.bus.hp.stat.getLsbD 0 = true)
    ∧ (1 ≤ v.toNat % 64 → v.toNat % 64 ≤ 60 → s.runs = false ∨ s.anyPresent = true ∨ s.isWorker = true →
      ∃ t : State, exec (.shipEnt c true) s = .next t ∧ t.sys.shipAt = s.sys.shipAt ∧ t.sys.shipRef = true ∧ t.bus.hp.stat.getLsbD 0 = true)

/-- A press counts only when it began after a release, and a button held over a restart counts for nothing until released (R80, R94). That a module reset keeps the button as it is and counts a held press no more is log entry 71. -/
def Obligations.ButtonCounts : Prop :=
  (∀ s : State, exec .pbtnPress s = .next (s.onSys fun y => { y with btnDown := true, btnCounts := y.btnCounts || !y.btnDown }).shipCancel)
    ∧ (∀ s : State, s.sys.btnDown = true → s.sys.btnCounts = false →
      (∀ held, exec (.pbtnRelease held) s = .next ((s.onSys fun y => { y with btnDown := false }).pathNote s.pathByte))
        ∧ exec .pbtnForceOff s = .next s ∧ exec .batteryCut s = .next s ∧ exec .pbtnShipExit s = .next s)
    ∧ (∀ (s : State) (boot : Byte), s.sys.mode ≠ .ship → s.sys.mode ≠ .unpowered → s.sys.cut = false →
      (s.moduleReset boot).sys.btnCounts = false ∧ (s.moduleReset boot).sys.btnDown = s.sys.btnDown)
    ∧ ∀ (s : State) (boot : Byte) (w : BitVec 16), (s.aonOn boot w).sys.btnCounts = false ∧ (s.aonOn boot w).sys.btnDown = s.sys.btnDown

/-- A ring of a mailbox in flight, and a DONE without a response (R399). A ring that follows a DONE which waits for halted firmware waits with it (R380, R396) and is no misuse. -/
def Obligations.DoorbellMisuse : Prop :=
  ∀ (s : State) (n : Fin 4), s.busUp .host = true → s.bus.hp.pend = none → (s.sys.fwRun = false ∨ ∀ k ∈ s.mb.ring, (s.box k.val).st ≠ .free) →
    ((s.mb.lock.getLsbD n.val = true ∨ s.mb.inuse.getLsbD n.val = true) → (s.mb.doneHeld.getLsbD n.val = false ∨ (s.box n.val).st ≠ .final) →
      s.qs.events.length < 224 →
      ∃ t : State, exec (.mailboxRing (BitVec.ofNat 4 (2 ^ n.val))) s = .next (t.pathNote s.pathByte) ∧ t.mb = s.mb ∧ changesOnly [.bus, .qs] s t
        ∧ t.qs.events = eventPut s.qs.events (s.mkEvent (Src.bus .host) Ev.mbxRingBusy 0 []))
    ∧ (s.mb.outrdy.getLsbD n.val = false →
      ∃ t : State, exec (.mailboxDone (BitVec.ofNat 4 (2 ^ n.val))) s = .next (t.pathNote s.pathByte) ∧ t.mb = s.mb ∧ changesOnly [.bus] s t)

/-- A control write lands in the shadow page: the register reads the value written, the value in force stays until the block is applied (R383); with its block's IMM bit set it waits for the next tick by itself (R390); while firmware does not run it is discarded with NOFW (R384). For every buffered register of the map, written at its address or an alias (R379). -/
def Obligations.ControlWriteShadow : Prop :=
  (∀ (s : State) (v : Byte) (single : Bool) (k : Nat), s.busUp .host = true → s.sys.fwRun = true → s.bus.hp.line = none → s.bus.hp.allFF = false →
      0x0100 ≤ s.bus.hp.ptr → s.bus.hp.ptr < 0x0400 → blockOf (decodeLine s.bus.hp.ptr) = some k → (s.bus.shadow.map (·.1)).Pairwise (· < ·) →
      ∃ t : State, exec (.registerWrite .host v single) s = .next t ∧ (∀ a, t.reg a = s.reg a) ∧ t.bus.updStat.getLsbD k = true
        ∧ t.busRead .host s.bus.hp.ptr = (if decodeLine s.bus.hp.ptr = 0x0151 then setBit (v &&& 0x3F) 6 s.pp.prioBad else v &&& wmask (decodeLine s.bus.hp.ptr))
        ∧ (s.bus.imm.getLsbD k = false → t.bus.immQ = s.bus.immQ ∧ shadowAt t.bus.shadow (decodeLine s.bus.hp.ptr) = some (v &&& wmask (decodeLine s.bus.hp.ptr))
          ∧ ∀ b, b ≠ decodeLine s.bus.hp.ptr → shadowAt t.bus.shadow b = shadowAt s.bus.shadow b)
        ∧ (s.bus.imm.getLsbD k = true → t.bus.shadow = s.bus.shadow
          ∧ t.bus.immQ = s.bus.immQ ++ [(decodeLine s.bus.hp.ptr, v &&& wmask (decodeLine s.bus.hp.ptr))]))
    ∧ ∀ (s : State) (v : Byte) (single : Bool), s.busUp .host = true → s.sys.fwRun = false → 0x0100 ≤ s.bus.hp.ptr → s.bus.hp.ptr < 0x0400 →
      ∃ t : State, exec (.registerWrite .host v single) s = .next t ∧ t.bus.hp.stat.getLsbD 1 = true ∧ (∀ a, t.reg a = s.reg a)
        ∧ t.bus.shadow = s.bus.shadow ∧ t.bus.immQ = s.bus.immQ ∧ t.bus.updStat = s.bus.updStat

/-- MOSC_START, CLOCK_LOSS, AOSC_FREQ, GTS_CALIBRATION and GTS_WRAP complete where their condition holds: MOSC runs with fine and fraction zero and GTS advanced, at the AOSC edge that follows, to its next whole microsecond, the loss ends in an expiry with the row of losses counted, the check of AOSC fails once it is off by more than 5%, the increment is twice the count, and GTS at 2^48 - 1 wraps to zero with the epoch one higher. Completion of: moscStart, clockLoss, aoscFreq, gtsCalibration, gtsWrap. Follows R14, R15, R16, R20, R21, R23 as far as the clauses say. -/
def Obligations.ClocksComplete : Prop :=
  (∀ (s : State), s.clk.moscEn = true → s.clk.moscRun = false → ∃ t, exec .moscStart s = .next t ∧ t.clk.moscRun = true ∧ t.clk.fine = 0 ∧ t.clk.frac = 0 ∧ (s.sys.domBusy = none → s.sys.domQ = [] → t.sys.dom = s.sys.dom ||| 0x0004 ∧ (s.domFenced 13 = false → s.sys.dom.getLsbD 13 = false → t.sys.domBusy = some { dom := 13, on := true })) ∧ t.clk.gts = s.clk.gts + BitVec.ofNat 48 s.switchOver)
  ∧ (∀ (s : State), s.clk.moscEn = true → exec .clockLoss s = .next (((s.onClk fun c => { c with moscRun := false, moscEn := false, lossCount := min 3 (s.clk.lossCount + 1), moscStopped := decide (3 ≤ s.clk.lossCount + 1) }).wdgExpire 4 0xFF).pathNote s.pathByte))
  ∧ (∀ (ps : Nat) (s : State), s.clk.moscRun = true → aoscOff ps = true → fresh s Cause.aoscFreq → exec (.aoscFreq ps) s = .next (awaits s Src.wdg Cause.aoscFreq ps))
  ∧ (∀ (count : Nat) (s : State), s.clk.moscRun = true → exec (.gtsCalibration count) s = .next (s.onClk fun c => { c with incr := BitVec.ofNat 22 (2 * count) }))
  ∧ (∀ (s : State), s.counts = true → s.clk.gts = 0xFFFFFFFFFFFF → ∃ t, exec .gtsWrap s = .next t ∧ t.clk.gts = 0 ∧ t.clk.fine = 0 ∧ t.clk.epoch = s.clk.epoch + 1)

/-- PLL_LOCK and DLL_CAL report a failure of the lowest-numbered quad with an enabled phase; DOMAIN_SWITCH_REQUEST joins the requests, a domain whose switch-off is served being isolated, or asks for the domain with those it needs; the domain of the request being served is on, or off, at DOMAIN_POWER_UP_DONE and DOMAIN_SWITCH_OFF_DONE; TASK_DEADLINE and TASK_MPU mark the restart of the task and its failure awaits the second evaluation. Completion of: pllLock, dllCal, domainSwitchRequest, domainPowerUpDone, domainSwitchOffDone, taskDeadline, taskMpu. Follows R10, R11, R17, R39 as far as the clauses say. Where the clauses reach them they rest on the model's choices: a phase that is still in use when its domain is switched off becomes FREE (log entry 16). -/
def Obligations.DomainsComplete : Prop :=
  (∀ (q : Nat) (s : State), s.busyQuad = some q → exec .pllLock s = .next ((s.checkerFail (Src.quad q) Cause.pllLock).pathNote s.pathByte))
  ∧ (∀ (q : Nat) (s : State), s.busyQuad = some q → exec .dllCal s = .next ((s.checkerFail (Src.quad q) Cause.dllCal).pathNote s.pathByte))
  ∧ (∀ (d : Fin 14) (s : State), d ≠ 0 → exec (.domainSwitchRequest d false) s = .next (State.isolateServed s (s.domRequest { dom := d, on := false })))
  ∧ (∀ (d : Fin 14) (s : State), (domNeeds d.val).2 = false → s.domFenced d.val = false → exec (.domainSwitchRequest d true) s = .next (((s.domMissing d.val).foldl (fun t k => t.domRequest { dom := k, on := true }) s).domRequest { dom := d, on := true }))
  ∧ (∀ (d : Fin 14) (s : State), s.sys.domBusy = some { dom := d, on := true } → s.domMissing d.val = [] → ((domNeeds d.val).2 = false ∨ s.clk.moscRun = true) → exec (.domainPowerUpDone d) s = .next (s.domDone true d.val))
  ∧ (∀ (d : Fin 14) (s : State), s.sys.domBusy = some { dom := d, on := false } → exec (.domainSwitchOffDone d) s = .next (s.domDone false d.val))
  ∧ (∀ (k : FwTask) (s : State), s.sys.fwRun = true → s.flt.taskOnce.getLsbD (taskIdx k) = false → fresh s Cause.taskDeadline → exec (.taskDeadline k) s = .next ((awaits (s.onFlt fun f => { f with taskOnce := setBit f.taskOnce (taskIdx k) true }) (Src.task k) Cause.taskDeadline).pathNote s.pathByte))
  ∧ (∀ (k : FwTask) (s : State), s.sys.fwRun = true → s.flt.taskOnce.getLsbD (taskIdx k) = false → fresh s Cause.taskMpu → exec (.taskMpu k) s = .next ((awaits (s.onFlt fun f => { f with taskOnce := setBit f.taskOnce (taskIdx k) true }) (Src.task k) Cause.taskMpu).pathNote s.pathByte))

/-- AON_POWER_ON starts AON from zero with the strap lands sampled; AON_POWER_LOSS leaves the module unpowered; TIER_0_READY starts the limp controller, the battery switch and the ROM loader; LIMP_SOURCE_CHANGE moves to the next source; the soft connection ends closed, fails, or is tried again; the loader takes its next image; Tier 1 follows the loader; a takeover and the expiry of its deferral take the path over. Completion of: aonPowerOn, aonPowerLoss, tier0Ready, limpSourceChange, softConnectComplete, softConnect, softConnectRetry, imageVerification, configurationLoad, takeover, takeoverDeferralExpiry. Follows R22, R52, R57, R65, R66, R68, R69, R70, R72 as far as the clauses say. Where the clauses reach them they rest on the model's choices: BAT+ of 2600 mV counts as a supply and the under-voltage thresholds stand at their typical values (log entry 10), the limp phase that changes its source has the reason PORT_OFF (16) and becomes FREE where no source is left (92), the quantities no rule gives a reset value start at 0 (3, 4). -/
def Obligations.StartCompletes : Prop :=
  (∀ (straps : Straps) (s : State), s.sys.mode = .unpowered → s.sys.cut = false → ∃ t, exec (.aonPowerOn straps) s = .next t ∧ t.sys.straps = straps ∧ t.sys.boot = 0x01 ∧ t.clk.gts = 0 ∧ t.clk.epoch = 0 ∧ t.grd.fuse = s.grd.fuse ∧ t.nvm.cfg = s.nvm.cfg)
  ∧ (∀ (s : State), ∃ t, exec .aonPowerLoss s = .next t ∧ t.sys.mode = .unpowered ∧ t.sys.dom = 0 ∧ t.clk.gts = 0 ∧ t.pp.nodes = {} ∧ t.clk.aoscOn = false)
  ∧ (∀ (n : Nodes) (s : State), s.sys.mode = .waking → s.sys.tier0 = false → s.sys.fwUp = false → 2600 ≤ n.bat → exec (.tier0Ready n) s = .next (((((fun u : State => State.placeChanges u u.limpOn Why.portOff) (((s.seeNodes n).onPp fun x => { x with batPres := decide (1000 ≤ n.bat) }).onSys fun y => { y with tier0 := true })).switchClose).romStart).pathNote s.pathByte))
  ∧ (∀ (n : Nodes) (p : PortId) (s : State), s.sys.limpSrc = some p → s.sys.limp = true → nodeV n p < (uvlo p).2 → exec (.limpSourceChange n) s = .next ((State.sinkEnded s p (((s.seeNodes n).batHw).limpMove (limpPick (s.inputs n) (some p)))).pathNote s.pathByte))
  ∧ (∀ (s : State), s.pp.soft = .running → exec .softConnectComplete s = .next ((s.onPp fun x => { x with soft := .no, batSw := .full, linRef := 0 }).pathNote s.pathByte))
  ∧ (∀ (s : State), s.pp.soft = .running → exec .softConnect s = .next ((s.softFail).pathNote s.pathByte))
  ∧ (∀ (s : State), s.pp.soft = .waiting → exec .softConnectRetry s = .next (((s.onPp fun x => { x with soft := .no }).switchClose).pathNote s.pathByte))
  ∧ (∀ (s : State), s.sys.mode = .waking → (s.sys.loader = .first ∨ s.sys.loader = .second) → exec .imageVerification s = .next (s.imageNext))
  ∧ (∀ (s : State), s.sys.mode = .waking → s.sys.loader = .done → s.sys.boot ≠ 0x09 → s.clk.moscRun = true → s.sys.fwUp = false → exec .configurationLoad s = .next ((s.tier1).pathNote s.pathByte))
  ∧ (∀ (p : PortId) (s : State), s.limping p = true → s.tuningV = false → (p == .pc && s.tuningPc) = false → exec (.takeover p) s = .next ((s.takeOver p).pathNote s.pathByte))
  ∧ (∀ (p : PortId) (s : State), s.limping p = true → s.tuningV = true → s.switchOn = true → (p == .pc && s.tuningPc) = false → exec (.takeoverDeferralExpiry p) s = .next ((s.takeOver p).pathNote s.pathByte))

/-- DORMANT is prepared, entered and left; the wake timer wakes; RUN is reached after a wake; SHIP is written, its delay ends in the shutdown, the switch opens regardless 5 s later, and SHIP is left by a source (boot reason 0x03) or the button (0x02); presses are counted only after a release; the force-off shuts down and holds the rails off; the cut leaves everything off, and its end starts AON with boot reason 0x04. Completion of: dormantIdleExpiry, dormantEntry, dormantWake, wakeTimer, wakeRunReached, shipEnt, shipDelayEnd, shipForceOpen, shipExit, pbtnShipExit, pbtnPress, pbtnRelease, pbtnForceOff, batteryCut, batteryCutEnd. Follows R83, R84, R85, R87, R91, R92, R93, R94, R302, R307, R498, R504 as far as the clauses say. Where the clauses reach them they rest on the model's choices: FORCE_OFF sets FOFF only where the sequencer is enabled (log entry 38; the clause is shown in RUN), a worker refuses SHIP (39), MODE in WAKING (90), the events kept over DORMANT (21), the coulomb estimate (46). -/
def Obligations.DormantShipComplete : Prop :=
  (∀ (load : Nat) (s : State), s.sys.idleS ≠ 0 → s.sys.dorm = .none → s.dormCond load none false = true → exec (.dormantIdleExpiry load) s = .next ((s.dormBegin).pathNote s.pathByte))
  ∧ (∀ (count load : Nat) (s : State), s.runs = true → exec (.dormantEntry count load) s = .next ((s.dormGo count load).pathNote s.pathByte))
  ∧ (∀ (mask : BitVec 16) (s : State), exec (.dormantWake mask) s = .next ((s.wakeFrom mask).pathNote s.pathByte))
  ∧ (∀ (s : State), s.sys.mode = .dormant → s.sys.wakeNow ≠ 0 → exec .wakeTimer s = .next ((s.wakeFrom 0x0080).pathNote s.pathByte))
  ∧ (∀ (s : State), s.sys.mode = .waking → s.sys.loader = .done → s.sys.boot = 0x09 → s.clk.moscRun = true → s.sys.fwUp = false → exec .wakeRunReached s = .next ((s.wakeRun).pathNote s.pathByte))
  ∧ (∀ (c v : Byte) (single : Bool) (s : State), pairOk s .host 0x40 c single v → exec (.shipEnt c single) s = .next ((pairDone s .host 0x40).shipWrite v))
  ∧ (∀ (s : State), s.sys.shipAt.isSome = true → s.sys.shipShut = false → s.runs = true → exec .shipDelayEnd s = .next (((s.onSys fun y => { y with shipShut := true }).downRequest 0x06).shipCheck))
  ∧ (∀ (s : State), s.sys.shipShut = true → s.runs = true → ∃ t, exec .shipForceOpen s = .next t ∧ t.sys.mode = .ship ∧ t.sys.dom = 0 ∧ t.sys.shipShut = false ∧ t.seq.on = 0 ∧ t.clk.aoscOn = false ∧ t.pp.batSw = .off)
  ∧ (∀ (mask : BitVec 16) (s : State), s.sys.mode = .ship → mask &&& 0x000E ≠ 0 → ∃ t, exec (.shipExit mask) s = .next t ∧ t.sys.boot = 0x03 ∧ t.sys.wake = mask &&& 0x000F ∧ t.sys.mode = .waking ∧ t.clk.gts = 0 ∧ t.clk.epoch = 0)
  ∧ (∀ (s : State), s.sys.mode = .ship → s.sys.btnDown = true → s.sys.btnCounts = true → ∃ t, exec .pbtnShipExit s = .next t ∧ t.sys.boot = 0x02 ∧ t.sys.wake = 0x0001 ∧ t.sys.mode = .waking ∧ t.clk.gts = 0 ∧ t.clk.epoch = 0)
  ∧ (∀ (s : State), s.sys.shipAt = none → exec .pbtnPress s = .next (s.onSys fun y => { y with btnDown := true, btnCounts := y.btnCounts || !y.btnDown }))
  ∧ (∀ (held : Nat) (s : State), s.sys.btnDown = true → s.sys.btnCounts = true → exec (.pbtnRelease held) s = .next (((s.onSys fun y => { y with btnDown := false, btnCounts := false }).pressEnd held).pathNote s.pathByte))
  ∧ (∀ (s : State), s.sys.btnDown = true → s.sys.btnCounts = true → s.sys.mode = .run → exec .pbtnForceOff s = .next (((s.raise 0x40 Ev.pbtnForceOff).onSeq fun q => { q with foff := q.foff || s.seqEn }).downCause 0x02 0x40))
  ∧ (∀ (s : State), s.sys.btnDown = true → s.sys.btnCounts = true → s.sys.mode ≠ .unpowered → ∃ t, exec .batteryCut s = .next t ∧ t.sys.mode = .unpowered ∧ t.sys.cut = true ∧ t.sys.dom = 0 ∧ t.sys.btnCounts = true ∧ t.seq.on = 0)
  ∧ (∀ (s : State), s.sys.cut = true → ∃ t, exec .batteryCutEnd s = .next t ∧ t.sys.boot = 0x04 ∧ t.sys.wake = 0 ∧ t.sys.cut = false ∧ t.clk.gts = 0 ∧ t.clk.epoch = 0)

/-- CONTROL_TICK measures, applies the thermal rules and runs the allocator; a peak ends and recovers; PHASE_REMOVE, DRAIN_COMPLETE, SELECTOR_SETTLE and SOFT_START_COMPLETE carry a phase one step on; selector failures are reported with the phase as source; an idle quad 1 is asked off; a fast-swap signal on an armed port swaps; accepted pairs write FPLACE0, FPLACE1 and FPEN; REPLACEMENT_TICK replaces phases of the unit. Completion of: controlTick, peakTimeout, peakRecoveryEnd, phaseRemove, drainComplete, selectorSettle, softStartComplete, selectorStuck, selectorOverlap, quadPowerOff, fastSwapSignal, fplace0, fplace1, fpenSet, fpenClear, replacementTick. Follows R99, R100, R101, R104, R106, R108, R111, R114, R131, R132, R133, R324 as far as the clauses say. Where the clauses reach them they rest on the model's choices: CONTROL_TICK runs the operations of log entries 12, 13, 14, 16, 33, 34, 93, 95, 96, 97, 100, 111 and 112. -/
def Obligations.FabricCompletes : Prop :=
  (∀ (m : TickIn) (s : State), s.sys.fwRun = true → (((s.tickMeasure m).limpFollow).tickThermal).runs = true → exec (.controlTick m) s = .next (((((((s.tickMeasure m).limpFollow).tickThermal).tickRun m.load).tickDomains).taskRan .campion).pathNote s.pathByte))
  ∧ (∀ (s : State), s.sys.fwRun = true → s.fab.peak = .episode → exec .peakTimeout s = .next (s.peakEnd))
  ∧ (∀ (s : State), s.sys.fwRun = true → s.fab.peak = .recovery → exec .peakRecoveryEnd s = .next (s.onFab fun f => { f with peak := .allowed }))
  ∧ (∀ (p : PortId) (s : State), exec (.phaseRemove p) s = .next (s.removePhase p))
  ∧ (∀ (i : Fin 8) (s : State), (s.phase i.val).st = .draining → exec (.drainComplete i) s = .next ((s.drainDone i.val).pathNote s.pathByte))
  ∧ (∀ (i : Fin 8) (p : PortId) (s : State), (s.phase i.val).st = .switching → (s.phase i.val).next = some p → exec (.selectorSettle i) s = .next (s.settleDone i.val))
  ∧ (∀ (i : Fin 8) (s : State), (s.phase i.val).st = .starting → exec (.softStartComplete i) s = .next (s.startDone i.val))
  ∧ (∀ (i : Fin 8) (s : State), s.sys.fwRun = true → fresh s Cause.selectorStuck → exec (.selectorStuck i) s = .next ((awaits s i.val Cause.selectorStuck).pathNote s.pathByte))
  ∧ (∀ (i : Fin 8) (s : State), exec (.selectorOverlap i) s = .next ((s.checkerFail i.val Cause.selectorOverlap).pathNote s.pathByte))
  ∧ (∀ (s : State), s.fab.q1Timer = true → s.quadNeeded 1 = false → exec .quadPowerOff s = .next ((s.onFab fun f => { f with q1Timer := false }).domRequest { dom := 7, on := false }))
  ∧ (∀ (t : TcId) (s : State), s.tcLive t = true → ((s.txClear t).tc t).frsArm = true → s.runs = true → exec (.fastSwapSignal t) s = .next (((s.txClear t).fastSwap t).pathNote s.pathByte))
  ∧ (∀ (c v : Byte) (single : Bool) (s : State), pairOk s .host 0x48 c single v → exec (.fplace0 c single) s = .next ((pairDone s .host 0x48).onGrd fun g => { g with fplace0 := v }))
  ∧ (∀ (c v : Byte) (single : Bool) (s : State), pairOk s .host 0x49 c single v → exec (.fplace1 c single) s = .next ((pairDone s .host 0x49).onGrd fun g => { g with fplace1 := v }))
  ∧ (∀ (c v : Byte) (single : Bool) (s : State), pairOk s .host 0x4A c single v → exec (.fpenSet c single) s = .next ((pairDone s .host 0x4A).fpenWrite v))
  ∧ (∀ (c v : Byte) (single : Bool) (s : State), pairOk s .host 0x4A c single v → exec (.fpenClear c single) s = .next ((pairDone s .host 0x4A).fpenWrite v))
  ∧ (∀ (unit : Byte) (s : State), s.runs = true → s.grd.fpen = false → exec (.replacementTick unit) s = .next ([PortId.pa, .pb].foldl (fun u p => u.replaceFor (unitPhases unit.toNat) p) s))

/-- SWITCHING_PERIOD runs the three compensators and the stack reference; OCL_HOLD is an event of the phase; a short and an over-temperature await the second evaluation; a tuning measurement ends or is repeated; FSW is taken; SYNC_IN locks, is lost and is tried again, ignored by a stack member; diode emulation ends at the target; last-fault records are offered. Completion of: switchingPeriod, oclHold, phaseShort, quadOvertemp, tuneMeasurementDone, fswApply, syncLock, syncLost, syncReacquisition, diodeEmulationEnd, lastFaultOffer. Follows R137, R149, R154, R156, R161, R162, R167, R171, R436 as far as the clauses say. Where the clauses reach them they rest on the model's choices: a failed re-measurement drops the tuning (log entry 17), free starting values (7), roundings left open (34), deferred and repeated measurements (62), the feedforward and the gain of the trim (94), the COEF byte of a record (108). -/
def Obligations.ConversionCompletes : Prop :=
  (∀ (a b : PathSample) (c : PcPeriod) (s : State), s.clk.moscRun = true → s.measOn = true → ∃ u : State, exec (.switchingPeriod a b c) s = .next (((((u.periodStep c.sync).sendRef).useFree 120).injSample).pathNote s.pathByte) ∧ u.fab = (((s.pathPeriod .pa a).pathPeriod .pb b).pathPeriod .pc c.path).fab ∧ u.cc.comp = (((s.pathPeriod .pa a).pathPeriod .pb b).pathPeriod .pc c.path).cc.comp ∧ u.cc.samp = some [a, b, c.path] ∧ u.qs = (((s.pathPeriod .pa a).pathPeriod .pb b).pathPeriod .pc c.path).qs)
  ∧ (∀ (i : Fin 8) (s : State), (s.phase i.val).st.gatesOn = true → exec (.oclHold i) s = .next (s.raise (Src.phase i.val) Ev.oclHold))
  ∧ (∀ (i : Fin 8) (ma : Nat) (s : State), 24000 ≤ ma → exec (.phaseShort i ma) s = .next ((s.checkerFail i.val Cause.phaseShort).pathNote s.pathByte))
  ∧ (∀ (q : Fin 2) (t : Int) (s : State), 1150 ≤ t → exec (.quadOvertemp q t) s = .next (((s.onMs fun m => if q.val = 0 then { m with tq0 := t } else { m with tq1 := t }).checkerFail (Src.quad q.val) Cause.quadOvertemp).pathNote s.pathByte))
  ∧ (∀ (c esr spread : Nat) (r : TuneRun) (s : State), s.cc.tune = some r → s.runs = true → r.pc = true → spread ≤ 100 → 30 ≤ c → c ≤ 600 → exec (.tuneMeasurementDone c esr spread) s = .next (s.tuneEnd r c esr spread true))
  ∧ (∀ (s : State), s.cc.fswPend = true → exec .fswApply s = .next (s.fswTake))
  ∧ (∀ (s : State), s.regBit 0x0142 0 = true → s.stk.joined = false → s.cc.sync = .acquiring → s.cc.edgeOk = 64 → exec .syncLock s = .next ((s.onCc fun c => { c with sync := .locked, synced := true, syncBad := false }).raise Src.campion Ev.syncLock))
  ∧ (∀ (out : Bool) (s : State), s.regBit 0x0142 0 = true → s.stk.joined = false → (s.cc.sync = .acquiring ∨ s.cc.sync = .locked) → exec (.syncLost out) s = .next ((s.onCc fun c => { c with sync := .lost, synced := false, edgeOk := 0, syncBad := c.syncBad || out }).raise Src.campion Ev.syncLost))
  ∧ (∀ (s : State), s.regBit 0x0142 0 = true → s.stk.joined = false → s.cc.sync = .lost → exec .syncReacquisition s = .next (s.onCc fun c => { c with sync := .acquiring, edgeOk := 0, syncBad := false }))
  ∧ (∀ (p : PortId) (s : State), s.controlled p = true → (s.cc.comp.getD (portIdx p) {}).vsRef = 1000 * s.vTarget p → 32 ≤ (s.cc.comp.getD (portIdx p) {}).above → exec (.diodeEmulationEnd p) s = .next (s.onCc fun c => { c with comp := c.comp.modify (portIdx p) fun k => { k with diode := false } }))
  ∧ (∀ (s : State), exec .lastFaultOffer s = .next (s.lfOffers))
  ∧ (∀ (s : State), s.stk.joined = true → exec .syncLock s = .next (s))
  ∧ (∀ (out : Bool) (s : State), s.stk.joined = true → exec (.syncLost out) s = .next (s))
  ∧ (∀ (s : State), s.stk.joined = true → exec .syncReacquisition s = .next (s))
  ∧ (∀ (c esr spread : Nat) (r : TuneRun) (s : State), s.cc.tune = some r → s.runs = true → r.pc = true → r.again = false → (100 < spread ∨ c < 30 ∨ 600 < c) → exec (.tuneMeasurementDone c esr spread) s = .next (s.onCc fun k => { k with tune := some { r with again := true, wait := false } }))
  ∧ (∀ (c esr spread : Nat) (r : TuneRun) (s : State), s.cc.tune = some r → s.runs = true → s.switchOn = false → r.pc = false → r.again = false → (100 < spread ∨ c < 150 ∨ 4200 < c) → exec (.tuneMeasurementDone c esr spread) s = .next (s.onCc fun k => { k with tune := some { r with again := true, wait := false } }))
  ∧ (∀ (c esr spread : Nat) (r : TuneRun) (s : State), s.cc.tune = some r → s.runs = true → s.switchOn = false → r.pc = false → spread ≤ 100 → 150 ≤ c → c ≤ 4200 → exec (.tuneMeasurementDone c esr spread) s = .next (s.tuneEnd r c esr spread true))

/-- PC and battery attach and detach; the battery switch reconnects, supplements and is released; the weir learns 95% of the current, at least 100 mA, and probes 100 mA upward; the tracker and its scan step; the handover event starts the dwell, whose end lets the tick place again; without a battery a collapse warns and shuts down; below the reverse cut-off the source path ends. Completion of: pcAttach, pcRemoval, batAttach, batDetach, batterySwitchReconnect, supplement, batterySwitchRelease, weirLearn, weirProbe, trackerInterval, mpptScanStart, mpptScanStep, handover, dwellEnd, nobatCollapse, revCutoff. Follows R173, R174, R183, R185, R186, R188, R189, R190, R191, R195, R199 as far as the clauses say. Where the clauses reach them they rest on the model's choices: the battery switch reconnects at 20 mV (log entry 89), PC attaches and its path ends at the typical under-voltage thresholds (10), WEIR_LEARN, MPPT_SCAN and REV_CUTOFF carry the number of their port (35), the steps and the estimate of a scan (36, 115), the battery test without cells (107). -/
def Obligations.PowerPathCompletes : Prop :=
  (∀ (nd : Nodes) (dc : Bool) (s : State), s.sys.fwRun = true → s.pp.presC = false → (uvlo .pc).1 < nd.pc → ((((s.seeNodes nd).batHw).limpFollow).onPp fun x => { x with dcdetLow := dc }).dcdetOk = true → s.portFenced .pc = false → exec (.pcAttach nd dc) s = .next ((((((((((s.seeNodes nd).batHw).limpFollow).onPp fun x => { x with dcdetLow := dc }).setPresent .pc true).onCc fun c => { c with pcTuneDue := true, pTuned := false, pTune := none }).tuneNext).shipCancel)).pathNote s.pathByte))
  ∧ (∀ (dc : Bool) (s : State), s.sys.fwRun = true → s.pp.presC = true → exec (.pcRemoval dc) s = .next (((s.onPp fun x => { x with dcdetLow := dc }).pcGone).pathNote s.pathByte))
  ∧ (∀ (s : State), s.sys.fwRun = true → s.follower = false → s.pp.batPres = false → s.batFound s.voltTest = true → exec .batAttach s = .next (((((((s.onPp fun x => { x with batPres := true }).switchClose).limpFollow).raise Src.batsw Ev.batAttach).autoStart false)).pathNote s.pathByte))
  ∧ (∀ (s : State), s.sys.fwRun = true → s.follower = false → s.pp.batPres = true → s.batFound s.voltTest = false → exec .batDetach s = .next ((s.batGone).pathNote s.pathByte))
  ∧ (∀ (nd : Nodes) (s : State), (((s.seeNodes nd).batHw).limpFollow).pp.batSw = .diode → s.follower = false → nd.vsys + 20 < nd.bat → exec (.batterySwitchReconnect nd) s = .next (((((s.seeNodes nd).batHw).limpFollow).switchFull).pathNote s.pathByte))
  ∧ (∀ (nd : Nodes) (s : State), s.follower = false → nd.vsys + 150 ≤ (((s.seeNodes nd).batHw).limpFollow).vsysRef → ((((s.seeNodes nd).batHw).limpFollow).pp.batSw = .diode ∨ ((((s.seeNodes nd).batHw).limpFollow).pp.batSw = .linear ∧ (((s.seeNodes nd).batHw).limpFollow).pp.soft = .no)) → exec (.supplement nd) s = .next (((((s.seeNodes nd).batHw).limpFollow).switchFull).pathNote s.pathByte))
  ∧ (∀ (s : State), s.pp.batSw = .full → s.follower = false → s.chg.phase.charging = false → exec .batterySwitchRelease s = .next ((s.onPp fun x => { x with batSw := .diode, linBefore := false }).pathNote s.pathByte))
  ∧ (∀ (t : TcId) (avg : Nat) (s : State), s.runs = true → s.sinking (tcPort t) = true → s.controlled (tcPort t) = true → exec (.weirLearn t avg) s = .next ((s.setLearn (tcPort t) (some (max 100 (95 * avg / 100 / 10 * 10)))).raise (Src.port (tcPort t)) Ev.weirLearn))
  ∧ (∀ (t : TcId) (l : Nat) (s : State), s.learn (tcPort t) = some l → s.runs = true → exec (.weirProbe t) s = .next (s.setLearn (tcPort t) (if s.ownLimit (tcPort t) ≤ l + 100 then none else some (l + 100))))
  ∧ (∀ (v i : Nat) (s : State), s.runs = true → s.track = true → s.sinking .pc = true → s.controlled .pc = true → s.pp.scan = none → s.pp.scanDue = false → exec (.trackerInterval v i false) s = .next (s.onPp fun x => { x with vt := s.vtClamp s.pp.vt, trkV := v, trkI := i, pmpp := some (max (quo (v * i) 1000) (s.pp.pmpp.getD 0)) }))
  ∧ (∀ (s : State), s.runs = true → (s.pp.scanDue = true ∨ s.scanEvery = true) → exec .mpptScanStart s = .next (s.scanBegin))
  ∧ (∀ (v i : Nat) (k : Scan) (s : State), s.pp.scan = some k → s.runs = true → s.track = true → s.sinking .pc = true → exec (.mpptScanStep v i) s = .next (s.scanStep k v i))
  ∧ (∀ (low dip : Nat) (s : State), s.pp.handover = true → s.switchOn = true → s.anySink = false → (phaseNos.all fun i => !((s.phase i).st.gatesOn && (s.phase i).dir == .sink)) = true → exec (.handover low dip) s = .next (((s.onPp fun x => { x with handover := false, dwell := true }).raise (Src.port (s.pp.lastSink.getD .pc)) Ev.handover (le 2 (quo low 10) ++ le 2 dip ++ [BitVec.ofNat 8 (Src.port (s.pp.lastSink.getD .pc))])).pathNote s.pathByte))
  ∧ (∀ (s : State), exec .dwellEnd s = .next (s.onPp fun x => { x with dwell := false }))
  ∧ (∀ (s : State), s.sys.fwRun = true → s.pp.batPres = false → exec .nobatCollapse s = .next ((s.onPp fun x => { x with noBatPfw := true }).downCause 0x05 0x40))
  ∧ (∀ (t : TcId) (s : State), s.runs = true → s.sourcing (tcPort t) = true → s.ms.vbat ≤ s.grd.cells * s.vRcut → (s.anySink = false ∨ s.pp.bat = .discharging ∨ s.pp.bat = .supplementing) → exec (.revCutoff t) s = .next ((((s.onPath (tcPort t) fun x => { x with grant := 0 }).raise (Src.port (tcPort t)) Ev.revCutoff).srcMustEnd t).pathNote s.pathByte))

/-- An accepted pair at CHEM_CFG writes it; TEASEL_TICK takes what was written, renews the model and does the steps of the tick in order; the timers suspend the charge or end it; the timer suspension restarts 30 min later below the recharge voltage; a zone found for 1 s is taken, and a cold or hot one aborts a sweep; a mapped thermistor fault suspends; a configured cell above its trip of VCHG + 100 mV awaits the second evaluation. Completion of: chemCfg, teaselTick, prechargeTimer, fastChargeTimer, topoffTimer, timerSuspensionRestart, zone, ntcFault, cellOv. Follows R205, R214, R219, R220, R221, R222, R224, R225, R226 as far as the clauses say. Where the clauses reach them they rest on the model's choices: the timer rows act one advance before the limit (log entry 41), the zone is taken as log entry 48 says, written tables wait for the tick (55), the first V_ref (37), NO_SOURCE is judged at a tick (40), choices at a start (104), roundings (34). -/
def Obligations.ChargingCompletes : Prop :=
  (∀ (c v : Byte) (single : Bool) (s : State), pairOk s .host 0x44 c single v → exec (.chemCfg c single) s = .next (((pairDone s .host 0x44).chemWrite v).pathNote s.pathByte))
  ∧ (∀ (m : TeaselIn) (s : State), s.sys.fwRun = true → exec (.teaselTick m) s = .next ((((((((((s.onSw fun w => { w with chem := s.chemAll, chemNext := [] }).onChg fun c => { c with safeUse := c.safe }).when (!s.balOk) State.bleedStop).applyHeld).modelTake).polarTick).tickCharge).tickEnd m).taskRan .teasel).pathNote s.pathByte))
  ∧ (∀ (s : State), s.sys.fwRun = true → s.canCharge = true → s.chg.phase = .precharge → preLimit ≤ s.chg.tPre + 2 → exec .prechargeTimer s = .next (((s.onChg fun c => { c with tPre := preLimit }).suspend Rsn.timerPrecharge).pathNote s.pathByte))
  ∧ (∀ (s : State), s.sys.fwRun = true → s.canCharge = true → s.chg.phase.charging = true → s.fastLimit ≤ s.chg.tFast + (if s.chg.half then 1 else 2) → exec .fastChargeTimer s = .next (((s.onChg fun c => { c with tFast := s.fastLimit }).suspend (if s.chg.half then Rsn.timerUnderLimit else Rsn.timerExpired)).pathNote s.pathByte))
  ∧ (∀ (s : State), s.sys.fwRun = true → s.canCharge = true → s.chg.phase = .topoff → topLimit ≤ s.chg.tTop + 2 → exec .topoffTimer s = .next (((s.onChg fun c => { c with tTop := topLimit }).chgDone 1).pathNote s.pathByte))
  ∧ (∀ (v : Nat) (s : State), s.sys.fwRun = true → s.chg.phase = .suspended → (s.chg.shown.toNat = Rsn.timerPrecharge ∨ s.chg.shown.toNat = Rsn.timerExpired ∨ s.chg.shown.toNat = Rsn.timerUnderLimit) → s.chg.suspGts + 1800000000 ≤ s.now → v = quo (s.volSum 160000).1 (s.volSum 160000).2 → s.v10sLow = true → exec (.timerSuspensionRestart v) s = .next ((s.autoStart true).pathNote s.pathByte))
  ∧ (∀ (z : Zone) (tmin tmax : Int) (s : State), s.sys.fwRun = true → s.chg.zoneUnknown = false → s.chg.zone ≠ z → s.chg.zoneNext = z → s.chg.zoneTicks = 100 → tmin = s.tMin → tmax = s.tMax → exec (.zone z tmin tmax) s = .next (((s.zoneTake z).when (z == .cold || z == .hot) fun u => u.sweepAbort 6).pathNote s.pathByte))
  ∧ (∀ (k : Fin 6) (s : State), s.sys.fwRun = true → (s.reg 0x016D).getLsbD k.val = true → (s.ms.ntc.getD k.val .opened = .opened ∨ s.ms.ntc.getD k.val .opened = .shorted) → exec (.ntcFault k) s = .next ((((s.onChg fun c => { c with zoneUnknown := true, ntcOk := 0 }).suspend Rsn.ntcFault).sweepAbort 6).pathNote s.pathByte))
  ∧ (∀ (k : Fin 10) (s : State), s.sys.fwRun = true → k.val < s.grd.cells → 10 * (s.eVchg + 100) < s.ms.cell.getD k.val 0 → (s.flt.fence.getLsbD 16 && s.flt.recs.any fun r => r.sFenced && r.cause == Cause.cellOv && r.source == s.source (Src.cs (k.val + 1))) = false → fresh s Cause.cellOv → exec (.cellOv k) s = .next (awaits s (Src.cs (k.val + 1)) Cause.cellOv (s.ms.cell.getD k.val 0)))

/-- Each sample set counts its charge and is taken into the averages, which REPORTED_CELL_VOLTAGE forms; offsets and mirrors are taken; a balancing frame chooses cells and its off-time is read; sweeps are scheduled, retried, taken from baseline to points to fit, and aborted with their code; an accepted fit waits for the tick; rest corrects the state of charge; grades decay, and a cell off its model for 60 s gets the lowest grade. Completion of: sampleSet, reportedCellVoltage, autoZero, mirrorUpdate, balancingFrame, balanceOffTime, quickSweepInterval, sweepRefusalRetry, sweepBaselineEnd, sweepPoint, sweepFit, sweepAborted, restCorrection, gradeDecay, modelMismatch. Follows R231, R233, R234, R235, R238, R244, R247, R248, R251, R252, R255, R257 as far as the clauses say. Where the clauses reach them they rest on the model's choices: the 5 to 3 weighting of the 100 us current (log entry 99), the 160000 sample sets kept (47), roundings that come as operands (34), the grade LOW for an EXPIRED model too (54), the refusals and the sine of a sweep (28, 116), the fit as a descent (50), repeated and disturbed points (51, 117), the DC current of a point (118), ties in balancing (56). -/
def Obligations.MeasurementCompletes : Prop :=
  (∀ (x : SampleSet) (s : State), s.measOn = true → exec (.sampleSet x) s = .next ((((s.ccAdd x.ibatUa).onMs fun m => { m with hist := (x :: m.hist).take 160000, setAt := (s.now :: m.setAt).take 2, ntc := x.ntc.map s.ntcOf, ibatLast := x.ibatUa, ibatFast := quoQ (5 * x.ibatUa + 3 * m.ibatLast) 8000 }).sampleTake x).pathNote s.pathByte))
  ∧ (∀ (cells : List Bool) (vbat ibat : Bool) (s : State), s.sys.fwRun = true → s.measOn = true → s.ms.accN ≠ 0 → ∃ t, exec (.reportedCellVoltage cells vbat ibat) s = .next t ∧ t.ms.vbat = (meanOf vbat s.ms.accV (1000 * s.ms.accN)).toNat ∧ t.ms.ibat = meanOf ibat s.ms.accI (1000 * s.ms.accN) ∧ t.ms.accN = 0 ∧ t.ms.fresh = true ∧ t.ms.cell = (List.range 10).map fun k => if s.ms.balNow.contains k then s.ms.balRead.getD k 0 else codeMean (cells.getD k false) (s.ms.accCell.getD k 0) s.ms.accN)
  ∧ (∀ (s : State), s.measOn = true → exec .autoZero s = .next (s.onMs fun x => { x with azCount := x.azCount + 1 }))
  ∧ (∀ (m : MirIn) (s : State), s.measOn = true → s.ms.mirEn = true → exec (.mirrorUpdate m) s = .next ((s.onMs fun x => { x with mir := s.mirNow m, mirAt := some s.now }).useFree 6))
  ∧ (∀ (s : State), s.sys.fwRun = true → ∃ t u : State, exec .balancingFrame s = .next t ∧ u = (s.onMs fun x => { x with balRead := s.offRead, cell := s.offRead }) ∧ t.ms.cell = s.offRead ∧ t.ms.balPrev = s.ms.balNow ∧ t.ms.balNow = (if u.balOk then u.balChoice else []) ∧ t.ms.bleed = (t.ms.balNow != []) ∧ t.ms.balAt = s.now)
  ∧ (∀ (rnd : List Bool) (s : State), s.sys.fwRun = true → ∃ t, exec (.balanceOffTime rnd) s = .next t ∧ t.ms.bleed = false ∧ t.ms.balUp = rnd ∧ t.ms.cell = s.ms.cell ∧ t.ms.balNow = s.ms.balNow)
  ∧ (∀ (s : State), s.sys.fwRun = true → s.autoSwp = true → s.chg.phase = .shaped → s.sw.run = .none → s.sw.stage ≠ .fitting → s.sw.lastKind ≠ .none → stampAt s.sw.lastStamp + 600000000 ≤ s.now → exec .quickSweepInterval s = .next (s.sweepSchedule .interval .quick))
  ∧ (∀ (r : SweepWait) (s : State), s.sys.fwRun = true → (s.sw.retry.find? fun x => decide (x.since + 10000000 ≤ s.now)) = some r → (s.onSw fun w => { w with retry := w.retry.filter fun x => x.trig != r.trig }).trigHolds r.trig = true → exec .sweepRefusalRetry s = .next ((s.onSw fun w => { w with retry := w.retry.filter fun x => x.trig != r.trig }).trigSweep r.trig))
  ∧ (∀ (up : Bool) (y : SampleSet) (ys : List SampleSet) (s : State), s.sys.fwRun = true → s.sw.run ≠ .none → s.sw.stage = .baseline → s.sw.win = y :: ys → ∃ u : State, exec (.sweepBaselineEnd up) s = .next u.pointBegin ∧ u.sw.stage = .points ∧ u.sw.idx = 0 ∧ u.sw.idc = meanOf up (sumI (s.sw.win.map (·.ibatUa))) (1000 * s.sw.win.length) ∧ u.sw.offs.getD 10 0 = quoQ (sumI (s.sw.win.map (·.ibatUa))) s.sw.win.length)
  ∧ (∀ (rnd : List Bool) (s : State), s.sys.fwRun = true → s.sw.run ≠ .none → s.sw.stage = .points → winSets s.pointFreq ≤ s.sw.win.length → s.sw.stopping = false → s.sw.disturbed = false → exec (.sweepPoint rnd) s = .next ((((s.onSw fun w => { w with pts := (if w.repeating then w.pts.dropLast else w.pts) ++ [s.pointRec s.sw.win.reverse rnd] }).useFree 20).onSw fun w => { w with repeating := false, idx := w.idx + 1, stage := if w.idx + 1 < w.freqs.length then .points else .fitting }).pointBegin))
  ∧ (∀ (fits : List CellFit) (s : State), s.sys.fwRun = true → s.sw.stage = .fitting → ∃ t, exec (.sweepFit fits) s = .next t ∧ t.sw.stage = .idle ∧ t.sw.cmd = none ∧ t.sw.lastUsed = usable (if s.sw.run = .none then s.sw.lastPts else s.sw.pts))
  ∧ (∀ (k : Fin 16) (s : State), s.sys.fwRun = true → s.sw.run ≠ .none → s.sweepFault k.val = true → exec (.sweepAborted k) s = .next (s.sweepAbort k.val))
  ∧ (∀ (s : State), s.sys.fwRun = true → s.pp.batPres = true → s.profSet = true → exec .restCorrection s = .next ((s.socSeed).onMs fun x => { x with est := false, rested := true }))
  ∧ (∀ (k : Fin 10) (s : State), s.sys.fwRun = true → s.sw.seeded = true → s.chg.phase.charging = true → exec (.gradeDecay k) s = .next (s.setGrade k.val Grade.down))
  ∧ (∀ (k : Fin 10) (meas model : Bool) (a : Nat) (s : State), s.sys.fwRun = true → s.sw.seeded = true → s.sw.offAt.getD k.val none = some a → a + 60000000 ≤ s.now → exec (.modelMismatch k meas model) s = .next ((((s.setGrade k.val fun _ => .low).onSw fun w => { w with mismatch := true, quickDue := s.autoSwp, offAt := w.offAt.set k.val none }).raise Src.yarrow Ev.modelMismatch (BitVec.ofNat 8 (k.val + 1) :: (polarBytes meas (s.polarOf k.val).1 ++ polarBytes model (s.polarOf k.val).2))).useFree 10))

/-- CC_ATTACH starts the debounce, ATTACH_DEBOUNCE_END attaches as a sink, DETACH ends an attach wait, a discharge returns the port to unattached, returning vSafe5V makes the source present, an advertisement is sensed, VCONN goes off on overcurrent with its failure awaiting the second evaluation. Completion of: ccAttach, attachDebounceEnd, detach, portDischargeDone, vsafe5vReturn, rpAdvertisementChange, vconnOc. Follows R67, R266, R267, R268, R269, R276, R283, R285 as far as the clauses say. Where the clauses reach them they rest on the model's choices: vSafe5V and the state TRY are those of the USB standards (log entries 31 and 101). -/
def Obligations.AttachCompletes : Prop :=
  (∀ (t : TcId) (s : State), (s.tc t).tcs = .unattached → (s.tc t).discharging = false → s.portFenced (tcPort t) = false → s.sys.mode ≠ .unpowered → s.sys.mode ≠ .ship → exec (.ccAttach t false) s = .next (s.onTc t fun y => { y.present false with tcs := .attachWait }))
  ∧ (∀ (t : TcId) (orient : Bool) (rp : Rp) (vbus : Nat) (s : State), s.tcLive t = true → (s.tc t).tcs = .attachWait → (s.tc t).asSrc = false → exec (.attachDebounceEnd t orient rp vbus) s = .next ((((((s.txClear t).liftFence (13 + portIdx (tcPort t))).onTc t fun y => { y with vconnOff := false }).attachSnk t orient rp vbus)).pathNote s.pathByte))
  ∧ (∀ (d : DetachIn) (s : State), (d.vbus = false ∨ (s.tc d.port).vbusDetach = true) → (s.tc d.port).tcs = .attachWait → exec (.detach d) s = .next ((s.onTc d.port fun y => { y.present false with tcs := .unattached }).pathNote s.pathByte))
  ∧ (∀ (d : DetachIn) (s : State), (d.vbus = false ∨ (s.tc d.port).vbusDetach = true) → (s.tc d.port).tcs = .attachedSnk → s.sys.limpSrc = none → exec (.detach d) s = .next ((State.detach s (((s.setNode d.port 0).setRp d.port .none).txClear d.port) d.port).pathNote s.pathByte))
  ∧ (∀ (t : TcId) (s : State), (s.tc t).discharging = true → (s.tc t).swap = .none → (s.tc t).hrst = false → ∃ u, exec (.portDischargeDone t) s = .next u ∧ u.tc t = { hrBoot := (s.tc t).hrBoot })
  ∧ (∀ (t : TcId) (s : State), s.tcLive t = true → (s.tc t).tcs = .attachedSnk → (s.tc t).src = false → (s.tc t).hrst = true → exec (.vsafe5vReturn t) s = .next (((((s.txClear t).setNode t 5000).setPresent (tcPort t) ((s.txClear t).rp t != .none)).onTc t fun y => { y with hrst := false, offers := [], discharging := false }).pathNote s.pathByte))
  ∧ (∀ (t : TcId) (rp : Rp) (s : State), s.sys.limpSrc = none → exec (.rpAdvertisementChange t rp) s = .next (s.setRp t rp))
  ∧ (∀ (t : TcId) (s : State), s.tcLive t = true → (s.tc t).vconn = true → fresh s Cause.vconnOc → exec (.vconnOc t) s = .next (awaits (s.onTc t fun y => { y with vconn := false }) (Src.tc t) Cause.vconnOc))

/-- On a live port each message does what R271 to R275 and R283 say: new offers are stored and the ranking is negotiated, an accepted request begins its transition, PS_RDY makes it the contract, a Wait is due for retry, a retry requests again, a Reject falls back, the refused offer and a PPS request are repeated, EPR is entered and kept alive, a missing Source_Capabilities leads to a Hard Reset. Completion of: sourceCapabilities, pdAccept, psRdy, pdWait, waitRetry, pdReject, fallbackRerequest, ppsRerequest, eprMode, eprKeepalive, sourceCapabilitiesTimeout. Follows R271, R272, R273, R274, R275, R278, R283 as far as the clauses say. Where the clauses reach them they rest on the model's choices: EPR_Mode action 3 says that Enter succeeded (log entry 31, PRESUMED from the USB standard), ties of V_pref (26), no lower offer to fall back to (27), messages as their fields (44). -/
def Obligations.SinkPdCompletes : Prop :=
  (∀ (t : TcId) (rev3 : Bool) (objs : List Pdo) (s : State), s.tcLive t = true → (s.tc t).tcs = .attachedSnk → (s.tc t).src = false → exec (.sourceCapabilities t false rev3 objs) s = .next (((((s.txClear t).onTc t fun y => { y with offers := objs, rev3 := rev3, hrTries := 0, nonPd := false, prDrp := (objs.head?.map (·.drp)).getD false, prEpr := (objs.head?.map (·.eprCap)).getD false }).negotiate t).eprTry t).pathNote s.pathByte))
  ∧ (∀ (t : TcId) (o : Offer) (s : State), s.tcLive t = true → (s.tc t).swap = .none → (s.tc t).drWait = false → (s.tc t).vcWait = false → (s.tc t).req = some o → exec (.pdAccept t) s = .next (((s.txClear t).onTc t fun y => { y with trans := some o, req := none, waitDue := false, retries := 0 }).pathNote s.pathByte))
  ∧ (∀ (t : TcId) (o : Offer) (s : State), s.tcLive t = true → (s.tc t).swap = .none → (s.tc t).trans = some o → exec (.psRdy t) s = .next (((s.txClear t).contractNow t o).pathNote s.pathByte))
  ∧ (∀ (t : TcId) (s : State), s.tcLive t = true → sentNow (s.tc t) = .request → (s.tc t).retries < 5 → exec (.pdWait t) s = .next (((s.txClear t).onTc t fun y => { y with waitDue := true }).pathNote s.pathByte))
  ∧ (∀ (t : TcId) (o : Offer) (s : State), s.tcLive t = true → (s.tc t).waitDue = true → sentNow (s.tc t) = .request → (s.tc t).req = some o → exec (.waitRetry t) s = .next ((((s.txClear t).onTc t fun y => { y with waitDue := false, retries := y.retries + 1 }).sendReq t o).pathNote s.pathByte))
  ∧ (∀ (t : TcId) (s : State), s.tcLive t = true → sentNow (s.tc t) = .request → exec (.pdReject t) s = .next ((((s.txClear t).onTc t fun y => { y with waitDue := false }).fallBack t).pathNote s.pathByte))
  ∧ (∀ (t : TcId) (r : Offer) (s : State), s.tcLive t = true → (s.tc t).refused = some r → (s.tc t).reWait = true → (s.tc t).req = none → (s.tc t).trans = none → exec (.fallbackRerequest t) s = .next ((((s.txClear t).onTc t fun y => { y with reWait := false, refused := none, retries := 0 }).sendReq t r).pathNote s.pathByte))
  ∧ (∀ (t : TcId) (o : Offer) (s : State), s.tcLive t = true → (s.tc t).contract = some o → o.kind = 2 → (s.tc t).src = false → (s.tc t).req = none → (s.tc t).trans = none → exec (.ppsRerequest t) s = .next (((s.txClear t).sendReq t o).pathNote s.pathByte))
  ∧ (∀ (t : TcId) (s : State), s.tcLive t = true → (s.tc t).eprWait = true → exec (.eprMode t 3) s = .next (((((s.txClear t).onTc t fun y => { y with eprWait := false, epr := true }).tcEvent t Ev.eprEnter [nameByte Ev.eprEnter 0]).eprLeave t).pathNote s.pathByte))
  ∧ (∀ (t : TcId) (s : State), s.tcLive t = true → (s.tc t).epr = true → (s.tc t).src = false → exec (.eprKeepalive t) s = .next (((s.txClear t).tx t .eprKeepAlive).pathNote s.pathByte))
  ∧ (∀ (t : TcId) (s : State), s.tcLive t = true → (s.tc t).tcs = .attachedSnk → (s.tc t).src = false → (s.tc t).contract = none → (s.tc t).offers = [] → (s.tc t).nonPd = false → (s.tc t).hrst = false → (s.tc t).hrTries < 2 → exec (.sourceCapabilitiesTimeout t) s = .next (((s.txClear t).hardReset t true 0).pathNote s.pathByte))

/-- Cable discovery ends with what the cable answered, changed offers are sent, a request within an offer is accepted and contracted, sink capabilities give the fast-swap current, power-role and VCONN swaps are accepted or rejected as R279 and R282 say, data-role swaps accepted, a Hard Reset received resets the port, vSafe5V is restored as the source path starts again, or the source is removed where it may no longer be one, an unanswered ending swap removes the source, an exchange of authentication ends with its result. Completion of: cableDiscovery, sourceCapabilitiesUpdate, pdRequest, sinkCapabilities, prSwapReceived, drSwapReceived, vconnSwapReceived, hardResetReceived, hardResetSourceRestore, prSwapNoAnswer, securityResponse. Follows R276, R277, R278, R279, R280, R282, R283, R284, R286, R327 as far as the clauses say. Where the clauses reach them they rest on the model's choices: Accept and PS_RDY in one command (log entries 44 and 87), what PR_SWAP_NO_ANSWER stands for (109), a command that meets a swap under way (32), the codes of the USB standard (31). -/
def Obligations.SourcePdCompletes : Prop :=
  (∀ (t : TcId) (a e : Bool) (s : State), s.tcLive t = true → (s.tc t).cableTry ≠ 0 → exec (.cableDiscovery t (some (a, e))) s = .next ((((s.txClear t).onTc t fun y => { y with cableTry := 0, cable5A := a, cableEpr := e, cableAns := true }).sendCaps t).pathNote s.pathByte))
  ∧ (∀ (t : TcId) (s : State), s.tcLive t = true → (s.txClear t).ownCaps t ≠ (s.tc t).srcOffered → (s.tc t).srcOffered ≠ [] → ((s.tc t).capsAt.any fun a => decide (s.now < a + 1000000)) = false → exec (.sourceCapabilitiesUpdate t) s = .next (((s.txClear t).sendCaps t).pathNote s.pathByte))
  ∧ (∀ (t : TcId) (pos mv ma : Nat) (o : Offer) (s : State), s.tcLive t = true → (s.tc t).src = true → (s.txClear t).sourcing (tcPort t) = true → (s.txClear t).askedFor t pos mv ma = some o → exec (.pdRequest t pos mv ma) s = .next (((((((((s.txClear t).tx t .accept).tx t .psRdy).onTc t fun y => { y with contract := some o, rpOut := 2, hrTries := 0, nonPd := false, frsSrc := false, capsWait := false }).contractEvent t o).tx t .getSinkCap).authMaybe t)).pathNote s.pathByte))
  ∧ (∀ (t : TcId) (drp : Bool) (s : State), s.tcLive t = true → s.attached t = true → exec (.sinkCapabilities t 3 drp) s = .next ((((s.txClear t).onTc t fun y => { y.closes with prDrp := drp, ifrs := 3000 }).frsEval t).pathNote s.pathByte))
  ∧ (∀ (t : TcId) (s : State), s.tcLive t = true → s.attached t = true → (s.tc t).contract.isSome = true → (s.tc t).swap = .none → (s.txClear t).roleBit t 5 = true → (s.tc t).src = true → exec (.prSwapReceived t) s = .next ((((s.txClear t).tx t .accept).swapOff t).pathNote s.pathByte))
  ∧ (∀ (t : TcId) (s : State), s.tcLive t = true → s.attached t = true → exec (.drSwapReceived t) s = .next ((((s.txClear t).tx t .accept).dataSwap t).pathNote s.pathByte))
  ∧ (∀ (t : TcId) (s : State), s.tcLive t = true → s.attached t = true → (s.tc t).vconnSrc = false → (s.tc t).src = true → exec (.vconnSwapReceived t) s = .next (((((((s.txClear t).tx t .accept).vconnOn t).tx t .psRdy).swapEvent t 3 0).discoverCable t).pathNote s.pathByte))
  ∧ (∀ (t : TcId) (s : State), s.tcLive t = true → s.attached t = true → (s.tc t).vconnSrc = false → (s.tc t).src = false → exec (.vconnSwapReceived t) s = .next ((((((s.txClear t).tx t .accept).vconnOn t).tx t .psRdy).swapEvent t 3 0).pathNote s.pathByte))
  ∧ (∀ (t : TcId) (s : State), s.tcLive t = true → s.attached t = true → (s.tc t).vconnSrc = true → (s.tc t).src = false → (s.tc t).epr = false → exec (.vconnSwapReceived t) s = .next (((((s.txClear t).tx t .accept).onTc t fun y => { y with vconn := false, vconnSrc := false }).swapEvent t 3 0).pathNote s.pathByte))
  ∧ (∀ (t : TcId) (s : State), s.tcLive t = true → s.attached t = true → exec (.hardResetReceived t) s = .next ((((s.txClear t).onTc t fun y => { y with hrTries := 0 }).hardReset t false 5).pathNote s.pathByte))
  ∧ (∀ (t : TcId) (s : State), s.tcLive t = true → (s.tc t).hrst = true → (s.tc t).src = true → (s.tc t).discharging = false → s.flt.hold = false → (s.txClear t).tcSourceOk t = false → exec (.hardResetSourceRestore t) s = .next ((((s.txClear t).onTc t fun y => { y with hrst := false }).srcRemove t).pathNote s.pathByte))
  ∧ (∀ (t : TcId) (s : State), s.tcLive t = true → (s.tc t).hrst = true → (s.tc t).src = true → (s.tc t).discharging = false → s.flt.hold = false → (s.txClear t).tcSourceOk t = true → ∃ v, v = (((s.txClear t).onTc t fun y => { y with hrst := false, tcs := .attachedSrc }).startSource t).vconnOn t ∧ exec (.hardResetSourceRestore t) s = .next ((v.when (!(v.tc t).nonPd) fun w => w.sendCaps t).pathNote s.pathByte))
  ∧ (∀ (t : TcId) (s : State), s.tcLive t = true → (s.tc t).swap = .prSent → (s.tc t).swapEnd = true → exec (.prSwapNoAnswer t) s = .next (((s.txClear t).srcRemove t).pathNote s.pathByte))
  ∧ (∀ (t : TcId) (ok : Bool) (root : List (BitVec 8)) (s : State), s.tcLive t = true → (s.tc t).authBusy = true → exec (.securityResponse t ok root) s = .next (((s.txClear t).authResult t (ok && s.nvm.roots.contains (some root))).pathNote s.pathByte))
  ∧ (∀ (t : TcId) (s : State), s.tcLive t = true → s.attached t = true → ((s.tc t).contract = none ∨ (s.tc t).swap ≠ .none ∨ (s.txClear t).roleBit t 5 = false ∨ ((s.tc t).src = false ∧ (s.txClear t).tcSourceOk t = false)) → exec (.prSwapReceived t) s = .next ((((s.txClear t).tx t .reject).swapEvent t 0 1).pathNote s.pathByte))
  ∧ (∀ (t : TcId) (s : State), s.tcLive t = true → s.attached t = true → (s.tc t).vconnSrc = true → (s.tc t).epr = true → exec (.vconnSwapReceived t) s = .next ((((s.txClear t).tx t .reject).swapEvent t 3 1).pathNote s.pathByte))
  ∧ (∀ (t : TcId) (o : Offer) (s : State), s.tcLive t = true → s.attached t = true → (s.tc t).vconnSrc = true → (s.tc t).src = true → (s.tc t).contract = some o → 3000 < o.curr → exec (.vconnSwapReceived t) s = .next ((((s.txClear t).tx t .reject).swapEvent t 3 1).pathNote s.pathByte))
  ∧ (∀ (t : TcId) (o : Offer) (s : State), s.tcLive t = true → s.attached t = true → (s.tc t).vconnSrc = true → (s.tc t).src = true → (s.tc t).epr = false → (s.tc t).contract = some o → o.curr ≤ 3000 → exec (.vconnSwapReceived t) s = .next (((((s.txClear t).tx t .accept).onTc t fun y => { y with vconn := false, vconnSrc := false }).swapEvent t 3 0).pathNote s.pathByte))

/-- On a live attached port Get_Source_Cap, Get_Sink_Cap, the extended queries, battery queries, Alert, Soft_Reset, Discover Identity, an unsupported VDM, a security request and BIST are answered with the message named for each. Completion of: getSourceCap, getSinkCap, getSourceCapExtended, getStatus, getRevision, getManufacturerInfo, getBatteryCap, getBatteryStatus, alert, softReset, discoverIdentity, unsupportedVdm, securityRequest, bist. Follows R286, R287 as far as the clauses say. Where the clauses reach them they rest on the model's choices: the contents of answers that the spec leaves to the USB standard are its codes (log entry 31) or free (7), messages are their fields (44), signatures are uninterpreted (9). -/
def Obligations.PdAnswersComplete : Prop :=
  (∀ (t : TcId) (s : State), s.tcLive t = true → s.attached t = true → (s.tc t).src = true → exec (.getSourceCap t) s = .next (((s.txClear t).sendCaps t).pathNote s.pathByte))
  ∧ (∀ (t : TcId) (s : State), s.tcLive t = true → s.attached t = true → exec (.getSinkCap t) s = .next ((((s.txClear t).tx t (.sinkCaps ((s.txClear t).sinkCaps t) 0)).useFree 5).pathNote s.pathByte))
  ∧ (∀ (t : TcId) (s : State), s.tcLive t = true → s.attached t = true → exec (.getSourceCapExtended t) s = .next ((((s.txClear t).tx t (.sourceCapsExt (Config.freeBytes s.free))).useFree 1).pathNote s.pathByte))
  ∧ (∀ (t : TcId) (s : State), s.tcLive t = true → s.attached t = true → exec (.getStatus t) s = .next ((((s.txClear t).tx t (.status (Config.freeBytes s.free))).useFree 1).pathNote s.pathByte))
  ∧ (∀ (t : TcId) (s : State), s.tcLive t = true → s.attached t = true → exec (.getRevision t) s = .next ((((s.txClear t).tx t (.revision (Config.freeBytes s.free))).useFree 1).pathNote s.pathByte))
  ∧ (∀ (t : TcId) (s : State), s.tcLive t = true → s.attached t = true → exec (.getManufacturerInfo t) s = .next ((((s.txClear t).tx t (.manufacturer (Config.freeBytes s.free))).useFree 1).pathNote s.pathByte))
  ∧ (∀ (t : TcId) (s : State), s.tcLive t = true → s.attached t = true → exec (.getBatteryCap t) s = .next (((s.txClear t).tx t (.batteryCap (s.txClear t).cap)).pathNote s.pathByte))
  ∧ (∀ (t : TcId) (s : State), s.tcLive t = true → s.attached t = true → exec (.getBatteryStatus t) s = .next (((s.txClear t).tx t (.batteryStatus (quo ((s.txClear t).cap * (s.txClear t).meanSoc) 10000))).pathNote s.pathByte))
  ∧ (∀ (t : TcId) (ado : BitVec 32) (s : State), s.tcLive t = true → s.attached t = true → exec (.alert t ado) s = .next ((((s.txClear t).tx t .getStatus).tcEvent t Ev.pdAlert (le 4 ado.toNat)).pathNote s.pathByte))
  ∧ (∀ (t : TcId) (s : State), s.tcLive t = true → s.attached t = true → (s.tc t).src = false → exec (.softReset t) s = .next ((((s.txClear t).tx t .accept).onTc t fun y => { y with req := none, trans := none, retries := 0, waitDue := false, offers := [], srcOffered := [], capsWait := false }).pathNote s.pathByte))
  ∧ (∀ (t : TcId) (s : State), s.tcLive t = true → s.attached t = true → exec (.discoverIdentity t) s = .next ((((s.txClear t).tx t (.vdm [0xFF00A041#32, BitVec.ofNat 32 ((s.txClear t).freeN 0 % 2 ^ 30)])).useFree 1).pathNote s.pathByte))
  ∧ (∀ (t : TcId) (s : State), s.tcLive t = true → s.attached t = true → exec (.unsupportedVdm t) s = .next (((s.txClear t).tx t .notSupported).pathNote s.pathByte))
  ∧ (∀ (t : TcId) (kind : BitVec 8) (slot : Nat) (body : List (BitVec 8)) (s : State), s.tcLive t = true → s.attached t = true → exec (.securityRequest t kind slot body) s = .next ((((s.txClear t).tx t (.security ((s.txClear t).securityAnswer kind.toNat slot body))).useFree 3).pathNote s.pathByte))
  ∧ (∀ (t : TcId) (carrier : Bool) (mv : Nat) (s : State), s.tcLive t = true → s.attached t = true → 4750 ≤ mv → mv ≤ 5500 → exec (.bist t carrier mv) s = .next ((((s.txClear t).onTc t fun y => { y with bist := true }).tx t (if carrier then .bistCarrier else .bistTest)).pathNote s.pathByte))

/-- An on delay enables the rail, which awaits its good, or steps at once where the good already stands; a good steps the power-up, a timeout fails or counts as good with PGIGN, a NOBAT return requests the power-up, a rail fault awaits its second evaluation, the warning time starts the shutdown, a fall or its timeout or an off delay steps it, AUX2 settles, nRSTO is released and its pulse ends. Completion of: onDelayExpiry, railGood, upTimeout, nobatSupplyReturn, railFault, tpfwExpiry, railFallDone, fallTimeout, offDelayExpiry, aux2MoveDone, nrstoRelease, nrstoPulseEnd, seqUp, seqDown, nrstPulse, logRead. Follows R291, R297, R298, R299, R300, R301, R302, R308 as far as the clauses say. Where the clauses reach them they rest on the model's choices: the happenings are reported by their rows (log entry 2), a shutdown from the first on-delay (22), a power-up held back (23), SEQ on in RUN (103), a cause behind a held shutdown (113), SEQEN cleared in WARNING (114). -/
def Obligations.SequencerCompletes : Prop :=
  (∀ (r : Nat) (s : State), s.seq.st = .up → s.seq.waitOn = true → s.stepRail = some r → s.seq.fenced.getLsbD r = false → (s.seq.good.getLsbD r = false ∨ (r = 2 ∧ s.seq.aux2Moving = true) ∨ slotPgIgn s.seq.cur = true) → exec .onDelayExpiry s = .next (s.onSeq fun q => { q with waitOn := false, waitGood := true, on := setBit q.on r true, outHigh := if r < 4 then setBit q.outHigh r false else q.outHigh }))
  ∧ (∀ (r : Nat) (s : State), s.seq.st = .up → s.seq.waitOn = true → s.stepRail = some r → s.seq.fenced.getLsbD r = false → s.seq.good.getLsbD r = true → (r = 2 → s.seq.aux2Moving = false) → slotPgIgn s.seq.cur = false → exec .onDelayExpiry s = .next ((s.onSeq fun q => { q with waitOn := false, waitGood := true, on := setBit q.on r true, outHigh := if r < 4 then setBit q.outHigh r false else q.outHigh }).upStep))
  ∧ (∀ (r : Fin 8) (s : State), s.seq.on.getLsbD r.val = true → r.val ≠ 2 → s.seq.st = .up → s.seq.waitGood = true → s.slotIs r.val = true → slotPgIgn s.seq.cur = false → exec (.railGood r) s = .next ((s.setGood r.val true).upStep))
  ∧ (∀ (s : State), s.seq.st = .up → s.seq.waitGood = true → slotPgIgn s.seq.cur = true → exec .upTimeout s = .next (s.upStep))
  ∧ (∀ (s : State), s.seq.st = .up → s.seq.waitGood = true → slotPgIgn s.seq.cur = false → fresh s Cause.upTimeout → exec .upTimeout s = .next (awaits (s.onSeq fun q => { q with waitGood := false, waitRe := true }) s.stepSrc Cause.upTimeout))
  ∧ (∀ (s : State), s.seq.rsn = 5 → s.seq.st = .off → s.regBit 0x01E0 1 = true → s.anySink = true → exec .nobatSupplyReturn s = .next (s.upRequest 0x02))
  ∧ (∀ (r : Fin 8) (s : State), s.seq.on.getLsbD r.val = true → s.seq.running.getLsbD r.val = true → r.val ≠ 2 → s.pgIgnored r.val = false → exec (.railFault r) s = .next ((s.setGood r.val false).checkerFail (Src.rail r.val) Cause.railFault))
  ∧ (∀ (s : State), s.seq.tpfwRun = true → s.seq.st = .warning → exec .tpfwExpiry s = .next (((s.onSeq fun q => { q with tpfwRun := false }).startDown s.seq.rsn.toNat).shipCheck))
  ∧ (∀ (r : Fin 8) (s : State), r.val < 4 → s.seq.on.getLsbD r.val = false → s.seq.st = .down → s.seq.waitFall = true → s.slotIs r.val = true → exec (.railFallDone r) s = .next (((s.onSeq fun q => { q with outHigh := setBit q.outHigh r.val false }).downStep).shipCheck))
  ∧ (∀ (r : Nat) (s : State), s.seq.st = .down → s.seq.waitFall = true → s.stepRail = some r → s.seq.outHigh.getLsbD r = false → exec .fallTimeout s = .next ((s.downStep).shipCheck))
  ∧ (∀ (s : State), s.seq.st = .down → s.seq.waitOff = true → exec .offDelayExpiry s = .next ((s.downStep).shipCheck))
  ∧ (∀ (s : State), s.seq.aux2Moving = true → exec (.aux2MoveDone true) s = .next ((s.onSeq fun q => { q with aux2Moving := false }).railGood 2))
  ∧ (∀ (s : State), s.seq.nrstDue = true → exec .nrstoRelease s = .next (s.onSeq fun q => { q with nrstDue := false, nrstSeq := false }))
  ∧ (∀ (s : State), exec .nrstoPulseEnd s = .next (s.onSeq fun q => { q with nrstPulse := false }))
  ∧ (∀ (n : Fin 4) (s : State), ready s n 0x0601 1 → s.fld n.val 0 1 ≤ 1 → exec (.seqUp n) s = .next ((begun s n).seqUpCmd n))
  ∧ (∀ (n : Fin 4) (s : State), ready s n 0x0602 0 → exec (.seqDown n) s = .next ((begun s n).seqDownCmd n))
  ∧ (∀ (n : Fin 4) (s : State), ready s n 0x0603 0 → exec (.nrstPulse n) s = .next (((begun s n).nrstoPulse 0x03).finish n.val St.ok))
  ∧ (∀ (n : Fin 4) (s : State), ready s n 0x0604 5 → 1 ≤ s.fld n.val 4 1 → s.fld n.val 4 1 ≤ 3 → exec (.logRead n) s = .next ((begun s n).finish n.val St.ok ((begun s n).logData (s.fld n.val 0 4) (s.fld n.val 4 1))))

/-- Each checker row hands source, cause and detail to the fault report where its trigger and its unit hold; a failure that is not of class 4 and folds into nothing awaits its second evaluation with the source and the cause of the table. Completion of: gateSupply, quadSensor, sampleFault, vbusSwitch, portOv, pcReverse, batswOc, lockstep, nvmEcc, sramEcc1, sramEcc2, retParity. Follows R36, R100, R102, R316, R317, R325, R456, R470 as far as the clauses say. Where the clauses reach them they rest on the model's choices: the copies of RET items (log entry 30), the member byte of a source (88). -/
def Obligations.CheckersComplete : Prop :=
  (∀ (q : Fin 2) (s : State), s.quadOn q.val = true → exec (.gateSupply q) s = .next (s.checkerFail (Src.quad q.val) Cause.gateSupply))
  ∧ (∀ (q : Fin 2) (s : State), s.quadOn q.val = true → fresh s Cause.quadSensor → exec (.quadSensor q) s = .next (awaits s (Src.quad q.val) Cause.quadSensor))
  ∧ (∀ (p : PortId) (s : State), s.portFenced p = false → fresh s Cause.sampleFault → exec (.sampleFault p false) s = .next (awaits s (Src.port p) Cause.sampleFault))
  ∧ (∀ (t : TcId) (s : State), s.portFenced (tcPort t) = false → fresh s Cause.vbusSwitch → exec (.vbusSwitch t) s = .next (awaits s (Src.tc t) Cause.vbusSwitch))
  ∧ (∀ (p : PortId) (mv : Nat) (s : State), s.portOver p mv = true → exec (.portOv p mv) s = .next ((s.checkerFail (Src.port p) Cause.portOv mv).pathNote s.pathByte))
  ∧ (∀ (ma : Nat) (s : State), 500 < ma → exec (.pcReverse ma) s = .next ((s.checkerFail (Src.port .pc) Cause.pcReverse ma).pathNote s.pathByte))
  ∧ (∀ (ma : Nat) (s : State), 60000 < ma → exec (.batswOc ma) s = .next ((s.checkerFail Src.batsw Cause.batswOc ma).pathNote s.pathByte))
  ∧ (∀ (s : State), s.cpuOn = true → fresh s Cause.lockstep → exec .lockstep s = .next (awaits s Src.lockstep Cause.lockstep))
  ∧ (∀ (s : State), s.cpuOn = true → fresh s Cause.nvmEcc → exec .nvmEcc s = .next (awaits s Src.nvm Cause.nvmEcc))
  ∧ (∀ (s : State), s.cpuOn = true → fresh s Cause.sramEcc1 → exec .sramEcc1 s = .next (awaits s Src.sram Cause.sramEcc1))
  ∧ (∀ (s : State), s.cpuOn = true → fresh s Cause.sramEcc2 → exec .sramEcc2 s = .next (awaits s Src.sram Cause.sramEcc2))
  ∧ (∀ (item : Fin 14) (s : State), fresh s Cause.retParity → exec (.retParity item) s = .next (awaits s Src.sram Cause.retParity 0xFFFFFFFF (some item)))

/-- A pending failure is evaluated and leaves the list; the quiet period ends HOLD or starts again; an accepted HOLD_REL with REL releases; the first error is captured; FINJ is written; a test word read makes one injected check; the fault queries, the clear, the release, the unfence and the counter clear answer OK with what they name. Completion of: secondEvaluation, quietPeriodEnd, holdRel, fecCapture, finj, testWordRead, faultQuery, recGet, lfGet, faultClear, release, unfence, fcntClear, fecGet. Follows R317, R323, R330, R331, R334, R337, R340, R342, R343 as far as the clauses say. Where the clauses reach them they rest on the model's choices: FEC_GET without a capture gives free bytes (log entries 7 and 67), the sources of fences (29), records that fail their check (123). -/
def Obligations.FaultCommandsComplete : Prop :=
  (∀ (source cause : BitVec 16) (passes : Bool) (p : PendFail) (s : State), (s.flt.pend.find? fun y => y.source == source && y.cause == cause) = some p → exec (.secondEvaluation source cause passes) s = .next (((s.taskRan .sorrel).evaluate p passes).pathNote s.pathByte))
  ∧ (∀ (failing : List (Nat × Nat)) (s : State), s.flt.hold = true → s.sys.fwRun = true → s.autoOk = true → s.flt.quietAt + 1000 * s.flt.quietLen ≤ s.now → s.causesPass failing = true → exec (.quietPeriodEnd failing) s = .next ((s.holdExit 0).pathNote s.pathByte))
  ∧ (∀ (bp : BusPort) (c v : Byte) (single : Bool) (failing : List (Nat × Nat)) (s : State), pairOk s bp 0x4E c single v → v.getLsbD 0 = true → exec (.holdRel bp c single failing) s = .next ((if ((pairDone s bp 0x4E).holdRelease bp failing).2 then ((pairDone s bp 0x4E).holdRelease bp failing).1 else ((pairDone s bp 0x4E).holdRelease bp failing).1.guardFail bp).pathNote s.pathByte))
  ∧ (∀ (addr : BitVec 32) (init access : BitVec 8) (cause : BitVec 16) (s : State), s.cpuOn = true → s.flt.fec = none → exec (.fecCapture addr init access cause) s = .next ((s.onFlt fun x => { x with fec := some { addr := addr, stamp := s.stamp, init := init, access := access &&& 0x1F, cause := cause } }).raise Src.sorrel Ev.fecCapture ([init, access &&& 0x1F] ++ le 2 cause.toNat)))
  ∧ (∀ (c v : Byte) (single : Bool) (s : State), pairOk s .host 0x4C c single v → exec (.finj c single) s = .next ((pairDone s .host 0x4C).finjWrite v))
  ∧ (∀ (s : State), s.sys.fwRun = true → s.grd.injArm = true → s.grd.injRemain ≠ 0 → s.grd.injTarget ≤ 4 → exec .testWordRead s = .next (s.injectedCheck (if s.grd.injTarget = 3 then Src.nvm else Src.sram) (injCause s.grd.injTarget)))
  ∧ (∀ (n : Fin 4) (s : State), ready s n 0x0701 0 → exec (.faultQuery n) s = .next ((begun s n).finish n.val St.ok (le 4 s.flt.fence.toNat ++ [BitVec.ofNat 8 s.flt.recs.length] ++ le 2 s.flt.lost ++ le 2 s.flt.lfLost ++ le 2 s.flt.recCnt ++ [BitVec.ofNat 8 (s.nvm.lfRing.filter fun r => !r.torn).length])))
  ∧ (∀ (n : Fin 4) (s : State), ready s n 0x0702 2 → s.fld n.val 0 1 ≤ 23 → 1 ≤ s.fld n.val 1 1 → s.fld n.val 1 1 ≤ 7 → exec (.recGet n) s = .next (((begun s n).finish n.val St.ok (BitVec.ofNat 8 (((s.flt.recs.foldr recByNo []).drop (s.fld n.val 0 1)).take (s.fld n.val 1 1)).length :: (((s.flt.recs.foldr recByNo []).drop (s.fld n.val 0 1)).take (s.fld n.val 1 1)).flatMap fun r => if r.bad then St.nvmFail :: (begun s n).badBytes 32 else 0 :: faultBytes r)).useFree 32))
  ∧ (∀ (n : Fin 4) (s : State), ready s n 0x0703 2 → s.fld n.val 0 1 < s.lfList.length → s.fld n.val 1 1 ≤ 1 → exec (.lfGet n) s = .next ((begun s n).finish n.val St.ok ([BitVec.ofNat 8 s.lfList.length, BitVec.ofNat 8 (s.fld n.val 1 1)] ++ ((s.lfList.getD (s.fld n.val 0 1) {}).bytes.drop (128 * s.fld n.val 1 1)).take 128)))
  ∧ (∀ (n : Fin 4) (s : State), ready s n 0x0704 2 → s.fld n.val 0 2 = inv16 0x0704 → s.flt.hold = false → exec (.faultClear n) s = .next (((begun s n).onFlt fun f => { f with recs := [], compound := false }).finish n.val St.ok))
  ∧ (∀ (n : Fin 4) (failing : List (Nat × Nat)) (s : State), ready s n 0x0705 0 → s.sys.mode = .hold → (begun s n).causesPass failing = true → s.grd.fuseLive.getLsbD 2 = false → exec (.release n failing) s = .next (((((begun s n).holdExit 1).onGrd fun g => { g with relref := false }).finish n.val St.ok).pathNote s.pathByte))
  ∧ (∀ (n : Fin 4) (s : State), ready s n 0x0706 3 → s.fld n.val 1 2 = inv16 0x0706 → s.fld n.val 0 1 ≤ 25 → exec (.unfence n) s = .next ((((begun s n).liftFence (s.fld n.val 0 1)).finish n.val St.ok).pathNote s.pathByte))
  ∧ (∀ (n : Fin 4) (s : State), ready s n 0x0706 3 → s.fld n.val 1 2 = inv16 0x0706 → s.fld n.val 0 1 = 0xFF → exec (.unfence n) s = .next ((((List.range 26).foldl State.liftFence (begun s n)).finish n.val St.ok).pathNote s.pathByte))
  ∧ (∀ (n : Fin 4) (s : State), ready s n 0x0707 1 → s.fld n.val 0 1 ≤ 7 → ∃ t u : State, exec (.fcntClear n) s = .next t ∧ t = u.finish n.val St.ok ∧ u.flt.recCnt = (if (s.fld n.val 0 1).testBit 0 then 0 else s.flt.recCnt) ∧ u.flt.lost = (if (s.fld n.val 0 1).testBit 1 then 0 else s.flt.lost) ∧ u.flt.lfLost = (if (s.fld n.val 0 1).testBit 2 then 0 else s.flt.lfLost))
  ∧ (∀ (n : Fin 4) (f : FecRec) (s : State), ready s n 0x0708 1 → s.fld n.val 0 1 = 1 → s.flt.fec = some f → exec (.fecGet n) s = .next (((begun s n).onFlt fun x => { x with fec := none, satf := setBit x.satf 2 false }).finish n.val St.ok (1 :: fecBytes f)))

/-- The end of the boot period and a late period are expiries; a check-in call is held or written; the window opens; a supervisor write lands and a task write is a violation; the pulse ends; accepted pairs write EN and PER; a kick is taken; the host-contact watchdog expires; the watchdog queries and the counter clear answer OK. Completion of: wdgBootPeriodEnd, wdgCheckinCall, wdgWindowOpen, wdgCheckinWrite, wdgLate, wdoPulseEnd, wdgCfg, wdgPer, hcwKick, hcwExpiry, debugHalt, wdgQuery, evidGet, wcntClear. Follows R346, R348, R349, R350, R351, R352, R354, R355, R359, R361, R362 as far as the clauses say. Where the clauses reach them they rest on the model's choices: PER of WDG_QUERY (log entry 70), RUN of the expired host-contact watchdog (119), evidence that fails its check (123). -/
def Obligations.WatchdogCompletes : Prop :=
  (∀ (s : State), s.wd.run = .boot → s.sys.halted = false → exec .wdgBootPeriodEnd s = .next ((s.wdgExpire 3 0xFF).pathNote s.pathByte))
  ∧ (∀ (k : FwTask) (s : State), s.wd.run = .normal → s.sys.fwRun = true → (s.qs.inbox.getD (taskIdx k) []).contains .heartbeat = true → s.wd.called.getLsbD (taskIdx k) = false → s.wd.tick < s.wdgOpenAt → exec (.wdgCheckinCall k) s = .next ((((s.onWd fun w => { w with called := setBit w.called (taskIdx k) true }).onFlt fun f => { f with taskOnce := setBit f.taskOnce (taskIdx k) false }).onQs fun q => { q with inbox := q.inbox.set (taskIdx k) (dropBeat (q.inbox.getD (taskIdx k) [])) }).onWd fun w => { w with heldm := setBit w.heldm (taskIdx k) true }))
  ∧ (∀ (s : State), s.wd.run = .normal → s.sys.halted = false → exec .wdgWindowOpen s = .next (((s.onWd fun w => { w with tick := max w.tick s.wdgOpenAt, heldm := 0 }).wdgWrite s.wd.heldm).pathNote s.pathByte))
  ∧ (∀ (mask : BitVec 6) (s : State), s.wd.run = .normal → mask ≠ 0 → s.sys.halted = false → s.wdgOpenAt ≤ s.wd.tick → s.wd.tick < 1000 * s.wd.per → s.wd.landed ||| mask ≠ 0x3F → exec (.wdgCheckinWrite mask none) s = .next (((s.wdgDup (pop6 (mask &&& s.wd.landed))).onWd fun w => { w with landed := w.landed ||| mask }).pathNote s.pathByte))
  ∧ (∀ (s : State), s.wd.run = .normal → s.sys.halted = false → exec .wdgLate s = .next ((s.wdgExpire 1 0xFF).pathNote s.pathByte))
  ∧ (∀ (s : State), exec .wdoPulseEnd s = .next (s.onWd fun w => { w with wdoPulse := false }))
  ∧ (∀ (c v : Byte) (single : Bool) (s : State), pairOk s .host 0x50 c single v → exec (.wdgCfg c single) s = .next ((pairDone s .host 0x50).onGrd fun g => { g with wdgEn := v.getLsbD 0 }))
  ∧ (∀ (c v : Byte) (single : Bool) (s : State), pairOk s .host 0x51 c single v → 5 ≤ v.toNat % 128 → v.toNat % 128 ≤ 100 → exec (.wdgPer c single) s = .next ((pairDone s .host 0x51).onGrd fun g => { g with wdgPer := v.toNat % 128 }))
  ∧ (∀ (bp : BusPort) (v : BitVec 8) (s : State), s.busUp bp = true → exec (.hcwKick bp v) s = .next ((s.wrote bp 0x24).hcwKick bp v))
  ∧ (∀ (s : State), s.sys.fwRun = true → s.wd.hRun = true → s.wd.hExp = false → s.wd.hDead ≤ s.now → exec .hcwExpiry s = .next (s.hcwExpire))
  ∧ (∀ (halt : Bool) (s : State), s.grd.fuse.getLsbD 4 = false → exec (.debugHalt halt) s = .next (((if halt then (s.onSys fun y => { y with halted := halt, fwRun := y.fwUp && !halt }).logCut else (s.onSys fun y => { y with halted := halt, fwRun := y.fwUp && !halt }).when (s.sys.fwUp && !halt) State.fwResume)).pathNote s.pathByte))
  ∧ (∀ (n : Fin 4) (s : State), ready s n 0x0A01 0 → exec (.wdgQuery n) s = .next ((begun s n).finish n.val St.ok ([s.wdgStat, BitVec.ofNat 8 s.grd.wdgPer] ++ le 2 s.wd.rst ++ le 2 s.wd.dup ++ [BitVec.ofNat 8 s.wd.evid.length] ++ le 2 s.hcwLeft)))
  ∧ (∀ (n : Fin 4) (s : State), ready s n 0x0A02 0 → exec (.evidGet n) s = .next (((begun s n).finish n.val St.ok (BitVec.ofNat 8 s.wd.evid.length :: s.wd.evid.reverse.flatMap fun e => if e.bad then St.nvmFail :: (begun s n).badBytes 16 else 0 :: evidBytes e)).useFree 16))
  ∧ (∀ (n : Fin 4) (s : State), ready s n 0x0A03 1 → s.fld n.val 0 1 ≤ 3 → exec (.wcntClear n) s = .next (((begun s n).onWd fun w => { w with rst := if (s.fld n.val 0 1).testBit 0 then 0 else w.rst, rstSat := w.rstSat && !(s.fld n.val 0 1).testBit 0, dup := if (s.fld n.val 0 1).testBit 1 then 0 else w.dup, dupSat := w.dupSat && !(s.fld n.val 0 1).testBit 1 }).finish n.val St.ok))

/-- On a port that is up each bus row does what its rule says: the recogniser wakes, the pointer is set, a timeout sets TMO, the filter applies, a control line stretches, is supplied or fails, clear-on-read clears, GTS and the mirrors are latched, bytes are written, a pair is begun, attention is sent or retried, UPDATE and IMM collect masks that apply in ascending block order. Completion of: addressMatchDormant, pointerSet, busTimeout, filterApply, controlLineRead, lineSupplied, stretchLimit, clearOnRead, gtsLatch, mirStat, registerWrite, guardedValue, attentionWrite, attentionRetry, attentionRepeat, update, updateApply, imm, immWriteApply, stkUpdEdge, stkUpdApply. Follows R25, R366, R367, R369, R371, R373, R376, R381, R382, R387, R389, R390 as far as the clauses say. Where the clauses reach them they rest on the model's choices: plain bytes go through CONTROL_LINE_READ and REGISTER_WRITE (log entry 57), the STK_UPD pulse (58), UPD_STAT (59), DENIED of the safety port (120), the bits on the bus are left out (86). -/
def Obligations.BusCompletes : Prop :=
  (∀ (s : State), s.bus.recog = true → s.sys.dom.getLsbD 13 = false → exec (.addressMatchDormant .host) s = .next (((s.onPort .host fun p => { p with ackHold := true }).wakeFrom 0x0020).pathNote s.pathByte))
  ∧ (∀ (bp : BusPort) (a : BitVec 16) (s : State), s.busUp bp = true → exec (.pointerSet bp a) s = .next (s.onPort bp fun p => { p with ptr := a.toNat % 4096, stretch := none, line := none, allFF := false }))
  ∧ (∀ (bp : BusPort) (s : State), s.busUp bp = true → exec (.busTimeout bp) s = .next ((s.onPort bp fun p => { p with stretch := none, line := none, allFF := false, ackHold := false }).busFlag bp 4))
  ∧ (∀ (bp : BusPort) (s : State), s.busUp bp = true → exec (.filterApply bp) s = .next (s.onPort bp fun p => { p with filtUse := p.filt &&& 0x1F }))
  ∧ (∀ (bp : BusPort) (s : State), s.busUp bp = true → 0x0100 ≤ (s.port bp).ptr → (s.port bp).ptr < 0x0400 → s.sys.fwRun = true → exec (.controlLineRead { port := bp, first := true }) s = .next (s.onPort bp fun p => { p with stretch := some ((s.port bp).ptr / 16), line := none, allFF := false }))
  ∧ (∀ (bp : BusPort) (l : Nat) (s : State), s.busUp bp = true → s.sys.fwRun = true → (s.port bp).stretch = some l → exec (.lineSupplied bp) s = .next ((s.onPort bp fun p => { p with stretch := none, line := some (l, (List.range 16).map fun i => s.controlByte (16 * l + i)) }).driven bp (((List.range 16).map fun i => s.controlByte (16 * l + i)).getD ((s.port bp).ptr % 16) 0)))
  ∧ (∀ (bp : BusPort) (s : State), s.busUp bp = true → (s.port bp).stretch.isSome = true → exec (.stretchLimit bp) s = .next (((s.onPort bp fun p => { p with stretch := none, line := none, allFF := true }).busFlag bp 2).driven bp 0xFF))
  ∧ (∀ (bp : BusPort) (s : State), s.busUp bp = true → (s.port bp).ptr = 0x0026 → exec (.clearOnRead bp true) s = .next ((s.driven bp (s.swiftByte bp 0x0026)).onPort bp fun p => { p with stat := p.stat &&& ~~~(s.swiftByte bp 0x0026) }))
  ∧ (∀ (bp : BusPort) (s : State), s.busUp bp = true → exec (.gtsLatch bp) s = .next ((s.onPort bp fun p => { p with gtsL := s.clk.gts, epL := s.clk.epoch, ptr := 0x0A }).driven bp (BitVec.ofNat 8 s.clk.gts.toNat)))
  ∧ (∀ (bp : BusPort) (k : Nat) (s : State), s.busUp bp = true → s.ms.mirAt = some k → exec (.mirStat bp) s = .next ((s.onPort bp fun p => { p with mirL := s.ms.mir, mirStat := byteOf [decide (200 < s.now - k), !(s.measOn && s.ms.mirEn)], ptr := 0x11 }).driven bp (byteOf [decide (200 < s.now - k), !(s.measOn && s.ms.mirEn)])))
  ∧ (∀ (v : BitVec 8) (single : Bool) (s : State), s.busUp .host = true → 0x0800 ≤ (s.port .host).ptr → (s.port .host).ptr < 0x0C00 → exec (.registerWrite .host v single) s = .next ((s.wrote .host (s.port .host).ptr).hostWrite (s.port .host).ptr v))
  ∧ (∀ (g v : BitVec 8) (s : State), s.busUp .host = true → 0x40 ≤ g.toNat → g.toNat ≤ 0x5F → exec (.guardedValue .host g v true) s = .next ((s.wrote .host g.toNat).onPort .host fun p => { p with pend := some { addr := g.toNat, val := v, since := s.now } }))
  ∧ (∀ (r : AttnRes) (s : State), s.attnHolds = true → s.bus.attnCfg.getLsbD 1 = true → exec (.attentionWrite r) s = .next ((s.onBus fun b => { b with attnFails := 0 }).attnTry r))
  ∧ (∀ (r : AttnRes) (s : State), s.sys.dom.getLsbD 13 = true → s.bus.attnDue = true → exec (.attentionRetry r) s = .next (s.attnTry r))
  ∧ (∀ (r : AttnRes) (s : State), s.attnHolds = true → s.bus.attnCfg.getLsbD 1 = true → s.bus.attnCfg.toNat / 4 % 4 ≠ 0 → exec (.attentionRepeat r) s = .next ((s.onBus fun b => { b with attnFails := 0 }).attnTry r))
  ∧ (∀ (mask : BitVec 8) (s : State), s.busUp .host = true → mask ≠ 0 → s.stk.joined = false → exec (.update .host mask) s = .next ((s.wrote .host 0x20).onBus fun b => { b with updMask := b.updMask ||| mask }))
  ∧ (∀ (s : State), s.sys.fwRun = true → exec .updateApply s = .next (((bitsOf 8 s.bus.updMask).foldl (fun t k => t.applyBlock false (fun _ => true) k) (s.onBus fun b => { b with updMask := 0 })).pathNote s.pathByte))
  ∧ (∀ (mask : BitVec 8) (s : State), s.busUp .host = true → exec (.imm .host mask) s = .next ((s.wrote .host 0x21).onBus fun b => { b with imm := mask, immDue := b.immDue ||| (mask &&& ~~~b.imm) }))
  ∧ (∀ (s : State), s.sys.fwRun = true → exec .immWriteApply s = .next ((s.bus.immQ.foldl State.immWrite ((bitsOf 8 s.bus.immDue).foldl (fun t k => t.applyBlock true (fun _ => true) k) (s.onBus fun b => { b with immDue := 0, immQ := [] }))).pathNote s.pathByte))
  ∧ (∀ (s : State), s.stk.dormant = false → exec .stkUpdEdge s = .next ((s.onBus fun b => { b with edgeDue := b.edgeDue ||| b.armed }).pathNote s.pathByte))
  ∧ (∀ (s : State), s.sys.fwRun = true → exec .stkUpdApply s = .next (((bitsOf 8 s.bus.edgeDue).foldl (fun t k => t.applyBlock false (fun _ => true) k) (s.onBus fun b => { b with edgeDue := 0, armed := b.armed &&& ~~~s.bus.edgeDue })).pathNote s.pathByte))
  ∧ (∀ (bp : BusPort) (l : Nat) (bytes : List (BitVec 8)) (s : State), s.busUp bp = true → 0x0100 ≤ (s.port bp).ptr → (s.port bp).ptr < 0x0400 → s.sys.fwRun = true → (s.port bp).allFF = false → (s.port bp).line = some (l, bytes) → l = (s.port bp).ptr / 16 → exec (.controlLineRead { port := bp, first := false }) s = .next (s.driven bp (bytes.getD ((s.port bp).ptr % 16) 0)))
  ∧ (∀ (bp : BusPort) (s : State), s.busUp bp = true → 0x0100 ≤ (s.port bp).ptr → (s.port bp).ptr < 0x0400 → s.sys.fwRun = true → (s.port bp).allFF = true → exec (.controlLineRead { port := bp, first := false }) s = .next (s.driven bp 0xFF))
  ∧ (∀ (bp : BusPort) (s : State), s.busUp bp = true → 0x0400 ≤ (s.port bp).ptr → exec (.controlLineRead { port := bp, first := false }) s = .next (s.driven bp (s.busRead bp (s.port bp).ptr)))

/-- DOORBELL rings take frames in ascending mailbox number, DONE and the automatic release free the output, a decided result is posted, and each system command that passes its checks answers OK with what its row names, or is accepted. Completion of: mailboxRing, mailboxDone, commandCompletion, mailboxAutoRelease, sysStatus, eventRead, queueStat, queueClear, dormantCfg, dormantEnter, mbxReset, withdraw, registerWrite. Follows R35, R398, R400, R401, R402, R404, R406, R408 as far as the clauses say. Where the clauses reach them they rest on the model's choices: equal tags (log entry 60), the telemetry ring (53), a DOORBELL write through REGISTER_WRITE (57). -/
def Obligations.MailboxCompletes : Prop :=
  (∀ (mask : BitVec 4) (s : State), s.busUp .host = true → exec (.mailboxRing mask) s = .next ((((s.wrote .host 0x22).ringBits mask).takeRings).pathNote s.pathByte))
  ∧ (∀ (mask : BitVec 4) (s : State), s.busUp .host = true → exec (.mailboxDone mask) s = .next ((((s.wrote .host 0x22).doneBits mask).takeRings).pathNote s.pathByte))
  ∧ (∀ (n : Fin 4) (f : Final) (s : State), s.cc.tune = none → s.cc.tuneAsk = [] → (s.box n.val).st = .working → (s.box n.val).fin = some f → exec (.commandCompletion n) s = .next ((s.postFrame n.val f.status f.data).onBox n.val fun x => { x with st := .final, fin := none }))
  ∧ (∀ (n : Fin 4) (s : State), (s.box n.val).st = .final → (s.box n.val).act = true → (s.box n.val).postAt + 100000 ≤ s.now → exec (.mailboxAutoRelease n) s = .next ((s.release n.val).pathNote s.pathByte))
  ∧ (∀ (n : Fin 4) (s : State), ready s n 0x0101 0 → exec (.sysStatus n) s = .next ((begun s n).finish n.val St.ok ([s.modeByte, s.pathByte] ++ le 2 s.sys.dom.toNat ++ [s.sys.boot] ++ le 2 s.sys.wake.toNat ++ [BitVec.ofNat 8 s.sys.image] ++ le 2 s.sys.imageVer.toNat ++ [0xB1])))
  ∧ (∀ (n : Fin 4) (s : State), ready s n 0x0102 1 → 1 ≤ s.fld n.val 0 1 → s.fld n.val 0 1 ≤ 9 → exec (.eventRead n) s = .next (((begun s n).onQs fun q => { q with events := s.qs.events.drop (s.fld n.val 0 1) }).finish n.val St.ok ([BitVec.ofNat 8 (s.qs.events.take (s.fld n.val 0 1)).length, BitVec.ofNat 8 (min 255 (s.qs.events.drop (s.fld n.val 0 1)).length)] ++ le 2 (s.qs.drops.getD 4 0) ++ (s.qs.events.take (s.fld n.val 0 1)).flatMap eventBytes)))
  ∧ (∀ (n : Fin 4) (s : State), ready s n 0x0103 0 → exec (.queueStat n) s = .next ((begun s n).finish n.val St.ok ((List.range 13).flatMap (fun k => le 2 (s.qs.drops.getD k 0)) ++ le 2 s.qs.sat.toNat)))
  ∧ (∀ (n : Fin 4) (s : State), ready s n 0x0104 2 → s.fld n.val 0 2 < 8192 → exec (.queueClear n) s = .next (((begun s n).onQs fun q => { q with drops := q.drops.mapIdx fun k v => if (s.fld n.val 0 2).testBit k then 0 else v, sat := q.sat &&& ~~~(BitVec.ofNat 13 (s.fld n.val 0 2)) }).finish n.val St.ok))
  ∧ (∀ (n : Fin 4) (s : State), ready s n 0x0105 4 → s.fld n.val 0 2 ≤ 600 → s.fld n.val 2 2 ≤ 3600 → exec (.dormantCfg n) s = .next (((begun s n).onSys fun y => { y with idleS := s.fld n.val 0 2, wakeS := s.fld n.val 2 2, wakeNow := s.fld n.val 2 2 }).finish n.val St.ok))
  ∧ (∀ (n : Fin 4) (load : Nat) (s : State), ready s n 0x0106 0 → ((begun s n).accept n.val).dormCond load (some n) false = true → s.sys.dorm = .none → exec (.dormantEnter n load) s = .next ((((begun s n).accept n.val).onSys fun y => { y with dormBox := some n }).dormBegin))
  ∧ (∀ (n : Fin 4) (s : State), ready s n 0x0107 2 → s.fld n.val 0 2 = inv16 0x0107 → exec (.mbxReset n) s = .next ((begun s n).finishAct n.val))
  ∧ (∀ (n k : Fin 4) (s : State), ready s n 0x0108 1 → ((List.finRange 4).find? fun j => j != n && ((begun s n).box j.val).st != .free && ((begun s n).box j.val).tag == (begun s n).inByte n.val 8) = some k → exec (.withdraw n) s = .next ((((begun s n).withdrawBox k).1.finish n.val St.ok [BitVec.ofNat 8 ((begun s n).withdrawBox k).2]).pathNote s.pathByte))
  ∧ (∀ (v : BitVec 8) (single : Bool) (s : State), s.busUp .host = true → (s.port .host).ptr = 0x22 → exec (.registerWrite .host v single) s = .next (((((s.wrote .host 0x22).doneBits (BitVec.ofNat 4 (v.toNat / 16))).ringBits (v.setWidth 4)).takeRings).pathNote s.pathByte))

/-- Each command of these groups that passes its checks answers OK with its data, takes its setting, starts or stops the charge, or begins the sweep. Completion of: chgQuery, chgStart, chgStop, zoneSet, zoneGet, safeSetCmd, safeGet, measQuery, ccGet, ccSet, sweep, sweepStop, pointsGet, modelGet, chemSet, chemGet. Follows R214, R223, R227, R235, R239, R244, R249, R256 as far as the clauses say. Where the clauses reach them they rest on the model's choices: CC_SET (log entry 49), CHEM_SET (55), the refusals of SWEEP (28, 52), the summary of MODEL_GET (122), a start that goes straight to DONE (104), free fields (7). -/
def Obligations.ChargeCommandsComplete : Prop :=
  (∀ (n : Fin 4) (s : State), ready s n 0x0201 0 → exec (.chgQuery n) s = .next ((begun s n).finish n.val St.ok ((begun s n).chgData)))
  ∧ (∀ (n : Fin 4) (s : State), ready s n 0x0202 0 → (begun s n).regBit 0x0160 0 = true → (begun s n).follower = false → (begun s n).startBlock = none → exec (.chgStart n) s = .next ((((begun s n).chargeStart true).finish n.val St.ok).pathNote s.pathByte))
  ∧ (∀ (n : Fin 4) (s : State), ready s n 0x0203 0 → exec (.chgStop n) s = .next (((begun s n).onChg fun c => { c with stopReq := c.phase != .off }).finish n.val St.ok))
  ∧ (∀ (n : Fin 4) (s : State), ready s n 0x0204 14 → zoneOk (s.zoneFld n.val) = true → exec (.zoneSet n) s = .next (((begun s n).onChg fun c => { c with zoneTabNext := some (s.zoneFld n.val) }).finish n.val St.ok))
  ∧ (∀ (n : Fin 4) (s : State), ready s n 0x0205 0 → exec (.zoneGet n) s = .next ((begun s n).finish n.val St.ok (zoneBytes s.chg.zones)))
  ∧ (∀ (n : Fin 4) (s : State), ready s n 0x0206 11 → s.safeOk n.val = true → exec (.safeSetCmd n) s = .next (((begun s n).onChg fun c => { c with safeSet := some ((begun s n).safeFld n.val) }).finish n.val St.ok))
  ∧ (∀ (n : Fin 4) (s : State), ready s n 0x0207 0 → exec (.safeGet n) s = .next ((begun s n).finish n.val St.ok (safeBytes (begun s n).safeSetNow ++ [BitVec.ofNat 8 (b2n s.chg.safeSet.isNone)])))
  ∧ (∀ (n : Fin 4) (s : State), ready s n 0x0401 0 → exec (.measQuery n) s = .next ((begun s n).finish n.val St.ok ((begun s n).measData)))
  ∧ (∀ (n : Fin 4) (s : State), ready s n 0x0402 0 → exec (.ccGet n) s = .next ((begun s n).finish n.val St.ok (leI 8 s.ms.cc ++ [byteOf [s.ms.ccSat, s.ms.est]] ++ ((List.range 10).flatMap fun k => le 2 (s.ms.balQ.getD k 0)))))
  ∧ (∀ (n : Fin 4) (s : State), ready s n 0x0403 11 → s.fld n.val 9 2 = inv16 0x0403 → s.fld n.val 0 1 = 3 → exec (.ccSet n) s = .next ((((begun s n).ccPreset ((begun s n).fldI n.val 1 8)).onMs fun x => { x with balQ := List.replicate 10 0, balFrac := List.replicate 10 0, balSat := 0 }).finish n.val St.ok))
  ∧ (∀ (n : Fin 4) (len : Nat) (s : State), ready s n 0x0404 len → len = 3 + 4 * s.fld n.val 2 1 → s.sweepRange n.val = true → (begun s n).sweepBar ((begun s n).fld n.val 1 1 == 1) = none → exec (.sweep n ()) s = .next (((begun s n).accept n.val).sweepBegin (kindOf ((begun s n).fld n.val 0 1)) ((begun s n).fld n.val 1 1 == 1) ((begun s n).sweepFld n.val) (some n)))
  ∧ (∀ (n : Fin 4) (s : State), ready s n 0x0405 0 → s.sw.stage ≠ .fitting → exec (.sweepStop n) s = .next (((begun s n).sweepStop).finish n.val St.ok))
  ∧ (∀ (n : Fin 4) (p : PointRec) (l : List PointRec) (s : State), ready s n 0x0406 1 → s.fld n.val 0 1 ≤ 23 → s.fld n.val 0 1 < s.sw.lastPts.length → s.sw.lastPts = p :: l → ∃ d : List Byte, exec (.pointsGet n) s = .next ((begun s n).finish n.val St.ok ([BitVec.ofNat 8 s.sw.lastPts.length, BitVec.ofNat 8 ((s.sw.lastPts.drop (s.fld n.val 0 1)).take (238 / (12 + 4 * p.z.length))).length] ++ d)) ∧ d = ((s.sw.lastPts.drop (s.fld n.val 0 1)).take (238 / (12 + 4 * p.z.length))).flatMap pointBytes)
  ∧ (∀ (n : Fin 4) (s : State), ready s n 0x0407 1 → 1 ≤ s.fld n.val 0 1 → s.fld n.val 0 1 ≤ 10 → s.sw.seeded = false → exec (.modelGet n) s = .next (((begun s n).finish n.val St.ok (stampBytes s.sw.lastStamp ++ [BitVec.ofNat 8 (sweepCode s.sw.lastKind), byteOf [s.sw.lastPartial], BitVec.ofNat 8 s.sw.lastUsed, 0])).useFree 10))
  ∧ (∀ (n : Fin 4) (s : State), ready s n 0x0408 24 → 1 ≤ (s.chemFld n.val).chem → (s.chemFld n.val).chem ≤ 3 → (s.chemFld n.val).table = 0 → exec (.chemSet n) s = .next (((begun s n).onSw fun w => { w with chemNext := chemPut w.chemNext (s.chemFld n.val) }).finish n.val St.ok))
  ∧ (∀ (n : Fin 4) (s : State), ready s n 0x0409 2 → 1 ≤ s.fld n.val 0 1 → s.fld n.val 0 1 ≤ 3 → s.fld n.val 1 1 ≤ 2 → exec (.chemGet n) s = .next ((begun s n).finish n.val St.ok (BitVec.ofNat 8 (s.fld n.val 1 1) :: (((begun s n).onSw fun w => { w with chem := s.chemAll }).chemTab (s.fld n.val 0 1) (s.fld n.val 1 1)).flatMap (le 2))))

/-- Each command of these groups that passes its checks answers OK with its data or takes its setting; TUNE and the port commands are accepted and begin their work. Completion of: placeQuery, basinQuery, pathQuery, pathSet, hostCap, coefSet, coefGet, tune, portQuery, prSwap, drSwap, auth, rootSet. Follows R107, R110, R146, R147, R410, R411 as far as the clauses say. Where the clauses reach them they rest on the model's choices: COEF_GET of a set never written (log entry 61), TUNE (17, 62), port commands during a swap (32), roundings (34), free fields (7). -/
def Obligations.FabricCommandsComplete : Prop :=
  (∀ (n : Fin 4) (s : State), ready s n 0x0301 0 → exec (.placeQuery n) s = .next ((begun s n).finish n.val St.ok (phaseNos.flatMap (begun s n).placeEntry ++ [byteOf (phaseNos.map fun i => s.fab.resA.any (·.val == i) || s.fab.resB.any (·.val == i)), BitVec.ofNat 8 (b2n s.grd.fpen)])))
  ∧ (∀ (n : Fin 4) (s : State), ready s n 0x0302 0 → exec (.basinQuery n) s = .next ((begun s n).finish n.val St.ok (le 2 s.fab.basin ++ le 2 (begun s n).rating ++ le 2 s.fab.thCeil ++ le 2 s.stk.grant ++ le 2 s.fab.hostCap ++ [peakCode s.fab.peak] ++ le 2 (begun s n).peakTime ++ [BitVec.ofNat 8 (portCode s.fab.lead)] ++ ports.flatMap (begun s n).basinEntry)))
  ∧ (∀ (n : Fin 4) (s : State), ready s n 0x0303 1 → s.fld n.val 0 1 ≤ 2 → exec (.pathQuery n) s = .next ((begun s n).finish n.val St.ok ((begun s n).pathData (portAt (s.fld n.val 0 1)))))
  ∧ (∀ (n : Fin 4) (s : State), ready s n 0x0304 4 → s.fld n.val 0 1 ≤ 2 → s.fld n.val 1 2 ≤ (if s.fld n.val 0 1 = 2 then 8000 else 2400) → s.fld n.val 3 1 ≤ 7 → exec (.pathSet n) s = .next ((match portTc (portAt (s.fld n.val 0 1)) with | some c => ((begun s n).onPath (portAt (s.fld n.val 0 1)) fun x => { x with limit := s.fld n.val 1 2, prio := s.fld n.val 3 1 }).eprTry c | none => ((begun s n).onPath (portAt (s.fld n.val 0 1)) fun x => { x with limit := s.fld n.val 1 2, prio := s.fld n.val 3 1 })).finish n.val St.ok))
  ∧ (∀ (n : Fin 4) (s : State), ready s n 0x0305 2 → 10 ≤ s.fld n.val 0 2 → s.fld n.val 0 2 ≤ 8000 → exec (.hostCap n) s = .next (((begun s n).onFab fun f => { f with hostCap := s.fld n.val 0 2 }).finish n.val St.ok))
  ∧ (∀ (n : Fin 4) (s : State), ready s n 0x0306 81 → s.fld n.val 0 1 ≤ 4 → coefOk (s.fld n.val 0 1) (s.coefWords n.val) = true → exec (.coefSet n) s = .next (((begun s n).onCc fun c => { c with coef := c.coef.set (s.fld n.val 0 1) (some (s.coefWords n.val)) }).finish n.val St.ok))
  ∧ (∀ (n : Fin 4) (s : State), ready s n 0x0307 1 → s.fld n.val 0 1 ≤ 4 → exec (.coefGet n) s = .next ((begun s n).finish n.val St.ok (((begun s n).coefOf (s.fld n.val 0 1)).flatMap (leI 2))))
  ∧ (∀ (n : Fin 4) (s : State), ready s n 0x0308 1 → s.fld n.val 0 1 ≤ 1 → (begun s n).tuneBar (s.fld n.val 0 1 == 1) = false → (begun s n).noWait n.val = false → ∃ b : Bool, exec (.tune n) s = .next ((((begun s n).accept n.val b).onCc fun c => { c with tuneAsk := c.tuneAsk ++ [{ pc := s.fld n.val 0 1 == 1, box := some n, since := s.now }] }).tuneNext))
  ∧ (∀ (n : Fin 4) (s : State), ready s n 0x0501 1 → s.fld n.val 0 1 ≤ 1 → exec (.portQuery n) s = .next ((begun s n).finish n.val St.ok ((begun s n).portData (tcOf (s.fld n.val 0 1)))))
  ∧ (∀ (n : Fin 4) (s : State), ready s n 0x0502 1 → s.fld n.val 0 1 ≤ 1 → exec (.prSwap n) s = .next (((begun s n).txClear (tcOf (s.fld n.val 0 1))).prSwapCmd n (tcOf (s.fld n.val 0 1))))
  ∧ (∀ (n : Fin 4) (s : State), ready s n 0x0503 1 → s.fld n.val 0 1 ≤ 1 → exec (.drSwap n) s = .next (((begun s n).txClear (tcOf (s.fld n.val 0 1))).drSwapCmd n (tcOf (s.fld n.val 0 1))))
  ∧ (∀ (n : Fin 4) (s : State), ready s n 0x0504 1 → s.fld n.val 0 1 ≤ 1 → exec (.auth n) s = .next (((begun s n).txClear (tcOf (s.fld n.val 0 1))).authCmd n (tcOf (s.fld n.val 0 1))))
  ∧ (∀ (n : Fin 4) (s : State), ready s n 0x0505 33 → s.fld n.val 0 1 ≤ 3 → exec (.rootSet n) s = .next (((begun s n).onNvm fun x => { x with roots := x.roots.set (s.fld n.val 0 1) (some (s.inBytes n.val 9 32)) }).finish n.val St.ok))

/-- The NVM queue starts, completes, abandons and cuts a program; accepted fuse pairs are judged and a blow is sensed; the store, status, image, address, identity, certificate and signature commands that pass their checks answer as their rows say. Completion of: nvmRequestStart, nvmProgramDone, nvmEnergyWaitExpiry, nvmCut, fuse, fuseBlowDone, nvmStore, nvmStat, imageLoad, imageAct, addrSet, idGet, certGet, logSign. Follows R365, R455, R458, R464, R465, R467, R468, R471, R472, R473, R474 as far as the clauses say. Where the clauses reach them they rest on the model's choices: when a request leaves the queue (log entries 42, 69), what blank and staged bytes read as (64), the rollback record (65), the first SEQ of a bank (66), the sector erased ahead (63, 128), the source of FUSE_FAIL (68), uninterpreted signatures (9). -/
def Obligations.NvmCompletes : Prop :=
  (∀ (r : NvmReq) (l : List NvmReq) (s : State), s.nvm.q = r :: l → s.nvm.prog = none → s.sys.fwRun = true → s.nvmFenced = false → s.seq.pfw = false → r.kind = .snapshot → r.box = none → exec (.nvmRequestStart true) s = .next ((s.aheadEnd false).onNvm fun x => { x with q := l, prog := some r }))
  ∧ (∀ (again : Bool) (r : NvmReq) (s : State), s.nvm.prog = some r → exec (.nvmProgramDone true again) s = .next ((((s.writeDone r).lfOffers).shipCheck).pathNote s.pathByte))
  ∧ (∀ (r : NvmReq) (l : List NvmReq) (s : State), s.nvm.q = r :: l → s.nvm.prog = none → exec .nvmEnergyWaitExpiry s = .next ((((s.onNvm fun x => { x with q := l }).reqGone r St.nvmAbandoned true).shipCheck).pathNote s.pathByte))
  ∧ (∀ (r : NvmReq) (s : State), s.nvm.prog = some r → exec .nvmCut s = .next (((((s.cutProg).finishO r.box St.nvmAbandoned).snapsDrop).shipCheck).pathNote s.pathByte))
  ∧ (∀ (c v : Byte) (single : Bool) (nd : Nodes) (s : State), pairOk s .host 0x54 c single v → exec (.fuse c single nd) s = .next ((pairDone s .host 0x54).fuseWrite v nd))
  ∧ (∀ (sensed : BitVec 5) (s : State), s.grd.fbusy = true → ∃ t, exec (.fuseBlowDone sensed) s = .next t ∧ t.grd.fuse = s.grd.fuse ||| (s.grd.fuseAsk &&& sensed) ∧ t.grd.fuseLive = s.grd.fuseLive ||| (s.grd.fuseAsk &&& sensed &&& 0x18) ∧ t.grd.fbusy = false ∧ t.grd.fuseAsk = 0 ∧ t.grd.fref = (s.grd.fref || s.grd.fuseAsk &&& ~~~sensed != 0))
  ∧ (∀ (n : Fin 4) (s : State), ready s n 0x0801 3 → s.fld n.val 1 2 = inv16 0x0801 → 1 ≤ s.fld n.val 0 1 → s.fld n.val 0 1 ≤ 3 → exec (.nvmStore n) s = .next ((begun s n).storeCmd n (s.fld n.val 0 1)))
  ∧ (∀ (n : Fin 4) (s : State), ready s n 0x0802 0 → exec (.nvmStat n) s = .next ((begun s n).finish n.val St.ok (((List.range 4).flatMap fun r => le 4 (s.regionErases r)) ++ le 2 (s.verShown 1) ++ le 2 (s.verShown 2) ++ le 2 s.rollbackNow ++ [BitVec.ofNat 8 s.sys.image, byteOf ((List.range 4).map fun r => decide (0xFFFFFFFF ≤ s.regionErases r))])))
  ∧ (∀ (n : Fin 4) (len : Nat) (s : State), ready s n 0x0803 len → 5 ≤ len → len ≤ 244 → s.fld n.val 0 4 + (len - 4) ≤ 98304 → (begun s n).imgStoring = false → exec (.imageLoad n) s = .next (((begun s n).onNvm fun x => { x with stage := memPuts zeroByte x.stage (s.fld n.val 0 4) (s.inBytes n.val 12 (len - 4)), staged := true }).finish n.val St.ok))
  ∧ (∀ (n : Fin 4) (s : State), ready s n 0x0804 3 → s.fld n.val 1 2 = inv16 0x0804 → 1 ≤ s.fld n.val 0 1 → s.fld n.val 0 1 ≤ 2 → exec (.imageAct n) s = .next (if (begun s n).imgActStatus (s.fld n.val 0 1) = St.ok then (begun s n).finishAct n.val else (begun s n).finish n.val ((begun s n).imgActStatus (s.fld n.val 0 1))))
  ∧ (∀ (n : Fin 4) (s : State), ready s n 0x0805 2 → 0x08 ≤ s.fld n.val 0 1 → s.fld n.val 0 1 ≤ 0x77 → 0x08 ≤ s.fld n.val 1 1 → s.fld n.val 1 1 ≤ 0x77 → exec (.addrSet n) s = .next (((begun s n).onBus fun b => { b with cfgAddr := BitVec.ofNat 8 (s.fld n.val 0 1), attnAddr := BitVec.ofNat 8 (s.fld n.val 1 1) }).finish n.val St.ok))
  ∧ (∀ (n : Fin 4) (s : State), ready s n 0x0806 0 → exec (.idGet n) s = .next ((begun s n).finish n.val St.ok (le 8 Config.serial ++ pubKeyBytes ++ ([0, 1, 2].flatMap fun k => le 2 (certOf k).length))))
  ∧ (∀ (n : Fin 4) (s : State), ready s n 0x0807 3 → s.fld n.val 0 1 ≤ 2 → exec (.certGet n) s = .next (if s.fld n.val 1 2 < (certOf (s.fld n.val 0 1)).length then (begun s n).finish n.val St.ok (le 2 (certOf (s.fld n.val 0 1)).length ++ [BitVec.ofNat 8 (((certOf (s.fld n.val 0 1)).drop (s.fld n.val 1 2)).take 224).length] ++ ((certOf (s.fld n.val 0 1)).drop (s.fld n.val 1 2)).take 224) else (begun s n).finish n.val St.outOfRange))
  ∧ (∀ (n : Fin 4) (s : State), ready s n 0x0808 24 → s.fld n.val 16 4 ≤ s.fld n.val 20 4 → exec (.logSign n) s = .next ((((begun s n).accept n.val).useFree 1).finish n.val St.ok ((begun s n).signData n.val)))

/-- The stack mailbox commands answer or are accepted at the manager of a joined stack; each command of a slot-0 frame that a member may act on stores its argument where its row says. Completion of: stackStat, stackSet, stackSeq, stackDormant, scmdNone, time1, time2, scap, safeg, expectLo, expectHi, delay, tstep, seqLo, seqHi, seqGo, dormant, jstart, jdata, jresult. Follows R417, R428, R430, R432, R433, R434 as far as the clauses say. Where the clauses reach them they rest on the model's choices: JDATA and the offset of JOIN_CERTIFICATE (log entry 74), ACK (78), refusal codes (79), BUSY_RETRY (80), the wake interval (73). -/
def Obligations.StackCommandsComplete : Prop :=
  (∀ (n : Fin 4) (s : State), ready s n 0x0901 0 → exec (.stackStat n) s = .next ((begun s n).finish n.val St.ok ([BitVec.ofNat 8 s.stkRole, BitVec.ofNat 8 s.stkId] ++ le 4 s.stk.members.toNat ++ le 4 s.stk.fencedM.toNat ++ le 4 (if s.isManager then s.stk.sbasin else 0) ++ le 2 s.stk.grant)))
  ∧ (∀ (n : Fin 4) (s : State), ready s n 0x0902 12 → s.fld n.val 10 2 = inv16 0x0902 → 10 ≤ s.fld n.val 4 4 → s.fld n.val 4 4 ≤ 256000 → s.fld n.val 8 2 ≤ 8000 → s.stkCmdOk = true → exec (.stackSet n) s = .next (((begun s n).onStk fun k => { k with setNext := some (BitVec.ofNat 32 (s.fld n.val 0 4), s.fld n.val 4 4, s.fld n.val 8 2) }).finish n.val St.ok))
  ∧ (∀ (n : Fin 4) (s : State), ready s n 0x0903 5 → s.fld n.val 4 1 = 1 → s.stkCmdOk = true → s.stk.seqBox = none → s.qs.stkTx.length ≤ 9 → exec (.stackSeq n) s = .next ((((((begun s n).accept n.val).onStk fun k => { k with seqBox := some n, seqPend := BitVec.ofNat 32 (s.fld n.val 0 4), seqFail := 0, seqAct := 0 }).queueScmd Scmd.seqLo (s.fld n.val 0 4 % 2 ^ 16)).queueScmd Scmd.seqHi (s.fld n.val 0 4 / 2 ^ 16)).queueScmd Scmd.seqGo 1))
  ∧ (∀ (n : Fin 4) (s : State), ready s n 0x0904 0 → s.stkCmdOk = true → s.stk.dormPh = 0 → exec (.stackDormant n) s = .next (((begun s n).accept n.val).onStk fun k => { k with dormBox := some n, dormPh := 1, notReady := 0 }))
  ∧ (∀ (arg : BitVec 16) (s : State), exec (.scmdNone arg) s = .next (s))
  ∧ (∀ (arg : BitVec 16) (s : State), s.scmdOk = true → exec (.time1 arg) s = .next (s.onStk fun k => { k with cyc := k.cyc / 2 ^ 32 * 2 ^ 32 + arg.toNat * 2 ^ 16 + k.cyc % 2 ^ 16 }))
  ∧ (∀ (arg : BitVec 16) (s : State), s.scmdOk = true → exec (.time2 arg) s = .next (s.onStk fun k => { k with cyc := arg.toNat % 256 * 2 ^ 32 + k.cyc % 2 ^ 32, mgrEpoch := BitVec.ofNat 8 (arg.toNat / 256) }))
  ∧ (∀ (arg : BitVec 16) (s : State), s.scmdOk = true → s.isBackup = true → exec (.scap arg) s = .next (s.onStk fun k => { k with scap := 4 * arg.toNat }))
  ∧ (∀ (arg : BitVec 16) (s : State), s.scmdOk = true → arg.toNat ≤ 8000 → exec (.safeg arg) s = .next (s.onStk fun k => { k with safeg := arg.toNat }))
  ∧ (∀ (arg : BitVec 16) (s : State), s.scmdOk = true → s.isBackup = true → exec (.expectLo arg) s = .next (s.onStk fun k => { k with expect := (k.expect &&& 0xFFFF0000) ||| arg.setWidth 32 }))
  ∧ (∀ (arg : BitVec 16) (s : State), s.scmdOk = true → s.isBackup = true → exec (.expectHi arg) s = .next (s.onStk fun k => { k with expect := (k.expect &&& 0xFFFF) ||| BitVec.ofNat 32 (65536 * arg.toNat) }))
  ∧ (∀ (arg : BitVec 16) (s : State), s.memberOk = true → arg.toNat / 2048 = s.stkId → exec (.delay arg) s = .next (s.onStk fun k => { k with delayNs := arg.toNat % 2048 }))
  ∧ (∀ (arg : BitVec 16) (s : State), s.memberOk = true → exec (.tstep arg) s = .next (s.onStk fun k => { k with tstep := arg.toNat }))
  ∧ (∀ (arg : BitVec 16) (s : State), s.memberOk = true → exec (.seqLo arg) s = .next (s.onStk fun k => { k with seqMask := (k.seqMask &&& 0xFFFF0000) ||| arg.setWidth 32 }))
  ∧ (∀ (arg : BitVec 16) (s : State), s.memberOk = true → exec (.seqHi arg) s = .next (s.onStk fun k => { k with seqMask := (k.seqMask &&& 0xFFFF) ||| BitVec.ofNat 32 (65536 * arg.toNat) }))
  ∧ (∀ (arg : BitVec 16) (s : State), s.memberOk = true → exec (.seqGo arg) s = .next (s.onStk fun k => { k with seqDo := some arg.toNat }))
  ∧ (∀ (arg : BitVec 16) (s : State), s.memberOk = true → arg.toNat ≤ 3600 → exec (.dormant arg) s = .next (s.onStk fun k => { k with dormDo := some arg.toNat }))
  ∧ (∀ (arg : BitVec 16) (s : State), s.sys.fwRun = true → s.isWorker = true → s.stk.joinSt = .requested → arg.toNat = s.stkId → exec (.jstart arg) s = .next (s.onStk fun k => { k with joinSt := .exchanging, joinData := [], joinSent := 0, joinSig := [] }))
  ∧ (∀ (arg : BitVec 16) (s : State), s.sys.fwRun = true → s.isWorker = true → s.stk.joinSt = .exchanging → exec (.jdata arg) s = .next (s.onStk fun k => { k with joinData := k.joinData ++ le 2 arg.toNat }))
  ∧ (∀ (arg : BitVec 16) (s : State), s.sys.fwRun = true → s.isWorker = true → s.stk.joinSt = .exchanging → arg.toNat / 2048 = s.stkId → arg.toNat % 256 = 0 → exec (.jresult arg) s = .next (s.joinDone))

/-- Cycle and slot starts, frames heard, reports, the steps of a join (with none under way the waiting request of the lowest STK_ID is served; a request that comes while another module is served waits; elsewhere only its clock is noted), silences, fences and their lifts, the cascade reference, elections, the takeover of a backup, the reclaim and the end of the wait for DORMANT do what their rules say in the roles they name. Completion of: stackCycleStart, slotStart, managerFrame, memberReport, joinRequest, joinCertificate, joinSignature, slotListenEnd, joinTimeout, joinRetry, mgrSilent, slotFail, slot0Collision, alignLost, alignLostLift, frameCrc, stackFenceLift, referenceFrame, cascRefLost, cascRefLostLift, stackElectionClose, stkTakeover, managerReclaim, stackDormantTimeout. Follows R421, R424, R425, R427, R429, R430, R431, R442, R445, R446, R448, R449 as far as the clauses say. Where the clauses reach them they rest on the model's choices: the stack conventions of log entries 72 to 85 and 110, the shares of a group (121, 125), the SFD at which a frame stands (124), elections (84, 126), realignment after a wake (127). -/
def Obligations.StackEventsComplete : Prop :=
  (∀ (c : CycIn) (s : State), s.sys.fwRun = true → s.inStack = true → exec (.stackCycleStart c) s = .next ((s.cycleStart c).pathNote s.pathByte))
  ∧ (∀ (c : CycIn) (s : State), s.sys.fwRun = true → s.isWorker = true → s.stk.joinSt = .idle → s.stk.everJoined = true → (s.stk.realign && s.stk.wokeAt.isNone) = false → exec (.slotStart c) s = .next ((s.reportFrame c).useFree 1))
  ∧ (∀ (c : CycIn) (s : State), s.sys.fwRun = true → s.isWorker = true → s.stk.joinSt = .requested → exec (.slotStart c) s = .next (s.requestFrame))
  ∧ (∀ (f : MgrFrame) (s : State), s.sys.fwRun = true → (s.yieldStart f).isWorker = true → (s.yieldStart f).injFrame = false → frameOk f = true → (s.yieldStart f).flt.stkf.getLsbD 6 = false → exec (.managerFrame f) s = .next ((s.yieldStart f).slot0Frame f))
  ∧ (∀ (r : MemberRep) (fr : Option FaultRep) (late : Nat) (s : State), s.sys.fwRun = true → s.inStack = true → r.id < 32 → r.id ≠ s.stkId → ∃ t : State, exec (.memberReport r fr late) s = .next (t.useFree 1) ∧ t = (s.keepReport r).when (s.isManager && s.stk.joined && s.stk.members.getLsbD r.id) fun u => u.reportTake r fr late)
  ∧ (∀ (k : Fin 32) (r : JoinReq) (s : State), s.sys.fwRun = true → s.inStack = true → k.val ≠ s.stkId → ((s.isManager && s.stk.joined) = false ∨ s.stk.joiner = some k) → exec (.joinRequest k r) s = .next (s.onStk fun x => { x with fsws := x.fsws.filter (fun p => p.1 != k.val) ++ [(k.val, r.fsw.toNat)] }))
  ∧ (∀ (k : Fin 32) (r : JoinReq) (s : State), s.sys.fwRun = true → s.inStack = true → k.val ≠ s.stkId → s.isManager = true → s.stk.joined = true → s.stk.joiner = none → s.stk.joinWait = [] → (s.stk.wakeM.getLsbD k.val && s.stk.members.getLsbD k.val && !s.stk.fencedM.getLsbD k.val) = false → ∃ u : State, exec (.joinRequest k r) s = .next ((u.queueScmd Scmd.jstart k.val).useFree 17) ∧ u.stk.joiner = some k ∧ u.stk.joinReq = some r ∧ u.stk.nonceW = fixLen 16 r.nonce ∧ u.stk.nonceM = (List.range 16).map (fun i => BitVec.ofNat 8 (s.freeN i)) ∧ u.stk.joinData = [] ∧ u.stk.joinLead = s.joinLeadOf r ∧ u.stk.joinWait = [] ∧ u.stk.fsws = s.stk.fsws.filter (fun p => p.1 != k.val) ++ [(k.val, r.fsw.toNat)] ∧ u.qs = s.qs)
  ∧ (∀ (k : Fin 32) (off : BitVec 16) (data : List (BitVec 8)) (s : State), s.isManager = true → s.stk.joiner = some k → off.toNat < 64 → exec (.joinCertificate k off data) s = .next (s.onStk fun x => { x with joinData := fixLen (32 * off.toNat) x.joinData ++ fixLen 32 data ++ x.joinData.drop (32 * off.toNat + 32) }))
  ∧ (∀ (k : Fin 32) (data : List (BitVec 8)) (s : State), s.isManager = true → s.stk.joiner = some k → exec (.joinSignature k 0 data) s = .next (s.onStk fun x => { x with joinSig := fixLen 32 data }))
  ∧ (∀ (s : State), s.sys.fwRun = true → s.isWorker = true → s.stk.joinSt = .listening → exec (.slotListenEnd true) s = .next (s.raise Src.stack Ev.stkIdTaken))
  ∧ (∀ (s : State), s.sys.fwRun = true → s.isWorker = true → s.stk.joinSt = .listening → exec (.slotListenEnd false) s = .next ((s.onStk fun k => { k with joinSt := .requested, nonceW := (List.range 16).map fun i => BitVec.ofNat 8 (s.freeN i) }).useFree 16))
  ∧ (∀ (k : Fin 32) (s : State), s.sys.fwRun = true → s.isManager = true → s.stk.joiner = some k → exec .joinTimeout s = .next (s.joinEnd k 4))
  ∧ (∀ (s : State), s.sys.fwRun = true → s.isWorker = true → s.stk.joinSt = .refused → exec .joinRetry s = .next (s.onStk fun k => { k with joinSt := .listening }))
  ∧ (∀ (s : State), s.sys.fwRun = true → s.isWorker = true → s.stk.joined = true → exec .mgrSilent s = .next ((s.onStk fun k => { k with joined := false, fall := true, decay := true, joinSt := if k.joinSt == .idle then .listening else k.joinSt }).raise Src.stack Ev.stkLeave (BitVec.ofNat 8 s.stkId :: le 2 Cause.mgrSilent.toNat)))
  ∧ (∀ (k : Fin 32) (s : State), s.sys.fwRun = true → s.isManager = true → s.stk.members.getLsbD k.val = true → k.val ≠ s.stkId → s.stk.fencedM.getLsbD k.val = false → s.slotCounts = true → fresh s Cause.slotFail → exec (.slotFail k) s = .next ((awaits s Src.stack Cause.slotFail k.val none (some k)).pathNote s.pathByte))
  ∧ (∀ (k : Fin 32) (s : State), s.sys.fwRun = true → s.isManager = true → s.stk.joined = true → fresh s Cause.slot0Collision → exec (.slot0Collision k) s = .next ((awaits s Src.stack Cause.slot0Collision k.val none (some k)).pathNote s.pathByte))
  ∧ (∀ (s : State), s.sys.fwRun = true → s.isWorker = true → s.stk.joined = true → s.flt.stkf.getLsbD 3 = false → fresh s Cause.alignLost → exec .alignLost s = .next ((awaits (s.onStk fun k => { k with aligned := false, alignRun := 0 }) Src.stack Cause.alignLost).pathNote s.pathByte))
  ∧ (∀ (s : State), s.sys.fwRun = true → s.stk.aligned = true → exec .alignLostLift s = .next ((s.stkLift 3).pathNote s.pathByte))
  ∧ (∀ (s : State), s.sys.fwRun = true → s.isWorker = true → s.flt.stkf.getLsbD 6 = false → fresh s Cause.frameCrc → exec .frameCrc s = .next ((awaits s Src.stack Cause.frameCrc).pathNote s.pathByte))
  ∧ (∀ (k : Fin 32) (s : State), s.sys.fwRun = true → s.isManager = true → (s.stk.fenceRun.any fun p => p.1 == k.val && decide (1000 ≤ p.2)) = true → exec (.stackFenceLift k) s = .next (s.memberLift k.val))
  ∧ (∀ (iunit : BitVec 11) (bsw stop parity : Bool) (s : State), s.sys.fwRun = true → s.inGroup = true → s.follower = true → refParity iunit bsw stop parity = true → exec (.referenceFrame iunit bsw stop parity) s = .next (((s.onStk fun k => { k with refGood := min 64 (k.refGood + 1) }).refTake iunit bsw stop).pathNote s.pathByte))
  ∧ (∀ (s : State), s.sys.fwRun = true → s.follower = true → s.flt.stkf.getLsbD 4 = false → s.refExcused = false → exec .cascRefLost s = .next (((s.refMiss).failNote Src.stack Cause.cascRefLost).pathNote s.pathByte))
  ∧ (∀ (s : State), s.sys.fwRun = true → s.inGroup = true → 64 ≤ s.stk.refGood → exec .cascRefLostLift s = .next (((s.onStk fun k => { k with refLost := false }).stkLift 4).pathNote s.pathByte))
  ∧ (∀ (e : Election) (l : List Election) (s : State), s.stk.elect = e :: l → s.sys.fwRun = true → s.isManager = true → s.electDue e = true → exec .stackElectionClose s = .next ((s.onStk fun k => { k with elect := l }).electClose e))
  ∧ (∀ (s : State), s.sys.fwRun = true → s.isBackup = true → s.stk.acting = false → exec .stkTakeover s = .next (((s.onStk fun k => { k with acting := true, takeAt := s.now, delays := [], mgrants := s.heardGrants, safegSet := k.safeg, joinSt := .idle, members := (k.members &&& 0xFFFFFFFE) ||| BitVec.ofNat 32 (2 ^ s.stkId), decay := false, fall := false }).raise Src.stack Ev.stkTakeover).modeFix))
  ∧ (∀ (s : State), s.sys.fwRun = true → s.stkId = 0 → s.stk.worker0 = true → exec .managerReclaim s = .next (s.onStk fun k => { k with worker0 := false, joinSt := .idle, members := 0, fencedM := 0, decay := false, fall := false }))
  ∧ (∀ (s : State), s.stk.dormPh = 1 → exec .stackDormantTimeout s = .next ((s.finishO s.stk.dormBox St.notPermitted (le 4 s.stk.notReady.toNat)).onStk fun k => { k with dormPh := 0, dormBox := none }))
  ∧ (∀ (k j : Fin 32) (r : JoinReq) (s : State), s.sys.fwRun = true → s.inStack = true → k.val ≠ s.stkId → s.isManager = true → s.stk.joined = true → s.stk.joiner = some j → j ≠ k → (s.stk.wakeM.getLsbD k.val && s.stk.members.getLsbD k.val && !s.stk.fencedM.getLsbD k.val) = false → exec (.joinRequest k r) s = .next (s.onStk fun x => { x with fsws := x.fsws.filter (fun p => p.1 != k.val) ++ [(k.val, r.fsw.toNat)], joinWait := s.joinQueue k r }))
  ∧ (∀ (k : Fin 32) (r : JoinReq) (p : Fin 32 × JoinReq × Int) (s : State), s.sys.fwRun = true → s.inStack = true → k.val ≠ s.stkId → s.isManager = true → s.stk.joined = true → s.stk.joiner = none → joinFirst (s.joinQueue k r) = some p → (s.stk.wakeM.getLsbD k.val && s.stk.members.getLsbD k.val && !s.stk.fencedM.getLsbD k.val) = false → exec (.joinRequest k r) s = .next ((s.onStk fun x => { x with fsws := x.fsws.filter (fun p => p.1 != k.val) ++ [(k.val, r.fsw.toNat)], joinWait := s.joinQueue k r }).joinServe p.1 p.2.1 p.2.2))
  ∧ (∀ (c : CycIn) (s : State), s.sys.fwRun = true → s.isWorker = true → s.stk.joinSt = .idle → s.stk.everJoined = true → s.stk.realign = true → s.stk.wokeAt = none → exec (.slotStart c) s = .next (s.realignFrame))
  ∧ (∀ (k : Fin 32) (r : JoinReq) (s : State), s.sys.fwRun = true → s.inStack = true → k.val ≠ s.stkId → s.isManager = true → s.stk.joined = true → s.stk.joiner = none → s.stk.wakeM.getLsbD k.val = true → s.stk.members.getLsbD k.val = true → s.stk.fencedM.getLsbD k.val = false → exec (.joinRequest k r) s = .next ((s.onStk fun x => { x with fsws := x.fsws.filter (fun p => p.1 != k.val) ++ [(k.val, r.fsw.toNat)], wakeM := setBit x.wakeM k.val false }).alignWorker k.val r.late (s.joinLeadOf r)))

/-- Frames of the clock, power-domain, start, DORMANT, SHIP and button commands: the parts of the state each of them may change; every other part, and the queue of waiting commands, stays as it was. -/
def Obligations.FrameClockStart : Prop :=
  (∀ x0, frame [.clk] (.gtsCalibration x0))
  ∧ (frame [.sys] (.imageVerification))
  ∧ (∀ x0, frame [.qs, .flt] (.aoscFreq x0))
  ∧ (frame [.clk, .qs] (.gtsWrap))
  ∧ (frame [.qs, .pp] (.softConnectComplete))
  ∧ (frame [.qs, .pp] (.softConnectRetry))
  ∧ (frame [.sys, .qs] (.pbtnPress))
  ∧ (frame [.clk, .sys, .qs] (.moscStart))
  ∧ (frame [.qs, .pp, .flt] (.softConnect))
  ∧ (∀ x0 x1, frame [.sys, .qs, .bus] (.shipEnt x0 x1))
  ∧ (frame [.qs, .seq, .nvm] (.pbtnForceOff))
  ∧ (∀ x0, frame [.sys, .qs, .fab, .cc, .pp, .sw] (.takeover x0))
  ∧ (∀ x0, frame [.sys, .qs, .fab, .cc, .pp, .sw] (.takeoverDeferralExpiry x0))
  ∧ (∀ x0, frame [.clk, .sys, .qs, .fab, .pp, .sw, .nvm] (.tier0Ready x0))
  ∧ (∀ x0, frame [.sys, .qs, .bus, .pp, .seq, .mb, .nvm, .tca, .tcb] (.dormantIdleExpiry x0))
  ∧ (∀ x0 x1, frame [.clk, .sys, .qs, .bus, .fab, .cc, .pp, .ms, .sw, .seq] (.domainSwitchRequest x0 x1))
  ∧ (∀ x0, frame [.sys, .qs, .bus, .fab, .cc, .pp, .ms, .sw, .seq, .flt] (.domainPowerUpDone x0))
  ∧ (∀ x0, frame [.sys, .qs, .bus, .fab, .cc, .pp, .ms, .sw, .seq, .flt] (.domainSwitchOffDone x0))
  ∧ (∀ x0, frame [.sys, .qs, .fab, .cc, .pp, .sw, .seq, .mb, .nvm, .tca, .tcb] (.limpSourceChange x0))
  ∧ (∀ x0, frame [.clk, .sys, .qs, .bus, .pp, .ms, .seq, .wd, .mb, .stk, .nvm, .tca, .tcb] (.dormantWake x0))
  ∧ (frame [.clk, .sys, .qs, .bus, .pp, .ms, .seq, .wd, .mb, .stk, .nvm, .tca, .tcb] (.wakeTimer))
  ∧ (∀ x0, frame [.clk, .sys, .qs, .bus, .fab, .pp, .ms, .sw, .seq, .flt, .wd, .mb, .stk, .nvm, .tca, .tcb] (.pbtnRelease x0))
  ∧ (frame [.sys, .qs, .bus, .grd, .fab, .cc, .pp, .chg, .ms, .sw, .seq, .flt, .wd, .mb, .stk, .nvm, .free] (.wakeRunReached))
  ∧ (frameAwake [.sys, .qs, .bus, .grd, .fab, .cc, .pp, .chg, .sw, .seq, .flt, .mb, .stk, .nvm, .tca, .tcb, .free] (.pllLock))
  ∧ (frameAwake [.sys, .qs, .bus, .grd, .fab, .cc, .pp, .chg, .sw, .seq, .flt, .mb, .stk, .nvm, .tca, .tcb, .free] (.dllCal))

/-- Frames of the phase-fabric, conversion and power-path commands: the parts of the state each of them may change; every other part, and the queue of waiting commands, stays as it was. -/
def Obligations.FrameFabric : Prop :=
  (frame [.fab] (.peakRecoveryEnd))
  ∧ (∀ x0, frame [.fab] (.softStartComplete x0))
  ∧ (∀ x0, frame [.qs] (.oclHold x0))
  ∧ (frame [.cc] (.syncReacquisition))
  ∧ (∀ x0, frame [.cc] (.diodeEmulationEnd x0))
  ∧ (∀ x0, frame [.pp] (.weirProbe x0))
  ∧ (∀ x0 x1 x2, frame [.pp] (.trackerInterval x0 x1 x2))
  ∧ (frame [.pp] (.mpptScanStart))
  ∧ (frame [.pp] (.dwellEnd))
  ∧ (frame [.qs, .fab] (.peakTimeout))
  ∧ (frame [.sys, .fab] (.quadPowerOff))
  ∧ (frame [.bus, .cc] (.fswApply))
  ∧ (frame [.qs, .cc] (.syncLock))
  ∧ (∀ x0, frame [.qs, .cc] (.syncLost x0))
  ∧ (frame [.flt, .nvm] (.lastFaultOffer))
  ∧ (frame [.qs, .pp] (.batterySwitchRelease))
  ∧ (∀ x0 x1, frame [.qs, .pp] (.weirLearn x0 x1))
  ∧ (∀ x0 x1, frame [.qs, .pp] (.mpptScanStep x0 x1))
  ∧ (∀ x0 x1, frame [.qs, .pp] (.handover x0 x1))
  ∧ (∀ x0, frame [.qs, .fab, .pp] (.drainComplete x0))
  ∧ (∀ x0, frame [.sys, .fab, .pp] (.selectorSettle x0))
  ∧ (∀ x0, frame [.qs, .pp, .flt] (.selectorStuck x0))
  ∧ (∀ x0 x1, frame [.qs, .bus, .grd] (.fplace0 x0 x1))
  ∧ (∀ x0 x1, frame [.qs, .bus, .grd] (.fplace1 x0 x1))
  ∧ (∀ x0, frame [.qs, .fab, .sw, .stk] (.phaseRemove x0))
  ∧ (∀ x0 x1 x2, frame [.qs, .cc, .pp, .mb] (.tuneMeasurementDone x0 x1 x2))
  ∧ (∀ x0, frame [.sys, .qs, .pp, .nvm] (.batterySwitchReconnect x0))
  ∧ (∀ x0, frame [.sys, .qs, .pp, .nvm] (.supplement x0))
  ∧ (frame [.qs, .pp, .seq, .nvm] (.nobatCollapse))
  ∧ (∀ x0, frame [.sys, .qs, .fab, .sw, .flt] (.replacementTick x0))
  ∧ (∀ x0 x1, frame [.sys, .qs, .cc, .pp, .nvm] (.pcAttach x0 x1))
  ∧ (∀ x0 x1, frame [.qs, .bus, .grd, .fab, .tca, .tcb] (.fpenSet x0 x1))
  ∧ (∀ x0 x1, frame [.qs, .bus, .grd, .fab, .tca, .tcb] (.fpenClear x0 x1))
  ∧ (frame [.sys, .qs, .pp, .chg, .ms, .sw, .free] (.batAttach))
  ∧ (∀ x0, frame [.sys, .qs, .fab, .cc, .pp, .sw, .mb, .tca, .tcb] (.revCutoff x0))
  ∧ (∀ x0, frame [.sys, .qs, .fab, .cc, .pp, .sw, .seq, .mb, .nvm, .tca, .tcb] (.pcRemoval x0))
  ∧ (frame [.sys, .qs, .fab, .cc, .pp, .chg, .sw, .mb, .tca, .tcb, .free] (.batDetach))
  ∧ (∀ x0, frame [.sys, .qs, .fab, .cc, .pp, .sw, .seq, .flt, .mb, .nvm, .tca, .tcb] (.fastSwapSignal x0))
  ∧ (∀ x0, frame [.sys, .qs, .fab, .cc, .pp, .ms, .sw, .seq, .flt, .mb, .stk, .nvm, .tca, .tcb, .free] (.controlTick x0))
  ∧ (∀ x0, frameAwake [.sys, .qs, .bus, .grd, .fab, .cc, .pp, .chg, .sw, .seq, .flt, .mb, .stk, .nvm, .tca, .tcb, .free] (.selectorOverlap x0))
  ∧ (∀ x0 x1 x2, frameAwake [.sys, .qs, .bus, .grd, .fab, .cc, .pp, .chg, .sw, .seq, .flt, .mb, .stk, .nvm, .tca, .tcb, .free] (.switchingPeriod x0 x1 x2))
  ∧ (∀ x0 x1, frameAwake [.sys, .qs, .bus, .grd, .fab, .cc, .pp, .chg, .sw, .seq, .flt, .mb, .stk, .nvm, .tca, .tcb, .free] (.phaseShort x0 x1))
  ∧ (∀ x0 x1, frameAwake [.sys, .qs, .bus, .grd, .fab, .cc, .pp, .chg, .ms, .sw, .seq, .flt, .mb, .stk, .nvm, .tca, .tcb, .free] (.quadOvertemp x0 x1))

/-- Frames of the charging, measurement and sweep commands: the parts of the state each of them may change; every other part, and the queue of waiting commands, stays as it was. -/
def Obligations.FrameChargeMeasure : Prop :=
  (frame [.ms] (.autoZero))
  ∧ (∀ x0, frame [.sw] (.gradeDecay x0))
  ∧ (∀ x0, frame [.qs, .flt] (.cellOv x0))
  ∧ (∀ x0, frame [.ms, .free] (.mirrorUpdate x0))
  ∧ (frame [.ms, .free] (.restCorrection))
  ∧ (frame [.qs, .ms] (.balancingFrame))
  ∧ (∀ x0, frame [.qs, .ms] (.balanceOffTime x0))
  ∧ (∀ x0, frame [.sw, .free] (.sweepBaselineEnd x0))
  ∧ (frame [.qs, .pp, .chg] (.prechargeTimer))
  ∧ (frame [.qs, .pp, .chg] (.fastChargeTimer))
  ∧ (frame [.qs, .pp, .chg] (.topoffTimer))
  ∧ (∀ x0 x1 x2, frame [.qs, .pp, .ms] (.reportedCellVoltage x0 x1 x2))
  ∧ (frame [.qs, .ms, .sw] (.quickSweepInterval))
  ∧ (frame [.qs, .ms, .sw] (.sweepRefusalRetry))
  ∧ (∀ x0 x1 x2, frame [.qs, .sw, .free] (.modelMismatch x0 x1 x2))
  ∧ (∀ x0, frame [.qs, .sw, .mb, .free] (.sweepPoint x0))
  ∧ (∀ x0, frame [.qs, .sw, .mb, .free] (.sweepFit x0))
  ∧ (∀ x0, frame [.qs, .sw, .mb, .free] (.sweepAborted x0))
  ∧ (∀ x0, frame [.qs, .pp, .chg, .ms, .sw, .free] (.timerSuspensionRestart x0))
  ∧ (∀ x0 x1 x2, frame [.qs, .pp, .chg, .sw, .mb, .free] (.zone x0 x1 x2))
  ∧ (∀ x0, frame [.qs, .pp, .chg, .sw, .mb, .free] (.ntcFault x0))
  ∧ (∀ x0, frame [.qs, .pp, .ms, .sw, .flt, .mb, .free] (.sampleSet x0))
  ∧ (∀ x0 x1, frame [.sys, .qs, .bus, .grd, .pp, .chg, .ms, .sw, .mb, .free] (.chemCfg x0 x1))
  ∧ (∀ x0, frame [.sys, .qs, .bus, .pp, .chg, .ms, .sw, .seq, .flt, .mb, .nvm, .tca, .tcb, .free] (.teaselTick x0))

/-- Frames of the Type-C and PD commands: the parts of the state each of them may change; every other part, and the queue of waiting commands, stays as it was. -/
def Obligations.FrameTypeC : Prop :=
  (∀ x0 x1, frame [.tca, .tcb] (.ccAttach x0 x1))
  ∧ (∀ x0 x1, frame [.sys, .pp] (.rpAdvertisementChange x0 x1))
  ∧ (∀ x0, frame [.flt, .tca, .tcb] (.portDischargeDone x0))
  ∧ (∀ x0, frame [.qs, .flt, .tca, .tcb] (.vconnOc x0))
  ∧ (∀ x0 x1 x2 x3, frame [.qs, .pp, .flt, .tca, .tcb] (.pdRequest x0 x1 x2 x3))
  ∧ (∀ x0, frame [.qs, .pp, .flt, .tca, .tcb] (.waitRetry x0))
  ∧ (∀ x0, frame [.qs, .pp, .flt, .tca, .tcb] (.fallbackRerequest x0))
  ∧ (∀ x0, frame [.qs, .pp, .flt, .tca, .tcb] (.ppsRerequest x0))
  ∧ (∀ x0, frame [.qs, .pp, .flt, .tca, .tcb] (.eprKeepalive x0))
  ∧ (∀ x0 x1, frame [.qs, .pp, .flt, .tca, .tcb] (.cableDiscovery x0 x1))
  ∧ (∀ x0, frame [.qs, .pp, .flt, .tca, .tcb] (.sourceCapabilitiesUpdate x0))
  ∧ (∀ x0, frame [.qs, .pp, .flt, .tca, .tcb] (.drSwapReceived x0))
  ∧ (∀ x0, frame [.qs, .pp, .flt, .tca, .tcb] (.vconnSwapReceived x0))
  ∧ (∀ x0, frame [.qs, .pp, .flt, .tca, .tcb] (.getSourceCap x0))
  ∧ (∀ x0, frame [.qs, .pp, .flt, .tca, .tcb] (.getBatteryCap x0))
  ∧ (∀ x0, frame [.qs, .pp, .flt, .tca, .tcb] (.getBatteryStatus x0))
  ∧ (∀ x0 x1, frame [.qs, .pp, .flt, .tca, .tcb] (.alert x0 x1))
  ∧ (∀ x0, frame [.qs, .pp, .flt, .tca, .tcb] (.softReset x0))
  ∧ (∀ x0, frame [.qs, .pp, .flt, .tca, .tcb] (.unsupportedVdm x0))
  ∧ (∀ x0 x1 x2, frame [.qs, .pp, .flt, .tca, .tcb] (.bist x0 x1 x2))
  ∧ (∀ x0, frame [.qs, .pp, .flt, .tca, .tcb] (.vsafe5vReturn x0))
  ∧ (∀ x0 x1 x2 x3, frame [.qs, .pp, .flt, .tca, .tcb, .free] (.sourceCapabilities x0 x1 x2 x3))
  ∧ (∀ x0 x1, frame [.qs, .pp, .flt, .tca, .tcb, .free] (.eprMode x0 x1))
  ∧ (∀ x0 x1 x2 x3, frame [.qs, .pp, .flt, .tca, .tcb, .free] (.securityRequest x0 x1 x2 x3))
  ∧ (∀ x0, frame [.qs, .pp, .flt, .tca, .tcb, .free] (.getSinkCap x0))
  ∧ (∀ x0, frame [.qs, .pp, .flt, .tca, .tcb, .free] (.getSourceCapExtended x0))
  ∧ (∀ x0, frame [.qs, .pp, .flt, .tca, .tcb, .free] (.getStatus x0))
  ∧ (∀ x0, frame [.qs, .pp, .flt, .tca, .tcb, .free] (.getRevision x0))
  ∧ (∀ x0, frame [.qs, .pp, .flt, .tca, .tcb, .free] (.getManufacturerInfo x0))
  ∧ (∀ x0, frame [.qs, .pp, .flt, .tca, .tcb, .free] (.discoverIdentity x0))
  ∧ (∀ x0 x1 x2, frame [.qs, .fab, .pp, .flt, .tca, .tcb] (.sinkCapabilities x0 x1 x2))
  ∧ (∀ x0 x1 x2 x3, frame [.sys, .qs, .fab, .cc, .pp, .sw, .seq, .flt, .tca, .tcb] (.attachDebounceEnd x0 x1 x2 x3))
  ∧ (∀ x0, frame [.sys, .qs, .fab, .cc, .pp, .sw, .flt, .mb, .tca, .tcb] (.hardResetSourceRestore x0))
  ∧ (∀ x0 x1 x2, frame [.sys, .qs, .fab, .cc, .pp, .sw, .flt, .mb, .tca, .tcb, .free] (.securityResponse x0 x1 x2))
  ∧ (∀ x0, frame [.sys, .qs, .fab, .cc, .pp, .sw, .seq, .flt, .mb, .nvm, .tca, .tcb] (.pdAccept x0))
  ∧ (∀ x0, frame [.sys, .qs, .fab, .cc, .pp, .sw, .seq, .flt, .mb, .nvm, .tca, .tcb] (.prSwapReceived x0))
  ∧ (∀ x0, frame [.sys, .qs, .bus, .fab, .cc, .pp, .sw, .seq, .flt, .mb, .nvm, .tca, .tcb] (.detach x0))
  ∧ (∀ x0, frame [.sys, .qs, .bus, .fab, .cc, .pp, .sw, .seq, .flt, .mb, .nvm, .tca, .tcb] (.hardResetReceived x0))
  ∧ (∀ x0, frame [.sys, .qs, .bus, .fab, .cc, .pp, .sw, .seq, .flt, .mb, .nvm, .tca, .tcb] (.sourceCapabilitiesTimeout x0))
  ∧ (∀ x0, frame [.sys, .qs, .bus, .fab, .cc, .pp, .sw, .seq, .flt, .mb, .nvm, .tca, .tcb] (.prSwapNoAnswer x0))
  ∧ (∀ x0, frame [.sys, .qs, .bus, .fab, .cc, .pp, .seq, .flt, .mb, .nvm, .tca, .tcb, .free] (.psRdy x0))
  ∧ (∀ x0, frame [.sys, .qs, .bus, .fab, .cc, .pp, .sw, .seq, .flt, .mb, .nvm, .tca, .tcb, .free] (.pdWait x0))
  ∧ (∀ x0, frame [.sys, .qs, .bus, .fab, .cc, .pp, .sw, .seq, .flt, .mb, .nvm, .tca, .tcb, .free] (.pdReject x0))

/-- Frames of the sequencer and watchdog commands: the parts of the state each of them may change; every other part, and the queue of waiting commands, stays as it was. -/
def Obligations.FrameSequencer : Prop :=
  (frame [.seq] (.nrstoRelease))
  ∧ (frame [.seq] (.nrstoPulseEnd))
  ∧ (frame [.wd] (.wdoPulseEnd))
  ∧ (∀ x0, frame [.flt, .mb] (.logRead x0))
  ∧ (∀ x0, frame [.flt, .mb] (.wdgQuery x0))
  ∧ (∀ x0, frame [.qs, .seq, .flt] (.railFault x0))
  ∧ (∀ x0 x1, frame [.qs, .bus, .grd] (.wdgCfg x0 x1))
  ∧ (∀ x0 x1, frame [.qs, .bus, .grd] (.wdgPer x0 x1))
  ∧ (∀ x0, frame [.flt, .mb, .free] (.evidGet x0))
  ∧ (∀ x0, frame [.flt, .wd, .mb] (.wcntClear x0))
  ∧ (∀ x0, frame [.qs, .seq, .flt, .mb] (.nrstPulse x0))
  ∧ (frame [.qs, .bus, .pp, .seq, .mb, .nvm] (.nobatSupplyReturn))
  ∧ (frame [.sys, .qs, .bus, .pp, .seq, .mb, .nvm] (.onDelayExpiry))
  ∧ (∀ x0, frame [.sys, .qs, .bus, .pp, .seq, .mb, .nvm] (.railGood x0))
  ∧ (frame [.sys, .qs, .bus, .pp, .seq, .flt, .mb, .nvm] (.upTimeout))
  ∧ (∀ x0, frame [.sys, .qs, .bus, .pp, .seq, .flt, .mb, .nvm] (.aux2MoveDone x0))
  ∧ (∀ x0, frame [.sys, .qs, .bus, .pp, .seq, .flt, .mb, .nvm] (.seqDown x0))
  ∧ (frame [.sys, .qs, .chg, .seq, .flt, .wd, .stk, .nvm] (.hcwExpiry))
  ∧ (∀ x0 x1, frame [.sys, .qs, .bus, .chg, .seq, .flt, .wd, .stk, .nvm] (.hcwKick x0 x1))
  ∧ (∀ x0, frame [.sys, .qs, .bus, .fab, .pp, .sw, .seq, .flt, .mb, .nvm] (.seqUp x0))

/-- Frames of the checker and fault commands: the parts of the state each of them may change; every other part, and the queue of waiting commands, stays as it was. -/
def Obligations.FrameFaults : Prop :=
  (∀ x0, frame [.qs, .flt] (.gateSupply x0))
  ∧ (∀ x0, frame [.qs, .flt] (.quadSensor x0))
  ∧ (∀ x0 x1, frame [.qs, .flt] (.sampleFault x0 x1))
  ∧ (∀ x0, frame [.qs, .flt] (.vbusSwitch x0))
  ∧ (frame [.qs, .flt] (.lockstep))
  ∧ (frame [.qs, .flt] (.nvmEcc))
  ∧ (frame [.qs, .flt] (.sramEcc1))
  ∧ (frame [.qs, .flt] (.sramEcc2))
  ∧ (∀ x0, frame [.qs, .flt] (.retParity x0))
  ∧ (∀ x0 x1 x2 x3, frame [.qs, .flt] (.fecCapture x0 x1 x2 x3))
  ∧ (∀ x0, frame [.flt, .mb] (.faultQuery x0))
  ∧ (∀ x0, frame [.flt, .mb] (.lfGet x0))
  ∧ (∀ x0, frame [.flt, .mb] (.faultClear x0))
  ∧ (∀ x0, frame [.flt, .mb] (.fcntClear x0))
  ∧ (∀ x0 x1, frame [.qs, .bus, .grd] (.finj x0 x1))
  ∧ (frame [.qs, .grd, .flt] (.testWordRead))
  ∧ (∀ x0, frame [.flt, .mb, .free] (.recGet x0))
  ∧ (∀ x0, frame [.flt, .mb, .free] (.fecGet x0))
  ∧ (∀ x0, frame [.sys, .qs, .pp, .chg, .flt] (.quietPeriodEnd x0))
  ∧ (∀ x0 x1 x2 x3, frame [.sys, .qs, .bus, .grd, .pp, .chg, .flt] (.holdRel x0 x1 x2 x3))
  ∧ (∀ x0 x1, frame [.sys, .qs, .grd, .pp, .chg, .flt, .mb] (.release x0 x1))
  ∧ (∀ x0, frame [.sys, .qs, .fab, .pp, .sw, .seq, .flt, .mb] (.unfence x0))
  ∧ (∀ x0 x1, frameAwake [.sys, .qs, .bus, .grd, .fab, .cc, .pp, .chg, .sw, .seq, .flt, .mb, .stk, .nvm, .tca, .tcb, .free] (.portOv x0 x1))
  ∧ (∀ x0, frameAwake [.sys, .qs, .bus, .grd, .fab, .cc, .pp, .chg, .sw, .seq, .flt, .mb, .stk, .nvm, .tca, .tcb, .free] (.pcReverse x0))
  ∧ (∀ x0, frameAwake [.sys, .qs, .bus, .grd, .fab, .cc, .pp, .chg, .sw, .seq, .flt, .mb, .stk, .nvm, .tca, .tcb, .free] (.batswOc x0))

/-- Frames of the two-wire, mailbox and non-volatile memory commands: the parts of the state each of them may change; every other part, and the queue of waiting commands, stays as it was. -/
def Obligations.FrameBusMailbox : Prop :=
  (∀ x0 x1, frame [.bus] (.pointerSet x0 x1))
  ∧ (∀ x0, frame [.bus] (.lineSupplied x0))
  ∧ (∀ x0, frame [.bus] (.stretchLimit x0))
  ∧ (∀ x0, frame [.bus] (.gtsLatch x0))
  ∧ (∀ x0, frame [.bus] (.mirStat x0))
  ∧ (∀ x0, frame [.bus] (.busTimeout x0))
  ∧ (∀ x0, frame [.bus] (.filterApply x0))
  ∧ (∀ x0, frame [.bus] (.attentionWrite x0))
  ∧ (∀ x0, frame [.bus] (.attentionRetry x0))
  ∧ (∀ x0, frame [.bus] (.attentionRepeat x0))
  ∧ (∀ x0, frame [.qs, .bus] (.controlLineRead x0))
  ∧ (∀ x0 x1, frame [.qs, .bus] (.clearOnRead x0 x1))
  ∧ (∀ x0 x1 x2 x3, frame [.qs, .bus] (.guardedValue x0 x1 x2 x3))
  ∧ (∀ x0 x1, frame [.qs, .bus] (.update x0 x1))
  ∧ (∀ x0 x1, frame [.qs, .bus] (.imm x0 x1))
  ∧ (∀ x0, frame [.cc, .mb] (.commandCompletion x0))
  ∧ (∀ x0, frame [.flt, .mb] (.sysStatus x0))
  ∧ (∀ x0, frame [.flt, .mb] (.queueStat x0))
  ∧ (∀ x0, frame [.flt, .mb] (.mbxReset x0))
  ∧ (∀ x0, frame [.flt, .mb] (.chgQuery x0))
  ∧ (∀ x0, frame [.flt, .mb] (.zoneGet x0))
  ∧ (∀ x0, frame [.flt, .mb] (.safeGet x0))
  ∧ (∀ x0, frame [.flt, .mb] (.placeQuery x0))
  ∧ (∀ x0, frame [.flt, .mb] (.basinQuery x0))
  ∧ (∀ x0, frame [.flt, .mb] (.pathQuery x0))
  ∧ (∀ x0, frame [.flt, .mb] (.coefGet x0))
  ∧ (∀ x0, frame [.flt, .mb] (.measQuery x0))
  ∧ (∀ x0, frame [.flt, .mb] (.ccGet x0))
  ∧ (∀ x0, frame [.flt, .mb] (.pointsGet x0))
  ∧ (∀ x0, frame [.flt, .mb] (.portQuery x0))
  ∧ (∀ x0, frame [.flt, .mb] (.nvmStat x0))
  ∧ (∀ x0, frame [.flt, .mb] (.imageAct x0))
  ∧ (∀ x0, frame [.flt, .mb] (.idGet x0))
  ∧ (∀ x0, frame [.flt, .mb] (.certGet x0))
  ∧ (∀ x0, frame [.qs, .grd] (.fuseBlowDone x0))
  ∧ (∀ x0, frame [.qs, .flt, .mb] (.eventRead x0))
  ∧ (∀ x0, frame [.qs, .flt, .mb] (.queueClear x0))
  ∧ (∀ x0, frame [.sys, .flt, .mb] (.dormantCfg x0))
  ∧ (∀ x0, frame [.chg, .flt, .mb] (.chgStop x0))
  ∧ (∀ x0, frame [.chg, .flt, .mb] (.zoneSet x0))
  ∧ (∀ x0, frame [.chg, .flt, .mb] (.safeSetCmd x0))
  ∧ (∀ x0, frame [.fab, .flt, .mb] (.hostCap x0))
  ∧ (∀ x0, frame [.cc, .flt, .mb] (.coefSet x0))
  ∧ (∀ x0, frame [.cc, .flt, .mb] (.tune x0))
  ∧ (∀ x0, frame [.flt, .mb, .free] (.modelGet x0))
  ∧ (∀ x0, frame [.flt, .mb, .free] (.logSign x0))
  ∧ (∀ x0, frame [.sw, .flt, .mb] (.chemSet x0))
  ∧ (∀ x0, frame [.sw, .flt, .mb] (.chemGet x0))
  ∧ (∀ x0, frame [.flt, .mb, .nvm] (.rootSet x0))
  ∧ (∀ x0, frame [.flt, .mb, .nvm] (.imageLoad x0))
  ∧ (∀ x0, frame [.bus, .flt, .mb] (.addrSet x0))
  ∧ (∀ x0 x1 x2, frame [.qs, .bus, .grd] (.fuse x0 x1 x2))
  ∧ (∀ x0, frame [.chg, .ms, .flt, .mb] (.ccSet x0))
  ∧ (∀ x0, frame [.flt, .mb, .tca, .tcb] (.prSwap x0))
  ∧ (∀ x0, frame [.flt, .mb, .tca, .tcb] (.drSwap x0))
  ∧ (∀ x0, frame [.flt, .mb, .tca, .tcb] (.auth x0))
  ∧ (∀ x0, frame [.qs, .flt, .mb, .nvm] (.nvmStore x0))
  ∧ (∀ x0, frame [.fab, .flt, .mb, .tca, .tcb] (.pathSet x0))
  ∧ (∀ x0 x1, frame [.qs, .ms, .sw, .flt, .mb] (.sweep x0 x1))
  ∧ (∀ x0, frame [.qs, .sw, .flt, .mb, .free] (.sweepStop x0))
  ∧ (∀ x0, frame [.qs, .pp, .chg, .ms, .sw, .flt, .mb, .free] (.chgStart x0))
  ∧ (∀ x0 x1, frame [.sys, .qs, .bus, .pp, .seq, .flt, .mb, .nvm, .tca, .tcb] (.dormantEnter x0 x1))
  ∧ (∀ x0, frame [.clk, .sys, .qs, .bus, .pp, .ms, .seq, .wd, .mb, .stk, .nvm, .tca, .tcb] (.addressMatchDormant x0))
  ∧ (frame [.clk, .sys, .qs, .bus, .pp, .ms, .seq, .wd, .mb, .stk, .nvm, .tca, .tcb] (.stkUpdEdge))
  ∧ (frame [.sys, .qs, .bus, .fab, .cc, .pp, .chg, .ms, .sw, .seq, .flt, .mb, .nvm, .tca, .tcb, .free] (.updateApply))
  ∧ (frame [.sys, .qs, .bus, .fab, .cc, .pp, .chg, .ms, .sw, .seq, .flt, .mb, .nvm, .tca, .tcb, .free] (.immWriteApply))
  ∧ (frame [.sys, .qs, .bus, .fab, .cc, .pp, .chg, .ms, .sw, .seq, .flt, .mb, .nvm, .tca, .tcb, .free] (.stkUpdApply))
  ∧ (∀ x0, frame [.qs, .bus, .pp, .mb] (.mailboxRing x0))
  ∧ (∀ (bp : BusPort) (v : Byte) (single : Bool) (s t : State), bp = .safety ∨ s.bus.hp.ptr ≠ 0x22 → exec (.registerWrite bp v single) s = .next t →
      changesOnly [.qs, .bus, .mb] s t)

/-- Frames of the stack commands: the parts of the state each of them may change; every other part, and the queue of waiting commands, stays as it was. -/
def Obligations.FrameStack : Prop :=
  (∀ x0, frame [] (.scmdNone x0))
  ∧ (∀ x0 x1 x2, frame [.stk] (.joinCertificate x0 x1 x2))
  ∧ (∀ x0, frame [.stk] (.time1 x0))
  ∧ (∀ x0, frame [.stk] (.time2 x0))
  ∧ (∀ x0, frame [.stk] (.scap x0))
  ∧ (∀ x0, frame [.stk] (.safeg x0))
  ∧ (∀ x0, frame [.stk] (.expectLo x0))
  ∧ (∀ x0, frame [.stk] (.expectHi x0))
  ∧ (∀ x0, frame [.stk] (.delay x0))
  ∧ (∀ x0, frame [.stk] (.tstep x0))
  ∧ (∀ x0, frame [.stk] (.seqLo x0))
  ∧ (∀ x0, frame [.stk] (.seqHi x0))
  ∧ (∀ x0, frame [.stk] (.seqGo x0))
  ∧ (∀ x0, frame [.stk] (.dormant x0))
  ∧ (∀ x0, frame [.stk] (.jstart x0))
  ∧ (∀ x0, frame [.stk] (.jdata x0))
  ∧ (frame [.stk] (.joinRetry))
  ∧ (frame [.stk] (.managerReclaim))
  ∧ (∀ x0, frame [.flt, .mb] (.stackStat x0))
  ∧ (frame [.qs, .stk] (.mgrSilent))
  ∧ (frame [.mb, .stk] (.stackDormantTimeout))
  ∧ (∀ x0, frame [.flt, .mb, .stk] (.stackSet x0))
  ∧ (∀ x0, frame [.flt, .mb, .stk] (.stackDormant x0))
  ∧ (∀ x0, frame [.qs, .stk, .free] (.slotStart x0))
  ∧ (∀ x0 x1, frame [.qs, .stk, .free] (.joinRequest x0 x1))
  ∧ (∀ x0, frame [.qs, .stk, .free] (.slotListenEnd x0))
  ∧ (∀ x0, frame [.qs, .pp, .flt] (.slotFail x0))
  ∧ (∀ x0, frame [.qs, .pp, .flt] (.slot0Collision x0))
  ∧ (frame [.qs, .pp, .flt] (.frameCrc))
  ∧ (∀ x0, frame [.qs, .flt, .mb, .stk] (.stackSeq x0))
  ∧ (frame [.qs, .pp, .flt, .stk] (.alignLost))
  ∧ (frame [.sys, .qs, .pp, .flt] (.alignLostLift))
  ∧ (frame [.sys, .qs, .flt, .stk] (.stkTakeover))
  ∧ (∀ x0, frame [.clk, .qs, .grd, .flt, .stk] (.managerFrame x0))
  ∧ (∀ x0 x1 x2, frame [.sys, .qs, .flt, .stk, .free] (.memberReport x0 x1 x2))
  ∧ (∀ x0 x1 x2, frame [.sys, .qs, .flt, .stk, .free] (.joinSignature x0 x1 x2))
  ∧ (frame [.sys, .qs, .flt, .stk, .free] (.joinTimeout))
  ∧ (∀ x0, frame [.sys, .qs, .flt, .stk, .free] (.stackFenceLift x0))
  ∧ (∀ x0, frame [.sys, .qs, .cc, .flt, .stk] (.jresult x0))
  ∧ (frame [.sys, .qs, .pp, .flt, .stk] (.cascRefLostLift))
  ∧ (frame [.qs, .seq, .flt, .stk, .nvm] (.stackElectionClose))
  ∧ (∀ x0 x1 x2 x3, frame [.qs, .fab, .cc, .pp, .sw, .stk] (.referenceFrame x0 x1 x2 x3))
  ∧ (frame [.qs, .fab, .pp, .sw, .flt, .stk] (.cascRefLost))
  ∧ (∀ x0, frame [.clk, .sys, .qs, .bus, .fab, .cc, .pp, .chg, .sw, .seq, .flt, .mb, .stk, .nvm, .tca, .tcb, .free] (.stackCycleStart x0))
end

