-- ==== Sys2Proof/Laws/State.lean ====
section
/-! SUPPORT. What each part of the state is after each update of a part: true by unfolding, one lemma a pair. -/
namespace Sys2Proof.Machine

set_option Elab.async false

variable (s : State)

@[simp] theorem onClk_clk (k : Clk → Clk) : (s.onClk k).clk = k s.clk := rfl
@[simp] theorem onClk_sys (k : Clk → Clk) : (s.onClk k).sys = s.sys := rfl
@[simp] theorem onClk_qs (k : Clk → Clk) : (s.onClk k).qs = s.qs := rfl
@[simp] theorem onClk_bus (k : Clk → Clk) : (s.onClk k).bus = s.bus := rfl
@[simp] theorem onClk_grd (k : Clk → Clk) : (s.onClk k).grd = s.grd := rfl
@[simp] theorem onClk_fab (k : Clk → Clk) : (s.onClk k).fab = s.fab := rfl
@[simp] theorem onClk_cc (k : Clk → Clk) : (s.onClk k).cc = s.cc := rfl
@[simp] theorem onClk_pp (k : Clk → Clk) : (s.onClk k).pp = s.pp := rfl
@[simp] theorem onClk_chg (k : Clk → Clk) : (s.onClk k).chg = s.chg := rfl
@[simp] theorem onClk_ms (k : Clk → Clk) : (s.onClk k).ms = s.ms := rfl
@[simp] theorem onClk_sw (k : Clk → Clk) : (s.onClk k).sw = s.sw := rfl
@[simp] theorem onClk_seq (k : Clk → Clk) : (s.onClk k).seq = s.seq := rfl
@[simp] theorem onClk_flt (k : Clk → Clk) : (s.onClk k).flt = s.flt := rfl
@[simp] theorem onClk_wd (k : Clk → Clk) : (s.onClk k).wd = s.wd := rfl
@[simp] theorem onClk_mb (k : Clk → Clk) : (s.onClk k).mb = s.mb := rfl
@[simp] theorem onClk_stk (k : Clk → Clk) : (s.onClk k).stk = s.stk := rfl
@[simp] theorem onClk_nvm (k : Clk → Clk) : (s.onClk k).nvm = s.nvm := rfl
@[simp] theorem onClk_tca (k : Clk → Clk) : (s.onClk k).tca = s.tca := rfl
@[simp] theorem onClk_tcb (k : Clk → Clk) : (s.onClk k).tcb = s.tcb := rfl
@[simp] theorem onClk_free (k : Clk → Clk) : (s.onClk k).free = s.free := rfl
@[simp] theorem onClk_pending (k : Clk → Clk) : (s.onClk k).pending = s.pending := rfl
@[simp] theorem onSys_clk (k : Sys → Sys) : (s.onSys k).clk = s.clk := rfl
@[simp] theorem onSys_sys (k : Sys → Sys) : (s.onSys k).sys = k s.sys := rfl
@[simp] theorem onSys_qs (k : Sys → Sys) : (s.onSys k).qs = s.qs := rfl
@[simp] theorem onSys_bus (k : Sys → Sys) : (s.onSys k).bus = s.bus := rfl
@[simp] theorem onSys_grd (k : Sys → Sys) : (s.onSys k).grd = s.grd := rfl
@[simp] theorem onSys_fab (k : Sys → Sys) : (s.onSys k).fab = s.fab := rfl
@[simp] theorem onSys_cc (k : Sys → Sys) : (s.onSys k).cc = s.cc := rfl
@[simp] theorem onSys_pp (k : Sys → Sys) : (s.onSys k).pp = s.pp := rfl
@[simp] theorem onSys_chg (k : Sys → Sys) : (s.onSys k).chg = s.chg := rfl
@[simp] theorem onSys_ms (k : Sys → Sys) : (s.onSys k).ms = s.ms := rfl
@[simp] theorem onSys_sw (k : Sys → Sys) : (s.onSys k).sw = s.sw := rfl
@[simp] theorem onSys_seq (k : Sys → Sys) : (s.onSys k).seq = s.seq := rfl
@[simp] theorem onSys_flt (k : Sys → Sys) : (s.onSys k).flt = s.flt := rfl
@[simp] theorem onSys_wd (k : Sys → Sys) : (s.onSys k).wd = s.wd := rfl
@[simp] theorem onSys_mb (k : Sys → Sys) : (s.onSys k).mb = s.mb := rfl
@[simp] theorem onSys_stk (k : Sys → Sys) : (s.onSys k).stk = s.stk := rfl
@[simp] theorem onSys_nvm (k : Sys → Sys) : (s.onSys k).nvm = s.nvm := rfl
@[simp] theorem onSys_tca (k : Sys → Sys) : (s.onSys k).tca = s.tca := rfl
@[simp] theorem onSys_tcb (k : Sys → Sys) : (s.onSys k).tcb = s.tcb := rfl
@[simp] theorem onSys_free (k : Sys → Sys) : (s.onSys k).free = s.free := rfl
@[simp] theorem onSys_pending (k : Sys → Sys) : (s.onSys k).pending = s.pending := rfl
@[simp] theorem onQs_clk (k : Queues → Queues) : (s.onQs k).clk = s.clk := rfl
@[simp] theorem onQs_sys (k : Queues → Queues) : (s.onQs k).sys = s.sys := rfl
@[simp] theorem onQs_qs (k : Queues → Queues) : (s.onQs k).qs = k s.qs := rfl
@[simp] theorem onQs_bus (k : Queues → Queues) : (s.onQs k).bus = s.bus := rfl
@[simp] theorem onQs_grd (k : Queues → Queues) : (s.onQs k).grd = s.grd := rfl
@[simp] theorem onQs_fab (k : Queues → Queues) : (s.onQs k).fab = s.fab := rfl
@[simp] theorem onQs_cc (k : Queues → Queues) : (s.onQs k).cc = s.cc := rfl
@[simp] theorem onQs_pp (k : Queues → Queues) : (s.onQs k).pp = s.pp := rfl
@[simp] theorem onQs_chg (k : Queues → Queues) : (s.onQs k).chg = s.chg := rfl
@[simp] theorem onQs_ms (k : Queues → Queues) : (s.onQs k).ms = s.ms := rfl
@[simp] theorem onQs_sw (k : Queues → Queues) : (s.onQs k).sw = s.sw := rfl
@[simp] theorem onQs_seq (k : Queues → Queues) : (s.onQs k).seq = s.seq := rfl
@[simp] theorem onQs_flt (k : Queues → Queues) : (s.onQs k).flt = s.flt := rfl
@[simp] theorem onQs_wd (k : Queues → Queues) : (s.onQs k).wd = s.wd := rfl
@[simp] theorem onQs_mb (k : Queues → Queues) : (s.onQs k).mb = s.mb := rfl
@[simp] theorem onQs_stk (k : Queues → Queues) : (s.onQs k).stk = s.stk := rfl
@[simp] theorem onQs_nvm (k : Queues → Queues) : (s.onQs k).nvm = s.nvm := rfl
@[simp] theorem onQs_tca (k : Queues → Queues) : (s.onQs k).tca = s.tca := rfl
@[simp] theorem onQs_tcb (k : Queues → Queues) : (s.onQs k).tcb = s.tcb := rfl
@[simp] theorem onQs_free (k : Queues → Queues) : (s.onQs k).free = s.free := rfl
@[simp] theorem onQs_pending (k : Queues → Queues) : (s.onQs k).pending = s.pending := rfl
@[simp] theorem onBus_clk (k : Bus → Bus) : (s.onBus k).clk = s.clk := rfl
@[simp] theorem onBus_sys (k : Bus → Bus) : (s.onBus k).sys = s.sys := rfl
@[simp] theorem onBus_qs (k : Bus → Bus) : (s.onBus k).qs = s.qs := rfl
@[simp] theorem onBus_bus (k : Bus → Bus) : (s.onBus k).bus = k s.bus := rfl
@[simp] theorem onBus_grd (k : Bus → Bus) : (s.onBus k).grd = s.grd := rfl
@[simp] theorem onBus_fab (k : Bus → Bus) : (s.onBus k).fab = s.fab := rfl
@[simp] theorem onBus_cc (k : Bus → Bus) : (s.onBus k).cc = s.cc := rfl
@[simp] theorem onBus_pp (k : Bus → Bus) : (s.onBus k).pp = s.pp := rfl
@[simp] theorem onBus_chg (k : Bus → Bus) : (s.onBus k).chg = s.chg := rfl
@[simp] theorem onBus_ms (k : Bus → Bus) : (s.onBus k).ms = s.ms := rfl
@[simp] theorem onBus_sw (k : Bus → Bus) : (s.onBus k).sw = s.sw := rfl
@[simp] theorem onBus_seq (k : Bus → Bus) : (s.onBus k).seq = s.seq := rfl
@[simp] theorem onBus_flt (k : Bus → Bus) : (s.onBus k).flt = s.flt := rfl
@[simp] theorem onBus_wd (k : Bus → Bus) : (s.onBus k).wd = s.wd := rfl
@[simp] theorem onBus_mb (k : Bus → Bus) : (s.onBus k).mb = s.mb := rfl
@[simp] theorem onBus_stk (k : Bus → Bus) : (s.onBus k).stk = s.stk := rfl
@[simp] theorem onBus_nvm (k : Bus → Bus) : (s.onBus k).nvm = s.nvm := rfl
@[simp] theorem onBus_tca (k : Bus → Bus) : (s.onBus k).tca = s.tca := rfl
@[simp] theorem onBus_tcb (k : Bus → Bus) : (s.onBus k).tcb = s.tcb := rfl
@[simp] theorem onBus_free (k : Bus → Bus) : (s.onBus k).free = s.free := rfl
@[simp] theorem onBus_pending (k : Bus → Bus) : (s.onBus k).pending = s.pending := rfl
@[simp] theorem onGrd_clk (k : Guard → Guard) : (s.onGrd k).clk = s.clk := rfl
@[simp] theorem onGrd_sys (k : Guard → Guard) : (s.onGrd k).sys = s.sys := rfl
@[simp] theorem onGrd_qs (k : Guard → Guard) : (s.onGrd k).qs = s.qs := rfl
@[simp] theorem onGrd_bus (k : Guard → Guard) : (s.onGrd k).bus = s.bus := rfl
@[simp] theorem onGrd_grd (k : Guard → Guard) : (s.onGrd k).grd = k s.grd := rfl
@[simp] theorem onGrd_fab (k : Guard → Guard) : (s.onGrd k).fab = s.fab := rfl
@[simp] theorem onGrd_cc (k : Guard → Guard) : (s.onGrd k).cc = s.cc := rfl
@[simp] theorem onGrd_pp (k : Guard → Guard) : (s.onGrd k).pp = s.pp := rfl
@[simp] theorem onGrd_chg (k : Guard → Guard) : (s.onGrd k).chg = s.chg := rfl
@[simp] theorem onGrd_ms (k : Guard → Guard) : (s.onGrd k).ms = s.ms := rfl
@[simp] theorem onGrd_sw (k : Guard → Guard) : (s.onGrd k).sw = s.sw := rfl
@[simp] theorem onGrd_seq (k : Guard → Guard) : (s.onGrd k).seq = s.seq := rfl
@[simp] theorem onGrd_flt (k : Guard → Guard) : (s.onGrd k).flt = s.flt := rfl
@[simp] theorem onGrd_wd (k : Guard → Guard) : (s.onGrd k).wd = s.wd := rfl
@[simp] theorem onGrd_mb (k : Guard → Guard) : (s.onGrd k).mb = s.mb := rfl
@[simp] theorem onGrd_stk (k : Guard → Guard) : (s.onGrd k).stk = s.stk := rfl
@[simp] theorem onGrd_nvm (k : Guard → Guard) : (s.onGrd k).nvm = s.nvm := rfl
@[simp] theorem onGrd_tca (k : Guard → Guard) : (s.onGrd k).tca = s.tca := rfl
@[simp] theorem onGrd_tcb (k : Guard → Guard) : (s.onGrd k).tcb = s.tcb := rfl
@[simp] theorem onGrd_free (k : Guard → Guard) : (s.onGrd k).free = s.free := rfl
@[simp] theorem onGrd_pending (k : Guard → Guard) : (s.onGrd k).pending = s.pending := rfl
@[simp] theorem onFab_clk (k : Fabric → Fabric) : (s.onFab k).clk = s.clk := rfl
@[simp] theorem onFab_sys (k : Fabric → Fabric) : (s.onFab k).sys = s.sys := rfl
@[simp] theorem onFab_qs (k : Fabric → Fabric) : (s.onFab k).qs = s.qs := rfl
@[simp] theorem onFab_bus (k : Fabric → Fabric) : (s.onFab k).bus = s.bus := rfl
@[simp] theorem onFab_grd (k : Fabric → Fabric) : (s.onFab k).grd = s.grd := rfl
@[simp] theorem onFab_fab (k : Fabric → Fabric) : (s.onFab k).fab = k s.fab := rfl
@[simp] theorem onFab_cc (k : Fabric → Fabric) : (s.onFab k).cc = s.cc := rfl
@[simp] theorem onFab_pp (k : Fabric → Fabric) : (s.onFab k).pp = s.pp := rfl
@[simp] theorem onFab_chg (k : Fabric → Fabric) : (s.onFab k).chg = s.chg := rfl
@[simp] theorem onFab_ms (k : Fabric → Fabric) : (s.onFab k).ms = s.ms := rfl
@[simp] theorem onFab_sw (k : Fabric → Fabric) : (s.onFab k).sw = s.sw := rfl
@[simp] theorem onFab_seq (k : Fabric → Fabric) : (s.onFab k).seq = s.seq := rfl
@[simp] theorem onFab_flt (k : Fabric → Fabric) : (s.onFab k).flt = s.flt := rfl
@[simp] theorem onFab_wd (k : Fabric → Fabric) : (s.onFab k).wd = s.wd := rfl
@[simp] theorem onFab_mb (k : Fabric → Fabric) : (s.onFab k).mb = s.mb := rfl
@[simp] theorem onFab_stk (k : Fabric → Fabric) : (s.onFab k).stk = s.stk := rfl
@[simp] theorem onFab_nvm (k : Fabric → Fabric) : (s.onFab k).nvm = s.nvm := rfl
@[simp] theorem onFab_tca (k : Fabric → Fabric) : (s.onFab k).tca = s.tca := rfl
@[simp] theorem onFab_tcb (k : Fabric → Fabric) : (s.onFab k).tcb = s.tcb := rfl
@[simp] theorem onFab_free (k : Fabric → Fabric) : (s.onFab k).free = s.free := rfl
@[simp] theorem onFab_pending (k : Fabric → Fabric) : (s.onFab k).pending = s.pending := rfl
@[simp] theorem onCc_clk (k : Conv → Conv) : (s.onCc k).clk = s.clk := rfl
@[simp] theorem onCc_sys (k : Conv → Conv) : (s.onCc k).sys = s.sys := rfl
@[simp] theorem onCc_qs (k : Conv → Conv) : (s.onCc k).qs = s.qs := rfl
@[simp] theorem onCc_bus (k : Conv → Conv) : (s.onCc k).bus = s.bus := rfl
@[simp] theorem onCc_grd (k : Conv → Conv) : (s.onCc k).grd = s.grd := rfl
@[simp] theorem onCc_fab (k : Conv → Conv) : (s.onCc k).fab = s.fab := rfl
@[simp] theorem onCc_cc (k : Conv → Conv) : (s.onCc k).cc = k s.cc := rfl
@[simp] theorem onCc_pp (k : Conv → Conv) : (s.onCc k).pp = s.pp := rfl
@[simp] theorem onCc_chg (k : Conv → Conv) : (s.onCc k).chg = s.chg := rfl
@[simp] theorem onCc_ms (k : Conv → Conv) : (s.onCc k).ms = s.ms := rfl
@[simp] theorem onCc_sw (k : Conv → Conv) : (s.onCc k).sw = s.sw := rfl
@[simp] theorem onCc_seq (k : Conv → Conv) : (s.onCc k).seq = s.seq := rfl
@[simp] theorem onCc_flt (k : Conv → Conv) : (s.onCc k).flt = s.flt := rfl
@[simp] theorem onCc_wd (k : Conv → Conv) : (s.onCc k).wd = s.wd := rfl
@[simp] theorem onCc_mb (k : Conv → Conv) : (s.onCc k).mb = s.mb := rfl
@[simp] theorem onCc_stk (k : Conv → Conv) : (s.onCc k).stk = s.stk := rfl
@[simp] theorem onCc_nvm (k : Conv → Conv) : (s.onCc k).nvm = s.nvm := rfl
@[simp] theorem onCc_tca (k : Conv → Conv) : (s.onCc k).tca = s.tca := rfl
@[simp] theorem onCc_tcb (k : Conv → Conv) : (s.onCc k).tcb = s.tcb := rfl
@[simp] theorem onCc_free (k : Conv → Conv) : (s.onCc k).free = s.free := rfl
@[simp] theorem onCc_pending (k : Conv → Conv) : (s.onCc k).pending = s.pending := rfl
@[simp] theorem onPp_clk (k : Power → Power) : (s.onPp k).clk = s.clk := rfl
@[simp] theorem onPp_sys (k : Power → Power) : (s.onPp k).sys = s.sys := rfl
@[simp] theorem onPp_qs (k : Power → Power) : (s.onPp k).qs = s.qs := rfl
@[simp] theorem onPp_bus (k : Power → Power) : (s.onPp k).bus = s.bus := rfl
@[simp] theorem onPp_grd (k : Power → Power) : (s.onPp k).grd = s.grd := rfl
@[simp] theorem onPp_fab (k : Power → Power) : (s.onPp k).fab = s.fab := rfl
@[simp] theorem onPp_cc (k : Power → Power) : (s.onPp k).cc = s.cc := rfl
@[simp] theorem onPp_pp (k : Power → Power) : (s.onPp k).pp = k s.pp := rfl
@[simp] theorem onPp_chg (k : Power → Power) : (s.onPp k).chg = s.chg := rfl
@[simp] theorem onPp_ms (k : Power → Power) : (s.onPp k).ms = s.ms := rfl
@[simp] theorem onPp_sw (k : Power → Power) : (s.onPp k).sw = s.sw := rfl
@[simp] theorem onPp_seq (k : Power → Power) : (s.onPp k).seq = s.seq := rfl
@[simp] theorem onPp_flt (k : Power → Power) : (s.onPp k).flt = s.flt := rfl
@[simp] theorem onPp_wd (k : Power → Power) : (s.onPp k).wd = s.wd := rfl
@[simp] theorem onPp_mb (k : Power → Power) : (s.onPp k).mb = s.mb := rfl
@[simp] theorem onPp_stk (k : Power → Power) : (s.onPp k).stk = s.stk := rfl
@[simp] theorem onPp_nvm (k : Power → Power) : (s.onPp k).nvm = s.nvm := rfl
@[simp] theorem onPp_tca (k : Power → Power) : (s.onPp k).tca = s.tca := rfl
@[simp] theorem onPp_tcb (k : Power → Power) : (s.onPp k).tcb = s.tcb := rfl
@[simp] theorem onPp_free (k : Power → Power) : (s.onPp k).free = s.free := rfl
@[simp] theorem onPp_pending (k : Power → Power) : (s.onPp k).pending = s.pending := rfl
@[simp] theorem onChg_clk (k : Charge → Charge) : (s.onChg k).clk = s.clk := rfl
@[simp] theorem onChg_sys (k : Charge → Charge) : (s.onChg k).sys = s.sys := rfl
@[simp] theorem onChg_qs (k : Charge → Charge) : (s.onChg k).qs = s.qs := rfl
@[simp] theorem onChg_bus (k : Charge → Charge) : (s.onChg k).bus = s.bus := rfl
@[simp] theorem onChg_grd (k : Charge → Charge) : (s.onChg k).grd = s.grd := rfl
@[simp] theorem onChg_fab (k : Charge → Charge) : (s.onChg k).fab = s.fab := rfl
@[simp] theorem onChg_cc (k : Charge → Charge) : (s.onChg k).cc = s.cc := rfl
@[simp] theorem onChg_pp (k : Charge → Charge) : (s.onChg k).pp = s.pp := rfl
@[simp] theorem onChg_chg (k : Charge → Charge) : (s.onChg k).chg = k s.chg := rfl
@[simp] theorem onChg_ms (k : Charge → Charge) : (s.onChg k).ms = s.ms := rfl
@[simp] theorem onChg_sw (k : Charge → Charge) : (s.onChg k).sw = s.sw := rfl
@[simp] theorem onChg_seq (k : Charge → Charge) : (s.onChg k).seq = s.seq := rfl
@[simp] theorem onChg_flt (k : Charge → Charge) : (s.onChg k).flt = s.flt := rfl
@[simp] theorem onChg_wd (k : Charge → Charge) : (s.onChg k).wd = s.wd := rfl
@[simp] theorem onChg_mb (k : Charge → Charge) : (s.onChg k).mb = s.mb := rfl
@[simp] theorem onChg_stk (k : Charge → Charge) : (s.onChg k).stk = s.stk := rfl
@[simp] theorem onChg_nvm (k : Charge → Charge) : (s.onChg k).nvm = s.nvm := rfl
@[simp] theorem onChg_tca (k : Charge → Charge) : (s.onChg k).tca = s.tca := rfl
@[simp] theorem onChg_tcb (k : Charge → Charge) : (s.onChg k).tcb = s.tcb := rfl
@[simp] theorem onChg_free (k : Charge → Charge) : (s.onChg k).free = s.free := rfl
@[simp] theorem onChg_pending (k : Charge → Charge) : (s.onChg k).pending = s.pending := rfl
@[simp] theorem onMs_clk (k : Meas → Meas) : (s.onMs k).clk = s.clk := rfl
@[simp] theorem onMs_sys (k : Meas → Meas) : (s.onMs k).sys = s.sys := rfl
@[simp] theorem onMs_qs (k : Meas → Meas) : (s.onMs k).qs = s.qs := rfl
@[simp] theorem onMs_bus (k : Meas → Meas) : (s.onMs k).bus = s.bus := rfl
@[simp] theorem onMs_grd (k : Meas → Meas) : (s.onMs k).grd = s.grd := rfl
@[simp] theorem onMs_fab (k : Meas → Meas) : (s.onMs k).fab = s.fab := rfl
@[simp] theorem onMs_cc (k : Meas → Meas) : (s.onMs k).cc = s.cc := rfl
@[simp] theorem onMs_pp (k : Meas → Meas) : (s.onMs k).pp = s.pp := rfl
@[simp] theorem onMs_chg (k : Meas → Meas) : (s.onMs k).chg = s.chg := rfl
@[simp] theorem onMs_ms (k : Meas → Meas) : (s.onMs k).ms = k s.ms := rfl
@[simp] theorem onMs_sw (k : Meas → Meas) : (s.onMs k).sw = s.sw := rfl
@[simp] theorem onMs_seq (k : Meas → Meas) : (s.onMs k).seq = s.seq := rfl
@[simp] theorem onMs_flt (k : Meas → Meas) : (s.onMs k).flt = s.flt := rfl
@[simp] theorem onMs_wd (k : Meas → Meas) : (s.onMs k).wd = s.wd := rfl
@[simp] theorem onMs_mb (k : Meas → Meas) : (s.onMs k).mb = s.mb := rfl
@[simp] theorem onMs_stk (k : Meas → Meas) : (s.onMs k).stk = s.stk := rfl
@[simp] theorem onMs_nvm (k : Meas → Meas) : (s.onMs k).nvm = s.nvm := rfl
@[simp] theorem onMs_tca (k : Meas → Meas) : (s.onMs k).tca = s.tca := rfl
@[simp] theorem onMs_tcb (k : Meas → Meas) : (s.onMs k).tcb = s.tcb := rfl
@[simp] theorem onMs_free (k : Meas → Meas) : (s.onMs k).free = s.free := rfl
@[simp] theorem onMs_pending (k : Meas → Meas) : (s.onMs k).pending = s.pending := rfl
@[simp] theorem onSw_clk (k : Sweep → Sweep) : (s.onSw k).clk = s.clk := rfl
@[simp] theorem onSw_sys (k : Sweep → Sweep) : (s.onSw k).sys = s.sys := rfl
@[simp] theorem onSw_qs (k : Sweep → Sweep) : (s.onSw k).qs = s.qs := rfl
@[simp] theorem onSw_bus (k : Sweep → Sweep) : (s.onSw k).bus = s.bus := rfl
@[simp] theorem onSw_grd (k : Sweep → Sweep) : (s.onSw k).grd = s.grd := rfl
@[simp] theorem onSw_fab (k : Sweep → Sweep) : (s.onSw k).fab = s.fab := rfl
@[simp] theorem onSw_cc (k : Sweep → Sweep) : (s.onSw k).cc = s.cc := rfl
@[simp] theorem onSw_pp (k : Sweep → Sweep) : (s.onSw k).pp = s.pp := rfl
@[simp] theorem onSw_chg (k : Sweep → Sweep) : (s.onSw k).chg = s.chg := rfl
@[simp] theorem onSw_ms (k : Sweep → Sweep) : (s.onSw k).ms = s.ms := rfl
@[simp] theorem onSw_sw (k : Sweep → Sweep) : (s.onSw k).sw = k s.sw := rfl
@[simp] theorem onSw_seq (k : Sweep → Sweep) : (s.onSw k).seq = s.seq := rfl
@[simp] theorem onSw_flt (k : Sweep → Sweep) : (s.onSw k).flt = s.flt := rfl
@[simp] theorem onSw_wd (k : Sweep → Sweep) : (s.onSw k).wd = s.wd := rfl
@[simp] theorem onSw_mb (k : Sweep → Sweep) : (s.onSw k).mb = s.mb := rfl
@[simp] theorem onSw_stk (k : Sweep → Sweep) : (s.onSw k).stk = s.stk := rfl
@[simp] theorem onSw_nvm (k : Sweep → Sweep) : (s.onSw k).nvm = s.nvm := rfl
@[simp] theorem onSw_tca (k : Sweep → Sweep) : (s.onSw k).tca = s.tca := rfl
@[simp] theorem onSw_tcb (k : Sweep → Sweep) : (s.onSw k).tcb = s.tcb := rfl
@[simp] theorem onSw_free (k : Sweep → Sweep) : (s.onSw k).free = s.free := rfl
@[simp] theorem onSw_pending (k : Sweep → Sweep) : (s.onSw k).pending = s.pending := rfl
@[simp] theorem onSeq_clk (k : Seqr → Seqr) : (s.onSeq k).clk = s.clk := rfl
@[simp] theorem onSeq_sys (k : Seqr → Seqr) : (s.onSeq k).sys = s.sys := rfl
@[simp] theorem onSeq_qs (k : Seqr → Seqr) : (s.onSeq k).qs = s.qs := rfl
@[simp] theorem onSeq_bus (k : Seqr → Seqr) : (s.onSeq k).bus = s.bus := rfl
@[simp] theorem onSeq_grd (k : Seqr → Seqr) : (s.onSeq k).grd = s.grd := rfl
@[simp] theorem onSeq_fab (k : Seqr → Seqr) : (s.onSeq k).fab = s.fab := rfl
@[simp] theorem onSeq_cc (k : Seqr → Seqr) : (s.onSeq k).cc = s.cc := rfl
@[simp] theorem onSeq_pp (k : Seqr → Seqr) : (s.onSeq k).pp = s.pp := rfl
@[simp] theorem onSeq_chg (k : Seqr → Seqr) : (s.onSeq k).chg = s.chg := rfl
@[simp] theorem onSeq_ms (k : Seqr → Seqr) : (s.onSeq k).ms = s.ms := rfl
@[simp] theorem onSeq_sw (k : Seqr → Seqr) : (s.onSeq k).sw = s.sw := rfl
@[simp] theorem onSeq_seq (k : Seqr → Seqr) : (s.onSeq k).seq = k s.seq := rfl
@[simp] theorem onSeq_flt (k : Seqr → Seqr) : (s.onSeq k).flt = s.flt := rfl
@[simp] theorem onSeq_wd (k : Seqr → Seqr) : (s.onSeq k).wd = s.wd := rfl
@[simp] theorem onSeq_mb (k : Seqr → Seqr) : (s.onSeq k).mb = s.mb := rfl
@[simp] theorem onSeq_stk (k : Seqr → Seqr) : (s.onSeq k).stk = s.stk := rfl
@[simp] theorem onSeq_nvm (k : Seqr → Seqr) : (s.onSeq k).nvm = s.nvm := rfl
@[simp] theorem onSeq_tca (k : Seqr → Seqr) : (s.onSeq k).tca = s.tca := rfl
@[simp] theorem onSeq_tcb (k : Seqr → Seqr) : (s.onSeq k).tcb = s.tcb := rfl
@[simp] theorem onSeq_free (k : Seqr → Seqr) : (s.onSeq k).free = s.free := rfl
@[simp] theorem onSeq_pending (k : Seqr → Seqr) : (s.onSeq k).pending = s.pending := rfl
@[simp] theorem onFlt_clk (k : Faults → Faults) : (s.onFlt k).clk = s.clk := rfl
@[simp] theorem onFlt_sys (k : Faults → Faults) : (s.onFlt k).sys = s.sys := rfl
@[simp] theorem onFlt_qs (k : Faults → Faults) : (s.onFlt k).qs = s.qs := rfl
@[simp] theorem onFlt_bus (k : Faults → Faults) : (s.onFlt k).bus = s.bus := rfl
@[simp] theorem onFlt_grd (k : Faults → Faults) : (s.onFlt k).grd = s.grd := rfl
@[simp] theorem onFlt_fab (k : Faults → Faults) : (s.onFlt k).fab = s.fab := rfl
@[simp] theorem onFlt_cc (k : Faults → Faults) : (s.onFlt k).cc = s.cc := rfl
@[simp] theorem onFlt_pp (k : Faults → Faults) : (s.onFlt k).pp = s.pp := rfl
@[simp] theorem onFlt_chg (k : Faults → Faults) : (s.onFlt k).chg = s.chg := rfl
@[simp] theorem onFlt_ms (k : Faults → Faults) : (s.onFlt k).ms = s.ms := rfl
@[simp] theorem onFlt_sw (k : Faults → Faults) : (s.onFlt k).sw = s.sw := rfl
@[simp] theorem onFlt_seq (k : Faults → Faults) : (s.onFlt k).seq = s.seq := rfl
@[simp] theorem onFlt_flt (k : Faults → Faults) : (s.onFlt k).flt = k s.flt := rfl
@[simp] theorem onFlt_wd (k : Faults → Faults) : (s.onFlt k).wd = s.wd := rfl
@[simp] theorem onFlt_mb (k : Faults → Faults) : (s.onFlt k).mb = s.mb := rfl
@[simp] theorem onFlt_stk (k : Faults → Faults) : (s.onFlt k).stk = s.stk := rfl
@[simp] theorem onFlt_nvm (k : Faults → Faults) : (s.onFlt k).nvm = s.nvm := rfl
@[simp] theorem onFlt_tca (k : Faults → Faults) : (s.onFlt k).tca = s.tca := rfl
@[simp] theorem onFlt_tcb (k : Faults → Faults) : (s.onFlt k).tcb = s.tcb := rfl
@[simp] theorem onFlt_free (k : Faults → Faults) : (s.onFlt k).free = s.free := rfl
@[simp] theorem onFlt_pending (k : Faults → Faults) : (s.onFlt k).pending = s.pending := rfl
@[simp] theorem onWd_clk (k : Wdog → Wdog) : (s.onWd k).clk = s.clk := rfl
@[simp] theorem onWd_sys (k : Wdog → Wdog) : (s.onWd k).sys = s.sys := rfl
@[simp] theorem onWd_qs (k : Wdog → Wdog) : (s.onWd k).qs = s.qs := rfl
@[simp] theorem onWd_bus (k : Wdog → Wdog) : (s.onWd k).bus = s.bus := rfl
@[simp] theorem onWd_grd (k : Wdog → Wdog) : (s.onWd k).grd = s.grd := rfl
@[simp] theorem onWd_fab (k : Wdog → Wdog) : (s.onWd k).fab = s.fab := rfl
@[simp] theorem onWd_cc (k : Wdog → Wdog) : (s.onWd k).cc = s.cc := rfl
@[simp] theorem onWd_pp (k : Wdog → Wdog) : (s.onWd k).pp = s.pp := rfl
@[simp] theorem onWd_chg (k : Wdog → Wdog) : (s.onWd k).chg = s.chg := rfl
@[simp] theorem onWd_ms (k : Wdog → Wdog) : (s.onWd k).ms = s.ms := rfl
@[simp] theorem onWd_sw (k : Wdog → Wdog) : (s.onWd k).sw = s.sw := rfl
@[simp] theorem onWd_seq (k : Wdog → Wdog) : (s.onWd k).seq = s.seq := rfl
@[simp] theorem onWd_flt (k : Wdog → Wdog) : (s.onWd k).flt = s.flt := rfl
@[simp] theorem onWd_wd (k : Wdog → Wdog) : (s.onWd k).wd = k s.wd := rfl
@[simp] theorem onWd_mb (k : Wdog → Wdog) : (s.onWd k).mb = s.mb := rfl
@[simp] theorem onWd_stk (k : Wdog → Wdog) : (s.onWd k).stk = s.stk := rfl
@[simp] theorem onWd_nvm (k : Wdog → Wdog) : (s.onWd k).nvm = s.nvm := rfl
@[simp] theorem onWd_tca (k : Wdog → Wdog) : (s.onWd k).tca = s.tca := rfl
@[simp] theorem onWd_tcb (k : Wdog → Wdog) : (s.onWd k).tcb = s.tcb := rfl
@[simp] theorem onWd_free (k : Wdog → Wdog) : (s.onWd k).free = s.free := rfl
@[simp] theorem onWd_pending (k : Wdog → Wdog) : (s.onWd k).pending = s.pending := rfl
@[simp] theorem onMb_clk (k : Mail → Mail) : (s.onMb k).clk = s.clk := rfl
@[simp] theorem onMb_sys (k : Mail → Mail) : (s.onMb k).sys = s.sys := rfl
@[simp] theorem onMb_qs (k : Mail → Mail) : (s.onMb k).qs = s.qs := rfl
@[simp] theorem onMb_bus (k : Mail → Mail) : (s.onMb k).bus = s.bus := rfl
@[simp] theorem onMb_grd (k : Mail → Mail) : (s.onMb k).grd = s.grd := rfl
@[simp] theorem onMb_fab (k : Mail → Mail) : (s.onMb k).fab = s.fab := rfl
@[simp] theorem onMb_cc (k : Mail → Mail) : (s.onMb k).cc = s.cc := rfl
@[simp] theorem onMb_pp (k : Mail → Mail) : (s.onMb k).pp = s.pp := rfl
@[simp] theorem onMb_chg (k : Mail → Mail) : (s.onMb k).chg = s.chg := rfl
@[simp] theorem onMb_ms (k : Mail → Mail) : (s.onMb k).ms = s.ms := rfl
@[simp] theorem onMb_sw (k : Mail → Mail) : (s.onMb k).sw = s.sw := rfl
@[simp] theorem onMb_seq (k : Mail → Mail) : (s.onMb k).seq = s.seq := rfl
@[simp] theorem onMb_flt (k : Mail → Mail) : (s.onMb k).flt = s.flt := rfl
@[simp] theorem onMb_wd (k : Mail → Mail) : (s.onMb k).wd = s.wd := rfl
@[simp] theorem onMb_mb (k : Mail → Mail) : (s.onMb k).mb = k s.mb := rfl
@[simp] theorem onMb_stk (k : Mail → Mail) : (s.onMb k).stk = s.stk := rfl
@[simp] theorem onMb_nvm (k : Mail → Mail) : (s.onMb k).nvm = s.nvm := rfl
@[simp] theorem onMb_tca (k : Mail → Mail) : (s.onMb k).tca = s.tca := rfl
@[simp] theorem onMb_tcb (k : Mail → Mail) : (s.onMb k).tcb = s.tcb := rfl
@[simp] theorem onMb_free (k : Mail → Mail) : (s.onMb k).free = s.free := rfl
@[simp] theorem onMb_pending (k : Mail → Mail) : (s.onMb k).pending = s.pending := rfl
@[simp] theorem onStk_clk (k : Stack → Stack) : (s.onStk k).clk = s.clk := rfl
@[simp] theorem onStk_sys (k : Stack → Stack) : (s.onStk k).sys = s.sys := rfl
@[simp] theorem onStk_qs (k : Stack → Stack) : (s.onStk k).qs = s.qs := rfl
@[simp] theorem onStk_bus (k : Stack → Stack) : (s.onStk k).bus = s.bus := rfl
@[simp] theorem onStk_grd (k : Stack → Stack) : (s.onStk k).grd = s.grd := rfl
@[simp] theorem onStk_fab (k : Stack → Stack) : (s.onStk k).fab = s.fab := rfl
@[simp] theorem onStk_cc (k : Stack → Stack) : (s.onStk k).cc = s.cc := rfl
@[simp] theorem onStk_pp (k : Stack → Stack) : (s.onStk k).pp = s.pp := rfl
@[simp] theorem onStk_chg (k : Stack → Stack) : (s.onStk k).chg = s.chg := rfl
@[simp] theorem onStk_ms (k : Stack → Stack) : (s.onStk k).ms = s.ms := rfl
@[simp] theorem onStk_sw (k : Stack → Stack) : (s.onStk k).sw = s.sw := rfl
@[simp] theorem onStk_seq (k : Stack → Stack) : (s.onStk k).seq = s.seq := rfl
@[simp] theorem onStk_flt (k : Stack → Stack) : (s.onStk k).flt = s.flt := rfl
@[simp] theorem onStk_wd (k : Stack → Stack) : (s.onStk k).wd = s.wd := rfl
@[simp] theorem onStk_mb (k : Stack → Stack) : (s.onStk k).mb = s.mb := rfl
@[simp] theorem onStk_stk (k : Stack → Stack) : (s.onStk k).stk = k s.stk := rfl
@[simp] theorem onStk_nvm (k : Stack → Stack) : (s.onStk k).nvm = s.nvm := rfl
@[simp] theorem onStk_tca (k : Stack → Stack) : (s.onStk k).tca = s.tca := rfl
@[simp] theorem onStk_tcb (k : Stack → Stack) : (s.onStk k).tcb = s.tcb := rfl
@[simp] theorem onStk_free (k : Stack → Stack) : (s.onStk k).free = s.free := rfl
@[simp] theorem onStk_pending (k : Stack → Stack) : (s.onStk k).pending = s.pending := rfl
@[simp] theorem onNvm_clk (k : NvmS → NvmS) : (s.onNvm k).clk = s.clk := rfl
@[simp] theorem onNvm_sys (k : NvmS → NvmS) : (s.onNvm k).sys = s.sys := rfl
@[simp] theorem onNvm_qs (k : NvmS → NvmS) : (s.onNvm k).qs = s.qs := rfl
@[simp] theorem onNvm_bus (k : NvmS → NvmS) : (s.onNvm k).bus = s.bus := rfl
@[simp] theorem onNvm_grd (k : NvmS → NvmS) : (s.onNvm k).grd = s.grd := rfl
@[simp] theorem onNvm_fab (k : NvmS → NvmS) : (s.onNvm k).fab = s.fab := rfl
@[simp] theorem onNvm_cc (k : NvmS → NvmS) : (s.onNvm k).cc = s.cc := rfl
@[simp] theorem onNvm_pp (k : NvmS → NvmS) : (s.onNvm k).pp = s.pp := rfl
@[simp] theorem onNvm_chg (k : NvmS → NvmS) : (s.onNvm k).chg = s.chg := rfl
@[simp] theorem onNvm_ms (k : NvmS → NvmS) : (s.onNvm k).ms = s.ms := rfl
@[simp] theorem onNvm_sw (k : NvmS → NvmS) : (s.onNvm k).sw = s.sw := rfl
@[simp] theorem onNvm_seq (k : NvmS → NvmS) : (s.onNvm k).seq = s.seq := rfl
@[simp] theorem onNvm_flt (k : NvmS → NvmS) : (s.onNvm k).flt = s.flt := rfl
@[simp] theorem onNvm_wd (k : NvmS → NvmS) : (s.onNvm k).wd = s.wd := rfl
@[simp] theorem onNvm_mb (k : NvmS → NvmS) : (s.onNvm k).mb = s.mb := rfl
@[simp] theorem onNvm_stk (k : NvmS → NvmS) : (s.onNvm k).stk = s.stk := rfl
@[simp] theorem onNvm_nvm (k : NvmS → NvmS) : (s.onNvm k).nvm = k s.nvm := rfl
@[simp] theorem onNvm_tca (k : NvmS → NvmS) : (s.onNvm k).tca = s.tca := rfl
@[simp] theorem onNvm_tcb (k : NvmS → NvmS) : (s.onNvm k).tcb = s.tcb := rfl
@[simp] theorem onNvm_free (k : NvmS → NvmS) : (s.onNvm k).free = s.free := rfl
@[simp] theorem onNvm_pending (k : NvmS → NvmS) : (s.onNvm k).pending = s.pending := rfl
@[simp] theorem onTca_clk (k : TcPort → TcPort) : (s.onTca k).clk = s.clk := rfl
@[simp] theorem onTca_sys (k : TcPort → TcPort) : (s.onTca k).sys = s.sys := rfl
@[simp] theorem onTca_qs (k : TcPort → TcPort) : (s.onTca k).qs = s.qs := rfl
@[simp] theorem onTca_bus (k : TcPort → TcPort) : (s.onTca k).bus = s.bus := rfl
@[simp] theorem onTca_grd (k : TcPort → TcPort) : (s.onTca k).grd = s.grd := rfl
@[simp] theorem onTca_fab (k : TcPort → TcPort) : (s.onTca k).fab = s.fab := rfl
@[simp] theorem onTca_cc (k : TcPort → TcPort) : (s.onTca k).cc = s.cc := rfl
@[simp] theorem onTca_pp (k : TcPort → TcPort) : (s.onTca k).pp = s.pp := rfl
@[simp] theorem onTca_chg (k : TcPort → TcPort) : (s.onTca k).chg = s.chg := rfl
@[simp] theorem onTca_ms (k : TcPort → TcPort) : (s.onTca k).ms = s.ms := rfl
@[simp] theorem onTca_sw (k : TcPort → TcPort) : (s.onTca k).sw = s.sw := rfl
@[simp] theorem onTca_seq (k : TcPort → TcPort) : (s.onTca k).seq = s.seq := rfl
@[simp] theorem onTca_flt (k : TcPort → TcPort) : (s.onTca k).flt = s.flt := rfl
@[simp] theorem onTca_wd (k : TcPort → TcPort) : (s.onTca k).wd = s.wd := rfl
@[simp] theorem onTca_mb (k : TcPort → TcPort) : (s.onTca k).mb = s.mb := rfl
@[simp] theorem onTca_stk (k : TcPort → TcPort) : (s.onTca k).stk = s.stk := rfl
@[simp] theorem onTca_nvm (k : TcPort → TcPort) : (s.onTca k).nvm = s.nvm := rfl
@[simp] theorem onTca_tca (k : TcPort → TcPort) : (s.onTca k).tca = k s.tca := rfl
@[simp] theorem onTca_tcb (k : TcPort → TcPort) : (s.onTca k).tcb = s.tcb := rfl
@[simp] theorem onTca_free (k : TcPort → TcPort) : (s.onTca k).free = s.free := rfl
@[simp] theorem onTca_pending (k : TcPort → TcPort) : (s.onTca k).pending = s.pending := rfl
@[simp] theorem onTcb_clk (k : TcPort → TcPort) : (s.onTcb k).clk = s.clk := rfl
@[simp] theorem onTcb_sys (k : TcPort → TcPort) : (s.onTcb k).sys = s.sys := rfl
@[simp] theorem onTcb_qs (k : TcPort → TcPort) : (s.onTcb k).qs = s.qs := rfl
@[simp] theorem onTcb_bus (k : TcPort → TcPort) : (s.onTcb k).bus = s.bus := rfl
@[simp] theorem onTcb_grd (k : TcPort → TcPort) : (s.onTcb k).grd = s.grd := rfl
@[simp] theorem onTcb_fab (k : TcPort → TcPort) : (s.onTcb k).fab = s.fab := rfl
@[simp] theorem onTcb_cc (k : TcPort → TcPort) : (s.onTcb k).cc = s.cc := rfl
@[simp] theorem onTcb_pp (k : TcPort → TcPort) : (s.onTcb k).pp = s.pp := rfl
@[simp] theorem onTcb_chg (k : TcPort → TcPort) : (s.onTcb k).chg = s.chg := rfl
@[simp] theorem onTcb_ms (k : TcPort → TcPort) : (s.onTcb k).ms = s.ms := rfl
@[simp] theorem onTcb_sw (k : TcPort → TcPort) : (s.onTcb k).sw = s.sw := rfl
@[simp] theorem onTcb_seq (k : TcPort → TcPort) : (s.onTcb k).seq = s.seq := rfl
@[simp] theorem onTcb_flt (k : TcPort → TcPort) : (s.onTcb k).flt = s.flt := rfl
@[simp] theorem onTcb_wd (k : TcPort → TcPort) : (s.onTcb k).wd = s.wd := rfl
@[simp] theorem onTcb_mb (k : TcPort → TcPort) : (s.onTcb k).mb = s.mb := rfl
@[simp] theorem onTcb_stk (k : TcPort → TcPort) : (s.onTcb k).stk = s.stk := rfl
@[simp] theorem onTcb_nvm (k : TcPort → TcPort) : (s.onTcb k).nvm = s.nvm := rfl
@[simp] theorem onTcb_tca (k : TcPort → TcPort) : (s.onTcb k).tca = s.tca := rfl
@[simp] theorem onTcb_tcb (k : TcPort → TcPort) : (s.onTcb k).tcb = k s.tcb := rfl
@[simp] theorem onTcb_free (k : TcPort → TcPort) : (s.onTcb k).free = s.free := rfl
@[simp] theorem onTcb_pending (k : TcPort → TcPort) : (s.onTcb k).pending = s.pending := rfl

end Sys2Proof.Machine
end

