-- ==== Sys2Proof/Laws/Answers.lean ====
section
/-! SUPPORT. What the shared operations of a command's answer do, once: a checker's report, an accepted guarded pair, a mailbox command
that passes its checks, and a command of a live Type-C port. -/
namespace Sys2Proof.Machine

set_option Elab.async false
open Sys2Proof.Safety

/-- A report whose cause is not of class 4 forces nothing safe (R317). -/
theorem checkerFail_soft {s : State} {src d : Nat} {cause : BitVec 16} {inj : Bool} {item : Option (Fin 14)} {member : Option (Fin 32)}
    (hc : causeClass cause ≠ 4) : s.checkerFail src cause d inj item member = s.failNote src cause d inj item member := by
  unfold State.checkerFail
  rw [if_neg (by simp [hc])]

/-- A report that folds into nothing awaits its second evaluation (R317). -/
theorem failNote_fresh {s : State} {src d : Nat} {cause : BitVec 16} {item : Option (Fin 14)} {member : Option (Fin 32)}
    (h : fresh s cause) : s.failNote src cause d false item member = awaits s src cause d item member := by
  unfold State.failNote
  rw [h.1, h.2]
  rfl

/-- A report that folds into nothing and is not of class 4 awaits its second evaluation (R317). -/
theorem checkerFail_fresh {s : State} {src d : Nat} {cause : BitVec 16} {item : Option (Fin 14)} {member : Option (Fin 32)}
    (h : fresh s cause) (hc : causeClass cause ≠ 4) :
    s.checkerFail src cause d false item member = awaits s src cause d item member := by
  rw [checkerFail_soft hc, failNote_fresh h]

/-- An accepted pair hands its value on (R387). -/
theorem guardPair_ok {s : State} {bp : BusPort} {g : Nat} {c v : Byte} {single : Bool} {f : Byte → State → State}
    (h : pairOk s bp g c single v) : s.guardPair bp g c single f = f v (pairDone s bp g) := by
  obtain ⟨h1, rfl, rfl, k, hp, hk⟩ := h
  have hp' : ((s.onPort bp fun p => { p with ptr := g + 0x81 }).port bp).pend = some { addr := g, val := v, since := k } := by
    cases bp <;> exact hp
  have hn : (s.onPort bp fun p => { p with ptr := g + 0x81 }).now = s.now := by cases bp <;> rfl
  unfold State.guardPair
  simp [h1, hp', hn, hk, pairDone]

/-- A mailbox command without a guard that passes its checks is carried out (R404). -/
theorem carry_ready {s : State} {n : Fin 4} {op k : Nat} {len : Nat → Bool} {range : Bool} {f : State → State}
    (h : ready s n op k) (hl : len k = true) (hr : range = true) : s.carry n.val op len none range f = f (begun s n) := by
  unfold State.carry
  simp [h.1, h.2, hl, hr, begun]

/-- A mailbox command whose guard stands at `o` (R404). -/
theorem carry_guarded {s : State} {n : Fin 4} {op k o : Nat} {len : Nat → Bool} {range : Bool} {f : State → State}
    (h : ready s n op k) (hl : len k = true) (hg : s.fld n.val o 2 = inv16 op) (hr : range = true) :
    s.carry n.val op len (some o) range f = f (begun s n) := by
  unfold State.carry
  simp [h.1, h.2, hl, hr, begun, hg]

/-- A query answers OK with its data. -/
theorem query_ready {s : State} {n : Fin 4} {op : Nat} {data : State → List Byte} (h : ready s n op 0) :
    s.query n.val op data = (begun s n).finish n.val St.ok (data (begun s n)) := carry_ready h rfl rfl

/-- A command of a port that task Cowslip serves. -/
theorem onPd_live {s : State} {t : TcId} {f : State → State} (h : s.tcLive t = true) :
    s.onPd t f = .next ((f (s.txClear t)).pathNote s.pathByte) := by simp [State.onPd, settle, State.when, h]

end Sys2Proof.Machine
end

