-- ==== Sys2Proof/Laws/Only.lean ====
section
/-! SUPPORT. How frames compose: what a chain of updates, a test and a fold leave as they were (`changesOnly` of Safety.lean). -/
namespace Sys2Proof.Safety

set_option Elab.async false
open Sys2Proof.Machine

theorem changesOnly_refl {l : List Part} {s : State} : changesOnly l s s := by simp [changesOnly]

theorem part_after {α : Type} {p : Part} {l l' : List Part} {a b c : α} (hl : l' ⊆ l) (h : p ∈ l ∨ b = a) (h' : p ∈ l' ∨ c = b) :
    p ∈ l ∨ c = a := by
  rcases h with h | rfl
  · exact .inl h
  · rcases h' with h | rfl
    · exact .inl (hl h)
    · exact .inr rfl

theorem changesOnly_trans {l l' : List Part} {s t u : State} (h : changesOnly l s t) (h' : changesOnly l' t u) (hl : l' ⊆ l) :
    changesOnly l s u :=
  ⟨h'.1.trans h.1, part_after hl h.2.1 h'.2.1, part_after hl h.2.2.1 h'.2.2.1, part_after hl h.2.2.2.1 h'.2.2.2.1, 
    part_after hl h.2.2.2.2.1 h'.2.2.2.2.1, part_after hl h.2.2.2.2.2.1 h'.2.2.2.2.2.1, part_after hl h.2.2.2.2.2.2.1 h'.2.2.2.2.2.2.1, 
    part_after hl h.2.2.2.2.2.2.2.1 h'.2.2.2.2.2.2.2.1, part_after hl h.2.2.2.2.2.2.2.2.1 h'.2.2.2.2.2.2.2.2.1, 
    part_after hl h.2.2.2.2.2.2.2.2.2.1 h'.2.2.2.2.2.2.2.2.2.1, part_after hl h.2.2.2.2.2.2.2.2.2.2.1 h'.2.2.2.2.2.2.2.2.2.2.1, 
    part_after hl h.2.2.2.2.2.2.2.2.2.2.2.1 h'.2.2.2.2.2.2.2.2.2.2.2.1, part_after hl h.2.2.2.2.2.2.2.2.2.2.2.2.1 h'.2.2.2.2.2.2.2.2.2.2.2.2.1, 
    part_after hl h.2.2.2.2.2.2.2.2.2.2.2.2.2.1 h'.2.2.2.2.2.2.2.2.2.2.2.2.2.1, part_after hl h.2.2.2.2.2.2.2.2.2.2.2.2.2.2.1 h'.2.2.2.2.2.2.2.2.2.2.2.2.2.2.1, 
    part_after hl h.2.2.2.2.2.2.2.2.2.2.2.2.2.2.2.1 h'.2.2.2.2.2.2.2.2.2.2.2.2.2.2.2.1, part_after hl h.2.2.2.2.2.2.2.2.2.2.2.2.2.2.2.2.1 h'.2.2.2.2.2.2.2.2.2.2.2.2.2.2.2.2.1, 
    part_after hl h.2.2.2.2.2.2.2.2.2.2.2.2.2.2.2.2.2.1 h'.2.2.2.2.2.2.2.2.2.2.2.2.2.2.2.2.2.1, 
    part_after hl h.2.2.2.2.2.2.2.2.2.2.2.2.2.2.2.2.2.2.1 h'.2.2.2.2.2.2.2.2.2.2.2.2.2.2.2.2.2.2.1, 
    part_after hl h.2.2.2.2.2.2.2.2.2.2.2.2.2.2.2.2.2.2.2.1 h'.2.2.2.2.2.2.2.2.2.2.2.2.2.2.2.2.2.2.2.1, 
    part_after hl h.2.2.2.2.2.2.2.2.2.2.2.2.2.2.2.2.2.2.2.2 h'.2.2.2.2.2.2.2.2.2.2.2.2.2.2.2.2.2.2.2.2⟩

/-- An update of a part behind others. -/
theorem changesOnly.after {l l' : List Part} {s t u : State} (h' : changesOnly l' t u) (h : changesOnly l s t)
    (hl : decide (l' ⊆ l) = true := by decide) : changesOnly l s u := changesOnly_trans h h' (of_decide_eq_true hl)

end Sys2Proof.Safety

namespace Sys2Proof.Machine
open Sys2Proof.Safety

theorem onClk_only {s : State} {f} : changesOnly [.clk] s (s.onClk f) := by simp [changesOnly, State.onClk]
theorem onSys_only {s : State} {f} : changesOnly [.sys] s (s.onSys f) := by simp [changesOnly, State.onSys]
theorem onQs_only {s : State} {f} : changesOnly [.qs] s (s.onQs f) := by simp [changesOnly, State.onQs]
theorem onBus_only {s : State} {f} : changesOnly [.bus] s (s.onBus f) := by simp [changesOnly, State.onBus]
theorem onGrd_only {s : State} {f} : changesOnly [.grd] s (s.onGrd f) := by simp [changesOnly, State.onGrd]
theorem onFab_only {s : State} {f} : changesOnly [.fab] s (s.onFab f) := by simp [changesOnly, State.onFab]
theorem onCc_only {s : State} {f} : changesOnly [.cc] s (s.onCc f) := by simp [changesOnly, State.onCc]
theorem onPp_only {s : State} {f} : changesOnly [.pp] s (s.onPp f) := by simp [changesOnly, State.onPp]
theorem onChg_only {s : State} {f} : changesOnly [.chg] s (s.onChg f) := by simp [changesOnly, State.onChg]
theorem onMs_only {s : State} {f} : changesOnly [.ms] s (s.onMs f) := by simp [changesOnly, State.onMs]
theorem onSw_only {s : State} {f} : changesOnly [.sw] s (s.onSw f) := by simp [changesOnly, State.onSw]
theorem onSeq_only {s : State} {f} : changesOnly [.seq] s (s.onSeq f) := by simp [changesOnly, State.onSeq]
theorem onFlt_only {s : State} {f} : changesOnly [.flt] s (s.onFlt f) := by simp [changesOnly, State.onFlt]
theorem onWd_only {s : State} {f} : changesOnly [.wd] s (s.onWd f) := by simp [changesOnly, State.onWd]
theorem onMb_only {s : State} {f} : changesOnly [.mb] s (s.onMb f) := by simp [changesOnly, State.onMb]
theorem onStk_only {s : State} {f} : changesOnly [.stk] s (s.onStk f) := by simp [changesOnly, State.onStk]
theorem onNvm_only {s : State} {f} : changesOnly [.nvm] s (s.onNvm f) := by simp [changesOnly, State.onNvm]
theorem onTca_only {s : State} {f} : changesOnly [.tca] s (s.onTca f) := by simp [changesOnly, State.onTca]
theorem onTcb_only {s : State} {f} : changesOnly [.tcb] s (s.onTcb f) := by simp [changesOnly, State.onTcb]
theorem useFree_only {s : State} {k} : changesOnly [.free] s (s.useFree k) := by simp [changesOnly, State.useFree]

theorem when_only {l : List Part} {s b : State} {c f} (h : changesOnly l s b) (hf : ∀ u, changesOnly l u (f u)) : changesOnly l s (b.when c f) := by
  unfold State.when; split
  · exact changesOnly_trans h (hf _) (List.Subset.refl _)
  · exact h

theorem ite_only {l : List Part} {s a b : State} {c : Prop} [Decidable c] (ha : c → changesOnly l s a) (hb : ¬c → changesOnly l s b) :
    changesOnly l s (if c then a else b) := by
  split
  · exact ha ‹_›
  · exact hb ‹_›

theorem foldl_only {α : Type} {l : List Part} {s b : State} {xs : List α} {g : State → α → State} (h : changesOnly l s b)
    (hg : ∀ t x, changesOnly l t (g t x)) : changesOnly l s (xs.foldl g b) := by
  induction xs generalizing b with
  | nil => exact h
  | cons a r ih => exact ih (changesOnly_trans h (hg _ _) (List.Subset.refl _))

end Sys2Proof.Machine
end

