-- ==== Sys2Proof/Laws/OnlyOps.lean ====
section
/-! SUPPORT. Which parts of the state each operation of Machine/Ops.lean may change. -/
namespace Sys2Proof.Machine

set_option Elab.async false
open Sys2Proof.Safety

theorem State.countDrop_only {s : State} {k : Nat} : changesOnly [.qs] s (State.countDrop s k).1 := by
  unfold State.countDrop; dsimp only; split; split; dsimp only; refine onQs_only.after ?_; refine onQs_only.after ?_
  exact changesOnly_refl; dsimp only; refine onQs_only.after ?_; exact changesOnly_refl; dsimp only; exact changesOnly_refl

theorem State.pushEvent_only {s : State} {e : EventRec} : changesOnly [.qs] s (State.pushEvent s e) := by
  unfold State.pushEvent; dsimp only; refine onQs_only.after ?_; exact changesOnly_refl

theorem State.drop_only {s : State} {k : Nat} : changesOnly [.qs] s (State.drop s k) := by
  have h : changesOnly [.qs] s (s.countDrop k).1 := State.countDrop_only
  unfold State.drop
  generalize s.countDrop k = p at h ⊢
  obtain ⟨a, b⟩ := p
  dsimp only
  split
  · exact h
  · split
    · exact State.pushEvent_only.after h
    · exact State.countDrop_only.after h

theorem State.raise_only {s : State} {src : Nat} {code : BitVec 16} {detail : List Byte} {cls : Nat} :
    changesOnly [.qs] s (State.raise s src code detail cls) := by
  unfold State.raise; refine ite_only (fun _ => ?_) (fun _ => ?_); refine State.pushEvent_only.after ?_; exact changesOnly_refl
  refine State.drop_only.after ?_; exact changesOnly_refl

theorem State.counterSat_only {s : State} {code : Nat} {more : List Byte} : changesOnly [.qs] s (State.counterSat s code more) := by
  unfold State.counterSat; refine State.raise_only.after ?_; exact changesOnly_refl

theorem State.setReg_only {s : State} {a : Nat} {v : Byte} : changesOnly [.bus] s (State.setReg s a v) := by
  unfold State.setReg; refine onBus_only.after ?_; exact changesOnly_refl

theorem State.updShow_only {s : State} : changesOnly [.bus] s (State.updShow s) := by
  unfold State.updShow; refine onBus_only.after ?_; exact changesOnly_refl

theorem State.raiseRec_only {s : State} {e : EventRec} : changesOnly [.qs] s (State.raiseRec s e) := by
  unfold State.raiseRec; refine ite_only (fun _ => ?_) (fun _ => ?_); refine State.pushEvent_only.after ?_
  exact changesOnly_refl; refine State.drop_only.after ?_; exact changesOnly_refl

theorem State.dropsClear_only {s : State} : changesOnly [.qs] s (State.dropsClear s) := by
  unfold State.dropsClear; refine onQs_only.after ?_; exact changesOnly_refl

theorem State.clampPair_only {s : State} {a lo hi : Nat} : changesOnly [.bus] s (State.clampPair s a lo hi) := by
  unfold State.clampPair; dsimp only; refine State.setReg_only.after ?_; refine State.setReg_only.after ?_
  exact changesOnly_refl

theorem State.clampReg_only {s : State} {a lo hi : Nat} : changesOnly [.bus] s (State.clampReg s a lo hi) := by
  unfold State.clampReg; refine State.setReg_only.after ?_; exact changesOnly_refl

theorem State.takeShadows_only {s : State} {k : Nat} {take : Nat → Bool} : changesOnly [.bus] s (State.takeShadows s k take) := by
  unfold State.takeShadows; dsimp only; refine onBus_only.after ?_; exact changesOnly_refl

end Sys2Proof.Machine
end

