-- ==== Sys2Proof/Laws/OnlyFabric.lean ====
section
/-! SUPPORT. Which parts of the state each operation of Machine/Fabric.lean may change. -/
namespace Sys2Proof.Machine

set_option Elab.async false
open Sys2Proof.Safety

theorem serveDom_only {z0 : Nat} {z1 : State} : changesOnly [.sys] z1 (serveDom  z0 z1) := by
  unfold serveDom; split; exact changesOnly_refl; split; dsimp only; refine ite_only (fun _ => ?_) (fun _ => ?_)
  refine serveDom_only.after ?_; refine onSys_only.after ?_; exact changesOnly_refl; refine onSys_only.after ?_
  refine onSys_only.after ?_; exact changesOnly_refl; exact changesOnly_refl

theorem State.domRequest_only {s : State} {r : DomReq} : changesOnly [.sys] s (State.domRequest s r) := by
  unfold State.domRequest; dsimp only; refine serveDom_only.after ?_; refine onSys_only.after ?_; exact changesOnly_refl

theorem State.domOn_only {s : State} {d : Nat} : changesOnly [.sys] s (State.domOn s d) := by
  unfold State.domOn; refine when_only ?_ (fun _ => ?_); exact changesOnly_refl; refine State.domRequest_only.after ?_
  exact changesOnly_refl

theorem State.setDom_only {s : State} {d : Nat} {v : Bool} : changesOnly [.sys] s (State.setDom s d v) := by
  unfold State.setDom; refine onSys_only.after ?_; exact changesOnly_refl

theorem State.bringUp_only {s : State} {m : BitVec 14} : changesOnly [.sys] s (State.bringUp s m) := by
  unfold State.bringUp; refine foldl_only ?_ (fun _ _ => ?_); exact changesOnly_refl
  refine ite_only (fun _ => ?_) (fun _ => ?_); exact changesOnly_refl; refine ite_only (fun _ => ?_) (fun _ => ?_)
  refine State.domOn_only.after ?_; exact changesOnly_refl; refine State.setDom_only.after ?_; exact changesOnly_refl

theorem State.setVbus_only {s : State} {p : PortId} {v : Bool} : changesOnly [.pp] s (State.setVbus s p v) := by
  unfold State.setVbus; split; refine onPp_only.after ?_; exact changesOnly_refl; refine onPp_only.after ?_
  exact changesOnly_refl; exact changesOnly_refl

theorem State.sweepDisturb_only {s : State} : changesOnly [.sw] s (State.sweepDisturb s) := by
  unfold State.sweepDisturb; refine ite_only (fun _ => ?_) (fun _ => ?_); refine onSw_only.after ?_; exact changesOnly_refl
  exact changesOnly_refl

theorem State.place_only {s : State} {i : Nat} {fr dst : Option PortId} {why : Nat} :
    changesOnly [.qs, .sw] s (State.place s i fr dst why) := by
  unfold State.place; dsimp only; refine State.raise_only.after ?_; refine when_only ?_ (fun _ => ?_); exact changesOnly_refl
  refine State.sweepDisturb_only.after ?_; exact changesOnly_refl

theorem State.placeChanges_only {s0 s : State} {why : Nat} : changesOnly [.qs, .sw] s (State.placeChanges s0 s why) := by
  unfold State.placeChanges; refine foldl_only ?_ (fun _ _ => ?_); exact changesOnly_refl; dsimp only
  refine ite_only (fun _ => ?_) (fun _ => ?_); exact changesOnly_refl; refine State.place_only.after ?_; exact changesOnly_refl

theorem State.seeNodes_only {s : State} {n : Nodes} : changesOnly [.sys, .pp, .nvm] s (State.seeNodes s n) := by
  unfold State.seeNodes; dsimp only; refine onNvm_only.after ?_; refine onSys_only.after ?_; refine onPp_only.after ?_
  exact changesOnly_refl

theorem State.onPhases_only {s : State} {f : Phase → Phase} : changesOnly [.fab] s (State.onPhases s f) := by
  unfold State.onPhases; refine onFab_only.after ?_; exact changesOnly_refl

theorem State.compIdle_only {s : State} {p : PortId} : changesOnly [.cc] s (State.compIdle s p) := by
  unfold State.compIdle; refine onCc_only.after ?_; exact changesOnly_refl

theorem State.onPhase_only {s : State} {i : Nat} {f : Phase → Phase} : changesOnly [.fab] s (State.onPhase s i f) := by
  unfold State.onPhase; refine onFab_only.after ?_; exact changesOnly_refl

theorem State.drainOff_only {s : State} {i : Nat} {why : Nat} : changesOnly [.qs, .fab, .sw] s (State.drainOff s i why) := by
  unfold State.drainOff; dsimp only; refine State.place_only.after ?_; refine State.onPhase_only.after ?_
  exact changesOnly_refl

theorem State.leavePath_only {s : State} {p : PortId} {why : Nat} {i : Nat} :
    changesOnly [.qs, .fab, .sw] s (State.leavePath s p why i) := by
  unfold State.leavePath; dsimp only; split; refine ite_only (fun _ => ?_) (fun _ => ?_); refine State.drainOff_only.after ?_
  exact changesOnly_refl; exact changesOnly_refl; refine ite_only (fun _ => ?_) (fun _ => ?_); refine State.place_only.after ?_
  refine State.onPhase_only.after ?_; exact changesOnly_refl; exact changesOnly_refl
  refine ite_only (fun _ => ?_) (fun _ => ?_); refine State.place_only.after ?_; refine State.onPhase_only.after ?_
  exact changesOnly_refl; exact changesOnly_refl; refine ite_only (fun _ => ?_) (fun _ => ?_); refine State.place_only.after ?_
  refine State.onPhase_only.after ?_; exact changesOnly_refl; exact changesOnly_refl
  refine ite_only (fun _ => ?_) (fun _ => ?_); refine State.place_only.after ?_; refine State.onPhase_only.after ?_
  exact changesOnly_refl; exact changesOnly_refl; exact changesOnly_refl; exact changesOnly_refl

theorem State.onPath_only {s : State} {p : PortId} {f : PathSt → PathSt} : changesOnly [.fab] s (State.onPath s p f) := by
  unfold State.onPath; refine onFab_only.after ?_; exact changesOnly_refl

theorem State.vbusRest_only {s : State} {p : PortId} : changesOnly [.pp] s (State.vbusRest s p) := by
  unfold State.vbusRest; refine when_only ?_ (fun _ => ?_); exact changesOnly_refl; refine State.setVbus_only.after ?_
  exact changesOnly_refl

theorem State.endPath_only {s : State} {p : PortId} {why : Nat} :
    changesOnly [.sys, .qs, .fab, .cc, .pp, .sw] s (State.endPath s p why) := by
  unfold State.endPath; refine ite_only (fun _ => ?_) (fun _ => ?_); dsimp only; refine State.vbusRest_only.after ?_
  refine when_only ?_ (fun _ => ?_); refine State.compIdle_only.after ?_; refine State.onPath_only.after ?_
  refine foldl_only ?_ (fun _ _ => ?_); exact changesOnly_refl; refine State.leavePath_only.after ?_; exact changesOnly_refl
  refine onSys_only.after ?_; exact changesOnly_refl; exact changesOnly_refl

theorem State.formPath_only {s : State} {p : PortId} {d : PathDir} : changesOnly [.fab, .cc, .pp] s (State.formPath s p d) := by
  unfold State.formPath; refine State.setVbus_only.after ?_; refine State.compIdle_only.after ?_
  refine State.onPath_only.after ?_; exact changesOnly_refl

theorem State.gatesOff_only {s : State} : changesOnly [.qs, .fab, .sw] s (State.gatesOff s) := by
  unfold State.gatesOff; refine foldl_only ?_ (fun _ _ => ?_); exact changesOnly_refl; dsimp only; split; exact changesOnly_refl
  exact changesOnly_refl; refine State.place_only.after ?_; refine State.onPhase_only.after ?_; exact changesOnly_refl

theorem State.pathsOff_only {s : State} : changesOnly [.fab, .cc] s (State.pathsOff s) := by
  unfold State.pathsOff; refine onFab_only.after ?_; refine foldl_only ?_ (fun _ _ => ?_); exact changesOnly_refl
  refine State.compIdle_only.after ?_; exact changesOnly_refl

theorem State.domOff_only {s : State} {d : Nat} : changesOnly [.sys] s (State.domOff s d) := by
  unfold State.domOff; refine when_only ?_ (fun _ => ?_); exact changesOnly_refl; refine State.domRequest_only.after ?_
  exact changesOnly_refl

theorem State.portRest_only {s : State} {p : PortId} : changesOnly [.sys, .pp] s (State.portRest s p) := by
  unfold State.portRest; refine when_only ?_ (fun _ => ?_); exact changesOnly_refl; refine State.domOff_only.after ?_
  refine State.setVbus_only.after ?_; exact changesOnly_refl

theorem State.reAngle_only {s : State} {p : PortId} : changesOnly [.fab] s (State.reAngle s p) := by
  unfold State.reAngle; refine ite_only (fun _ => ?_) (fun _ => ?_); exact changesOnly_refl; dsimp only
  refine onFab_only.after ?_; exact changesOnly_refl

theorem State.placeFree_only {s : State} {i : Nat} {p : PortId} {why : Nat} :
    changesOnly [.qs, .fab, .sw] s (State.placeFree s i p why) := by
  unfold State.placeFree; dsimp only; refine State.place_only.after ?_; refine State.onPhase_only.after ?_
  exact changesOnly_refl

theorem State.handOff_only {s : State} {i : Nat} {p : PortId} {why : Nat} :
    changesOnly [.qs, .fab, .sw] s (State.handOff s i p why) := by
  unfold State.handOff; dsimp only; refine State.place_only.after ?_; refine State.onPhase_only.after ?_; exact changesOnly_refl

theorem State.drainDone_only {s : State} {i : Nat} : changesOnly [.fab] s (State.drainDone s i) := by
  unfold State.drainDone; dsimp only; refine ite_only (fun _ => ?_) (fun _ => ?_); exact changesOnly_refl; split
  refine State.reAngle_only.after ?_; refine ite_only (fun _ => ?_) (fun _ => ?_); split; refine State.onPhase_only.after ?_
  exact changesOnly_refl; refine State.onPhase_only.after ?_; exact changesOnly_refl; refine State.onPhase_only.after ?_
  exact changesOnly_refl; refine ite_only (fun _ => ?_) (fun _ => ?_); split; refine State.onPhase_only.after ?_
  exact changesOnly_refl; refine State.onPhase_only.after ?_; exact changesOnly_refl; refine State.onPhase_only.after ?_
  exact changesOnly_refl

theorem State.groupAngle_only {s : State} {ok : Nat → Bool} : changesOnly [.fab] s (State.groupAngle s ok) := by
  unfold State.groupAngle; dsimp only; refine onFab_only.after ?_; exact changesOnly_refl

theorem State.joinAngle_only {s : State} {p : PortId} {i : Nat} : changesOnly [.fab] s (State.joinAngle s p i) := by
  unfold State.joinAngle; refine State.onPhase_only.after ?_; refine ite_only (fun _ => ?_) (fun _ => ?_)
  refine State.groupAngle_only.after ?_; exact changesOnly_refl; refine State.reAngle_only.after ?_; exact changesOnly_refl

theorem State.selClosed_only {s : State} {i : Nat} : changesOnly [.fab] s (State.selClosed s i) := by
  unfold State.selClosed; split; refine State.onPhase_only.after ?_; exact changesOnly_refl
  refine ite_only (fun _ => ?_) (fun _ => ?_); dsimp only; refine State.joinAngle_only.after ?_
  refine State.onPhase_only.after ?_; exact changesOnly_refl; refine State.onPhase_only.after ?_; exact changesOnly_refl

theorem State.settleDone_only {s : State} {i : Nat} : changesOnly [.sys, .fab, .pp] s (State.settleDone s i) := by
  unfold State.settleDone; refine ite_only (fun _ => ?_) (fun _ => ?_); exact changesOnly_refl; split
  refine State.portRest_only.after ?_; refine State.vbusRest_only.after ?_; refine State.selClosed_only.after ?_
  exact changesOnly_refl; refine State.selClosed_only.after ?_; exact changesOnly_refl

theorem State.startDone_only {s : State} {i : Nat} : changesOnly [.fab] s (State.startDone s i) := by
  unfold State.startDone; refine ite_only (fun _ => ?_) (fun _ => ?_); refine State.onPhase_only.after ?_
  exact changesOnly_refl; exact changesOnly_refl

theorem State.drainFlip_only {s : State} {i : Nat} {why : Nat} : changesOnly [.qs, .fab, .sw] s (State.drainFlip s i why) := by
  unfold State.drainFlip; dsimp only; refine State.place_only.after ?_; refine State.onPhase_only.after ?_
  exact changesOnly_refl

end Sys2Proof.Machine
end

