-- ==== Sys2Proof/Laws/OnlyChargeOps.lean ====
section
/-! SUPPORT. Which parts of the state each operation of Machine/ChargeOps.lean may change. -/
namespace Sys2Proof.Machine

set_option Elab.async false
open Sys2Proof.Safety

theorem State.switchIdle_only {s : State} : changesOnly [.pp] s (State.switchIdle s) := by
  unfold State.switchIdle; refine onPp_only.after ?_; exact changesOnly_refl

theorem State.suspend_only {s : State} {r : Nat} : changesOnly [.qs, .pp, .chg] s (State.suspend s r) := by
  unfold State.suspend; refine ite_only (fun _ => ?_) (fun _ => ?_); exact changesOnly_refl; dsimp only
  refine State.raise_only.after ?_; refine State.switchIdle_only.after ?_; refine onChg_only.after ?_; exact changesOnly_refl

theorem State.chgDone_only {s : State} {reason : Nat} : changesOnly [.qs, .pp, .chg] s (State.chgDone s reason) := by
  unfold State.chgDone; refine State.raise_only.after ?_; refine State.switchIdle_only.after ?_; refine onChg_only.after ?_
  exact changesOnly_refl

theorem State.socSeed_only {s : State} : changesOnly [.ms, .free] s (State.socSeed s) := by
  unfold State.socSeed; dsimp only; refine useFree_only.after ?_; refine onMs_only.after ?_; exact changesOnly_refl

theorem State.chargeStart_only {s : State} {skipDone : Bool} :
    changesOnly [.qs, .pp, .chg, .ms, .sw, .free] s (State.chargeStart s skipDone) := by
  unfold State.chargeStart; dsimp only; split; refine State.suspend_only.after ?_; refine onChg_only.after ?_
  refine onChg_only.after ?_; exact changesOnly_refl; refine foldl_only ?_ (fun _ _ => ?_)
  refine ite_only (fun _ => ?_) (fun _ => ?_); refine State.chgDone_only.after ?_; refine when_only ?_ (fun _ => ?_)
  refine onChg_only.after ?_; refine onChg_only.after ?_; exact changesOnly_refl; refine State.socSeed_only.after ?_
  exact changesOnly_refl; refine onSw_only.after ?_; refine onChg_only.after ?_; refine when_only ?_ (fun _ => ?_)
  refine onChg_only.after ?_; refine onChg_only.after ?_; exact changesOnly_refl; refine State.socSeed_only.after ?_
  exact changesOnly_refl; refine State.suspend_only.after ?_; exact changesOnly_refl

theorem State.autoStart_only {s : State} {skipDone : Bool} :
    changesOnly [.qs, .pp, .chg, .ms, .sw, .free] s (State.autoStart s skipDone) := by
  unfold State.autoStart; refine when_only ?_ (fun _ => ?_); exact changesOnly_refl; refine State.chargeStart_only.after ?_
  exact changesOnly_refl

theorem State.suspendAnew_only {s : State} {r : Nat} : changesOnly [.qs, .pp, .chg] s (State.suspendAnew s r) := by
  unfold State.suspendAnew; refine State.suspend_only.after ?_; refine when_only ?_ (fun _ => ?_); exact changesOnly_refl
  refine onChg_only.after ?_; exact changesOnly_refl

theorem State.applyChg_only {s : State} : changesOnly [.bus] s (State.applyChg s) := by
  unfold State.applyChg; dsimp only; refine State.clampReg_only.after ?_; refine State.clampReg_only.after ?_
  refine State.clampPair_only.after ?_; refine State.clampReg_only.after ?_; refine State.clampReg_only.after ?_
  refine State.clampReg_only.after ?_; refine State.clampReg_only.after ?_; refine State.clampPair_only.after ?_
  refine State.clampPair_only.after ?_; exact changesOnly_refl

theorem State.applyHeld_only {s : State} : changesOnly [.bus, .chg] s (State.applyHeld s) := by
  unfold State.applyHeld; refine ite_only (fun _ => ?_) (fun _ => ?_); exact changesOnly_refl
  refine State.updShow_only.after ?_; refine onChg_only.after ?_; refine State.applyChg_only.after ?_
  refine State.takeShadows_only.after ?_; exact changesOnly_refl

theorem State.chgOff_only {s : State} : changesOnly [.pp, .chg] s (State.chgOff s) := by
  unfold State.chgOff; refine State.switchIdle_only.after ?_; refine onChg_only.after ?_; exact changesOnly_refl

theorem State.clearReason_only {s : State} {r : Nat} : changesOnly [.qs, .chg] s (State.clearReason s r) := by
  unfold State.clearReason; refine ite_only (fun _ => ?_) (fun _ => ?_); exact changesOnly_refl; dsimp only
  refine ite_only (fun _ => ?_) (fun _ => ?_); refine State.raise_only.after ?_; refine onChg_only.after ?_
  exact changesOnly_refl; refine onChg_only.after ?_; exact changesOnly_refl

end Sys2Proof.Machine
end

