-- ==== Sys2Proof/Laws/OnlyFlags.lean ====
section
/-! SUPPORT. Which parts of the state each operation of Machine/Flags.lean may change. -/
namespace Sys2Proof.Machine

set_option Elab.async false
open Sys2Proof.Safety

theorem State.onTc_only {s : State} {t : TcId} {f : TcPort → TcPort} : changesOnly [.tca, .tcb] s (State.onTc s t f) := by
  unfold State.onTc; split; refine onTca_only.after ?_; exact changesOnly_refl; refine onTcb_only.after ?_
  exact changesOnly_refl

end Sys2Proof.Machine
end

