-- ==== Sys2Proof/Laws/OnlyMbxOps.lean ====
section
/-! SUPPORT. Which parts of the state each operation of Machine/MbxOps.lean may change. -/
namespace Sys2Proof.Machine

set_option Elab.async false
open Sys2Proof.Safety

theorem State.nvmPush_only {s : State} {r : NvmReq} : changesOnly [.nvm] s (State.nvmPush s r) := by
  unfold State.nvmPush; refine onNvm_only.after ?_; exact changesOnly_refl

theorem State.onBox_only {s : State} {n : Nat} {f : Box → Box} : changesOnly [.mb] s (State.onBox s n f) := by
  unfold State.onBox; refine onMb_only.after ?_; exact changesOnly_refl

theorem State.postFrame_only {s : State} {n : Nat} {status : Byte} {data : List Byte} :
    changesOnly [.mb] s (State.postFrame s n status data) := by
  unfold State.postFrame; dsimp only; refine onMb_only.after ?_; exact changesOnly_refl

theorem State.finish_only {s : State} {n : Nat} {status : Byte} {data : List Byte} :
    changesOnly [.mb] s (State.finish s n status data) := by
  unfold State.finish; split; refine State.onBox_only.after ?_; refine State.postFrame_only.after ?_; exact changesOnly_refl
  refine State.onBox_only.after ?_; exact changesOnly_refl; refine State.onBox_only.after ?_; exact changesOnly_refl
  exact changesOnly_refl; exact changesOnly_refl

/-- A mailbox command that fails a check is answered; one that passes is carried out (R404). -/
theorem State.carry_only {l : List Part} {s t : State} {n op len g r} {f : State → State} (h : changesOnly l s t)
    (hf : ∀ u, changesOnly l u (f u)) (hl : decide ([.flt, .mb] ⊆ l) = true := by decide) :
    changesOnly l s (t.carry n op len g r f) := by
  have hs := of_decide_eq_true hl
  have hm : decide ([.mb] ⊆ l) = true := decide_eq_true fun x hx => hs (List.mem_cons_of_mem _ hx)
  have hk : decide ([.flt] ⊆ l) = true := decide_eq_true fun x hx => hs (List.mem_singleton.1 hx ▸ List.mem_cons_self)
  have h1 : changesOnly l s (((t.taskRan .vetch).onMb fun m => { m with ring := m.ring.filter fun k => k.val != n }).onBox n
      fun b => { b with begun := true }) := State.onBox_only.after (onMb_only.after (show changesOnly l s (t.taskRan .vetch) from onFlt_only.after h hk) hm) hm
  unfold State.carry
  dsimp only
  split
  · exact h
  · split
    · exact State.finish_only.after h1 hm
    · cases g <;> (repeat' split) <;>
        first | exact State.finish_only.after h1 hm | exact changesOnly_trans h1 (hf _) (List.Subset.refl _)

theorem State.finishL_only {s : State} {l : List (Fin 4)} {status : Byte} {data : List Byte} :
    changesOnly [.mb] s (State.finishL s l status data) := by
  unfold State.finishL; refine foldl_only ?_ (fun _ _ => ?_); exact changesOnly_refl; refine State.finish_only.after ?_
  exact changesOnly_refl

theorem State.finishO_only {s : State} {n : Option (Fin 4)} {status : Byte} {data : List Byte} :
    changesOnly [.mb] s (State.finishO s n status data) := by
  unfold State.finishO; split; refine State.finish_only.after ?_; exact changesOnly_refl; exact changesOnly_refl

theorem State.takeFrame_only {s : State} {n : Nat} : changesOnly [.mb] s (State.takeFrame s n) := by
  unfold State.takeFrame; refine ite_only (fun _ => ?_) (fun _ => ?_); exact changesOnly_refl; dsimp only; split
  refine onMb_only.after ?_; refine State.finish_only.after ?_; refine onMb_only.after ?_; exact changesOnly_refl
  refine onMb_only.after ?_; exact changesOnly_refl

theorem State.takeRings_only {s : State} : changesOnly [.mb] s (State.takeRings s) := by
  unfold State.takeRings; refine ite_only (fun _ => ?_) (fun _ => ?_); refine foldl_only ?_ (fun _ _ => ?_)
  exact changesOnly_refl; refine State.takeFrame_only.after ?_; exact changesOnly_refl; exact changesOnly_refl

theorem State.taskRan_only {s : State} {t : FwTask} : changesOnly [.flt] s (State.taskRan s t) := by
  unfold State.taskRan; refine onFlt_only.after ?_; exact changesOnly_refl

theorem State.finishAct_only {s : State} {n : Nat} {data : List Byte} : changesOnly [.mb] s (State.finishAct s n data) := by
  unfold State.finishAct; refine State.onBox_only.after ?_; refine State.finish_only.after ?_; exact changesOnly_refl

theorem State.withdrawBoxes_only {s : State} {p : Nat → Bool} : changesOnly [.mb] s (State.withdrawBoxes s p) := by
  unfold State.withdrawBoxes; refine foldl_only ?_ (fun _ _ => ?_); exact changesOnly_refl
  refine ite_only (fun _ => ?_) (fun _ => ?_); refine onMb_only.after ?_; refine State.finish_only.after ?_
  exact changesOnly_refl; exact changesOnly_refl

theorem State.withdrawQueued_only {s : State} {p : Nat → Bool} : changesOnly [.mb] s (State.withdrawQueued s p) := by
  unfold State.withdrawQueued; refine State.withdrawBoxes_only.after ?_; exact changesOnly_refl

theorem State.query_only {s : State} {n op : Nat} {data : State → List Byte} :
    changesOnly [.flt, .mb] s (State.query s n op data) := by
  unfold State.query; refine State.carry_only ?_ (fun _ => ?_); exact changesOnly_refl; refine State.finish_only.after ?_
  exact changesOnly_refl

theorem State.accept_only {s : State} {n : Nat} {begun : Bool} : changesOnly [.mb] s (State.accept s n begun) := by
  unfold State.accept; refine State.onBox_only.after ?_; refine State.postFrame_only.after ?_; exact changesOnly_refl

end Sys2Proof.Machine
end

