-- ==== Sys2Proof/Laws/OnlyNvmOps.lean ====
section
/-! SUPPORT. Which parts of the state each operation of Machine/NvmOps.lean may change. -/
namespace Sys2Proof.Machine

set_option Elab.async false
open Sys2Proof.Safety

theorem State.aheadEnd_only {s : State} {cut : Bool} : changesOnly [.nvm] s (State.aheadEnd s cut) := by
  unfold State.aheadEnd; split; refine onNvm_only.after ?_; exact changesOnly_refl; exact changesOnly_refl

theorem State.aheadCut_only {s : State} : changesOnly [.nvm, .free] s (State.aheadCut s) := by
  unfold State.aheadCut; refine when_only ?_ (fun _ => ?_); exact changesOnly_refl; refine useFree_only.after ?_
  refine State.aheadEnd_only.after ?_; exact changesOnly_refl

theorem State.wearCheck_only {s : State} {r : Nat} : changesOnly [.qs, .nvm] s (State.wearCheck s r) := by
  unfold State.wearCheck; refine when_only ?_ (fun _ => ?_); exact changesOnly_refl; refine State.raise_only.after ?_
  refine onNvm_only.after ?_; exact changesOnly_refl

theorem State.eraseSectors_only {s : State} {r : Nat} {l : List Nat} : changesOnly [.qs, .nvm] s (State.eraseSectors s r l) := by
  unfold State.eraseSectors; dsimp only; refine State.wearCheck_only.after ?_; refine when_only ?_ (fun _ => ?_)
  refine onNvm_only.after ?_; exact changesOnly_refl; refine State.counterSat_only.after ?_; exact changesOnly_refl

theorem State.eraseCut_only {s : State} {r : Nat} {last : Option Nat} {left : List Nat} :
    changesOnly [.qs, .nvm] s (State.eraseCut s r last left) := by
  unfold State.eraseCut; dsimp only; refine ite_only (fun _ => ?_) (fun _ => ?_); refine State.eraseSectors_only.after ?_
  exact changesOnly_refl; split; refine onNvm_only.after ?_; refine State.eraseSectors_only.after ?_; exact changesOnly_refl
  refine State.eraseSectors_only.after ?_; exact changesOnly_refl

theorem State.cfgCut_only {s : State} {r : NvmReq} : changesOnly [.qs, .nvm, .free] s (State.cfgCut s r) := by
  unfold State.cfgCut; refine ite_only (fun _ => ?_) (fun _ => ?_); refine useFree_only.after ?_; refine onNvm_only.after ?_
  exact changesOnly_refl; refine useFree_only.after ?_; refine State.eraseCut_only.after ?_; exact changesOnly_refl

theorem State.logBlank_only {s : State} {k : Nat} {used : Bool} : changesOnly [.qs, .nvm] s (State.logBlank s k used) := by
  unfold State.logBlank; refine when_only ?_ (fun _ => ?_); exact changesOnly_refl; refine State.eraseSectors_only.after ?_
  exact changesOnly_refl

theorem State.lfPut_only {s : State} {e : LfRec} : changesOnly [.qs, .nvm] s (State.lfPut s e) := by
  unfold State.lfPut; dsimp only; refine onNvm_only.after ?_; refine when_only ?_ (fun _ => ?_); exact changesOnly_refl
  refine State.logBlank_only.after ?_; exact changesOnly_refl

theorem State.lfUnqueue_only {s : State} {k : Nat} : changesOnly [.flt] s (State.lfUnqueue s k) := by
  unfold State.lfUnqueue; refine onFlt_only.after ?_; exact changesOnly_refl

theorem State.ringPut_only {s : State} {e : SnapEntry} : changesOnly [.qs, .nvm] s (State.ringPut s e) := by
  unfold State.ringPut; dsimp only; refine onNvm_only.after ?_; refine when_only ?_ (fun _ => ?_); exact changesOnly_refl
  refine State.logBlank_only.after ?_; exact changesOnly_refl

theorem State.cutProg_only {s : State} : changesOnly [.qs, .flt, .nvm, .free] s (State.cutProg s) := by
  unfold State.cutProg; split; dsimp only; split; refine State.ringPut_only.after ?_; refine onNvm_only.after ?_
  exact changesOnly_refl; refine State.lfUnqueue_only.after ?_; refine State.lfPut_only.after ?_; refine onNvm_only.after ?_
  exact changesOnly_refl; refine State.cfgCut_only.after ?_; refine onNvm_only.after ?_; exact changesOnly_refl
  refine useFree_only.after ?_; refine State.eraseCut_only.after ?_; refine onNvm_only.after ?_; exact changesOnly_refl
  refine useFree_only.after ?_; refine State.eraseCut_only.after ?_; refine onNvm_only.after ?_; exact changesOnly_refl
  exact changesOnly_refl

theorem State.nvmCutNow_only {s : State} : changesOnly [.qs, .flt, .nvm, .free] s (State.nvmCutNow s) := by
  unfold State.nvmCutNow; refine onFlt_only.after ?_; refine onNvm_only.after ?_; refine State.aheadCut_only.after ?_
  refine State.cutProg_only.after ?_; exact changesOnly_refl

theorem State.eraseBegin_only {s : State} {r : Nat} {l : List Nat} : changesOnly [.qs, .nvm] s (State.eraseBegin s r l) := by
  unfold State.eraseBegin; refine State.eraseSectors_only.after ?_; refine onNvm_only.after ?_; exact changesOnly_refl

theorem State.aheadBegin_only {s : State} {k : Nat} : changesOnly [.qs, .nvm] s (State.aheadBegin s k) := by
  unfold State.aheadBegin; refine onNvm_only.after ?_; refine State.eraseSectors_only.after ?_; exact changesOnly_refl

theorem State.lfAhead_only {s : State} : changesOnly [.qs, .nvm] s (State.lfAhead s) := by
  unfold State.lfAhead; refine when_only ?_ (fun _ => ?_); exact changesOnly_refl; refine State.aheadBegin_only.after ?_
  exact changesOnly_refl

theorem State.ringAhead_only {s : State} : changesOnly [.qs, .nvm] s (State.ringAhead s) := by
  unfold State.ringAhead; refine when_only ?_ (fun _ => ?_); exact changesOnly_refl; refine State.aheadBegin_only.after ?_
  exact changesOnly_refl

theorem State.snapsDrop_only {s : State} : changesOnly [.qs, .nvm] s (State.snapsDrop s) := by
  unfold State.snapsDrop; refine foldl_only ?_ (fun _ _ => ?_); refine onNvm_only.after ?_; exact changesOnly_refl
  refine State.drop_only.after ?_; exact changesOnly_refl

theorem State.logCut_only {s : State} : changesOnly [.qs, .flt, .nvm, .free] s (State.logCut s) := by
  unfold State.logCut; split; refine when_only ?_ (fun _ => ?_); exact changesOnly_refl; refine State.snapsDrop_only.after ?_
  refine State.cutProg_only.after ?_; exact changesOnly_refl; refine when_only ?_ (fun _ => ?_); exact changesOnly_refl
  refine State.snapsDrop_only.after ?_; refine State.aheadCut_only.after ?_; exact changesOnly_refl

end Sys2Proof.Machine
end

