-- ==== Sys2Proof/Laws/OnlySeqOps.lean ====
section
/-! SUPPORT. Which parts of the state each operation of Machine/SeqOps.lean may change. -/
namespace Sys2Proof.Machine

set_option Elab.async false
open Sys2Proof.Safety

theorem State.nrstoPulse_only {s : State} {origin : Nat} : changesOnly [.qs, .seq] s (State.nrstoPulse s origin) := by
  unfold State.nrstoPulse; refine ite_only (fun _ => ?_) (fun _ => ?_); exact changesOnly_refl; refine State.raise_only.after ?_
  refine onSeq_only.after ?_; exact changesOnly_refl

theorem State.snapFill_only {s : State} {e : SnapEv} {deferred : Bool} :
    changesOnly [.qs, .seq, .nvm] s (State.snapFill s e deferred) := by
  unfold State.snapFill; refine ite_only (fun _ => ?_) (fun _ => ?_); exact changesOnly_refl
  refine ite_only (fun _ => ?_) (fun _ => ?_); dsimp only; refine onSeq_only.after ?_; refine State.nvmPush_only.after ?_
  exact changesOnly_refl; refine State.drop_only.after ?_; exact changesOnly_refl

theorem State.snap_only {s : State} {cause slot : Nat} {source fcause : BitVec 16} {fclass : Byte} :
    changesOnly [.qs, .seq, .nvm] s (State.snap s cause slot source fcause fclass) := by
  unfold State.snap; dsimp only; refine ite_only (fun _ => ?_) (fun _ => ?_); refine State.snapFill_only.after ?_
  exact changesOnly_refl; refine ite_only (fun _ => ?_) (fun _ => ?_); refine onSeq_only.after ?_; exact changesOnly_refl
  refine State.drop_only.after ?_; exact changesOnly_refl

theorem State.nrstJudge_only {s : State} {n : Nat} : changesOnly [.seq] s (State.nrstJudge s n) := by
  unfold State.nrstJudge; refine onSeq_only.after ?_; exact changesOnly_refl

theorem State.tableBack_only {s : State} : changesOnly [.bus] s (State.tableBack s) := by
  unfold State.tableBack; refine foldl_only ?_ (fun _ _ => ?_); exact changesOnly_refl; dsimp only
  refine State.setReg_only.after ?_; refine State.setReg_only.after ?_; refine State.setReg_only.after ?_
  refine State.setReg_only.after ?_; exact changesOnly_refl

theorem State.tableApply_only {s : State} : changesOnly [.bus, .seq] s (State.tableApply s) := by
  unfold State.tableApply; refine ite_only (fun _ => ?_) (fun _ => ?_); refine onSeq_only.after ?_; exact changesOnly_refl
  refine onSeq_only.after ?_; refine State.tableBack_only.after ?_; exact changesOnly_refl

theorem State.tableTake_only {s : State} : changesOnly [.bus, .seq] s (State.tableTake s) := by
  unfold State.tableTake; refine ite_only (fun _ => ?_) (fun _ => ?_); refine State.updShow_only.after ?_
  refine State.tableApply_only.after ?_; exact changesOnly_refl; exact changesOnly_refl

theorem State.upDone_only {s : State} : changesOnly [.qs, .bus, .seq, .mb, .nvm] s (State.upDone s) := by
  unfold State.upDone; dsimp only; refine State.tableTake_only.after ?_; refine State.finishL_only.after ?_
  refine State.snap_only.after ?_; refine State.raise_only.after ?_; refine onSeq_only.after ?_; exact changesOnly_refl

theorem walkUp_only {z0 : Nat} {z1 : State} : changesOnly [.qs, .bus, .seq, .mb, .nvm] z1 (walkUp  z0 z1) := by
  unfold walkUp; split; refine State.upDone_only.after ?_; refine State.nrstJudge_only.after ?_; exact changesOnly_refl
  refine ite_only (fun _ => ?_) (fun _ => ?_); refine walkUp_only.after ?_; exact changesOnly_refl; refine onSeq_only.after ?_
  refine State.nrstJudge_only.after ?_; exact changesOnly_refl

theorem State.beginUp_only {s : State} {code at_ : Nat} :
    changesOnly [.qs, .bus, .pp, .seq, .mb, .nvm] s (State.beginUp s code at_) := by
  unfold State.beginUp; dsimp only; refine walkUp_only.after ?_; refine State.snap_only.after ?_
  refine State.raise_only.after ?_; refine onPp_only.after ?_; refine onSeq_only.after ?_; exact changesOnly_refl

theorem State.upRequest_only {s : State} {code : Nat} {always : Bool} :
    changesOnly [.qs, .bus, .pp, .seq, .mb, .nvm] s (State.upRequest s code always) := by
  unfold State.upRequest; split; exact changesOnly_refl; refine when_only ?_ (fun _ => ?_); refine onSeq_only.after ?_
  exact changesOnly_refl; refine State.raise_only.after ?_; exact changesOnly_refl; refine onSeq_only.after ?_
  exact changesOnly_refl; refine onSeq_only.after ?_; exact changesOnly_refl; refine State.beginUp_only.after ?_
  exact changesOnly_refl

theorem State.heldUp_only {s : State} {code : Nat} : changesOnly [.qs, .bus, .pp, .seq, .mb, .nvm] s (State.heldUp s code) := by
  unfold State.heldUp; refine ite_only (fun _ => ?_) (fun _ => ?_); refine when_only ?_ (fun _ => ?_)
  refine State.finishL_only.after ?_; refine onSeq_only.after ?_; exact changesOnly_refl; refine State.raise_only.after ?_
  exact changesOnly_refl; refine State.beginUp_only.after ?_; exact changesOnly_refl

theorem State.downDone_only {s : State} : changesOnly [.sys, .qs, .bus, .pp, .seq, .mb, .nvm] s (State.downDone s) := by
  unfold State.downDone; dsimp only; split; refine State.heldUp_only.after ?_; refine onSys_only.after ?_
  refine State.tableTake_only.after ?_; refine State.finishL_only.after ?_; refine State.snap_only.after ?_
  refine State.raise_only.after ?_; refine onSeq_only.after ?_; exact changesOnly_refl; refine onSys_only.after ?_
  refine State.tableTake_only.after ?_; refine State.finishL_only.after ?_; refine State.snap_only.after ?_
  refine State.raise_only.after ?_; refine onSeq_only.after ?_; exact changesOnly_refl

theorem State.railOff_only {s : State} {r : Nat} : changesOnly [.seq] s (State.railOff s r) := by
  unfold State.railOff; refine onSeq_only.after ?_; exact changesOnly_refl

theorem walkDown_only {z0 : Nat} {z1 : State} : changesOnly [.sys, .qs, .bus, .pp, .seq, .mb, .nvm] z1 (walkDown  z0 z1) := by
  unfold walkDown; split; refine State.downDone_only.after ?_; exact changesOnly_refl; split; refine walkDown_only.after ?_
  exact changesOnly_refl; refine ite_only (fun _ => ?_) (fun _ => ?_); dsimp only; refine onSeq_only.after ?_
  refine State.railOff_only.after ?_; exact changesOnly_refl; refine ite_only (fun _ => ?_) (fun _ => ?_)
  refine onSeq_only.after ?_; exact changesOnly_refl; refine walkDown_only.after ?_; exact changesOnly_refl

theorem State.startDown_only {s : State} {reason : Nat} :
    changesOnly [.sys, .qs, .bus, .pp, .seq, .mb, .nvm] s (State.startDown s reason) := by
  unfold State.startDown; dsimp only; refine walkDown_only.after ?_; refine State.snap_only.after ?_
  refine State.raise_only.after ?_; refine when_only ?_ (fun _ => ?_); refine onSeq_only.after ?_; exact changesOnly_refl
  refine State.finishL_only.after ?_; exact changesOnly_refl

theorem State.downRequest_only {s : State} {reason : Nat} :
    changesOnly [.sys, .qs, .bus, .pp, .seq, .mb, .nvm] s (State.downRequest s reason) := by
  unfold State.downRequest; split; exact changesOnly_refl; exact changesOnly_refl; refine onSeq_only.after ?_
  exact changesOnly_refl; refine State.startDown_only.after ?_; refine onSeq_only.after ?_; exact changesOnly_refl
  refine State.startDown_only.after ?_; refine onSeq_only.after ?_; exact changesOnly_refl; refine State.startDown_only.after ?_
  refine onSeq_only.after ?_; exact changesOnly_refl

theorem State.pfwAssert_only {s : State} {reason src : Nat} : changesOnly [.qs, .seq, .nvm] s (State.pfwAssert s reason src) := by
  unfold State.pfwAssert; refine ite_only (fun _ => ?_) (fun _ => ?_); exact changesOnly_refl; refine State.snap_only.after ?_
  refine State.raise_only.after ?_; refine onSeq_only.after ?_; exact changesOnly_refl

theorem State.downCause_only {s : State} {reason src : Nat} : changesOnly [.qs, .seq, .nvm] s (State.downCause s reason src) := by
  unfold State.downCause; dsimp only; refine ite_only (fun _ => ?_) (fun _ => ?_); exact changesOnly_refl; split
  refine State.pfwAssert_only.after ?_; exact changesOnly_refl; refine State.pfwAssert_only.after ?_; exact changesOnly_refl
  refine ite_only (fun _ => ?_) (fun _ => ?_); refine State.pfwAssert_only.after ?_; exact changesOnly_refl
  refine State.pfwAssert_only.after ?_; refine ite_only (fun _ => ?_) (fun _ => ?_); exact changesOnly_refl
  refine onSeq_only.after ?_; exact changesOnly_refl; refine ite_only (fun _ => ?_) (fun _ => ?_)
  refine State.pfwAssert_only.after ?_; exact changesOnly_refl; refine State.pfwAssert_only.after ?_; refine onSeq_only.after ?_
  exact changesOnly_refl; refine ite_only (fun _ => ?_) (fun _ => ?_); refine State.pfwAssert_only.after ?_
  exact changesOnly_refl; refine State.pfwAssert_only.after ?_; refine onSeq_only.after ?_; exact changesOnly_refl
  refine ite_only (fun _ => ?_) (fun _ => ?_); refine State.pfwAssert_only.after ?_; exact changesOnly_refl
  refine State.pfwAssert_only.after ?_; refine onSeq_only.after ?_; exact changesOnly_refl

theorem State.seqIsolate_only {s : State} : changesOnly [.seq] s (State.seqIsolate s) := by
  unfold State.seqIsolate; refine onSeq_only.after ?_; exact changesOnly_refl

theorem State.seqLost_only {s : State} : changesOnly [.seq, .flt] s (State.seqLost s) := by
  unfold State.seqLost; refine onFlt_only.after ?_; refine onSeq_only.after ?_; exact changesOnly_refl

theorem State.stopped_only {s : State} : changesOnly [.qs, .bus, .pp, .seq, .mb, .nvm] s (State.stopped s) := by
  unfold State.stopped; dsimp only; split; refine State.heldUp_only.after ?_; refine State.tableTake_only.after ?_
  refine onSeq_only.after ?_; exact changesOnly_refl; refine State.tableTake_only.after ?_; refine onSeq_only.after ?_
  exact changesOnly_refl

theorem State.upNext_only {s : State} : changesOnly [.sys, .qs, .bus, .pp, .seq, .mb, .nvm] s (State.upNext s) := by
  unfold State.upNext; split; refine ite_only (fun _ => ?_) (fun _ => ?_); refine State.finishL_only.after ?_
  refine onSeq_only.after ?_; exact changesOnly_refl; refine State.startDown_only.after ?_; refine onSeq_only.after ?_
  exact changesOnly_refl; refine ite_only (fun _ => ?_) (fun _ => ?_); refine State.stopped_only.after ?_
  refine onSeq_only.after ?_; exact changesOnly_refl; refine walkUp_only.after ?_; exact changesOnly_refl

theorem State.snapTake_only {s : State} : changesOnly [.qs, .seq, .nvm] s (State.snapTake s) := by
  unfold State.snapTake; refine onSeq_only.after ?_; refine foldl_only ?_ (fun _ _ => ?_); exact changesOnly_refl
  refine State.snapFill_only.after ?_; exact changesOnly_refl

theorem State.seqStop_only {s : State} : changesOnly [.qs, .bus, .pp, .seq, .mb, .nvm] s (State.seqStop s) := by
  unfold State.seqStop; split; refine onSeq_only.after ?_; exact changesOnly_refl; refine onSeq_only.after ?_
  exact changesOnly_refl; refine State.stopped_only.after ?_; refine onSeq_only.after ?_; exact changesOnly_refl
  exact changesOnly_refl; exact changesOnly_refl; exact changesOnly_refl

theorem State.seqDisable_only {s : State} : changesOnly [.qs, .bus, .pp, .seq, .mb, .nvm] s (State.seqDisable s) := by
  unfold State.seqDisable; dsimp only; refine State.seqStop_only.after ?_; refine State.finishL_only.after ?_
  refine State.finishL_only.after ?_; refine onSeq_only.after ?_; exact changesOnly_refl

theorem State.stepEvent_only {s : State} {k : Nat} {off : Bool} : changesOnly [.qs] s (State.stepEvent s k off) := by
  unfold State.stepEvent; refine State.raise_only.after ?_; exact changesOnly_refl

theorem State.upStep_only {s : State} : changesOnly [.sys, .qs, .bus, .pp, .seq, .mb, .nvm] s (State.upStep s) := by
  unfold State.upStep; dsimp only; split; refine State.upNext_only.after ?_; exact changesOnly_refl
  refine State.upNext_only.after ?_; refine State.snap_only.after ?_; refine State.stepEvent_only.after ?_
  refine State.nrstJudge_only.after ?_; refine onSeq_only.after ?_; exact changesOnly_refl

theorem State.downStep_only {s : State} : changesOnly [.sys, .qs, .bus, .pp, .seq, .mb, .nvm] s (State.downStep s) := by
  unfold State.downStep; dsimp only; refine ite_only (fun _ => ?_) (fun _ => ?_); refine State.stopped_only.after ?_
  refine State.snap_only.after ?_; refine State.stepEvent_only.after ?_; refine onSeq_only.after ?_; exact changesOnly_refl
  refine walkDown_only.after ?_; refine State.snap_only.after ?_; refine State.stepEvent_only.after ?_
  refine onSeq_only.after ?_; exact changesOnly_refl

end Sys2Proof.Machine
end

