-- ==== Sys2Proof/Laws/OnlyPowerOps.lean ====
section
/-! SUPPORT. Which parts of the state each operation of Machine/PowerOps.lean may change. -/
namespace Sys2Proof.Machine

set_option Elab.async false
open Sys2Proof.Safety

theorem State.vbatHold_only {s : State} : changesOnly [.pp] s (State.vbatHold s) := by
  unfold State.vbatHold; refine when_only ?_ (fun _ => ?_); exact changesOnly_refl; refine onPp_only.after ?_
  exact changesOnly_refl

theorem State.switchClose_only {s : State} : changesOnly [.pp] s (State.switchClose s) := by
  unfold State.switchClose; refine ite_only (fun _ => ?_) (fun _ => ?_); exact changesOnly_refl
  refine ite_only (fun _ => ?_) (fun _ => ?_); refine onPp_only.after ?_; refine State.vbatHold_only.after ?_
  exact changesOnly_refl; refine onPp_only.after ?_; exact changesOnly_refl

theorem State.pathEvent_only {s : State} {before : Byte} : changesOnly [.qs, .pp] s (State.pathEvent s before) := by
  unfold State.pathEvent; refine State.raise_only.after ?_; refine onPp_only.after ?_; exact changesOnly_refl

theorem State.pathNote_only {before : Byte} {s : State} : changesOnly [.qs, .pp] s (State.pathNote before s) := by
  unfold State.pathNote; dsimp only; split; refine ite_only (fun _ => ?_) (fun _ => ?_); refine State.pathEvent_only.after ?_
  refine onPp_only.after ?_; exact changesOnly_refl; refine onPp_only.after ?_; exact changesOnly_refl
  refine ite_only (fun _ => ?_) (fun _ => ?_); refine onPp_only.after ?_; exact changesOnly_refl
  refine ite_only (fun _ => ?_) (fun _ => ?_); refine State.pathEvent_only.after ?_; refine onPp_only.after ?_
  exact changesOnly_refl; refine onPp_only.after ?_; refine onPp_only.after ?_; exact changesOnly_refl

theorem State.switchOff_only {s : State} : changesOnly [.pp] s (State.switchOff s) := by
  unfold State.switchOff; refine onPp_only.after ?_; exact changesOnly_refl

theorem State.batHw_only {s : State} : changesOnly [.pp] s (State.batHw s) := by
  unfold State.batHw; refine ite_only (fun _ => ?_) (fun _ => ?_); dsimp only; refine ite_only (fun _ => ?_) (fun _ => ?_)
  refine State.switchClose_only.after ?_; refine onPp_only.after ?_; exact changesOnly_refl
  refine State.switchOff_only.after ?_; refine onPp_only.after ?_; exact changesOnly_refl; exact changesOnly_refl

theorem State.setLearn_only {s : State} {p : PortId} {v : Option Nat} : changesOnly [.pp] s (State.setLearn s p v) := by
  unfold State.setLearn; split; refine onPp_only.after ?_; exact changesOnly_refl; refine onPp_only.after ?_
  exact changesOnly_refl; exact changesOnly_refl

theorem State.setPresent_only {s : State} {p : PortId} {v : Bool} : changesOnly [.pp] s (State.setPresent s p v) := by
  unfold State.setPresent; split; refine onPp_only.after ?_; exact changesOnly_refl; refine onPp_only.after ?_
  exact changesOnly_refl; refine onPp_only.after ?_; exact changesOnly_refl

theorem State.limpFollow_only {s : State} : changesOnly [.sys] s (State.limpFollow s) := by
  unfold State.limpFollow; split; refine when_only ?_ (fun _ => ?_); exact changesOnly_refl; refine onSys_only.after ?_
  exact changesOnly_refl; exact changesOnly_refl

theorem State.switchFull_only {s : State} : changesOnly [.pp] s (State.switchFull s) := by
  unfold State.switchFull; refine ite_only (fun _ => ?_) (fun _ => ?_); refine onPp_only.after ?_
  refine State.vbatHold_only.after ?_; exact changesOnly_refl; refine onPp_only.after ?_; refine State.vbatHold_only.after ?_
  exact changesOnly_refl

end Sys2Proof.Machine
end

