-- ==== Sys2Proof/Laws/OnlyTcOps.lean ====
section
/-! SUPPORT. Which parts of the state each operation of Machine/TcOps.lean may change. -/
namespace Sys2Proof.Machine

set_option Elab.async false
open Sys2Proof.Safety

theorem State.tcEvent_only {s : State} {t : TcId} {code : BitVec 16} {detail : List Byte} :
    changesOnly [.qs] s (State.tcEvent s t code detail) := by
  unfold State.tcEvent; refine State.raise_only.after ?_; exact changesOnly_refl

theorem State.frsDisarm_only {s : State} {t : TcId} {cause : Nat} :
    changesOnly [.qs, .tca, .tcb] s (State.frsDisarm s t cause) := by
  unfold State.frsDisarm; refine ite_only (fun _ => ?_) (fun _ => ?_); refine State.tcEvent_only.after ?_
  refine State.onTc_only.after ?_; exact changesOnly_refl; exact changesOnly_refl

theorem State.authEvent_only {s : State} {t : TcId} {r : Nat} : changesOnly [.qs] s (State.authEvent s t r) := by
  unfold State.authEvent; refine State.tcEvent_only.after ?_; exact changesOnly_refl

theorem State.dormNext_only {s : State} : changesOnly [.sys, .qs, .bus, .pp, .seq, .mb, .nvm] s (State.dormNext s) := by
  unfold State.dormNext; refine ite_only (fun _ => ?_) (fun _ => ?_); refine ite_only (fun _ => ?_) (fun _ => ?_)
  refine State.downRequest_only.after ?_; refine onSys_only.after ?_; exact changesOnly_refl; refine onSys_only.after ?_
  exact changesOnly_refl; exact changesOnly_refl

theorem State.eprEnd_only {s : State} {t : TcId} {cause : Nat} : changesOnly [.qs, .tca, .tcb] s (State.eprEnd s t cause) := by
  unfold State.eprEnd; refine ite_only (fun _ => ?_) (fun _ => ?_); refine State.tcEvent_only.after ?_
  refine State.onTc_only.after ?_; exact changesOnly_refl; refine State.onTc_only.after ?_; exact changesOnly_refl

theorem State.noSource_only {before s : State} : changesOnly [.qs, .pp, .seq, .nvm] s (State.noSource before s) := by
  unfold State.noSource; refine when_only ?_ (fun _ => ?_); exact changesOnly_refl; refine State.downCause_only.after ?_
  refine onPp_only.after ?_; exact changesOnly_refl

theorem State.authDetach_only {s : State} {t : TcId} : changesOnly [.qs, .mb, .tca, .tcb] s (State.authDetach s t) := by
  unfold State.authDetach; dsimp only; refine State.onTc_only.after ?_; refine when_only ?_ (fun _ => ?_)
  refine State.finishO_only.after ?_; exact changesOnly_refl; refine State.authEvent_only.after ?_; exact changesOnly_refl

theorem State.swapEvent_only {s : State} {t : TcId} {what how : Nat} : changesOnly [.qs] s (State.swapEvent s t what how) := by
  unfold State.swapEvent; refine State.tcEvent_only.after ?_; exact changesOnly_refl

theorem State.swapDetach_only {s : State} {t : TcId} : changesOnly [.qs, .mb, .tca, .tcb] s (State.swapDetach s t) := by
  unfold State.swapDetach; dsimp only; refine State.onTc_only.after ?_; refine State.finishO_only.after ?_
  refine State.finishO_only.after ?_; refine when_only ?_ (fun _ => ?_); exact changesOnly_refl
  refine State.swapEvent_only.after ?_; exact changesOnly_refl

theorem State.srcRemove_only {s : State} {t : TcId} :
    changesOnly [.sys, .qs, .fab, .cc, .pp, .sw, .mb, .tca, .tcb] s (State.srcRemove s t) := by
  unfold State.srcRemove; refine ite_only (fun _ => ?_) (fun _ => ?_); exact changesOnly_refl; refine State.onTc_only.after ?_
  refine State.vbusRest_only.after ?_; refine State.endPath_only.after ?_; refine State.authDetach_only.after ?_
  refine State.swapDetach_only.after ?_; exact changesOnly_refl

theorem State.startPath_only {s : State} {p : PortId} {d : PathDir} : changesOnly [.fab, .cc, .pp] s (State.startPath s p d) := by
  unfold State.startPath; dsimp only; refine onCc_only.after ?_; refine State.formPath_only.after ?_; exact changesOnly_refl

theorem State.sinkEnded_only {before : State} {p : PortId} {s : State} :
    changesOnly [.sys, .qs, .fab, .cc, .pp, .sw, .seq, .mb, .nvm, .tca, .tcb] s (State.sinkEnded before p s) := by
  unfold State.sinkEnded; refine State.noSource_only.after ?_; refine ite_only (fun _ => ?_) (fun _ => ?_)
  exact changesOnly_refl; split; refine State.startPath_only.after ?_; exact changesOnly_refl
  refine ite_only (fun _ => ?_) (fun _ => ?_); refine when_only ?_ (fun _ => ?_); exact changesOnly_refl
  refine onPp_only.after ?_; exact changesOnly_refl; refine State.srcRemove_only.after ?_; refine State.srcRemove_only.after ?_
  exact changesOnly_refl

theorem State.swapAbandon_only {s : State} {t : TcId} : changesOnly [.qs, .mb, .tca, .tcb] s (State.swapAbandon s t) := by
  unfold State.swapAbandon; dsimp only; refine State.onTc_only.after ?_; refine State.finishO_only.after ?_
  refine State.finishO_only.after ?_; refine when_only ?_ (fun _ => ?_); refine when_only ?_ (fun _ => ?_)
  refine when_only ?_ (fun _ => ?_); exact changesOnly_refl; refine State.swapEvent_only.after ?_; exact changesOnly_refl
  refine State.swapEvent_only.after ?_; exact changesOnly_refl; refine State.swapEvent_only.after ?_; exact changesOnly_refl

theorem State.tx_only {s : State} {t : TcId} {m : PdMsg} : changesOnly [.tca, .tcb] s (State.tx s t m) := by
  unfold State.tx; refine State.onTc_only.after ?_; exact changesOnly_refl

theorem State.hardReset_only {s : State} {t : TcId} {sent : Bool} {cause : Nat} :
    changesOnly [.sys, .qs, .bus, .fab, .cc, .pp, .sw, .seq, .mb, .nvm, .tca, .tcb] s (State.hardReset s t sent cause) := by
  unfold State.hardReset; dsimp only; refine State.dormNext_only.after ?_; refine State.sinkEnded_only.after ?_
  refine State.setPresent_only.after ?_; refine State.onTc_only.after ?_; refine when_only ?_ (fun _ => ?_)
  refine State.setLearn_only.after ?_; refine State.vbusRest_only.after ?_; refine State.endPath_only.after ?_
  refine State.eprEnd_only.after ?_; refine State.frsDisarm_only.after ?_; refine State.swapAbandon_only.after ?_
  refine State.tcEvent_only.after ?_; refine when_only ?_ (fun _ => ?_); exact changesOnly_refl; refine State.onTc_only.after ?_
  refine State.tx_only.after ?_; exact changesOnly_refl; refine State.finishO_only.after ?_
  refine State.authEvent_only.after ?_; exact changesOnly_refl

theorem State.eprLeave_only {s : State} {t : TcId} : changesOnly [.qs, .tca, .tcb] s (State.eprLeave s t) := by
  unfold State.eprLeave; refine when_only ?_ (fun _ => ?_); exact changesOnly_refl; refine State.eprEnd_only.after ?_
  refine State.tx_only.after ?_; exact changesOnly_refl

theorem State.sendReq_only {s : State} {t : TcId} {o : Offer} : changesOnly [.tca, .tcb] s (State.sendReq s t o) := by
  unfold State.sendReq; refine State.tx_only.after ?_; refine State.onTc_only.after ?_; exact changesOnly_refl

theorem State.tcPrep_only {s : State} {t : TcId} : changesOnly [.qs, .tca, .tcb] s (State.tcPrep s t) := by
  unfold State.tcPrep; dsimp only; refine ite_only (fun _ => ?_) (fun _ => ?_); refine State.eprLeave_only.after ?_
  exact changesOnly_refl; split; refine State.onTc_only.after ?_; refine State.sendReq_only.after ?_
  refine State.eprLeave_only.after ?_; exact changesOnly_refl; refine State.eprLeave_only.after ?_; exact changesOnly_refl

theorem State.sendCaps_only {s : State} {t : TcId} : changesOnly [.tca, .tcb] s (State.sendCaps s t) := by
  unfold State.sendCaps; refine ite_only (fun _ => ?_) (fun _ => ?_); exact changesOnly_refl; dsimp only
  refine when_only ?_ (fun _ => ?_); refine State.tx_only.after ?_; refine State.onTc_only.after ?_; exact changesOnly_refl
  refine State.tx_only.after ?_; refine State.onTc_only.after ?_; exact changesOnly_refl

theorem State.capsChange_only {s : State} {t : TcId} : changesOnly [.tca, .tcb] s (State.capsChange s t) := by
  unfold State.capsChange; refine when_only ?_ (fun _ => ?_); exact changesOnly_refl; refine State.sendCaps_only.after ?_
  exact changesOnly_refl

theorem State.negotiate_only {s : State} {t : TcId} {always : Bool} :
    changesOnly [.qs, .tca, .tcb, .free] s (State.negotiate s t always) := by
  unfold State.negotiate; split; exact changesOnly_refl; dsimp only; refine ite_only (fun _ => ?_) (fun _ => ?_)
  exact changesOnly_refl; refine when_only ?_ (fun _ => ?_); refine State.sendReq_only.after ?_; refine State.onTc_only.after ?_
  exact changesOnly_refl; refine useFree_only.after ?_; refine State.tcEvent_only.after ?_; exact changesOnly_refl

theorem State.frsEval_only {s : State} {t : TcId} : changesOnly [.qs, .fab, .tca, .tcb] s (State.frsEval s t) := by
  unfold State.frsEval; dsimp only; refine ite_only (fun _ => ?_) (fun _ => ?_); refine ite_only (fun _ => ?_) (fun _ => ?_)
  exact changesOnly_refl; refine State.tcEvent_only.after ?_; refine onFab_only.after ?_; refine State.onTc_only.after ?_
  exact changesOnly_refl; refine State.frsDisarm_only.after ?_; exact changesOnly_refl

theorem State.txClear_only {s : State} {t : TcId} : changesOnly [.flt, .tca, .tcb] s (State.txClear s t) := by
  unfold State.txClear; refine State.onTc_only.after ?_; refine State.taskRan_only.after ?_; exact changesOnly_refl

theorem State.srcMustEnd_only {s : State} {t : TcId} :
    changesOnly [.sys, .qs, .fab, .cc, .pp, .sw, .mb, .tca, .tcb] s (State.srcMustEnd s t) := by
  unfold State.srcMustEnd; dsimp only; refine ite_only (fun _ => ?_) (fun _ => ?_); exact changesOnly_refl; split
  refine ite_only (fun _ => ?_) (fun _ => ?_); refine State.tx_only.after ?_; refine State.onTc_only.after ?_
  exact changesOnly_refl; refine State.srcRemove_only.after ?_; exact changesOnly_refl; refine State.onTc_only.after ?_
  exact changesOnly_refl; exact changesOnly_refl; exact changesOnly_refl; refine State.srcRemove_only.after ?_
  exact changesOnly_refl; refine State.srcRemove_only.after ?_; exact changesOnly_refl

theorem State.attachEvent_only {s : State} {t : TcId} {code : BitVec 16} : changesOnly [.qs] s (State.attachEvent s t code) := by
  unfold State.attachEvent; dsimp only; refine State.tcEvent_only.after ?_; exact changesOnly_refl

theorem State.discoverCable_only {s : State} {t : TcId} : changesOnly [.tca, .tcb] s (State.discoverCable s t) := by
  unfold State.discoverCable; refine State.tx_only.after ?_; refine State.onTc_only.after ?_; exact changesOnly_refl

theorem State.startSource_only {s : State} {t : TcId} : changesOnly [.fab, .cc, .pp, .tca, .tcb] s (State.startSource s t) := by
  unfold State.startSource; refine State.onTc_only.after ?_; refine State.startPath_only.after ?_; exact changesOnly_refl

theorem State.vconnOn_only {s : State} {t : TcId} : changesOnly [.tca, .tcb] s (State.vconnOn s t) := by
  unfold State.vconnOn; refine State.onTc_only.after ?_; exact changesOnly_refl

theorem State.detach_only {before s : State} {t : TcId} :
    changesOnly [.sys, .qs, .bus, .fab, .cc, .pp, .sw, .seq, .mb, .nvm, .tca, .tcb] s (State.detach before s t) := by
  unfold State.detach; dsimp only; refine State.dormNext_only.after ?_; refine State.sinkEnded_only.after ?_
  refine State.onTc_only.after ?_; refine State.setPresent_only.after ?_; refine State.setLearn_only.after ?_
  refine State.vbusRest_only.after ?_; refine State.endPath_only.after ?_; refine State.eprEnd_only.after ?_
  refine State.frsDisarm_only.after ?_; refine State.withdrawBoxes_only.after ?_; refine State.authDetach_only.after ?_
  refine State.swapDetach_only.after ?_; refine State.attachEvent_only.after ?_; exact changesOnly_refl

theorem State.eprTry_only {s : State} {t : TcId} : changesOnly [.tca, .tcb] s (State.eprTry s t) := by
  unfold State.eprTry; dsimp only; refine ite_only (fun _ => ?_) (fun _ => ?_); refine State.tx_only.after ?_
  refine State.onTc_only.after ?_; exact changesOnly_refl; exact changesOnly_refl

theorem State.authStart_only {s : State} {t : TcId} : changesOnly [.tca, .tcb] s (State.authStart s t) := by
  unfold State.authStart; refine State.tx_only.after ?_; refine State.onTc_only.after ?_; exact changesOnly_refl

theorem State.authMaybe_only {s : State} {t : TcId} : changesOnly [.tca, .tcb] s (State.authMaybe s t) := by
  unfold State.authMaybe; dsimp only; refine when_only ?_ (fun _ => ?_); exact changesOnly_refl
  refine State.authStart_only.after ?_; exact changesOnly_refl

theorem State.reEvalNow_only {s : State} {t : TcId} : changesOnly [.qs, .tca, .tcb, .free] s (State.reEvalNow s t) := by
  unfold State.reEvalNow; refine when_only ?_ (fun _ => ?_); exact changesOnly_refl; refine when_only ?_ (fun _ => ?_)
  refine State.onTc_only.after ?_; exact changesOnly_refl; refine when_only ?_ (fun _ => ?_); exact changesOnly_refl
  refine State.negotiate_only.after ?_; exact changesOnly_refl

theorem State.fallBack_only {s : State} {t : TcId} : changesOnly [.qs, .tca, .tcb, .free] s (State.fallBack s t) := by
  unfold State.fallBack; split; exact changesOnly_refl; split; refine State.tcEvent_only.after ?_
  refine State.sendReq_only.after ?_; refine State.onTc_only.after ?_; exact changesOnly_refl
  refine State.reEvalNow_only.after ?_; refine State.onTc_only.after ?_; exact changesOnly_refl

theorem State.tcReeval_only {s : State} {t : TcId} :
    changesOnly [.sys, .qs, .fab, .cc, .pp, .sw, .mb, .tca, .tcb, .free] s (State.tcReeval s t) := by
  unfold State.tcReeval; dsimp only; refine ite_only (fun _ => ?_) (fun _ => ?_); refine State.eprTry_only.after ?_
  refine ite_only (fun _ => ?_) (fun _ => ?_); refine State.onTc_only.after ?_; refine State.eprLeave_only.after ?_
  exact changesOnly_refl; refine when_only ?_ (fun _ => ?_); refine State.eprLeave_only.after ?_; exact changesOnly_refl
  refine State.negotiate_only.after ?_; exact changesOnly_refl; refine ite_only (fun _ => ?_) (fun _ => ?_)
  refine ite_only (fun _ => ?_) (fun _ => ?_); refine State.srcMustEnd_only.after ?_; exact changesOnly_refl
  refine State.capsChange_only.after ?_; exact changesOnly_refl; exact changesOnly_refl

end Sys2Proof.Machine
end

