-- ==== Sys2Proof/Laws/OnlyModeOps.lean ====
section
/-! SUPPORT. Which parts of the state each operation of Machine/ModeOps.lean may change. -/
namespace Sys2Proof.Machine

set_option Elab.async false
open Sys2Proof.Safety

theorem State.aonOn_only {s : State} {boot : Byte} {wake : BitVec 16} :
    changesOnly [.clk, .sys, .qs, .bus, .grd, .fab, .cc, .pp, .chg, .ms, .sw, .seq, .flt, .wd, .mb, .stk, .nvm, .tca, .tcb, .free]
      s (State.aonOn s boot wake) := by
  simp [changesOnly, State.aonOn]

theorem State.limpTo_only {s0 : State} {src : Option PortId} : changesOnly [.sys, .fab, .pp] s0 (State.limpTo s0 src) := by
  unfold State.limpTo; dsimp only; split; refine State.setVbus_only.after ?_; refine onSys_only.after ?_
  refine onFab_only.after ?_; refine when_only ?_ (fun _ => ?_); exact changesOnly_refl; refine State.bringUp_only.after ?_
  exact changesOnly_refl; refine onSys_only.after ?_; refine onFab_only.after ?_; refine when_only ?_ (fun _ => ?_)
  exact changesOnly_refl; refine State.bringUp_only.after ?_; exact changesOnly_refl

theorem State.limpOn_only {s : State} : changesOnly [.sys, .fab, .pp] s (State.limpOn s) := by
  unfold State.limpOn; refine State.limpTo_only.after ?_; exact changesOnly_refl

theorem State.romStart_only {s : State} : changesOnly [.clk, .sys] s (State.romStart s) := by
  unfold State.romStart; refine ite_only (fun _ => ?_) (fun _ => ?_); exact changesOnly_refl; refine onSys_only.after ?_
  refine onClk_only.after ?_; exact changesOnly_refl

theorem State.cpuLost_only {s : State} : changesOnly [.bus, .fab, .cc, .pp, .chg, .ms, .sw, .flt, .wd] s (State.cpuLost s) := by
  unfold State.cpuLost; dsimp only; refine onFlt_only.after ?_; refine onBus_only.after ?_; refine onPp_only.after ?_
  refine onWd_only.after ?_; refine onSw_only.after ?_; refine onMs_only.after ?_; refine onChg_only.after ?_
  refine onCc_only.after ?_; refine onFab_only.after ?_; exact changesOnly_refl

theorem State.hostLost_only {s : State} : changesOnly [.bus] s (State.hostLost s) := by
  unfold State.hostLost; refine onBus_only.after ?_; exact changesOnly_refl

theorem State.quietStart_only {s : State} : changesOnly [.flt] s (State.quietStart s) := by
  unfold State.quietStart; refine onFlt_only.after ?_; exact changesOnly_refl

theorem State.memberUnfence_only {s before : State} : changesOnly [.qs, .free] s (State.memberUnfence s before) := by
  unfold State.memberUnfence; refine when_only ?_ (fun _ => ?_); exact changesOnly_refl; refine foldl_only ?_ (fun _ _ => ?_)
  refine useFree_only.after ?_; exact changesOnly_refl; refine State.raise_only.after ?_; exact changesOnly_refl

theorem State.resetUnfence_only {s before : State} : changesOnly [.qs, .free] s (State.resetUnfence s before) := by
  unfold State.resetUnfence; dsimp only; refine State.memberUnfence_only.after ?_; refine foldl_only ?_ (fun _ _ => ?_)
  refine foldl_only ?_ (fun _ _ => ?_); exact changesOnly_refl; refine State.raise_only.after ?_; exact changesOnly_refl
  refine State.raise_only.after ?_; exact changesOnly_refl

theorem State.moduleReset_only {s : State} {boot : Byte} :
    changesOnly [.clk, .sys, .qs, .bus, .grd, .fab, .cc, .pp, .chg, .ms, .sw, .seq, .flt, .wd, .mb, .stk, .nvm, .tca, .tcb, .free]
      s (State.moduleReset s boot) := by
  unfold State.moduleReset; refine ite_only (fun _ => ?_) (fun _ => ?_); exact changesOnly_refl; dsimp only
  refine State.romStart_only.after ?_; refine State.limpOn_only.after ?_; refine State.batHw_only.after ?_
  refine when_only ?_ (fun _ => ?_); refine State.resetUnfence_only.after ?_; refine when_only ?_ (fun _ => ?_)
  refine onWd_only.after ?_; refine onSys_only.after ?_; refine onNvm_only.after ?_; refine onSeq_only.after ?_
  refine onStk_only.after ?_; refine onQs_only.after ?_; refine onMb_only.after ?_; refine onGrd_only.after ?_
  refine onPp_only.after ?_; refine onTcb_only.after ?_; refine onTca_only.after ?_; refine onFlt_only.after ?_
  refine State.onPhases_only.after ?_; refine onChg_only.after ?_; refine State.hostLost_only.after ?_
  refine State.cpuLost_only.after ?_; refine State.nvmCutNow_only.after ?_; refine when_only ?_ (fun _ => ?_)
  exact changesOnly_refl; refine State.quietStart_only.after ?_; exact changesOnly_refl; refine State.raise_only.after ?_
  exact changesOnly_refl; refine State.nrstoPulse_only.after ?_; exact changesOnly_refl

theorem State.dormRails_only {s : State} {code : Nat} :
    changesOnly [.qs, .bus, .pp, .seq, .mb, .nvm] s (State.dormRails s code) := by
  unfold State.dormRails; refine when_only ?_ (fun _ => ?_); exact changesOnly_refl; refine State.upRequest_only.after ?_
  refine onSeq_only.after ?_; exact changesOnly_refl

theorem State.dormCancel_only {s : State} {status : Byte} :
    changesOnly [.sys, .qs, .bus, .pp, .seq, .mb, .stk, .nvm, .tca, .tcb] s (State.dormCancel s status) := by
  unfold State.dormCancel; refine ite_only (fun _ => ?_) (fun _ => ?_); exact changesOnly_refl; dsimp only
  refine State.dormRails_only.after ?_; refine when_only ?_ (fun _ => ?_); refine onTcb_only.after ?_
  refine onTca_only.after ?_; refine onSys_only.after ?_; refine State.finishO_only.after ?_; exact changesOnly_refl
  refine onBus_only.after ?_; refine onStk_only.after ?_; exact changesOnly_refl

theorem State.dormCharge_only {s : State} : changesOnly [.qs, .ms] s (State.dormCharge s) := by
  unfold State.dormCharge; dsimp only; refine ite_only (fun _ => ?_) (fun _ => ?_); refine onMs_only.after ?_
  exact changesOnly_refl; refine ite_only (fun _ => ?_) (fun _ => ?_); refine onMs_only.after ?_; refine onMs_only.after ?_
  exact changesOnly_refl; refine State.raise_only.after ?_; refine onMs_only.after ?_; refine onMs_only.after ?_
  exact changesOnly_refl

theorem State.wakeUp_only {s : State} {mask : BitVec 16} : changesOnly [.clk, .sys, .qs, .ms, .wd] s (State.wakeUp s mask) := by
  unfold State.wakeUp; dsimp only; split; refine ite_only (fun _ => ?_) (fun _ => ?_); refine onSys_only.after ?_
  refine onClk_only.after ?_; refine onWd_only.after ?_; refine onSys_only.after ?_; refine State.dormCharge_only.after ?_
  exact changesOnly_refl; refine State.romStart_only.after ?_; refine onWd_only.after ?_; refine onSys_only.after ?_
  refine State.dormCharge_only.after ?_; exact changesOnly_refl; refine State.romStart_only.after ?_; refine onWd_only.after ?_
  refine onSys_only.after ?_; refine State.dormCharge_only.after ?_; exact changesOnly_refl

theorem State.wakeFrom_only {s : State} {mask : BitVec 16} :
    changesOnly [.clk, .sys, .qs, .bus, .pp, .ms, .seq, .wd, .mb, .stk, .nvm, .tca, .tcb] s (State.wakeFrom s mask) := by
  unfold State.wakeFrom; dsimp only; refine ite_only (fun _ => ?_) (fun _ => ?_); exact changesOnly_refl
  refine ite_only (fun _ => ?_) (fun _ => ?_); refine State.wakeUp_only.after ?_; exact changesOnly_refl
  refine ite_only (fun _ => ?_) (fun _ => ?_); refine onSys_only.after ?_; exact changesOnly_refl
  refine ite_only (fun _ => ?_) (fun _ => ?_); exact changesOnly_refl; split; refine ite_only (fun _ => ?_) (fun _ => ?_)
  refine State.raise_only.after ?_; refine State.dormRails_only.after ?_; refine State.onBox_only.after ?_
  refine onSys_only.after ?_; exact changesOnly_refl; refine State.dormCancel_only.after ?_; exact changesOnly_refl
  refine State.dormCancel_only.after ?_; exact changesOnly_refl

theorem State.applyCfg_only {s : State} {c : CfgSet} :
    changesOnly [.sys, .qs, .bus, .grd, .fab, .cc, .pp, .chg, .sw, .seq, .mb, .stk, .nvm] s (State.applyCfg s c) := by
  unfold State.applyCfg; dsimp only; refine when_only ?_ (fun _ => ?_); refine when_only ?_ (fun _ => ?_)
  refine ite_only (fun _ => ?_) (fun _ => ?_); refine State.tableApply_only.after ?_; refine when_only ?_ (fun _ => ?_)
  refine onStk_only.after ?_; refine onNvm_only.after ?_; refine onCc_only.after ?_; refine onSw_only.after ?_
  refine onChg_only.after ?_; refine onSys_only.after ?_; refine onFab_only.after ?_; refine onGrd_only.after ?_
  refine onBus_only.after ?_; exact changesOnly_refl; refine onSeq_only.after ?_; exact changesOnly_refl
  refine onSeq_only.after ?_; refine when_only ?_ (fun _ => ?_); refine onStk_only.after ?_; refine onNvm_only.after ?_
  refine onCc_only.after ?_; refine onSw_only.after ?_; refine onChg_only.after ?_; refine onSys_only.after ?_
  refine onFab_only.after ?_; refine onGrd_only.after ?_; refine onBus_only.after ?_; exact changesOnly_refl
  refine onSeq_only.after ?_; exact changesOnly_refl; refine onSeq_only.after ?_; exact changesOnly_refl
  refine State.seqDisable_only.after ?_; exact changesOnly_refl

theorem State.dormBegin_only {s : State} :
    changesOnly [.sys, .qs, .bus, .pp, .seq, .mb, .nvm, .tca, .tcb] s (State.dormBegin s) := by
  unfold State.dormBegin; refine State.dormNext_only.after ?_; refine State.tcPrep_only.after ?_
  refine State.tcPrep_only.after ?_; refine onSeq_only.after ?_; refine onSys_only.after ?_; exact changesOnly_refl

theorem State.dark_only {s : State} {m : Mode} {cut : Bool} :
    changesOnly [.clk, .sys, .qs, .bus, .grd, .fab, .cc, .pp, .chg, .ms, .sw, .seq, .flt, .wd, .mb, .stk, .nvm, .tca, .tcb, .free]
      s (State.dark s m cut) := by
  unfold State.dark; dsimp only; refine onWd_only.after ?_; refine onClk_only.after ?_; refine onSys_only.after ?_
  refine State.aonOn_only.after ?_; refine State.nvmCutNow_only.after ?_; exact changesOnly_refl

theorem State.shipCheck_only {s : State} :
    changesOnly [.clk, .sys, .qs, .bus, .grd, .fab, .cc, .pp, .chg, .ms, .sw, .seq, .flt, .wd, .mb, .stk, .nvm, .tca, .tcb, .free]
      s (State.shipCheck s) := by
  unfold State.shipCheck; refine when_only ?_ (fun _ => ?_); exact changesOnly_refl; refine State.dark_only.after ?_
  exact changesOnly_refl

theorem State.shipCancel_only {s : State} : changesOnly [.sys, .qs] s (State.shipCancel s) := by
  unfold State.shipCancel; refine ite_only (fun _ => ?_) (fun _ => ?_); refine State.raise_only.after ?_
  refine onSys_only.after ?_; exact changesOnly_refl; exact changesOnly_refl

end Sys2Proof.Machine
end

