-- ==== Sys2Proof/Laws/OnlySweepOps.lean ====
section
/-! SUPPORT. Which parts of the state each operation of Machine/SweepOps.lean may change. -/
namespace Sys2Proof.Machine

set_option Elab.async false
open Sys2Proof.Safety

theorem State.sweepAnswer_only {s : State} {k : SweepKind} {code : Nat} {part : Bool} {used : Nat} {lowest : Byte} :
    changesOnly [.sw, .mb] s (State.sweepAnswer s k code part used lowest) := by
  unfold State.sweepAnswer; refine onSw_only.after ?_; refine State.finishO_only.after ?_; exact changesOnly_refl

theorem State.sweepClose_only {s : State} {part ok : Bool} : changesOnly [.sw] s (State.sweepClose s part ok) := by
  unfold State.sweepClose; refine onSw_only.after ?_; exact changesOnly_refl

theorem State.sweepAbort_only {s : State} {code : Nat} : changesOnly [.qs, .sw, .mb, .free] s (State.sweepAbort s code) := by
  unfold State.sweepAbort; refine ite_only (fun _ => ?_) (fun _ => ?_); exact changesOnly_refl; dsimp only
  refine ite_only (fun _ => ?_) (fun _ => ?_); refine onSw_only.after ?_; refine State.raise_only.after ?_
  refine onSw_only.after ?_; refine State.sweepClose_only.after ?_; exact changesOnly_refl; refine useFree_only.after ?_
  refine State.sweepAnswer_only.after ?_; refine State.raise_only.after ?_; refine onSw_only.after ?_
  refine State.sweepClose_only.after ?_; exact changesOnly_refl

theorem State.sweepSet_only {s : State} {x : TeleItem} : changesOnly [.qs, .sw, .mb, .free] s (State.sweepSet s x) := by
  unfold State.sweepSet; refine ite_only (fun _ => ?_) (fun _ => ?_); exact changesOnly_refl; dsimp only
  refine ite_only (fun _ => ?_) (fun _ => ?_); refine onSw_only.after ?_; split; refine onSw_only.after ?_
  exact changesOnly_refl; exact changesOnly_refl; refine ite_only (fun _ => ?_) (fun _ => ?_)
  refine State.sweepAbort_only.after ?_; split; refine onSw_only.after ?_; exact changesOnly_refl; exact changesOnly_refl
  refine ite_only (fun _ => ?_) (fun _ => ?_); refine onSw_only.after ?_; split; refine onSw_only.after ?_
  exact changesOnly_refl; exact changesOnly_refl; split; refine onSw_only.after ?_; exact changesOnly_refl
  exact changesOnly_refl

theorem State.teleTake_only {s : State} {x : TeleItem} : changesOnly [.qs, .ms, .sw, .mb, .free] s (State.teleTake s x) := by
  unfold State.teleTake; refine State.sweepSet_only.after ?_; refine onMs_only.after ?_; exact changesOnly_refl

theorem State.yarrow_only {s : State} : changesOnly [.qs, .ms, .sw, .flt, .mb, .free] s (State.yarrow s) := by
  unfold State.yarrow; refine ite_only (fun _ => ?_) (fun _ => ?_); refine State.taskRan_only.after ?_
  refine onQs_only.after ?_; refine foldl_only ?_ (fun _ _ => ?_); exact changesOnly_refl; refine State.teleTake_only.after ?_
  exact changesOnly_refl; exact changesOnly_refl

theorem State.balCount_only {s : State} {ms : Nat} {l : List Nat} : changesOnly [.qs, .ms] s (State.balCount s ms l) := by
  unfold State.balCount; refine foldl_only ?_ (fun _ _ => ?_); exact changesOnly_refl; dsimp only
  refine when_only ?_ (fun _ => ?_); refine onMs_only.after ?_; exact changesOnly_refl; refine State.counterSat_only.after ?_
  refine onMs_only.after ?_; exact changesOnly_refl

theorem State.bleedStop_only {s : State} : changesOnly [.qs, .ms] s (State.bleedStop s) := by
  unfold State.bleedStop; refine ite_only (fun _ => ?_) (fun _ => ?_); exact changesOnly_refl
  refine State.balCount_only.after ?_; refine onMs_only.after ?_; exact changesOnly_refl

theorem State.sweepBegin_only {s : State} {k : SweepKind} {dis : Bool} {l : List Nat} {box : Option (Fin 4)} :
    changesOnly [.qs, .ms, .sw] s (State.sweepBegin s k dis l box) := by
  unfold State.sweepBegin; dsimp only; refine State.raise_only.after ?_; refine State.bleedStop_only.after ?_
  refine onSw_only.after ?_; exact changesOnly_refl

theorem State.sweepStop_only {s : State} : changesOnly [.qs, .sw, .mb, .free] s (State.sweepStop s) := by
  unfold State.sweepStop; refine ite_only (fun _ => ?_) (fun _ => ?_); exact changesOnly_refl
  refine ite_only (fun _ => ?_) (fun _ => ?_); dsimp only; refine onSw_only.after ?_; exact changesOnly_refl
  refine State.sweepAbort_only.after ?_; exact changesOnly_refl

theorem State.sweepRefuse_only {s : State} {k : SweepKind} {code : Nat} :
    changesOnly [.qs, .sw] s (State.sweepRefuse s k code) := by
  unfold State.sweepRefuse; refine State.raise_only.after ?_; refine onSw_only.after ?_; exact changesOnly_refl

theorem State.sweepSchedule_only {s : State} {g : SweepTrig} {k : SweepKind} :
    changesOnly [.qs, .ms, .sw] s (State.sweepSchedule s g k) := by
  unfold State.sweepSchedule; dsimp only; split; refine State.sweepBegin_only.after ?_; refine onSw_only.after ?_
  exact changesOnly_refl; refine onSw_only.after ?_; refine State.sweepRefuse_only.after ?_; refine onSw_only.after ?_
  exact changesOnly_refl

theorem State.sweepStart_only {s : State} : changesOnly [.qs, .ms, .sw] s (State.sweepStart s) := by
  unfold State.sweepStart; refine State.sweepSchedule_only.after ?_; refine onSw_only.after ?_; exact changesOnly_refl

theorem State.trigSweep_only {s : State} {g : SweepTrig} : changesOnly [.qs, .ms, .sw] s (State.trigSweep s g) := by
  unfold State.trigSweep; split; refine State.sweepStart_only.after ?_; exact changesOnly_refl
  refine State.sweepSchedule_only.after ?_; exact changesOnly_refl; refine State.sweepSchedule_only.after ?_
  exact changesOnly_refl

end Sys2Proof.Machine
end

