-- ==== Sys2Proof/Laws/OnlyFaultOps.lean ====
section
/-! SUPPORT. Which parts of the state each operation of Machine/FaultOps.lean may change. -/
namespace Sys2Proof.Machine

set_option Elab.async false
open Sys2Proof.Safety

theorem State.onRec_only {s : State} {no : Nat} {f : FaultRec → FaultRec} : changesOnly [.flt] s (State.onRec s no f) := by
  unfold State.onRec; refine onFlt_only.after ?_; exact changesOnly_refl

theorem State.recAdd_only {s : State} {no n : Nat} : changesOnly [.qs, .flt] s (State.recAdd s no n) := by
  unfold State.recAdd; split; dsimp only; refine when_only ?_ (fun _ => ?_); refine State.onRec_only.after ?_
  exact changesOnly_refl; refine State.counterSat_only.after ?_; exact changesOnly_refl; exact changesOnly_refl

theorem State.recSort_only {s : State} {no : Nat} : changesOnly [.flt] s (State.recSort s no) := by
  unfold State.recSort; split; refine onFlt_only.after ?_; exact changesOnly_refl; exact changesOnly_refl

theorem State.recFold_only {s : State} {no : Nat} {st : Stamp} {source : BitVec 16} {detail : Nat} {inj : Bool} :
    changesOnly [.flt] s (State.recFold s no st source detail inj) := by
  unfold State.recFold; dsimp only; refine when_only ?_ (fun _ => ?_); refine onFlt_only.after ?_
  refine State.onRec_only.after ?_; exact changesOnly_refl; refine State.recSort_only.after ?_; exact changesOnly_refl

theorem State.failNote_only {s : State} {src : Nat} {cause : BitVec 16} {detail : Nat} {inj : Bool} {item : Option (Fin 14)} {member : Option (Fin 32)} :
    changesOnly [.qs, .flt] s (State.failNote s src cause detail inj item member) := by
  unfold State.failNote; dsimp only; split; split; refine State.recFold_only.after ?_; refine State.recAdd_only.after ?_
  refine onFlt_only.after ?_; exact changesOnly_refl; refine onFlt_only.after ?_; exact changesOnly_refl; split
  refine State.recFold_only.after ?_; refine State.recAdd_only.after ?_; exact changesOnly_refl; refine onFlt_only.after ?_
  exact changesOnly_refl

theorem State.fpEnd_only {s : State} : changesOnly [.qs, .grd] s (State.fpEnd s) := by
  unfold State.fpEnd; refine ite_only (fun _ => ?_) (fun _ => ?_); refine State.raise_only.after ?_; refine onGrd_only.after ?_
  exact changesOnly_refl; exact changesOnly_refl

theorem State.holdSources_only {s : State} :
    changesOnly [.sys, .qs, .bus, .fab, .cc, .pp, .sw, .seq, .mb, .nvm, .tca, .tcb] s (State.holdSources s) := by
  unfold State.holdSources; dsimp only; refine when_only ?_ (fun _ => ?_); refine when_only ?_ (fun _ => ?_)
  exact changesOnly_refl; refine State.hardReset_only.after ?_; exact changesOnly_refl; refine State.hardReset_only.after ?_
  exact changesOnly_refl

theorem State.injDisarm_only {s : State} : changesOnly [.grd] s (State.injDisarm s) := by
  unfold State.injDisarm; refine onGrd_only.after ?_; exact changesOnly_refl

theorem State.tuneDrop_only {s : State} : changesOnly [.cc, .mb] s (State.tuneDrop s) := by
  unfold State.tuneDrop; dsimp only; refine foldl_only ?_ (fun _ _ => ?_); refine onCc_only.after ?_; exact changesOnly_refl
  refine State.finishO_only.after ?_; exact changesOnly_refl

theorem State.holdEffects_only {s : State} :
    changesOnly [.sys, .qs, .bus, .grd, .fab, .cc, .pp, .chg, .sw, .seq, .mb, .stk, .nvm, .tca, .tcb, .free]
      s (State.holdEffects s) := by
  unfold State.holdEffects; dsimp only; refine when_only ?_ (fun _ => ?_); refine State.frsDisarm_only.after ?_
  refine State.frsDisarm_only.after ?_; refine State.switchIdle_only.after ?_; refine State.suspend_only.after ?_
  refine State.tuneDrop_only.after ?_; refine State.sweepAbort_only.after ?_; refine State.injDisarm_only.after ?_
  refine State.fpEnd_only.after ?_; refine State.dormCancel_only.after ?_; exact changesOnly_refl
  refine State.holdSources_only.after ?_; exact changesOnly_refl

theorem State.holdLatch_only {s : State} {src : Nat} {cause : BitVec 16} {cls : Nat} :
    changesOnly [.sys, .qs, .flt] s (State.holdLatch s src cause cls) := by
  unfold State.holdLatch; dsimp only; refine when_only ?_ (fun _ => ?_); refine onSys_only.after ?_; refine onFlt_only.after ?_
  exact changesOnly_refl; refine State.raise_only.after ?_; exact changesOnly_refl

theorem State.lfLostCount_only {s : State} : changesOnly [.qs, .flt] s (State.lfLostCount s) := by
  unfold State.lfLostCount; refine ite_only (fun _ => ?_) (fun _ => ?_); dsimp only; refine when_only ?_ (fun _ => ?_)
  refine onFlt_only.after ?_; exact changesOnly_refl; refine State.counterSat_only.after ?_; refine onFlt_only.after ?_
  exact changesOnly_refl; exact changesOnly_refl

theorem State.lfCapture_only {s : State} {hw : Bool} {source cause : BitVec 16} {cls : Nat} :
    changesOnly [.qs, .flt] s (State.lfCapture s hw source cause cls) := by
  unfold State.lfCapture; refine ite_only (fun _ => ?_) (fun _ => ?_); dsimp only; refine onFlt_only.after ?_
  exact changesOnly_refl; refine State.lfLostCount_only.after ?_; exact changesOnly_refl

theorem State.outputsSafe_only {s : State} {opens : Bool} :
    changesOnly [.sys, .qs, .fab, .cc, .pp, .sw, .flt] s (State.outputsSafe s opens) := by
  unfold State.outputsSafe; dsimp only; refine onFab_only.after ?_; refine onFlt_only.after ?_; refine onPp_only.after ?_
  refine onSys_only.after ?_; refine State.pathsOff_only.after ?_; refine State.gatesOff_only.after ?_; exact changesOnly_refl

theorem State.forcedSafe_only {s : State} {src : Nat} {cause : BitVec 16} :
    changesOnly [.clk, .sys, .qs, .bus, .grd, .fab, .cc, .pp, .chg, .ms, .sw, .seq, .flt, .wd, .mb, .stk, .nvm, .tca, .tcb, .free]
      s (State.forcedSafe s src cause) := by
  unfold State.forcedSafe; dsimp only; refine when_only ?_ (fun _ => ?_); refine State.holdEffects_only.after ?_
  refine State.holdLatch_only.after ?_; refine State.outputsSafe_only.after ?_; refine State.lfCapture_only.after ?_
  exact changesOnly_refl; refine State.wakeFrom_only.after ?_; exact changesOnly_refl

theorem State.electJoin_only {s : State} {r : FaultRep} : changesOnly [.stk] s (State.electJoin s r) := by
  unfold State.electJoin; refine onStk_only.after ?_; exact changesOnly_refl

theorem State.frecLost_only {s : State} : changesOnly [.qs, .flt] s (State.frecLost s) := by
  unfold State.frecLost; refine ite_only (fun _ => ?_) (fun _ => ?_); dsimp only; refine when_only ?_ (fun _ => ?_)
  refine onFlt_only.after ?_; exact changesOnly_refl; refine State.counterSat_only.after ?_; refine onFlt_only.after ?_
  exact changesOnly_refl; exact changesOnly_refl

theorem State.frepSend_only {s : State} {r : FaultRec} : changesOnly [.qs, .stk] s (State.frepSend s r) := by
  unfold State.frepSend; refine ite_only (fun _ => ?_) (fun _ => ?_); refine ite_only (fun _ => ?_) (fun _ => ?_)
  refine onStk_only.after ?_; refine onQs_only.after ?_; exact changesOnly_refl; refine State.drop_only.after ?_
  exact changesOnly_refl; exact changesOnly_refl

theorem State.openRec_only {s : State} {r : FaultRec} {own : Bool} :
    changesOnly [.qs, .seq, .flt, .stk, .nvm] s (State.openRec s r own) := by
  unfold State.openRec; dsimp only; split; refine when_only ?_ (fun _ => ?_); refine State.frecLost_only.after ?_
  exact changesOnly_refl; refine State.snap_only.after ?_; exact changesOnly_refl; refine when_only ?_ (fun _ => ?_)
  refine when_only ?_ (fun _ => ?_); refine when_only ?_ (fun _ => ?_); refine when_only ?_ (fun _ => ?_)
  refine when_only ?_ (fun _ => ?_); refine State.raiseRec_only.after ?_; refine onFlt_only.after ?_; refine onFlt_only.after ?_
  exact changesOnly_refl; refine State.frepSend_only.after ?_; exact changesOnly_refl; refine State.electJoin_only.after ?_
  exact changesOnly_refl; refine State.snap_only.after ?_; exact changesOnly_refl; refine State.quietStart_only.after ?_
  exact changesOnly_refl; refine State.counterSat_only.after ?_; exact changesOnly_refl

theorem State.checkerFail_only {s : State} {src : Nat} {cause : BitVec 16} {detail : Nat} {inj : Bool} {item : Option (Fin 14)} {member : Option (Fin 32)} :
    changesOnly [.clk, .sys, .qs, .bus, .grd, .fab, .cc, .pp, .chg, .ms, .sw, .seq, .flt, .wd, .mb, .stk, .nvm, .tca, .tcb, .free]
      s (State.checkerFail s src cause detail inj item member) := by
  unfold State.checkerFail; refine ite_only (fun _ => ?_) (fun _ => ?_); dsimp only; refine onFlt_only.after ?_
  refine State.openRec_only.after ?_; refine State.forcedSafe_only.after ?_; exact changesOnly_refl
  refine State.failNote_only.after ?_; exact changesOnly_refl

theorem State.fencePhase_only {s : State} {i : Nat} : changesOnly [.sys, .qs, .fab, .pp, .sw] s (State.fencePhase s i) := by
  unfold State.fencePhase; dsimp only; refine ite_only (fun _ => ?_) (fun _ => ?_); exact changesOnly_refl; split
  refine State.portRest_only.after ?_; refine State.vbusRest_only.after ?_; refine State.reAngle_only.after ?_; split
  refine State.portRest_only.after ?_; refine State.vbusRest_only.after ?_; refine State.place_only.after ?_
  refine State.onPhase_only.after ?_; exact changesOnly_refl; refine State.place_only.after ?_
  refine State.onPhase_only.after ?_; exact changesOnly_refl; split; refine State.portRest_only.after ?_
  refine State.vbusRest_only.after ?_; refine State.place_only.after ?_; refine State.onPhase_only.after ?_
  exact changesOnly_refl; refine State.place_only.after ?_; refine State.onPhase_only.after ?_; exact changesOnly_refl

theorem State.fenceTc_only {s : State} {t : TcId} : changesOnly [.qs, .mb, .tca, .tcb] s (State.fenceTc s t) := by
  unfold State.fenceTc; dsimp only; refine State.onTc_only.after ?_; refine State.frsDisarm_only.after ?_
  refine State.authDetach_only.after ?_; refine State.finishO_only.after ?_; refine State.finishO_only.after ?_
  exact changesOnly_refl

theorem State.fenceAct_only {s : State} {b : Nat} :
    changesOnly [.sys, .qs, .fab, .cc, .pp, .chg, .sw, .seq, .mb, .nvm, .tca, .tcb] s (State.fenceAct s b) := by
  unfold State.fenceAct; refine ite_only (fun _ => ?_) (fun _ => ?_); refine State.fencePhase_only.after ?_
  exact changesOnly_refl; refine ite_only (fun _ => ?_) (fun _ => ?_); dsimp only; refine State.domRequest_only.after ?_
  refine foldl_only ?_ (fun _ _ => ?_); exact changesOnly_refl; refine State.fencePhase_only.after ?_; exact changesOnly_refl
  refine ite_only (fun _ => ?_) (fun _ => ?_); refine State.portRest_only.after ?_; refine State.sinkEnded_only.after ?_
  refine State.fenceTc_only.after ?_; refine State.endPath_only.after ?_; exact changesOnly_refl
  refine ite_only (fun _ => ?_) (fun _ => ?_); refine State.portRest_only.after ?_; refine State.sinkEnded_only.after ?_
  refine State.fenceTc_only.after ?_; refine State.endPath_only.after ?_; exact changesOnly_refl
  refine ite_only (fun _ => ?_) (fun _ => ?_); refine State.portRest_only.after ?_; refine State.sinkEnded_only.after ?_
  refine State.endPath_only.after ?_; exact changesOnly_refl; refine ite_only (fun _ => ?_) (fun _ => ?_)
  refine onTca_only.after ?_; exact changesOnly_refl; refine ite_only (fun _ => ?_) (fun _ => ?_); refine onTcb_only.after ?_
  exact changesOnly_refl; refine ite_only (fun _ => ?_) (fun _ => ?_); refine State.suspend_only.after ?_
  refine State.switchOff_only.after ?_; exact changesOnly_refl; refine ite_only (fun _ => ?_) (fun _ => ?_)
  refine State.suspend_only.after ?_; exact changesOnly_refl; refine ite_only (fun _ => ?_) (fun _ => ?_)
  refine onSeq_only.after ?_; refine State.railOff_only.after ?_; exact changesOnly_refl; exact changesOnly_refl

theorem State.modeFix_only {s : State} : changesOnly [.sys, .flt] s (State.modeFix s) := by
  unfold State.modeFix; dsimp only; refine onFlt_only.after ?_; refine when_only ?_ (fun _ => ?_); exact changesOnly_refl
  refine onSys_only.after ?_; exact changesOnly_refl

theorem State.fenceUnit_only {s : State} {b : Nat} {cause : BitVec 16} :
    changesOnly [.sys, .qs, .fab, .cc, .pp, .chg, .sw, .seq, .flt, .mb, .nvm, .tca, .tcb] s (State.fenceUnit s b cause) := by
  unfold State.fenceUnit; dsimp only; refine State.modeFix_only.after ?_; refine State.raise_only.after ?_
  refine State.fenceAct_only.after ?_; refine onFlt_only.after ?_; exact changesOnly_refl

theorem State.hold3_only {s : State} {src : Nat} {cause : BitVec 16} :
    changesOnly [.sys, .qs, .bus, .grd, .fab, .cc, .pp, .chg, .sw, .seq, .flt, .mb, .stk, .nvm, .tca, .tcb, .free]
      s (State.hold3 s src cause) := by
  unfold State.hold3; refine State.holdEffects_only.after ?_; refine State.holdLatch_only.after ?_
  refine State.outputsSafe_only.after ?_; refine State.lfCapture_only.after ?_; exact changesOnly_refl

theorem State.noPhasesCheck_only {s : State} {before : Bool} :
    changesOnly [.sys, .qs, .bus, .grd, .fab, .cc, .pp, .chg, .sw, .seq, .flt, .mb, .stk, .nvm, .tca, .tcb, .free]
      s (State.noPhasesCheck s before) := by
  unfold State.noPhasesCheck; refine ite_only (fun _ => ?_) (fun _ => ?_); refine State.openRec_only.after ?_
  refine State.hold3_only.after ?_; exact changesOnly_refl; exact changesOnly_refl

theorem State.railEvent_only {s : State} {p : PendFail} {cls : Nat} : changesOnly [.qs] s (State.railEvent s p cls) := by
  unfold State.railEvent; refine ite_only (fun _ => ?_) (fun _ => ?_); refine State.raise_only.after ?_; exact changesOnly_refl
  exact changesOnly_refl

theorem State.railLasting_only {s : State} {p : PendFail} :
    changesOnly [.sys, .qs, .bus, .pp, .seq, .mb, .nvm] s (State.railLasting s p) := by
  unfold State.railLasting; dsimp only; refine ite_only (fun _ => ?_) (fun _ => ?_); refine ite_only (fun _ => ?_) (fun _ => ?_)
  refine State.upNext_only.after ?_; refine State.downCause_only.after ?_; refine onSeq_only.after ?_
  refine State.snap_only.after ?_; exact changesOnly_refl; refine State.downCause_only.after ?_; refine State.snap_only.after ?_
  exact changesOnly_refl; refine ite_only (fun _ => ?_) (fun _ => ?_); refine State.snap_only.after ?_; exact changesOnly_refl
  exact changesOnly_refl

theorem State.retDiscard_only {s : State} {item : Fin 14} :
    changesOnly [.sys, .chg, .ms, .sw, .flt, .wd, .stk] s (State.retDiscard s item) := by
  unfold State.retDiscard; split; refine onWd_only.after ?_; exact changesOnly_refl; refine onSys_only.after ?_
  exact changesOnly_refl; refine onFlt_only.after ?_; exact changesOnly_refl; refine onFlt_only.after ?_; exact changesOnly_refl
  refine onFlt_only.after ?_; exact changesOnly_refl; refine onFlt_only.after ?_; exact changesOnly_refl
  refine onFlt_only.after ?_; exact changesOnly_refl; refine onWd_only.after ?_; exact changesOnly_refl
  refine onChg_only.after ?_; exact changesOnly_refl; refine onMs_only.after ?_; exact changesOnly_refl
  refine onSw_only.after ?_; exact changesOnly_refl; refine onSys_only.after ?_; exact changesOnly_refl
  refine onStk_only.after ?_; exact changesOnly_refl; refine onSys_only.after ?_; exact changesOnly_refl

theorem State.framesRefused_only {s : State} : changesOnly [.qs, .stk] s (State.framesRefused s) := by
  unfold State.framesRefused; refine State.raise_only.after ?_; refine onStk_only.after ?_; exact changesOnly_refl

theorem State.memberFence_only {s : State} {k : Nat} {cause : Nat} :
    changesOnly [.sys, .qs, .flt, .stk] s (State.memberFence s k cause) := by
  unfold State.memberFence; refine ite_only (fun _ => ?_) (fun _ => ?_); exact changesOnly_refl; dsimp only
  refine State.modeFix_only.after ?_; refine State.raise_only.after ?_; refine State.raise_only.after ?_
  refine onStk_only.after ?_; exact changesOnly_refl

theorem State.slot0Yield_only {s : State} {other : Nat} : changesOnly [.qs, .stk, .free] s (State.slot0Yield s other) := by
  unfold State.slot0Yield; refine ite_only (fun _ => ?_) (fun _ => ?_); exact changesOnly_refl; refine onStk_only.after ?_
  refine State.memberUnfence_only.after ?_; exact changesOnly_refl

theorem State.stackLasting_only {s : State} {p : PendFail} :
    changesOnly [.sys, .qs, .flt, .stk, .free] s (State.stackLasting s p) := by
  unfold State.stackLasting; refine ite_only (fun _ => ?_) (fun _ => ?_); dsimp only; refine State.modeFix_only.after ?_
  refine when_only ?_ (fun _ => ?_); split; refine State.memberFence_only.after ?_; refine onFlt_only.after ?_
  exact changesOnly_refl; refine onStk_only.after ?_; refine onFlt_only.after ?_; exact changesOnly_refl
  refine State.slot0Yield_only.after ?_; refine onFlt_only.after ?_; exact changesOnly_refl
  refine State.framesRefused_only.after ?_; refine onFlt_only.after ?_; exact changesOnly_refl; refine onFlt_only.after ?_
  exact changesOnly_refl; refine State.raise_only.after ?_; exact changesOnly_refl; exact changesOnly_refl

theorem State.lasting_only {s : State} {p : PendFail} :
    changesOnly [.clk, .sys, .qs, .bus, .grd, .fab, .cc, .pp, .chg, .ms, .sw, .seq, .flt, .wd, .mb, .stk, .nvm, .tca, .tcb, .free]
      s (State.lasting s p) := by
  unfold State.lasting; dsimp only; split; split; refine State.quietStart_only.after ?_; refine State.onRec_only.after ?_
  exact changesOnly_refl; exact changesOnly_refl; refine ite_only (fun _ => ?_) (fun _ => ?_)
  refine State.moduleReset_only.after ?_; refine State.lfCapture_only.after ?_; refine State.openRec_only.after ?_
  exact changesOnly_refl; refine State.openRec_only.after ?_; refine State.hold3_only.after ?_; exact changesOnly_refl
  refine State.noPhasesCheck_only.after ?_; refine State.stackLasting_only.after ?_; refine State.railLasting_only.after ?_
  split; refine State.fenceUnit_only.after ?_; refine State.railEvent_only.after ?_; refine State.openRec_only.after ?_; split
  refine State.retDiscard_only.after ?_; exact changesOnly_refl; exact changesOnly_refl; refine State.railEvent_only.after ?_
  refine State.openRec_only.after ?_; split; refine State.retDiscard_only.after ?_; exact changesOnly_refl
  exact changesOnly_refl

theorem State.unfencePhase_only {s : State} {i : Nat} : changesOnly [.qs, .fab, .sw] s (State.unfencePhase s i) := by
  unfold State.unfencePhase; refine State.place_only.after ?_; refine State.onPhase_only.after ?_; exact changesOnly_refl

theorem State.liftAct_only {s : State} {b : Nat} : changesOnly [.sys, .qs, .fab, .pp, .sw, .seq] s (State.liftAct s b) := by
  unfold State.liftAct; refine ite_only (fun _ => ?_) (fun _ => ?_); refine when_only ?_ (fun _ => ?_); exact changesOnly_refl
  refine State.unfencePhase_only.after ?_; exact changesOnly_refl; refine ite_only (fun _ => ?_) (fun _ => ?_)
  refine State.domOn_only.after ?_; refine foldl_only ?_ (fun _ _ => ?_); exact changesOnly_refl
  refine ite_only (fun _ => ?_) (fun _ => ?_); refine State.unfencePhase_only.after ?_; exact changesOnly_refl
  exact changesOnly_refl; refine ite_only (fun _ => ?_) (fun _ => ?_); refine when_only ?_ (fun _ => ?_); exact changesOnly_refl
  refine State.domOn_only.after ?_; exact changesOnly_refl; refine ite_only (fun _ => ?_) (fun _ => ?_)
  refine when_only ?_ (fun _ => ?_); exact changesOnly_refl; refine State.domOn_only.after ?_; exact changesOnly_refl
  refine ite_only (fun _ => ?_) (fun _ => ?_); refine when_only ?_ (fun _ => ?_); exact changesOnly_refl
  refine State.domOn_only.after ?_; exact changesOnly_refl; refine ite_only (fun _ => ?_) (fun _ => ?_)
  refine State.switchClose_only.after ?_; exact changesOnly_refl; refine ite_only (fun _ => ?_) (fun _ => ?_)
  refine onSeq_only.after ?_; exact changesOnly_refl; exact changesOnly_refl

theorem State.liftFence_only {s : State} {b : Nat} :
    changesOnly [.sys, .qs, .fab, .pp, .sw, .seq, .flt] s (State.liftFence s b) := by
  unfold State.liftFence; refine ite_only (fun _ => ?_) (fun _ => ?_); dsimp only; refine State.modeFix_only.after ?_
  refine State.raise_only.after ?_; refine State.liftAct_only.after ?_; refine onFlt_only.after ?_; exact changesOnly_refl
  exact changesOnly_refl

theorem State.transientRec_only {s : State} {p : PendFail} :
    changesOnly [.qs, .fab, .seq, .flt, .stk, .nvm] s (State.transientRec s p) := by
  unfold State.transientRec; dsimp only; split; refine onFlt_only.after ?_; refine State.onRec_only.after ?_
  refine State.recAdd_only.after ?_; refine when_only ?_ (fun _ => ?_); exact changesOnly_refl
  refine State.onPhase_only.after ?_; exact changesOnly_refl; refine State.openRec_only.after ?_
  refine when_only ?_ (fun _ => ?_); exact changesOnly_refl; refine State.onPhase_only.after ?_; exact changesOnly_refl

theorem State.transient_only {s : State} {p : PendFail} :
    changesOnly [.qs, .fab, .seq, .flt, .stk, .nvm] s (State.transient s p) := by
  unfold State.transient; refine ite_only (fun _ => ?_) (fun _ => ?_); split; refine State.quietStart_only.after ?_
  refine State.onRec_only.after ?_; exact changesOnly_refl; exact changesOnly_refl; refine State.railEvent_only.after ?_
  refine State.transientRec_only.after ?_; exact changesOnly_refl

theorem State.recCount_only {s : State} : changesOnly [.qs, .flt] s (State.recCount s) := by
  unfold State.recCount; refine ite_only (fun _ => ?_) (fun _ => ?_); dsimp only; refine when_only ?_ (fun _ => ?_)
  refine onFlt_only.after ?_; exact changesOnly_refl; refine State.counterSat_only.after ?_; refine onFlt_only.after ?_
  exact changesOnly_refl; exact changesOnly_refl

theorem State.holdExit_only {s : State} {way : Nat} : changesOnly [.sys, .qs, .pp, .chg, .flt] s (State.holdExit s way) := by
  unfold State.holdExit; dsimp only; refine State.raise_only.after ?_; refine when_only ?_ (fun _ => ?_)
  refine State.switchClose_only.after ?_; refine onFlt_only.after ?_; refine onSys_only.after ?_
  refine State.recCount_only.after ?_; refine onFlt_only.after ?_; exact changesOnly_refl
  refine State.clearReason_only.after ?_; exact changesOnly_refl

end Sys2Proof.Machine
end

