-- ==== Sys2Proof/Laws/OnlyBusOps.lean ====
section
/-! SUPPORT. Which parts of the state each operation of Machine/BusOps.lean may change. -/
namespace Sys2Proof.Machine

set_option Elab.async false
open Sys2Proof.Safety

theorem State.onPort_only {s : State} {bp : BusPort} {f : PortBus → PortBus} : changesOnly [.bus] s (State.onPort s bp f) := by
  unfold State.onPort; split; refine onBus_only.after ?_; exact changesOnly_refl; refine onBus_only.after ?_
  exact changesOnly_refl

theorem State.busFlag_only {s : State} {bp : BusPort} {i : Nat} : changesOnly [.bus] s (State.busFlag s bp i) := by
  unfold State.busFlag; refine State.onPort_only.after ?_; exact changesOnly_refl

theorem State.guardFail_only {s : State} {bp : BusPort} : changesOnly [.qs, .bus] s (State.guardFail s bp) := by
  unfold State.guardFail; refine State.raise_only.after ?_; refine State.busFlag_only.after ?_
  refine State.onPort_only.after ?_; exact changesOnly_refl

/-- An accepted pair's value goes where `f` takes it; a failed pair sets a flag and raises an event (R387, R388). -/
theorem State.guardPair_only {l : List Part} {s t : State} {bp g c sg} {f : Byte → State → State} (h : changesOnly l s t)
    (hf : ∀ v u, changesOnly l u (f v u)) (hl : decide ([.bus, .qs] ⊆ l) = true := by decide) :
    changesOnly l s (t.guardPair bp g c sg f) := by
  have hb : decide ([Part.bus] ⊆ l) = true := by simp at hl ⊢; exact hl.1
  have hq : decide ([Part.qs, Part.bus] ⊆ l) = true := by simp at hl ⊢; exact hl.symm
  have h1 : changesOnly l s (t.onPort bp fun p => { p with ptr := g + 0x81 }) := State.onPort_only.after h hb
  unfold State.guardPair
  split
  · exact h
  · dsimp only
    split
    · split
      · exact changesOnly_trans (State.onPort_only.after h1 hb) (hf _ _) (List.Subset.refl _)
      · exact State.guardFail_only.after h1 hq
    · exact State.guardFail_only.after h1 hq

theorem State.wrote_only {s : State} {bp : BusPort} {a : Nat} : changesOnly [.qs, .bus] s (State.wrote s bp a) := by
  unfold State.wrote; dsimp only; refine when_only ?_ (fun _ => ?_); refine State.onPort_only.after ?_; exact changesOnly_refl
  refine State.guardFail_only.after ?_; exact changesOnly_refl

theorem State.stackDormGo_only {s : State} :
    changesOnly [.sys, .qs, .bus, .pp, .seq, .mb, .stk, .nvm, .tca, .tcb] s (State.stackDormGo s) := by
  unfold State.stackDormGo; refine State.dormBegin_only.after ?_; refine onSys_only.after ?_; refine onStk_only.after ?_
  exact changesOnly_refl

theorem State.releaseAct_only {s : State} {n : Nat} {op : Nat} :
    changesOnly [.clk, .sys, .qs, .bus, .grd, .fab, .cc, .pp, .chg, .ms, .sw, .seq, .flt, .wd, .mb, .stk, .nvm, .tca, .tcb, .free]
      s (State.releaseAct s n op) := by
  unfold State.releaseAct; split; refine ite_only (fun _ => ?_) (fun _ => ?_); refine onSys_only.after ?_
  exact changesOnly_refl; exact changesOnly_refl; refine State.moduleReset_only.after ?_; exact changesOnly_refl
  refine State.moduleReset_only.after ?_; exact changesOnly_refl; refine State.stackDormGo_only.after ?_; exact changesOnly_refl
  exact changesOnly_refl

theorem State.release_only {s : State} {n : Nat} :
    changesOnly [.clk, .sys, .qs, .bus, .grd, .fab, .cc, .pp, .chg, .ms, .sw, .seq, .flt, .wd, .mb, .stk, .nvm, .tca, .tcb, .free]
      s (State.release s n) := by
  unfold State.release; dsimp only; split; refine State.onBox_only.after ?_; refine onMb_only.after ?_; exact changesOnly_refl
  refine when_only ?_ (fun _ => ?_); refine State.onBox_only.after ?_; refine onMb_only.after ?_; refine onMb_only.after ?_
  exact changesOnly_refl; refine State.releaseAct_only.after ?_; exact changesOnly_refl; refine onMb_only.after ?_
  exact changesOnly_refl; refine onMb_only.after ?_; exact changesOnly_refl; refine onMb_only.after ?_; exact changesOnly_refl

theorem State.doneBits_only {s : State} {mask : BitVec 4} :
    changesOnly [.clk, .sys, .qs, .bus, .grd, .fab, .cc, .pp, .chg, .ms, .sw, .seq, .flt, .wd, .mb, .stk, .nvm, .tca, .tcb, .free]
      s (State.doneBits s mask) := by
  unfold State.doneBits; refine foldl_only ?_ (fun _ _ => ?_); exact changesOnly_refl
  refine ite_only (fun _ => ?_) (fun _ => ?_); exact changesOnly_refl; refine ite_only (fun _ => ?_) (fun _ => ?_)
  refine State.release_only.after ?_; exact changesOnly_refl; refine onMb_only.after ?_; exact changesOnly_refl

theorem State.ringOne_only {s : State} {n : Fin 4} : changesOnly [.qs, .mb] s (State.ringOne s n) := by
  unfold State.ringOne; refine ite_only (fun _ => ?_) (fun _ => ?_); refine onMb_only.after ?_; exact changesOnly_refl
  refine ite_only (fun _ => ?_) (fun _ => ?_); refine State.raise_only.after ?_; exact changesOnly_refl
  refine onMb_only.after ?_; exact changesOnly_refl

theorem State.ringBits_only {s : State} {mask : BitVec 4} : changesOnly [.qs, .mb] s (State.ringBits s mask) := by
  unfold State.ringBits; refine foldl_only ?_ (fun _ _ => ?_); exact changesOnly_refl
  refine ite_only (fun _ => ?_) (fun _ => ?_); refine State.ringOne_only.after ?_; exact changesOnly_refl
  exact changesOnly_refl

theorem State.doorbell_only {s : State} {rings dones : BitVec 4} :
    changesOnly [.clk, .sys, .qs, .bus, .grd, .fab, .cc, .pp, .chg, .ms, .sw, .seq, .flt, .wd, .mb, .stk, .nvm, .tca, .tcb, .free]
      s (State.doorbell s rings dones) := by
  unfold State.doorbell; refine State.takeRings_only.after ?_; refine State.ringBits_only.after ?_
  refine State.doneBits_only.after ?_; exact changesOnly_refl

theorem State.doorbellHeld_only {s : State} :
    changesOnly [.clk, .sys, .qs, .bus, .grd, .fab, .cc, .pp, .chg, .ms, .sw, .seq, .flt, .wd, .mb, .stk, .nvm, .tca, .tcb, .free]
      s (State.doorbellHeld s) := by
  unfold State.doorbellHeld; dsimp only; refine State.doorbell_only.after ?_; refine onMb_only.after ?_; exact changesOnly_refl

end Sys2Proof.Machine
end

