-- ==== Sys2Proof/Laws/OnlyWdogOps.lean ====
section
/-! SUPPORT. Which parts of the state each operation of Machine/WdogOps.lean may change. -/
namespace Sys2Proof.Machine

set_option Elab.async false
open Sys2Proof.Safety

theorem State.lateTurn_only {s : State} : changesOnly [.wd] s (State.lateTurn s) := by
  unfold State.lateTurn; dsimp only; refine onWd_only.after ?_; exact changesOnly_refl

theorem State.wdgCount_only {s : State} : changesOnly [.qs, .wd] s (State.wdgCount s) := by
  unfold State.wdgCount; refine ite_only (fun _ => ?_) (fun _ => ?_); dsimp only; refine when_only ?_ (fun _ => ?_)
  refine onWd_only.after ?_; exact changesOnly_refl; refine State.counterSat_only.after ?_; refine onWd_only.after ?_
  exact changesOnly_refl; exact changesOnly_refl

theorem State.wdgExpire_only {s : State} {kind : Nat} {early : Byte} :
    changesOnly [.clk, .sys, .qs, .bus, .grd, .fab, .cc, .pp, .chg, .ms, .sw, .seq, .flt, .wd, .mb, .stk, .nvm, .tca, .tcb, .free]
      s (State.wdgExpire s kind early) := by
  unfold State.wdgExpire; refine ite_only (fun _ => ?_) (fun _ => ?_); refine State.moduleReset_only.after ?_
  refine State.lateTurn_only.after ?_; exact changesOnly_refl; dsimp only; refine State.wdgCount_only.after ?_
  refine State.moduleReset_only.after ?_; refine onWd_only.after ?_; exact changesOnly_refl

theorem State.tierFix_only {s : State} : changesOnly [.sys] s (State.tierFix s) := by
  unfold State.tierFix; refine onSys_only.after ?_; exact changesOnly_refl

theorem State.hcwStart_only {s : State} : changesOnly [.wd] s (State.hcwStart s) := by
  unfold State.hcwStart; refine onWd_only.after ?_; exact changesOnly_refl

theorem State.wdgRecords_only {s : State} : changesOnly [.qs, .seq, .flt, .wd, .stk, .nvm] s (State.wdgRecords s) := by
  unfold State.wdgRecords; refine onWd_only.after ?_; refine foldl_only ?_ (fun _ _ => ?_); exact changesOnly_refl; dsimp only
  refine State.lfCapture_only.after ?_; refine State.openRec_only.after ?_; exact changesOnly_refl

theorem State.inboxPut_only {s : State} {i : Nat} {x : InboxItem} : changesOnly [.qs] s (State.inboxPut s i x) := by
  unfold State.inboxPut; refine ite_only (fun _ => ?_) (fun _ => ?_); refine onQs_only.after ?_; exact changesOnly_refl
  refine State.drop_only.after ?_; exact changesOnly_refl

theorem State.wdgPeriod_only {s : State} : changesOnly [.qs, .wd] s (State.wdgPeriod s) := by
  unfold State.wdgPeriod; dsimp only; refine foldl_only ?_ (fun _ _ => ?_); refine onWd_only.after ?_; exact changesOnly_refl
  refine State.inboxPut_only.after ?_; exact changesOnly_refl

theorem State.wdgStart_only {s : State} : changesOnly [.qs, .wd] s (State.wdgStart s) := by
  unfold State.wdgStart; refine when_only ?_ (fun _ => ?_); exact changesOnly_refl; refine State.wdgPeriod_only.after ?_
  exact changesOnly_refl

theorem State.wdgDup_only {s : State} {n : Nat} : changesOnly [.qs, .wd] s (State.wdgDup s n) := by
  unfold State.wdgDup; dsimp only; refine when_only ?_ (fun _ => ?_); refine onWd_only.after ?_; exact changesOnly_refl
  refine State.counterSat_only.after ?_; refine onWd_only.after ?_; exact changesOnly_refl

theorem State.wdgWrite_only {s : State} {m : BitVec 6} :
    changesOnly [.clk, .sys, .qs, .bus, .grd, .fab, .cc, .pp, .chg, .ms, .sw, .seq, .flt, .wd, .mb, .stk, .nvm, .tca, .tcb, .free]
      s (State.wdgWrite s m) := by
  unfold State.wdgWrite; refine ite_only (fun _ => ?_) (fun _ => ?_); exact changesOnly_refl
  refine ite_only (fun _ => ?_) (fun _ => ?_); refine State.wdgExpire_only.after ?_; exact changesOnly_refl
  refine ite_only (fun _ => ?_) (fun _ => ?_); dsimp only; refine ite_only (fun _ => ?_) (fun _ => ?_)
  refine State.wdgPeriod_only.after ?_; refine onWd_only.after ?_; refine State.wdgDup_only.after ?_; exact changesOnly_refl
  refine onWd_only.after ?_; refine State.wdgDup_only.after ?_; exact changesOnly_refl; exact changesOnly_refl

theorem State.hcwExpire_only {s : State} : changesOnly [.sys, .qs, .chg, .seq, .flt, .wd, .stk, .nvm] s (State.hcwExpire s) := by
  unfold State.hcwExpire; dsimp only; refine State.tierFix_only.after ?_; refine State.raise_only.after ?_
  refine onChg_only.after ?_; refine onWd_only.after ?_; refine State.raise_only.after ?_; refine State.openRec_only.after ?_
  exact changesOnly_refl

theorem State.hcwServe_only {s : State} {at_ : Nat} :
    changesOnly [.sys, .qs, .chg, .seq, .flt, .wd, .stk, .nvm] s (State.hcwServe s at_) := by
  unfold State.hcwServe; dsimp only; refine State.tierFix_only.after ?_; refine onSys_only.after ?_; refine onChg_only.after ?_
  refine onWd_only.after ?_; refine when_only ?_ (fun _ => ?_); exact changesOnly_refl; refine State.hcwExpire_only.after ?_
  exact changesOnly_refl

theorem State.hcwKick_only {s : State} {bp : BusPort} {v : Byte} :
    changesOnly [.sys, .qs, .chg, .seq, .flt, .wd, .stk, .nvm] s (State.hcwKick s bp v) := by
  unfold State.hcwKick; refine ite_only (fun _ => ?_) (fun _ => ?_); dsimp only; refine ite_only (fun _ => ?_) (fun _ => ?_)
  refine onWd_only.after ?_; exact changesOnly_refl; refine ite_only (fun _ => ?_) (fun _ => ?_)
  refine State.hcwServe_only.after ?_; refine onWd_only.after ?_; exact changesOnly_refl; refine onWd_only.after ?_
  refine onWd_only.after ?_; exact changesOnly_refl; refine onWd_only.after ?_; exact changesOnly_refl

end Sys2Proof.Machine
end

