-- ==== Sys2Proof/Laws/OnlySequencer.lean ====
section
/-! SUPPORT. Which parts of the state each operation of Machine/Sequencer.lean may change. -/
namespace Sys2Proof.Machine

set_option Elab.async false
open Sys2Proof.Safety

theorem State.liftRails_only {s : State} : changesOnly [.sys, .qs, .fab, .pp, .sw, .seq, .flt] s (State.liftRails s) := by
  unfold State.liftRails; refine foldl_only ?_ (fun _ _ => ?_); exact changesOnly_refl; refine State.liftFence_only.after ?_
  exact changesOnly_refl

theorem State.setGood_only {s : State} {r : Nat} {v : Bool} : changesOnly [.seq] s (State.setGood s r v) := by
  unfold State.setGood; refine onSeq_only.after ?_; exact changesOnly_refl

theorem State.railGood_only {s : State} {r : Nat} : changesOnly [.sys, .qs, .bus, .pp, .seq, .mb, .nvm] s (State.railGood s r) := by
  unfold State.railGood; refine ite_only (fun _ => ?_) (fun _ => ?_); exact changesOnly_refl; dsimp only
  refine ite_only (fun _ => ?_) (fun _ => ?_); refine State.upStep_only.after ?_; refine State.setGood_only.after ?_
  exact changesOnly_refl; refine State.setGood_only.after ?_; exact changesOnly_refl

theorem State.railFell_only {s : State} {r : Nat} : changesOnly [.qs, .seq, .flt] s (State.railFell s r) := by
  unfold State.railFell; refine ite_only (fun _ => ?_) (fun _ => ?_); exact changesOnly_refl
  refine ite_only (fun _ => ?_) (fun _ => ?_); refine State.setGood_only.after ?_; exact changesOnly_refl
  refine State.failNote_only.after ?_; refine State.setGood_only.after ?_; exact changesOnly_refl

theorem State.seqUpCmd_only {s : State} {n : Fin 4} :
    changesOnly [.sys, .qs, .bus, .fab, .pp, .sw, .seq, .flt, .mb, .nvm] s (State.seqUpCmd s n) := by
  unfold State.seqUpCmd; refine ite_only (fun _ => ?_) (fun _ => ?_); refine State.finish_only.after ?_; exact changesOnly_refl
  dsimp only; refine ite_only (fun _ => ?_) (fun _ => ?_); refine State.finish_only.after ?_; exact changesOnly_refl
  refine ite_only (fun _ => ?_) (fun _ => ?_); refine State.finish_only.after ?_; refine onSeq_only.after ?_
  refine when_only ?_ (fun _ => ?_); exact changesOnly_refl; refine State.liftRails_only.after ?_; exact changesOnly_refl
  refine ite_only (fun _ => ?_) (fun _ => ?_); refine State.finish_only.after ?_; refine onSeq_only.after ?_
  refine when_only ?_ (fun _ => ?_); exact changesOnly_refl; refine State.liftRails_only.after ?_; exact changesOnly_refl
  refine State.upRequest_only.after ?_; refine onSeq_only.after ?_; refine State.accept_only.after ?_
  refine when_only ?_ (fun _ => ?_); exact changesOnly_refl; refine State.liftRails_only.after ?_; exact changesOnly_refl

theorem State.seqDownCmd_only {s : State} {n : Fin 4} :
    changesOnly [.sys, .qs, .bus, .pp, .seq, .mb, .nvm] s (State.seqDownCmd s n) := by
  unfold State.seqDownCmd; refine ite_only (fun _ => ?_) (fun _ => ?_); refine State.finish_only.after ?_
  exact changesOnly_refl; refine ite_only (fun _ => ?_) (fun _ => ?_); refine State.finish_only.after ?_; exact changesOnly_refl
  refine State.downRequest_only.after ?_; refine onSeq_only.after ?_; refine State.accept_only.after ?_; exact changesOnly_refl

end Sys2Proof.Machine
end

