-- ==== Sys2Proof/Laws/OnlyFault.lean ====
section
/-! SUPPORT. Which parts of the state each operation of Machine/Fault.lean may change. -/
namespace Sys2Proof.Machine

set_option Elab.async false
open Sys2Proof.Safety

theorem State.finjCheck_only {s : State} : changesOnly [.qs, .grd] s (State.finjCheck s) := by
  unfold State.finjCheck; split; refine ite_only (fun _ => ?_) (fun _ => ?_); exact changesOnly_refl
  refine State.raise_only.after ?_; refine onGrd_only.after ?_; exact changesOnly_refl; exact changesOnly_refl

theorem State.injUse_only {s : State} : changesOnly [.grd] s (State.injUse s) := by
  unfold State.injUse; refine onGrd_only.after ?_; exact changesOnly_refl

theorem State.injectedCheck_only {s : State} {src : Nat} {cause : BitVec 16} :
    changesOnly [.qs, .grd, .flt] s (State.injectedCheck s src cause) := by
  unfold State.injectedCheck; refine State.finjCheck_only.after ?_; refine State.failNote_only.after ?_
  refine State.injUse_only.after ?_; exact changesOnly_refl

theorem State.cpuCheck_only {s : State} {src : Nat} {cause : BitVec 16} :
    changesOnly [.qs, .flt] s (State.cpuCheck s src cause) := by
  unfold State.cpuCheck; refine when_only ?_ (fun _ => ?_); exact changesOnly_refl; refine State.failNote_only.after ?_
  exact changesOnly_refl

theorem State.passAct_only {s : State} {p : PendFail} :
    changesOnly [.sys, .qs, .bus, .pp, .seq, .mb, .nvm, .tca, .tcb] s (State.passAct s p) := by
  unfold State.passAct; dsimp only; refine ite_only (fun _ => ?_) (fun _ => ?_); refine ite_only (fun _ => ?_) (fun _ => ?_)
  refine State.upStep_only.after ?_; refine State.setGood_only.after ?_; exact changesOnly_refl
  refine State.setGood_only.after ?_; exact changesOnly_refl; refine ite_only (fun _ => ?_) (fun _ => ?_)
  refine State.setGood_only.after ?_; exact changesOnly_refl; refine ite_only (fun _ => ?_) (fun _ => ?_)
  refine State.onTc_only.after ?_; exact changesOnly_refl; refine ite_only (fun _ => ?_) (fun _ => ?_)
  refine onSeq_only.after ?_; exact changesOnly_refl; exact changesOnly_refl

theorem State.evaluate_only {s : State} {p : PendFail} {passes : Bool} :
    changesOnly [.clk, .sys, .qs, .bus, .grd, .fab, .cc, .pp, .chg, .ms, .sw, .seq, .flt, .wd, .mb, .stk, .nvm, .tca, .tcb, .free]
      s (State.evaluate s p passes) := by
  unfold State.evaluate; dsimp only; refine State.finjCheck_only.after ?_; refine ite_only (fun _ => ?_) (fun _ => ?_)
  refine State.passAct_only.after ?_; refine State.transient_only.after ?_; refine when_only ?_ (fun _ => ?_)
  refine onFlt_only.after ?_; exact changesOnly_refl; refine State.injUse_only.after ?_; exact changesOnly_refl
  refine State.lasting_only.after ?_; refine when_only ?_ (fun _ => ?_); refine onFlt_only.after ?_; exact changesOnly_refl
  refine State.injUse_only.after ?_; exact changesOnly_refl

theorem State.causesMark_only {s : State} {failing : List (Nat × Nat)} : changesOnly [.flt] s (State.causesMark s failing) := by
  unfold State.causesMark; refine onFlt_only.after ?_; exact changesOnly_refl

theorem State.quietEnd_only {s : State} {failing : List (Nat × Nat)} :
    changesOnly [.sys, .qs, .pp, .chg, .flt] s (State.quietEnd s failing) := by
  unfold State.quietEnd; refine ite_only (fun _ => ?_) (fun _ => ?_); exact changesOnly_refl
  refine ite_only (fun _ => ?_) (fun _ => ?_); refine State.holdExit_only.after ?_; exact changesOnly_refl
  refine State.quietStart_only.after ?_; refine State.causesMark_only.after ?_; exact changesOnly_refl

theorem State.holdRelease_only {s : State} {bp : BusPort} {failing : List (Nat × Nat)} :
    changesOnly [.sys, .qs, .grd, .pp, .chg, .flt] s (State.holdRelease s bp failing).1 := by
  unfold State.holdRelease; split; dsimp only; refine onGrd_only.after ?_; refine State.holdExit_only.after ?_
  exact changesOnly_refl; dsimp only; refine State.raise_only.after ?_; refine onGrd_only.after ?_; exact changesOnly_refl

theorem State.fecMore_only {s : State} {f : FecRec} : changesOnly [.qs, .flt] s (State.fecMore s f) := by
  unfold State.fecMore; refine ite_only (fun _ => ?_) (fun _ => ?_); dsimp only; refine when_only ?_ (fun _ => ?_)
  refine onFlt_only.after ?_; exact changesOnly_refl; refine State.counterSat_only.after ?_; refine onFlt_only.after ?_
  exact changesOnly_refl; exact changesOnly_refl

theorem State.fecTake_only {s : State} {addr : BitVec 32} {init access : BitVec 8} {cause : BitVec 16} :
    changesOnly [.qs, .flt] s (State.fecTake s addr init access cause) := by
  unfold State.fecTake; split; refine State.fecMore_only.after ?_; exact changesOnly_refl; refine State.raise_only.after ?_
  refine onFlt_only.after ?_; exact changesOnly_refl

theorem State.finjWrite_only {s : State} {v : Byte} : changesOnly [.qs, .bus, .grd] s (State.finjWrite s v) := by
  unfold State.finjWrite; dsimp only; refine ite_only (fun _ => ?_) (fun _ => ?_); refine ite_only (fun _ => ?_) (fun _ => ?_)
  refine State.guardFail_only.after ?_; refine onGrd_only.after ?_; exact changesOnly_refl; refine onGrd_only.after ?_
  exact changesOnly_refl; refine ite_only (fun _ => ?_) (fun _ => ?_); exact changesOnly_refl; refine onGrd_only.after ?_
  exact changesOnly_refl

end Sys2Proof.Machine
end

