-- ==== Sys2Proof/Laws/OnlyStart.lean ====
section
/-! SUPPORT. Which parts of the state each operation of Machine/Start.lean may change. -/
namespace Sys2Proof.Machine

set_option Elab.async false
open Sys2Proof.Safety

theorem State.limpLeave_only {s : State} : changesOnly [.fab, .pp] s (State.limpLeave s) := by
  unfold State.limpLeave; split; refine State.vbusRest_only.after ?_; refine State.onPhase_only.after ?_
  refine State.onPath_only.after ?_; exact changesOnly_refl; exact changesOnly_refl

theorem State.limpMove_only {s : State} {src : Option PortId} :
    changesOnly [.sys, .qs, .fab, .cc, .pp, .sw] s (State.limpMove s src) := by
  unfold State.limpMove; dsimp only; refine when_only ?_ (fun _ => ?_); refine State.limpFollow_only.after ?_; split
  refine State.setVbus_only.after ?_; refine State.onPath_only.after ?_; refine State.formPath_only.after ?_
  refine State.onPhase_only.after ?_; refine onSys_only.after ?_; refine when_only ?_ (fun _ => ?_)
  refine State.limpLeave_only.after ?_; exact changesOnly_refl; refine State.bringUp_only.after ?_; exact changesOnly_refl
  refine onSys_only.after ?_; refine when_only ?_ (fun _ => ?_); refine State.limpLeave_only.after ?_; exact changesOnly_refl
  refine State.bringUp_only.after ?_; exact changesOnly_refl; refine State.place_only.after ?_; exact changesOnly_refl

theorem State.softFail_only {s : State} : changesOnly [.qs, .pp, .flt] s (State.softFail s) := by
  unfold State.softFail; dsimp only; refine when_only ?_ (fun _ => ?_); refine onPp_only.after ?_; exact changesOnly_refl
  refine State.failNote_only.after ?_; exact changesOnly_refl

theorem State.imageNext_only {s : State} : changesOnly [.sys] s (State.imageNext s) := by
  unfold State.imageNext; dsimp only; refine ite_only (fun _ => ?_) (fun _ => ?_); refine onSys_only.after ?_
  exact changesOnly_refl; split; refine onSys_only.after ?_; exact changesOnly_refl; refine onSys_only.after ?_
  exact changesOnly_refl

theorem State.modelDrop_only {s : State} : changesOnly [.sys, .sw, .mb, .free] s (State.modelDrop s) := by
  unfold State.modelDrop; dsimp only; refine State.tierFix_only.after ?_; refine onSw_only.after ?_
  refine when_only ?_ (fun _ => ?_); exact changesOnly_refl; refine useFree_only.after ?_
  refine State.sweepAnswer_only.after ?_; refine onSw_only.after ?_; exact changesOnly_refl

theorem State.batAtTier1_only {s : State} : changesOnly [.sys, .pp, .sw, .mb, .free] s (State.batAtTier1 s) := by
  unfold State.batAtTier1; dsimp only; refine ite_only (fun _ => ?_) (fun _ => ?_); refine State.switchClose_only.after ?_
  refine onPp_only.after ?_; exact changesOnly_refl; refine State.modelDrop_only.after ?_; refine State.switchOff_only.after ?_
  refine onPp_only.after ?_; exact changesOnly_refl

theorem State.fwStart_only {s : State} :
    changesOnly [.sys, .qs, .ms, .sw, .seq, .flt, .wd, .mb, .stk, .nvm, .free] s (State.fwStart s) := by
  unfold State.fwStart; dsimp only; refine State.yarrow_only.after ?_; refine State.takeRings_only.after ?_
  refine State.snapTake_only.after ?_; refine State.wdgRecords_only.after ?_; refine State.wdgStart_only.after ?_
  refine State.hcwStart_only.after ?_; refine onMs_only.after ?_; refine State.bringUp_only.after ?_; refine onSys_only.after ?_
  exact changesOnly_refl

theorem State.hrAtTier1_only {s : State} {t : TcId} :
    changesOnly [.sys, .qs, .bus, .fab, .cc, .pp, .sw, .seq, .mb, .nvm, .tca, .tcb] s (State.hrAtTier1 s t) := by
  unfold State.hrAtTier1; refine ite_only (fun _ => ?_) (fun _ => ?_); dsimp only; refine ite_only (fun _ => ?_) (fun _ => ?_)
  refine State.hardReset_only.after ?_; refine State.onTc_only.after ?_; exact changesOnly_refl
  refine State.tcEvent_only.after ?_; refine State.tx_only.after ?_; refine State.onTc_only.after ?_; exact changesOnly_refl
  exact changesOnly_refl

theorem State.imageShow_only {s : State} : changesOnly [.sys] s (State.imageShow s) := by
  unfold State.imageShow; refine onSys_only.after ?_; exact changesOnly_refl

theorem State.loadCfg_only {s : State} :
    changesOnly [.sys, .qs, .bus, .grd, .fab, .cc, .pp, .chg, .sw, .seq, .mb, .stk, .nvm] s (State.loadCfg s) := by
  unfold State.loadCfg; dsimp only; refine onBus_only.after ?_; refine onSys_only.after ?_; refine State.imageShow_only.after ?_
  refine State.applyCfg_only.after ?_; exact changesOnly_refl

theorem State.shortPress_only {s : State} {held : Nat} :
    changesOnly [.sys, .qs, .bus, .fab, .pp, .sw, .seq, .flt, .mb, .nvm] s (State.shortPress s held) := by
  unfold State.shortPress; dsimp only; split; refine State.nrstoPulse_only.after ?_; refine State.raise_only.after ?_
  exact changesOnly_refl; refine when_only ?_ (fun _ => ?_); refine State.raise_only.after ?_; exact changesOnly_refl
  refine State.upRequest_only.after ?_; refine State.liftRails_only.after ?_; exact changesOnly_refl
  refine ite_only (fun _ => ?_) (fun _ => ?_); refine when_only ?_ (fun _ => ?_); refine State.raise_only.after ?_
  exact changesOnly_refl; refine State.upRequest_only.after ?_; refine State.liftRails_only.after ?_; exact changesOnly_refl
  refine State.nrstoPulse_only.after ?_; refine State.raise_only.after ?_; exact changesOnly_refl
  refine State.raise_only.after ?_; exact changesOnly_refl

theorem State.pressTake_only {s : State} :
    changesOnly [.sys, .qs, .bus, .fab, .pp, .sw, .seq, .flt, .mb, .nvm] s (State.pressTake s) := by
  unfold State.pressTake; split; refine State.shortPress_only.after ?_; refine onSys_only.after ?_; exact changesOnly_refl
  exact changesOnly_refl

theorem State.seqTier1_only {s : State} : changesOnly [.qs, .bus, .pp, .seq, .mb, .nvm] s (State.seqTier1 s) := by
  unfold State.seqTier1; refine when_only ?_ (fun _ => ?_); exact changesOnly_refl; refine State.upRequest_only.after ?_
  exact changesOnly_refl

theorem State.tier1_only {s : State} :
    changesOnly [.clk, .sys, .qs, .bus, .grd, .fab, .cc, .pp, .chg, .ms, .sw, .seq, .flt, .wd, .mb, .stk, .nvm, .tca, .tcb, .free]
      s (State.tier1 s) := by
  unfold State.tier1; dsimp only; refine State.pressTake_only.after ?_; refine State.hrAtTier1_only.after ?_
  refine State.hrAtTier1_only.after ?_; refine State.seqTier1_only.after ?_; refine onMs_only.after ?_
  refine onChg_only.after ?_; refine onCc_only.after ?_; refine onStk_only.after ?_; refine State.fwStart_only.after ?_
  refine onClk_only.after ?_; refine ite_only (fun _ => ?_) (fun _ => ?_); refine onQs_only.after ?_; refine onSys_only.after ?_
  refine State.batAtTier1_only.after ?_; refine State.loadCfg_only.after ?_; exact changesOnly_refl
  refine State.drop_only.after ?_; refine onSys_only.after ?_; refine State.batAtTier1_only.after ?_
  refine State.loadCfg_only.after ?_; exact changesOnly_refl

theorem State.takeOver_only {s : State} {p : PortId} : changesOnly [.sys, .qs, .fab, .cc, .sw] s (State.takeOver s p) := by
  unfold State.takeOver; dsimp only; refine State.reAngle_only.after ?_; refine State.place_only.after ?_
  refine onSys_only.after ?_; refine onCc_only.after ?_; refine State.onPath_only.after ?_; refine State.onPhase_only.after ?_
  exact changesOnly_refl

theorem State.dormSwitch_only {s : State} {src : Bool} : changesOnly [.pp] s (State.dormSwitch s src) := by
  unfold State.dormSwitch; refine ite_only (fun _ => ?_) (fun _ => ?_); exact changesOnly_refl
  refine ite_only (fun _ => ?_) (fun _ => ?_); refine onPp_only.after ?_; exact changesOnly_refl; refine onPp_only.after ?_
  refine State.switchFull_only.after ?_; exact changesOnly_refl

theorem State.dormEnter_only {s : State} {count : Nat} :
    changesOnly [.clk, .sys, .qs, .bus, .grd, .fab, .cc, .pp, .chg, .ms, .sw, .seq, .flt, .wd, .stk, .tca, .tcb]
      s (State.dormEnter s count) := by
  unfold State.dormEnter; dsimp only; refine onTcb_only.after ?_; refine onTca_only.after ?_; refine onStk_only.after ?_
  refine onPp_only.after ?_; refine State.dormSwitch_only.after ?_; refine when_only ?_ (fun _ => ?_)
  refine onSys_only.after ?_; refine State.placeChanges_only.after ?_; refine State.limpTo_only.after ?_
  refine onBus_only.after ?_; refine State.dropsClear_only.after ?_; refine State.hostLost_only.after ?_
  refine State.cpuLost_only.after ?_; refine onSys_only.after ?_; refine onClk_only.after ?_; refine onGrd_only.after ?_
  refine State.injDisarm_only.after ?_; refine State.fpEnd_only.after ?_; exact changesOnly_refl
  refine State.seqLost_only.after ?_; refine State.seqIsolate_only.after ?_; exact changesOnly_refl

theorem State.dormNow_only {s : State} {count : Nat} :
    changesOnly [.clk, .sys, .qs, .bus, .grd, .fab, .cc, .pp, .chg, .ms, .sw, .seq, .flt, .wd, .stk, .tca, .tcb]
      s (State.dormNow s count) := by
  unfold State.dormNow; dsimp only; refine when_only ?_ (fun _ => ?_); refine onSys_only.after ?_
  refine State.dormEnter_only.after ?_; exact changesOnly_refl; refine State.wakeUp_only.after ?_; exact changesOnly_refl

theorem State.dormGo_only {s : State} {count load : Nat} :
    changesOnly [.clk, .sys, .qs, .bus, .grd, .fab, .cc, .pp, .chg, .ms, .sw, .seq, .flt, .wd, .mb, .stk, .nvm, .tca, .tcb]
      s (State.dormGo s count load) := by
  unfold State.dormGo; dsimp only; split; refine ite_only (fun _ => ?_) (fun _ => ?_); refine State.dormNow_only.after ?_
  exact changesOnly_refl; refine State.dormCancel_only.after ?_; exact changesOnly_refl
  refine ite_only (fun _ => ?_) (fun _ => ?_); exact changesOnly_refl; refine ite_only (fun _ => ?_) (fun _ => ?_)
  refine State.finishAct_only.after ?_; exact changesOnly_refl; refine State.dormCancel_only.after ?_; exact changesOnly_refl
  refine ite_only (fun _ => ?_) (fun _ => ?_); refine State.dormNow_only.after ?_; exact changesOnly_refl
  refine State.raise_only.after ?_; refine State.dormCancel_only.after ?_; exact changesOnly_refl; exact changesOnly_refl

theorem State.chargeFrom_only {s : State} {r : ChgRecord} : changesOnly [.chg] s (State.chargeFrom s r) := by
  unfold State.chargeFrom; dsimp only; refine onChg_only.after ?_; exact changesOnly_refl

theorem State.restore_only {s : State} {v : Saved} :
    changesOnly [.sys, .qs, .bus, .grd, .fab, .cc, .pp, .chg, .sw, .seq, .mb, .stk, .nvm] s (State.restore s v) := by
  unfold State.restore; dsimp only; refine onPp_only.after ?_; refine onSw_only.after ?_; refine onSys_only.after ?_
  refine onCc_only.after ?_; refine State.applyCfg_only.after ?_; exact changesOnly_refl

theorem State.wakeRun_only {s : State} :
    changesOnly [.sys, .qs, .bus, .grd, .fab, .cc, .pp, .chg, .ms, .sw, .seq, .flt, .wd, .mb, .stk, .nvm, .free]
      s (State.wakeRun s) := by
  unfold State.wakeRun; dsimp only; refine State.pressTake_only.after ?_; refine State.dormRails_only.after ?_
  refine State.tierFix_only.after ?_; refine onBus_only.after ?_; refine onStk_only.after ?_; refine State.raise_only.after ?_
  split; refine State.chargeFrom_only.after ?_; refine onWd_only.after ?_; refine State.fwStart_only.after ?_
  refine State.imageShow_only.after ?_; split; refine State.restore_only.after ?_; exact changesOnly_refl
  exact changesOnly_refl; refine onWd_only.after ?_; refine State.fwStart_only.after ?_; refine State.imageShow_only.after ?_
  split; refine State.restore_only.after ?_; exact changesOnly_refl; exact changesOnly_refl

theorem State.shipWrite_only {s : State} {v : Byte} : changesOnly [.sys, .qs, .bus] s (State.shipWrite s v) := by
  unfold State.shipWrite; dsimp only; refine ite_only (fun _ => ?_) (fun _ => ?_); refine State.guardFail_only.after ?_
  exact changesOnly_refl; refine ite_only (fun _ => ?_) (fun _ => ?_); refine State.guardFail_only.after ?_
  refine onSys_only.after ?_; exact changesOnly_refl; refine State.raise_only.after ?_; refine onSys_only.after ?_
  exact changesOnly_refl

theorem State.pressEnd_only {s : State} {held : Nat} :
    changesOnly [.clk, .sys, .qs, .bus, .fab, .pp, .ms, .sw, .seq, .flt, .wd, .mb, .stk, .nvm, .tca, .tcb]
      s (State.pressEnd s held) := by
  unfold State.pressEnd; refine ite_only (fun _ => ?_) (fun _ => ?_); exact changesOnly_refl
  refine ite_only (fun _ => ?_) (fun _ => ?_); refine State.wakeFrom_only.after ?_; refine ite_only (fun _ => ?_) (fun _ => ?_)
  refine State.shortPress_only.after ?_; exact changesOnly_refl; refine onSys_only.after ?_; exact changesOnly_refl
  refine ite_only (fun _ => ?_) (fun _ => ?_); refine State.raise_only.after ?_; exact changesOnly_refl; exact changesOnly_refl

theorem State.chargeTier1_only {s : State} : changesOnly [.qs, .pp, .chg, .ms, .sw, .free] s (State.chargeTier1 s) := by
  unfold State.chargeTier1; dsimp only; split; refine ite_only (fun _ => ?_) (fun _ => ?_)
  refine State.chargeFrom_only.after ?_; refine onChg_only.after ?_; exact changesOnly_refl
  refine State.autoStart_only.after ?_; refine onChg_only.after ?_; refine onChg_only.after ?_; exact changesOnly_refl
  refine State.autoStart_only.after ?_; refine onChg_only.after ?_; exact changesOnly_refl

end Sys2Proof.Machine
end

