-- ==== Sys2Proof/Laws/OnlyTypeC.lean ====
section
/-! SUPPORT. Which parts of the state each operation of Machine/TypeC.lean may change. -/
namespace Sys2Proof.Machine

set_option Elab.async false
open Sys2Proof.Safety

theorem State.setNode_only {s : State} {t : TcId} {v : Nat} : changesOnly [.pp] s (State.setNode s t v) := by
  unfold State.setNode; split; refine onPp_only.after ?_; exact changesOnly_refl; refine onPp_only.after ?_
  exact changesOnly_refl

theorem State.setRp_only {s : State} {t : TcId} {v : Rp} : changesOnly [.pp] s (State.setRp s t v) := by
  unfold State.setRp; split; refine onPp_only.after ?_; exact changesOnly_refl; refine onPp_only.after ?_
  exact changesOnly_refl

theorem State.attachSnk_only {s : State} {t : TcId} {orient : Bool} {rp : Rp} {vbus : Nat} :
    changesOnly [.sys, .qs, .pp, .tca, .tcb] s (State.attachSnk s t orient rp vbus) := by
  unfold State.attachSnk; dsimp only; refine State.shipCancel_only.after ?_; refine State.attachEvent_only.after ?_
  refine State.limpFollow_only.after ?_; refine State.setPresent_only.after ?_; refine State.onTc_only.after ?_
  refine State.setNode_only.after ?_; refine State.setRp_only.after ?_; exact changesOnly_refl

theorem State.attachSrc_only {s : State} {t : TcId} {orient : Bool} :
    changesOnly [.qs, .fab, .cc, .pp, .tca, .tcb] s (State.attachSrc s t orient) := by
  unfold State.attachSrc; dsimp only; refine ite_only (fun _ => ?_) (fun _ => ?_); refine State.discoverCable_only.after ?_
  refine State.attachEvent_only.after ?_; refine State.vconnOn_only.after ?_; refine State.startSource_only.after ?_
  refine State.onTc_only.after ?_; exact changesOnly_refl; refine State.sendCaps_only.after ?_
  refine State.attachEvent_only.after ?_; refine State.vconnOn_only.after ?_; refine State.startSource_only.after ?_
  refine State.onTc_only.after ?_; exact changesOnly_refl

theorem State.debounceEnd_only {s : State} {t : TcId} {orient : Bool} {rp : Rp} {vbus : Nat} :
    changesOnly [.sys, .qs, .fab, .cc, .pp, .sw, .seq, .flt, .tca, .tcb] s (State.debounceEnd s t orient rp vbus) := by
  unfold State.debounceEnd; dsimp only; refine ite_only (fun _ => ?_) (fun _ => ?_); exact changesOnly_refl
  refine ite_only (fun _ => ?_) (fun _ => ?_); refine ite_only (fun _ => ?_) (fun _ => ?_); refine State.attachSrc_only.after ?_
  refine State.onTc_only.after ?_; refine State.liftFence_only.after ?_; exact changesOnly_refl; refine State.onTc_only.after ?_
  refine State.onTc_only.after ?_; refine State.liftFence_only.after ?_; exact changesOnly_refl
  refine State.attachSnk_only.after ?_; refine State.onTc_only.after ?_; refine State.liftFence_only.after ?_
  exact changesOnly_refl

theorem State.detachPort_only {s : State} {t : TcId} :
    changesOnly [.sys, .qs, .bus, .fab, .cc, .pp, .sw, .seq, .flt, .mb, .nvm, .tca, .tcb] s (State.detachPort s t) := by
  unfold State.detachPort; dsimp only; refine ite_only (fun _ => ?_) (fun _ => ?_); exact changesOnly_refl
  refine ite_only (fun _ => ?_) (fun _ => ?_); refine State.onTc_only.after ?_; exact changesOnly_refl
  refine State.detach_only.after ?_; refine State.txClear_only.after ?_; refine State.setRp_only.after ?_
  refine ite_only (fun _ => ?_) (fun _ => ?_); refine State.limpMove_only.after ?_; refine State.setNode_only.after ?_
  exact changesOnly_refl; refine State.setNode_only.after ?_; exact changesOnly_refl

theorem State.dischargeDone_only {s : State} {t : TcId} : changesOnly [.tca, .tcb] s (State.dischargeDone s t) := by
  unfold State.dischargeDone; dsimp only; refine ite_only (fun _ => ?_) (fun _ => ?_); exact changesOnly_refl
  refine ite_only (fun _ => ?_) (fun _ => ?_); refine State.tx_only.after ?_; refine State.onTc_only.after ?_
  refine State.onTc_only.after ?_; exact changesOnly_refl; refine ite_only (fun _ => ?_) (fun _ => ?_)
  refine State.onTc_only.after ?_; exact changesOnly_refl; refine State.onTc_only.after ?_; refine State.onTc_only.after ?_
  exact changesOnly_refl

theorem State.newOffers_only {s : State} {t : TcId} {epr rev3 : Bool} {objs : List Pdo} :
    changesOnly [.qs, .tca, .tcb, .free] s (State.newOffers s t epr rev3 objs) := by
  unfold State.newOffers; dsimp only; refine ite_only (fun _ => ?_) (fun _ => ?_); exact changesOnly_refl
  refine State.eprTry_only.after ?_; refine State.negotiate_only.after ?_; refine State.onTc_only.after ?_
  exact changesOnly_refl

theorem State.contractEvent_only {s : State} {t : TcId} {o : Offer} : changesOnly [.qs] s (State.contractEvent s t o) := by
  unfold State.contractEvent; refine State.tcEvent_only.after ?_; exact changesOnly_refl

theorem State.requested_only {s : State} {t : TcId} {pos mv ma : Nat} :
    changesOnly [.qs, .tca, .tcb] s (State.requested s t pos mv ma) := by
  unfold State.requested; refine ite_only (fun _ => ?_) (fun _ => ?_); exact changesOnly_refl; split; dsimp only
  refine State.authMaybe_only.after ?_; refine State.tx_only.after ?_; refine State.contractEvent_only.after ?_
  refine State.onTc_only.after ?_; refine State.tx_only.after ?_; refine State.tx_only.after ?_; exact changesOnly_refl
  refine State.onTc_only.after ?_; refine State.tx_only.after ?_; exact changesOnly_refl

theorem State.dataSwap_only {s : State} {t : TcId} : changesOnly [.qs, .tca, .tcb] s (State.dataSwap s t) := by
  unfold State.dataSwap; refine State.swapEvent_only.after ?_; refine State.onTc_only.after ?_; exact changesOnly_refl

theorem State.swapOff_only {s : State} {t : TcId} :
    changesOnly [.sys, .qs, .fab, .cc, .pp, .sw, .seq, .mb, .nvm, .tca, .tcb] s (State.swapOff s t) := by
  unfold State.swapOff; dsimp only; refine ite_only (fun _ => ?_) (fun _ => ?_); refine State.onTc_only.after ?_
  refine State.eprEnd_only.after ?_; split; refine State.onBox_only.after ?_; refine State.setLearn_only.after ?_
  refine State.vbusRest_only.after ?_; refine State.endPath_only.after ?_; exact changesOnly_refl
  refine State.setLearn_only.after ?_; refine State.vbusRest_only.after ?_; refine State.endPath_only.after ?_
  exact changesOnly_refl; refine State.sinkEnded_only.after ?_; refine State.setPresent_only.after ?_
  refine State.onTc_only.after ?_; refine State.eprEnd_only.after ?_; split; refine State.onBox_only.after ?_
  refine State.setLearn_only.after ?_; refine State.vbusRest_only.after ?_; refine State.endPath_only.after ?_
  exact changesOnly_refl; refine State.setLearn_only.after ?_; refine State.vbusRest_only.after ?_
  refine State.endPath_only.after ?_; exact changesOnly_refl

theorem State.accepted_only {s : State} {t : TcId} :
    changesOnly [.sys, .qs, .fab, .cc, .pp, .sw, .seq, .mb, .nvm, .tca, .tcb] s (State.accepted s t) := by
  unfold State.accepted; dsimp only; split; refine State.swapOff_only.after ?_; exact changesOnly_refl
  refine State.onTc_only.after ?_; exact changesOnly_refl; refine ite_only (fun _ => ?_) (fun _ => ?_)
  refine State.onTc_only.after ?_; refine State.finishO_only.after ?_; refine State.dataSwap_only.after ?_
  exact changesOnly_refl; refine ite_only (fun _ => ?_) (fun _ => ?_); refine State.discoverCable_only.after ?_
  refine State.swapEvent_only.after ?_; refine State.tx_only.after ?_; refine State.vconnOn_only.after ?_
  refine State.onTc_only.after ?_; exact changesOnly_refl; split; refine State.onTc_only.after ?_; exact changesOnly_refl
  exact changesOnly_refl; refine ite_only (fun _ => ?_) (fun _ => ?_); refine State.onTc_only.after ?_
  refine State.finishO_only.after ?_; refine State.dataSwap_only.after ?_; exact changesOnly_refl
  refine ite_only (fun _ => ?_) (fun _ => ?_); refine State.discoverCable_only.after ?_; refine State.swapEvent_only.after ?_
  refine State.tx_only.after ?_; refine State.vconnOn_only.after ?_; refine State.onTc_only.after ?_; exact changesOnly_refl
  split; refine State.onTc_only.after ?_; exact changesOnly_refl; exact changesOnly_refl
  refine ite_only (fun _ => ?_) (fun _ => ?_); refine State.onTc_only.after ?_; refine State.finishO_only.after ?_
  refine State.dataSwap_only.after ?_; exact changesOnly_refl; refine ite_only (fun _ => ?_) (fun _ => ?_)
  refine State.discoverCable_only.after ?_; refine State.swapEvent_only.after ?_; refine State.tx_only.after ?_
  refine State.vconnOn_only.after ?_; refine State.onTc_only.after ?_; exact changesOnly_refl; split
  refine State.onTc_only.after ?_; exact changesOnly_refl; exact changesOnly_refl; refine ite_only (fun _ => ?_) (fun _ => ?_)
  refine State.onTc_only.after ?_; refine State.finishO_only.after ?_; refine State.dataSwap_only.after ?_
  exact changesOnly_refl; refine ite_only (fun _ => ?_) (fun _ => ?_); refine State.discoverCable_only.after ?_
  refine State.swapEvent_only.after ?_; refine State.tx_only.after ?_; refine State.vconnOn_only.after ?_
  refine State.onTc_only.after ?_; exact changesOnly_refl; split; refine State.onTc_only.after ?_; exact changesOnly_refl
  exact changesOnly_refl

theorem State.contractNow_only {s : State} {t : TcId} {o : Offer} :
    changesOnly [.sys, .qs, .bus, .fab, .pp, .seq, .mb, .nvm, .tca, .tcb, .free] s (State.contractNow s t o) := by
  unfold State.contractNow; dsimp only; refine ite_only (fun _ => ?_) (fun _ => ?_); refine State.dormNext_only.after ?_
  refine State.reEvalNow_only.after ?_; refine State.frsEval_only.after ?_; refine State.authMaybe_only.after ?_
  refine State.eprTry_only.after ?_; refine State.tx_only.after ?_; refine State.contractEvent_only.after ?_
  refine State.limpFollow_only.after ?_; refine State.onTc_only.after ?_; refine State.setLearn_only.after ?_
  exact changesOnly_refl; refine State.reEvalNow_only.after ?_; refine State.frsEval_only.after ?_
  refine State.authMaybe_only.after ?_; refine State.eprTry_only.after ?_; refine State.tx_only.after ?_
  refine State.contractEvent_only.after ?_; refine State.limpFollow_only.after ?_; refine State.onTc_only.after ?_
  refine State.setLearn_only.after ?_; exact changesOnly_refl

theorem State.errorRecovery_only {s : State} {t : TcId} : changesOnly [.qs, .mb, .tca, .tcb] s (State.errorRecovery s t) := by
  unfold State.errorRecovery; dsimp only; refine State.finishO_only.after ?_; refine State.swapEvent_only.after ?_
  refine State.onTc_only.after ?_; refine State.authDetach_only.after ?_; exact changesOnly_refl

theorem State.swapToSource_only {s : State} {t : TcId} :
    changesOnly [.qs, .fab, .cc, .pp, .mb, .tca, .tcb] s (State.swapToSource s t) := by
  unfold State.swapToSource; dsimp only; refine ite_only (fun _ => ?_) (fun _ => ?_); refine State.sendCaps_only.after ?_
  refine State.finishO_only.after ?_; refine State.swapEvent_only.after ?_; refine State.tx_only.after ?_
  refine State.startSource_only.after ?_; refine State.onTc_only.after ?_; exact changesOnly_refl
  refine State.errorRecovery_only.after ?_; exact changesOnly_refl

theorem State.psReady_only {s : State} {t : TcId} :
    changesOnly [.sys, .qs, .bus, .fab, .cc, .pp, .seq, .mb, .nvm, .tca, .tcb, .free] s (State.psReady s t) := by
  unfold State.psReady; dsimp only; split; refine ite_only (fun _ => ?_) (fun _ => ?_); exact changesOnly_refl
  refine State.swapToSource_only.after ?_; exact changesOnly_refl; refine State.finishO_only.after ?_
  refine State.swapEvent_only.after ?_; refine State.onTc_only.after ?_; exact changesOnly_refl
  refine State.sendCaps_only.after ?_; refine State.swapEvent_only.after ?_; refine State.tx_only.after ?_
  refine State.onTc_only.after ?_; exact changesOnly_refl; split; refine State.contractNow_only.after ?_; exact changesOnly_refl
  exact changesOnly_refl; split; refine State.contractNow_only.after ?_; exact changesOnly_refl; exact changesOnly_refl; split
  refine State.contractNow_only.after ?_; exact changesOnly_refl; exact changesOnly_refl

theorem State.dataRefused_only {s : State} {t : TcId} {r : Byte} :
    changesOnly [.qs, .mb, .tca, .tcb] s (State.dataRefused s t r) := by
  unfold State.dataRefused; dsimp only; refine State.finishO_only.after ?_; refine State.swapEvent_only.after ?_
  refine State.onTc_only.after ?_; exact changesOnly_refl

theorem State.swapRefused_only {s : State} {t : TcId} {r : Byte} :
    changesOnly [.sys, .qs, .fab, .cc, .pp, .sw, .mb, .tca, .tcb] s (State.swapRefused s t r) := by
  unfold State.swapRefused; dsimp only; refine ite_only (fun _ => ?_) (fun _ => ?_); refine State.srcRemove_only.after ?_
  refine State.onTc_only.after ?_; refine State.finishO_only.after ?_; refine State.swapEvent_only.after ?_
  refine State.onTc_only.after ?_; exact changesOnly_refl; refine State.finishO_only.after ?_
  refine State.swapEvent_only.after ?_; refine State.onTc_only.after ?_; exact changesOnly_refl

theorem State.refused_only {s : State} {t : TcId} {r : Byte} :
    changesOnly [.sys, .qs, .bus, .fab, .cc, .pp, .sw, .seq, .mb, .nvm, .tca, .tcb, .free] s (State.refused s t r) := by
  unfold State.refused; split; refine State.swapRefused_only.after ?_; exact changesOnly_refl
  refine State.hardReset_only.after ?_; exact changesOnly_refl; refine State.dataRefused_only.after ?_; exact changesOnly_refl
  refine State.swapEvent_only.after ?_; refine State.onTc_only.after ?_; exact changesOnly_refl
  refine State.fallBack_only.after ?_; refine State.onTc_only.after ?_; exact changesOnly_refl; exact changesOnly_refl

theorem State.waitRetry_only {s : State} {t : TcId} : changesOnly [.tca, .tcb] s (State.waitRetry s t) := by
  unfold State.waitRetry; dsimp only; refine ite_only (fun _ => ?_) (fun _ => ?_); exact changesOnly_refl; split
  refine State.tx_only.after ?_; refine State.onTc_only.after ?_; exact changesOnly_refl; refine State.tx_only.after ?_
  refine State.onTc_only.after ?_; exact changesOnly_refl; refine State.sendReq_only.after ?_; refine State.onTc_only.after ?_
  exact changesOnly_refl; refine State.onTc_only.after ?_; exact changesOnly_refl

theorem State.eprMsg_only {s : State} {t : TcId} {act : Nat} : changesOnly [.qs, .tca, .tcb, .free] s (State.eprMsg s t act) := by
  unfold State.eprMsg; dsimp only; split; refine ite_only (fun _ => ?_) (fun _ => ?_); exact changesOnly_refl
  refine ite_only (fun _ => ?_) (fun _ => ?_); refine State.sendCaps_only.after ?_; refine State.tcEvent_only.after ?_
  refine State.onTc_only.after ?_; refine State.tx_only.after ?_; refine State.tx_only.after ?_; exact changesOnly_refl
  refine State.tx_only.after ?_; exact changesOnly_refl; refine ite_only (fun _ => ?_) (fun _ => ?_)
  refine State.eprLeave_only.after ?_; refine State.tcEvent_only.after ?_; refine State.onTc_only.after ?_
  exact changesOnly_refl; exact changesOnly_refl; refine State.onTc_only.after ?_; exact changesOnly_refl
  refine ite_only (fun _ => ?_) (fun _ => ?_); refine ite_only (fun _ => ?_) (fun _ => ?_); refine State.sendCaps_only.after ?_
  refine State.eprEnd_only.after ?_; exact changesOnly_refl; refine State.negotiate_only.after ?_
  refine State.eprEnd_only.after ?_; exact changesOnly_refl; exact changesOnly_refl; exact changesOnly_refl

theorem State.cableSeen_only {s : State} {t : TcId} {ans : Option (Bool × Bool)} :
    changesOnly [.tca, .tcb] s (State.cableSeen s t ans) := by
  unfold State.cableSeen; dsimp only; refine ite_only (fun _ => ?_) (fun _ => ?_); exact changesOnly_refl; split
  refine State.sendCaps_only.after ?_; refine State.onTc_only.after ?_; exact changesOnly_refl
  refine ite_only (fun _ => ?_) (fun _ => ?_); refine State.tx_only.after ?_; refine State.onTc_only.after ?_
  exact changesOnly_refl; refine State.sendCaps_only.after ?_; refine State.onTc_only.after ?_; exact changesOnly_refl

theorem State.authResult_only {s : State} {t : TcId} {pass : Bool} :
    changesOnly [.sys, .qs, .fab, .cc, .pp, .sw, .mb, .tca, .tcb, .free] s (State.authResult s t pass) := by
  unfold State.authResult; dsimp only; refine when_only ?_ (fun _ => ?_); refine State.finishO_only.after ?_
  refine State.onTc_only.after ?_; refine State.authEvent_only.after ?_; refine State.onTc_only.after ?_; exact changesOnly_refl
  refine State.tcReeval_only.after ?_; exact changesOnly_refl

theorem State.prSwapCmd_only {s : State} {n : Fin 4} {t : TcId} : changesOnly [.mb, .tca, .tcb] s (State.prSwapCmd s n t) := by
  unfold State.prSwapCmd; dsimp only; refine ite_only (fun _ => ?_) (fun _ => ?_); refine State.finish_only.after ?_
  exact changesOnly_refl; refine ite_only (fun _ => ?_) (fun _ => ?_); refine State.finish_only.after ?_; exact changesOnly_refl
  refine State.tx_only.after ?_; refine State.onTc_only.after ?_; refine State.accept_only.after ?_; exact changesOnly_refl

theorem State.drSwapCmd_only {s : State} {n : Fin 4} {t : TcId} : changesOnly [.mb, .tca, .tcb] s (State.drSwapCmd s n t) := by
  unfold State.drSwapCmd; dsimp only; refine ite_only (fun _ => ?_) (fun _ => ?_); refine State.finish_only.after ?_
  exact changesOnly_refl; refine ite_only (fun _ => ?_) (fun _ => ?_); refine State.finish_only.after ?_; exact changesOnly_refl
  refine State.tx_only.after ?_; refine State.onTc_only.after ?_; refine State.accept_only.after ?_; exact changesOnly_refl

theorem State.authCmd_only {s : State} {n : Fin 4} {t : TcId} : changesOnly [.mb, .tca, .tcb] s (State.authCmd s n t) := by
  unfold State.authCmd; dsimp only; refine ite_only (fun _ => ?_) (fun _ => ?_); refine State.finish_only.after ?_
  exact changesOnly_refl; refine ite_only (fun _ => ?_) (fun _ => ?_); refine State.finish_only.after ?_; exact changesOnly_refl
  refine ite_only (fun _ => ?_) (fun _ => ?_); refine State.onTc_only.after ?_; refine State.accept_only.after ?_
  exact changesOnly_refl; refine State.authStart_only.after ?_; refine State.onTc_only.after ?_
  refine State.accept_only.after ?_; exact changesOnly_refl

theorem State.vbusBack_only {s : State} {t : TcId} : changesOnly [.pp, .tca, .tcb] s (State.vbusBack s t) := by
  unfold State.vbusBack; dsimp only; refine ite_only (fun _ => ?_) (fun _ => ?_); refine State.onTc_only.after ?_
  refine State.setPresent_only.after ?_; refine State.setNode_only.after ?_; exact changesOnly_refl; exact changesOnly_refl

theorem State.noAnswer_only {s : State} {t : TcId} :
    changesOnly [.sys, .qs, .bus, .fab, .cc, .pp, .sw, .seq, .mb, .nvm, .tca, .tcb] s (State.noAnswer s t) := by
  unfold State.noAnswer; dsimp only; split; refine ite_only (fun _ => ?_) (fun _ => ?_); refine State.srcRemove_only.after ?_
  exact changesOnly_refl; refine State.swapAbandon_only.after ?_; exact changesOnly_refl
  refine ite_only (fun _ => ?_) (fun _ => ?_); exact changesOnly_refl; refine State.errorRecovery_only.after ?_
  exact changesOnly_refl; refine State.errorRecovery_only.after ?_; exact changesOnly_refl; refine State.hardReset_only.after ?_
  exact changesOnly_refl; refine State.hardReset_only.after ?_; exact changesOnly_refl
  refine ite_only (fun _ => ?_) (fun _ => ?_); refine State.hardReset_only.after ?_; exact changesOnly_refl
  refine ite_only (fun _ => ?_) (fun _ => ?_); refine ite_only (fun _ => ?_) (fun _ => ?_); refine State.onTc_only.after ?_
  exact changesOnly_refl; refine State.hardReset_only.after ?_; exact changesOnly_refl
  refine ite_only (fun _ => ?_) (fun _ => ?_); refine State.swapAbandon_only.after ?_; exact changesOnly_refl
  refine State.onTc_only.after ?_; exact changesOnly_refl

end Sys2Proof.Machine
end

