-- ==== Sys2Proof/Laws/OnlyControl.lean ====
section
/-! SUPPORT. Which parts of the state each operation of Machine/Control.lean may change. -/
namespace Sys2Proof.Machine

set_option Elab.async false
open Sys2Proof.Safety

theorem State.floors_only {s : State} {b : Nat} : changesOnly [.fab] s (State.floors s b) := by
  unfold State.floors; refine foldl_only ?_ (fun _ _ => ?_); exact changesOnly_refl; refine State.onPath_only.after ?_
  exact changesOnly_refl

theorem State.lowerBy_only {s : State} {l : List PortId} {fl e : Nat} : changesOnly [.fab] s (State.lowerBy s l fl e) := by
  unfold State.lowerBy; dsimp only; refine ite_only (fun _ => ?_) (fun _ => ?_); exact changesOnly_refl
  refine foldl_only ?_ (fun _ _ => ?_); exact changesOnly_refl; refine State.onPath_only.after ?_; exact changesOnly_refl

theorem State.reclaim_only {s : State} {k : Nat} {z0 : List Nat} {z1 : Nat} : changesOnly [.fab] s (State.reclaim s k z0 z1) := by
  unfold State.reclaim; split; exact changesOnly_refl; refine ite_only (fun _ => ?_) (fun _ => ?_); exact changesOnly_refl
  dsimp only; refine State.reclaim_only.after ?_; refine State.lowerBy_only.after ?_; exact changesOnly_refl

theorem State.reclaimFor_only {s : State} {k : Nat} : changesOnly [.fab] s (State.reclaimFor s k) := by
  unfold State.reclaimFor; refine State.reclaim_only.after ?_; exact changesOnly_refl

theorem State.serveAsks_only {s : State} {b k : Nat} : changesOnly [.fab] s (State.serveAsks s b k) := by
  unfold State.serveAsks; dsimp only; refine foldl_only ?_ (fun _ _ => ?_); exact changesOnly_refl
  refine State.onPath_only.after ?_; exact changesOnly_refl

theorem State.shed_only {s : State} {b : Nat} {ok : PortId → Bool} : changesOnly [.fab] s (State.shed s b ok) := by
  unfold State.shed; refine foldl_only ?_ (fun _ _ => ?_); exact changesOnly_refl; refine State.lowerBy_only.after ?_
  exact changesOnly_refl

theorem State.tickGrants_only {s : State} {b : Nat} : changesOnly [.fab] s (State.tickGrants s b) := by
  unfold State.tickGrants; dsimp only; refine onFab_only.after ?_; refine foldl_only ?_ (fun _ _ => ?_)
  refine onFab_only.after ?_; refine foldl_only ?_ (fun _ _ => ?_); refine State.floors_only.after ?_
  refine State.shed_only.after ?_; refine State.shed_only.after ?_; refine foldl_only ?_ (fun _ _ => ?_); exact changesOnly_refl
  refine State.onPath_only.after ?_; exact changesOnly_refl; refine State.serveAsks_only.after ?_; exact changesOnly_refl
  refine State.reclaimFor_only.after ?_; exact changesOnly_refl

theorem State.tickBasin_only {s : State} : changesOnly [.qs, .fab] s (State.tickBasin s) := by
  unfold State.tickBasin; dsimp only; refine when_only ?_ (fun _ => ?_); refine onFab_only.after ?_
  refine State.tickGrants_only.after ?_; refine onFab_only.after ?_; exact changesOnly_refl; refine State.raise_only.after ?_
  exact changesOnly_refl

theorem State.tickHealth_only {s : State} : changesOnly [.fab] s (State.tickHealth s) := by
  unfold State.tickHealth; refine State.onPhases_only.after ?_; exact changesOnly_refl

theorem State.peakEnd_only {s : State} : changesOnly [.qs, .fab] s (State.peakEnd s) := by
  unfold State.peakEnd; refine State.raise_only.after ?_; refine onFab_only.after ?_; exact changesOnly_refl

theorem State.tickPeak_only {s : State} : changesOnly [.qs, .fab] s (State.tickPeak s) := by
  unfold State.tickPeak; dsimp only; split; refine when_only ?_ (fun _ => ?_); refine onFab_only.after ?_
  exact changesOnly_refl; refine State.raise_only.after ?_; refine onFab_only.after ?_; exact changesOnly_refl
  refine when_only ?_ (fun _ => ?_); refine onFab_only.after ?_; exact changesOnly_refl; refine State.peakEnd_only.after ?_
  exact changesOnly_refl; refine when_only ?_ (fun _ => ?_); refine onFab_only.after ?_; exact changesOnly_refl
  refine onFab_only.after ?_; exact changesOnly_refl

theorem State.powerQuad_only {s : State} {q : Nat} : changesOnly [.sys] s (State.powerQuad s q) := by
  unfold State.powerQuad; refine State.domOn_only.after ?_; exact changesOnly_refl

theorem State.placeOn_only {s : State} {i : Nat} {p : PortId} {why : Nat} :
    changesOnly [.sys, .qs, .fab, .sw, .flt] s (State.placeOn s i p why) := by
  unfold State.placeOn; refine ite_only (fun _ => ?_) (fun _ => ?_); refine State.powerQuad_only.after ?_
  exact changesOnly_refl; refine ite_only (fun _ => ?_) (fun _ => ?_); refine State.failNote_only.after ?_
  exact changesOnly_refl; refine State.placeFree_only.after ?_; exact changesOnly_refl

theorem State.tuneFree_only {s : State} {i : Nat} : changesOnly [.qs, .fab, .sw] s (State.tuneFree s i) := by
  unfold State.tuneFree; split; refine State.drainOff_only.after ?_; exact changesOnly_refl; refine State.drainOff_only.after ?_
  exact changesOnly_refl; refine ite_only (fun _ => ?_) (fun _ => ?_); refine State.place_only.after ?_
  refine State.onPhase_only.after ?_; exact changesOnly_refl; exact changesOnly_refl; exact changesOnly_refl

theorem State.tuneYield_only {s : State} : changesOnly [.cc] s (State.tuneYield s) := by
  unfold State.tuneYield; split; refine ite_only (fun _ => ?_) (fun _ => ?_); refine onCc_only.after ?_; exact changesOnly_refl
  exact changesOnly_refl; exact changesOnly_refl

theorem State.tuneNext_only {s : State} : changesOnly [.cc] s (State.tuneNext s) := by
  unfold State.tuneNext; dsimp only; split; refine State.tuneYield_only.after ?_; exact changesOnly_refl
  refine ite_only (fun _ => ?_) (fun _ => ?_); refine onCc_only.after ?_; refine State.tuneYield_only.after ?_
  exact changesOnly_refl; refine ite_only (fun _ => ?_) (fun _ => ?_); refine onCc_only.after ?_
  refine State.tuneYield_only.after ?_; exact changesOnly_refl; split; refine onCc_only.after ?_
  refine State.tuneYield_only.after ?_; exact changesOnly_refl; refine State.tuneYield_only.after ?_; exact changesOnly_refl

theorem State.tuneLate_only {s : State} {n : Fin 4} : changesOnly [.cc, .mb] s (State.tuneLate s n) := by
  unfold State.tuneLate; dsimp only; refine ite_only (fun _ => ?_) (fun _ => ?_); refine State.tuneNext_only.after ?_
  refine State.finish_only.after ?_; refine onCc_only.after ?_; exact changesOnly_refl
  refine ite_only (fun _ => ?_) (fun _ => ?_); refine State.finish_only.after ?_; refine onCc_only.after ?_
  exact changesOnly_refl; exact changesOnly_refl

theorem State.tickTune_only {s : State} : changesOnly [.sys, .qs, .fab, .cc, .sw, .flt, .mb] s (State.tickTune s) := by
  unfold State.tickTune; dsimp only; split; refine ite_only (fun _ => ?_) (fun _ => ?_); refine foldl_only ?_ (fun _ _ => ?_)
  refine foldl_only ?_ (fun _ _ => ?_); exact changesOnly_refl; refine State.tuneLate_only.after ?_; exact changesOnly_refl
  refine State.tuneFree_only.after ?_; exact changesOnly_refl; refine ite_only (fun _ => ?_) (fun _ => ?_)
  refine foldl_only ?_ (fun _ _ => ?_); exact changesOnly_refl; refine State.tuneLate_only.after ?_; exact changesOnly_refl
  split; refine when_only ?_ (fun _ => ?_); refine State.placeOn_only.after ?_; refine foldl_only ?_ (fun _ _ => ?_)
  exact changesOnly_refl; refine State.tuneLate_only.after ?_; exact changesOnly_refl; refine State.onPhase_only.after ?_
  exact changesOnly_refl; refine foldl_only ?_ (fun _ _ => ?_); exact changesOnly_refl; refine State.tuneLate_only.after ?_
  exact changesOnly_refl; refine foldl_only ?_ (fun _ _ => ?_); refine foldl_only ?_ (fun _ _ => ?_); exact changesOnly_refl
  refine State.tuneLate_only.after ?_; exact changesOnly_refl; refine State.tuneFree_only.after ?_; exact changesOnly_refl

theorem State.tickVsys_only {s : State} : changesOnly [.pp] s (State.tickVsys s) := by
  unfold State.tickVsys; dsimp only; refine onPp_only.after ?_; refine when_only ?_ (fun _ => ?_); exact changesOnly_refl
  refine onPp_only.after ?_; exact changesOnly_refl

theorem State.tickAlways_only {s : State} : changesOnly [.sys, .qs, .fab, .cc, .pp, .sw, .flt, .mb] s (State.tickAlways s) := by
  unfold State.tickAlways; dsimp only; refine ite_only (fun _ => ?_) (fun _ => ?_); refine State.tickHealth_only.after ?_
  refine State.tickTune_only.after ?_; refine State.tickVsys_only.after ?_; refine State.tickPeak_only.after ?_
  exact changesOnly_refl; refine State.tickBasin_only.after ?_; refine State.tickHealth_only.after ?_
  refine State.tickTune_only.after ?_; refine State.tickVsys_only.after ?_; refine State.tickPeak_only.after ?_
  exact changesOnly_refl

theorem State.tickDomains_only {s : State} : changesOnly [.sys] s (State.tickDomains s) := by
  unfold State.tickDomains; refine foldl_only ?_ (fun _ _ => ?_); exact changesOnly_refl
  refine ite_only (fun _ => ?_) (fun _ => ?_); refine State.domOn_only.after ?_; exact changesOnly_refl
  refine State.domOff_only.after ?_; exact changesOnly_refl

theorem State.tickMeasure_only {m : TickIn} {s : State} :
    changesOnly [.sys, .fab, .pp, .ms, .seq, .nvm] s (State.tickMeasure m s) := by
  unfold State.tickMeasure; dsimp only; refine onFab_only.after ?_; refine onFab_only.after ?_; refine onSeq_only.after ?_
  refine onMs_only.after ?_; refine State.seeNodes_only.after ?_; exact changesOnly_refl

theorem State.tickTarget_only {s : State} : changesOnly [.stk] s (State.tickTarget s) := by
  unfold State.tickTarget; refine when_only ?_ (fun _ => ?_); exact changesOnly_refl; refine onStk_only.after ?_
  exact changesOnly_refl

theorem State.tickAdds_only {s : State} : changesOnly [.fab, .stk] s (State.tickAdds s) := by
  unfold State.tickAdds; refine State.tickTarget_only.after ?_; refine foldl_only ?_ (fun _ _ => ?_); exact changesOnly_refl
  refine State.onPath_only.after ?_; exact changesOnly_refl

theorem State.tickLead_only {s : State} : changesOnly [.qs, .fab, .sw, .mb, .free] s (State.tickLead s) := by
  unfold State.tickLead; dsimp only; refine ite_only (fun _ => ?_) (fun _ => ?_); refine State.sweepAbort_only.after ?_
  refine when_only ?_ (fun _ => ?_); refine onFab_only.after ?_; exact changesOnly_refl; refine State.sweepDisturb_only.after ?_
  exact changesOnly_refl; refine when_only ?_ (fun _ => ?_); refine onFab_only.after ?_; exact changesOnly_refl
  refine State.sweepDisturb_only.after ?_; exact changesOnly_refl

theorem State.tickPaths_only {s : State} :
    changesOnly [.sys, .qs, .fab, .cc, .pp, .sw, .seq, .mb, .nvm, .tca, .tcb] s (State.tickPaths s) := by
  unfold State.tickPaths; dsimp only; refine foldl_only ?_ (fun _ _ => ?_); refine when_only ?_ (fun _ => ?_)
  exact changesOnly_refl; refine foldl_only ?_ (fun _ _ => ?_); exact changesOnly_refl; refine when_only ?_ (fun _ => ?_)
  exact changesOnly_refl; refine State.startPath_only.after ?_; exact changesOnly_refl; refine when_only ?_ (fun _ => ?_)
  exact changesOnly_refl; refine State.sinkEnded_only.after ?_; refine State.endPath_only.after ?_; exact changesOnly_refl

theorem State.bound_only {s : State} {p : PortId} : changesOnly [.qs, .fab, .sw] s (State.bound s p) := by
  unfold State.bound; refine ite_only (fun _ => ?_) (fun _ => ?_); split; refine State.drainOff_only.after ?_
  exact changesOnly_refl; exact changesOnly_refl; exact changesOnly_refl

theorem State.gain_only {s : State} {tgt : List Nat} {p : PortId} :
    changesOnly [.sys, .qs, .fab, .sw, .flt] s (State.gain s tgt p) := by
  unfold State.gain; dsimp only; refine ite_only (fun _ => ?_) (fun _ => ?_); exact changesOnly_refl; split; split
  refine State.handOff_only.after ?_; exact changesOnly_refl; exact changesOnly_refl; split; refine State.placeOn_only.after ?_
  exact changesOnly_refl; exact changesOnly_refl

theorem State.allocate_only {s : State} : changesOnly [.sys, .qs, .fab, .sw, .flt] s (State.allocate s) := by
  unfold State.allocate; dsimp only; refine when_only ?_ (fun _ => ?_); refine foldl_only ?_ (fun _ _ => ?_)
  refine foldl_only ?_ (fun _ _ => ?_); exact changesOnly_refl; refine State.gain_only.after ?_; exact changesOnly_refl
  refine State.bound_only.after ?_; exact changesOnly_refl; split; refine State.drainOff_only.after ?_; exact changesOnly_refl
  exact changesOnly_refl

theorem State.applyMap_only {s : State} {i : Nat} : changesOnly [.sys, .qs, .fab, .sw, .flt] s (State.applyMap s i) := by
  unfold State.applyMap; dsimp only; split; refine ite_only (fun _ => ?_) (fun _ => ?_); exact changesOnly_refl
  refine ite_only (fun _ => ?_) (fun _ => ?_); refine State.placeOn_only.after ?_; exact changesOnly_refl
  refine ite_only (fun _ => ?_) (fun _ => ?_); split; refine ite_only (fun _ => ?_) (fun _ => ?_); exact changesOnly_refl
  refine State.handOff_only.after ?_; exact changesOnly_refl; exact changesOnly_refl; exact changesOnly_refl
  refine ite_only (fun _ => ?_) (fun _ => ?_); split; refine ite_only (fun _ => ?_) (fun _ => ?_); exact changesOnly_refl
  refine State.drainOff_only.after ?_; exact changesOnly_refl; exact changesOnly_refl; exact changesOnly_refl

theorem State.drainAll_only {s : State} {why : Nat} : changesOnly [.qs, .fab, .sw] s (State.drainAll s why) := by
  unfold State.drainAll; refine foldl_only ?_ (fun _ _ => ?_); exact changesOnly_refl; split
  refine State.drainOff_only.after ?_; exact changesOnly_refl; refine State.drainOff_only.after ?_; exact changesOnly_refl
  exact changesOnly_refl

theorem State.tickPlace_only {s : State} : changesOnly [.sys, .qs, .fab, .sw, .flt] s (State.tickPlace s) := by
  unfold State.tickPlace; refine ite_only (fun _ => ?_) (fun _ => ?_); refine State.drainAll_only.after ?_
  exact changesOnly_refl; refine ite_only (fun _ => ?_) (fun _ => ?_); exact changesOnly_refl
  refine ite_only (fun _ => ?_) (fun _ => ?_); refine foldl_only ?_ (fun _ _ => ?_); exact changesOnly_refl
  refine State.applyMap_only.after ?_; exact changesOnly_refl; refine State.allocate_only.after ?_; exact changesOnly_refl

theorem State.tickPref_only {s : State} {t : TcId} : changesOnly [.qs, .tca, .tcb, .free] s (State.tickPref s t) := by
  unfold State.tickPref; dsimp only; split; refine ite_only (fun _ => ?_) (fun _ => ?_); refine State.negotiate_only.after ?_
  exact changesOnly_refl; exact changesOnly_refl; exact changesOnly_refl

theorem State.tickQuads_only {s : State} : changesOnly [.sys, .fab] s (State.tickQuads s) := by
  unfold State.tickQuads; dsimp only; refine ite_only (fun _ => ?_) (fun _ => ?_); refine State.powerQuad_only.after ?_
  refine onFab_only.after ?_; refine when_only ?_ (fun _ => ?_); exact changesOnly_refl; refine State.powerQuad_only.after ?_
  exact changesOnly_refl; refine onFab_only.after ?_; refine when_only ?_ (fun _ => ?_); exact changesOnly_refl
  refine State.powerQuad_only.after ?_; exact changesOnly_refl

theorem State.tickReport_only {s : State} : changesOnly [.cc] s (State.tickReport s) := by
  unfold State.tickReport; refine onCc_only.after ?_; exact changesOnly_refl

theorem State.sinkReqs_only {s : State} {z0 : List PortId} {z1 : Nat} : changesOnly [.fab] s (State.sinkReqs s z0 z1) := by
  unfold State.sinkReqs; split; exact changesOnly_refl; refine State.sinkReqs_only.after ?_; refine State.onPath_only.after ?_
  exact changesOnly_refl

theorem State.tickRequests_only {s : State} {load : Nat} : changesOnly [.fab] s (State.tickRequests s load) := by
  unfold State.tickRequests; dsimp only; refine foldl_only ?_ (fun _ _ => ?_); refine State.sinkReqs_only.after ?_
  exact changesOnly_refl; refine when_only ?_ (fun _ => ?_); exact changesOnly_refl; refine State.onPath_only.after ?_
  exact changesOnly_refl

theorem State.reserveShort_only {s : State} : changesOnly [.qs, .tca, .tcb] s (State.reserveShort s) := by
  unfold State.reserveShort; dsimp only; refine ite_only (fun _ => ?_) (fun _ => ?_); exact changesOnly_refl
  refine State.raise_only.after ?_; refine State.frsDisarm_only.after ?_; exact changesOnly_refl

theorem State.tickReserve_only {s : State} : changesOnly [.sys, .qs, .fab, .tca, .tcb, .free] s (State.tickReserve s) := by
  unfold State.tickReserve; dsimp only; refine State.frsEval_only.after ?_; refine State.frsEval_only.after ?_
  refine when_only ?_ (fun _ => ?_); refine onFab_only.after ?_; refine State.reserveShort_only.after ?_; exact changesOnly_refl
  refine State.powerQuad_only.after ?_; refine State.powerQuad_only.after ?_; split; refine useFree_only.after ?_
  refine State.onPath_only.after ?_; exact changesOnly_refl; exact changesOnly_refl

theorem State.tickWake_only {s : State} : changesOnly [.sys, .qs, .fab, .cc, .sw] s (State.tickWake s) := by
  unfold State.tickWake; split; refine when_only ?_ (fun _ => ?_); exact changesOnly_refl; refine State.takeOver_only.after ?_
  exact changesOnly_refl; exact changesOnly_refl

theorem State.tickRun_only {s : State} {load : Nat} :
    changesOnly [.sys, .qs, .fab, .cc, .pp, .sw, .seq, .flt, .mb, .stk, .nvm, .tca, .tcb, .free] s (State.tickRun s load) := by
  unfold State.tickRun; dsimp only; refine State.capsChange_only.after ?_; refine State.capsChange_only.after ?_
  refine State.tickPref_only.after ?_; refine State.tickPref_only.after ?_; refine State.tickReport_only.after ?_
  refine State.tickQuads_only.after ?_; refine State.tickHealth_only.after ?_; refine State.tickPlace_only.after ?_
  refine State.tickAdds_only.after ?_; refine State.tickReserve_only.after ?_; refine ite_only (fun _ => ?_) (fun _ => ?_)
  refine State.tickRequests_only.after ?_; refine State.tickLead_only.after ?_; refine State.tickPaths_only.after ?_
  refine State.tickTune_only.after ?_; refine State.tickVsys_only.after ?_; refine State.tickPeak_only.after ?_
  refine State.tickWake_only.after ?_; exact changesOnly_refl; refine State.tickBasin_only.after ?_
  refine State.tickRequests_only.after ?_; refine State.tickLead_only.after ?_; refine State.tickPaths_only.after ?_
  refine State.tickTune_only.after ?_; refine State.tickVsys_only.after ?_; refine State.tickPeak_only.after ?_
  refine State.tickWake_only.after ?_; exact changesOnly_refl

theorem State.tickThermal_only {s : State} : changesOnly [.fab] s (State.tickThermal s) := by
  unfold State.tickThermal; dsimp only; refine onFab_only.after ?_; exact changesOnly_refl

theorem State.removePhase_only {s : State} {p : PortId} : changesOnly [.qs, .fab, .sw, .stk] s (State.removePhase s p) := by
  unfold State.removePhase; refine ite_only (fun _ => ?_) (fun _ => ?_); refine when_only ?_ (fun _ => ?_)
  exact changesOnly_refl; refine onStk_only.after ?_; exact changesOnly_refl; refine ite_only (fun _ => ?_) (fun _ => ?_)
  exact changesOnly_refl; split; exact changesOnly_refl; dsimp only; split; refine State.handOff_only.after ?_
  exact changesOnly_refl; refine State.drainOff_only.after ?_; exact changesOnly_refl

theorem State.flipPhase_only {s : State} {p : PortId} {i : Nat} : changesOnly [.qs, .fab, .sw] s (State.flipPhase s p i) := by
  unfold State.flipPhase; dsimp only; refine ite_only (fun _ => ?_) (fun _ => ?_); refine State.drainFlip_only.after ?_
  exact changesOnly_refl; exact changesOnly_refl

theorem State.joinSwap_only {before : State} {p : PortId} {s : State} {i : Nat} :
    changesOnly [.sys, .qs, .fab, .sw, .flt] s (State.joinSwap before p s i) := by
  unfold State.joinSwap; split; refine State.placeOn_only.after ?_; exact changesOnly_refl
  refine ite_only (fun _ => ?_) (fun _ => ?_); exact changesOnly_refl; refine State.handOff_only.after ?_
  exact changesOnly_refl; exact changesOnly_refl

theorem State.fastSwap_only {s : State} {t : TcId} :
    changesOnly [.sys, .qs, .fab, .cc, .pp, .sw, .seq, .flt, .mb, .nvm, .tca, .tcb] s (State.fastSwap s t) := by
  unfold State.fastSwap; dsimp only; refine State.sinkEnded_only.after ?_; refine State.setPresent_only.after ?_
  refine State.setLearn_only.after ?_; refine State.tx_only.after ?_; refine State.onTc_only.after ?_
  refine onFab_only.after ?_; refine foldl_only ?_ (fun _ _ => ?_); refine foldl_only ?_ (fun _ _ => ?_)
  refine State.setVbus_only.after ?_; refine State.onPath_only.after ?_; refine onCc_only.after ?_
  refine State.eprEnd_only.after ?_; refine State.frsDisarm_only.after ?_; refine State.swapAbandon_only.after ?_
  exact changesOnly_refl; refine State.flipPhase_only.after ?_; exact changesOnly_refl; refine State.joinSwap_only.after ?_
  exact changesOnly_refl

theorem State.fpenWrite_only {s : State} {v : Byte} : changesOnly [.qs, .bus, .grd, .fab, .tca, .tcb] s (State.fpenWrite s v) := by
  unfold State.fpenWrite; refine ite_only (fun _ => ?_) (fun _ => ?_); refine ite_only (fun _ => ?_) (fun _ => ?_)
  refine State.guardFail_only.after ?_; refine onGrd_only.after ?_; exact changesOnly_refl
  refine ite_only (fun _ => ?_) (fun _ => ?_); refine onGrd_only.after ?_; exact changesOnly_refl
  refine State.raise_only.after ?_; refine onFab_only.after ?_; refine State.frsDisarm_only.after ?_
  refine State.frsDisarm_only.after ?_; refine onGrd_only.after ?_; exact changesOnly_refl; refine State.fpEnd_only.after ?_
  refine onGrd_only.after ?_; exact changesOnly_refl

theorem State.replaceFor_only {s : State} {bad : List Nat} {p : PortId} :
    changesOnly [.sys, .qs, .fab, .sw, .flt] s (State.replaceFor s bad p) := by
  unfold State.replaceFor; refine ite_only (fun _ => ?_) (fun _ => ?_); exact changesOnly_refl; dsimp only; split
  refine State.placeOn_only.after ?_; exact changesOnly_refl; split; split; refine State.handOff_only.after ?_
  exact changesOnly_refl; exact changesOnly_refl; exact changesOnly_refl

end Sys2Proof.Machine
end

