-- ==== Sys2Proof/Laws/OnlyConversion.lean ====
section
/-! SUPPORT. Which parts of the state each operation of Machine/Conversion.lean may change. -/
namespace Sys2Proof.Machine

set_option Elab.async false
open Sys2Proof.Safety

theorem State.injSample_only {s : State} : changesOnly [.qs, .grd, .flt] s (State.injSample s) := by
  unfold State.injSample; refine ite_only (fun _ => ?_) (fun _ => ?_); split; refine State.injectedCheck_only.after ?_
  exact changesOnly_refl; exact changesOnly_refl; exact changesOnly_refl

theorem State.clipCount_only {s : State} {p : PortId} {hit : Bool} : changesOnly [.sw] s (State.clipCount s p hit) := by
  unfold State.clipCount; dsimp only; refine when_only ?_ (fun _ => ?_); exact changesOnly_refl; refine onSw_only.after ?_
  exact changesOnly_refl

theorem State.sensePort_only {s : State} {p : PortId} {m : PathSample} : changesOnly [.fab] s (State.sensePort s p m) := by
  unfold State.sensePort; refine onFab_only.after ?_; exact changesOnly_refl

theorem State.phaseStep_only {s : State} {p : PortId} {b : Bridge} {changed : Bool} {mean : Int} {moving skip : Bool} {m : PathSample} {base : Nat} {iref : Int} {i : Nat} :
    changesOnly [.fab] s (State.phaseStep s p b changed mean moving skip m base iref i) := by
  unfold State.phaseStep; dsimp only; refine State.onPhase_only.after ?_; exact changesOnly_refl

theorem State.stagesStep_only {s : State} {p : PortId} {m : PathSample} {fell : Bool} {base : Nat} :
    changesOnly [.fab, .cc, .sw] s (State.stagesStep s p m fell base) := by
  unfold State.stagesStep; dsimp only; refine when_only ?_ (fun _ => ?_); refine foldl_only ?_ (fun _ _ => ?_)
  refine onCc_only.after ?_; exact changesOnly_refl; refine State.phaseStep_only.after ?_; exact changesOnly_refl
  refine State.sweepDisturb_only.after ?_; exact changesOnly_refl

theorem State.pathLoop_only {s : State} {p : PortId} {m : PathSample} :
    changesOnly [.clk, .sys, .qs, .bus, .grd, .fab, .cc, .pp, .chg, .ms, .sw, .seq, .flt, .wd, .mb, .stk, .nvm, .tca, .tcb, .free]
      s (State.pathLoop s p m) := by
  unfold State.pathLoop; dsimp only; refine ite_only (fun _ => ?_) (fun _ => ?_); refine onFab_only.after ?_
  refine State.sensePort_only.after ?_; exact changesOnly_refl; refine when_only ?_ (fun _ => ?_)
  refine State.stagesStep_only.after ?_; refine State.clipCount_only.after ?_; refine ite_only (fun _ => ?_) (fun _ => ?_)
  refine State.sensePort_only.after ?_; exact changesOnly_refl; refine onCc_only.after ?_; refine State.sensePort_only.after ?_
  exact changesOnly_refl; refine State.checkerFail_only.after ?_; exact changesOnly_refl

theorem State.sampleThrough_only {s : State} {p : PortId} {m : PathSample} :
    changesOnly [.qs, .flt] s (State.sampleThrough s p m).1 := by
  unfold State.sampleThrough; dsimp only; split; dsimp only; refine onQs_only.after ?_; refine when_only ?_ (fun _ => ?_)
  exact changesOnly_refl; refine State.failNote_only.after ?_; refine State.drop_only.after ?_; exact changesOnly_refl
  dsimp only; refine when_only ?_ (fun _ => ?_); exact changesOnly_refl; refine State.failNote_only.after ?_
  refine State.drop_only.after ?_; exact changesOnly_refl

theorem State.pathPeriod_only {s : State} {p : PortId} {m : PathSample} :
    changesOnly [.clk, .sys, .qs, .bus, .grd, .fab, .cc, .pp, .chg, .ms, .sw, .seq, .flt, .wd, .mb, .stk, .nvm, .tca, .tcb, .free]
      s (State.pathPeriod s p m) := by
  unfold State.pathPeriod; refine ite_only (fun _ => ?_) (fun _ => ?_); dsimp only; refine State.pathLoop_only.after ?_
  refine State.sampleThrough_only.after ?_; exact changesOnly_refl; refine State.pathLoop_only.after ?_; exact changesOnly_refl

theorem State.periodStep_only {s : State} {y : SyncIn} : changesOnly [.fab, .cc] s (State.periodStep s y) := by
  unfold State.periodStep; dsimp only; refine when_only ?_ (fun _ => ?_); refine onCc_only.after ?_; exact changesOnly_refl
  refine foldl_only ?_ (fun _ _ => ?_); refine State.onPhases_only.after ?_; exact changesOnly_refl
  refine State.reAngle_only.after ?_; exact changesOnly_refl

theorem State.sendRef_only {s : State} : changesOnly [.stk] s (State.sendRef s) := by
  unfold State.sendRef; refine ite_only (fun _ => ?_) (fun _ => ?_); refine onStk_only.after ?_; exact changesOnly_refl
  refine ite_only (fun _ => ?_) (fun _ => ?_); dsimp only; refine onStk_only.after ?_; exact changesOnly_refl
  exact changesOnly_refl

theorem State.tuneEnd_only {s : State} {r : TuneRun} {c esr spread : Nat} {ok : Bool} :
    changesOnly [.qs, .cc, .pp, .mb] s (State.tuneEnd s r c esr spread ok) := by
  unfold State.tuneEnd; dsimp only; refine State.tuneNext_only.after ?_; refine State.finishO_only.after ?_
  refine ite_only (fun _ => ?_) (fun _ => ?_); refine State.raise_only.after ?_; refine when_only ?_ (fun _ => ?_)
  refine onCc_only.after ?_; exact changesOnly_refl; refine onPp_only.after ?_; exact changesOnly_refl
  refine State.raise_only.after ?_; refine when_only ?_ (fun _ => ?_); refine onCc_only.after ?_; exact changesOnly_refl
  refine onPp_only.after ?_; exact changesOnly_refl

theorem State.fswTake_only {s : State} : changesOnly [.bus, .cc] s (State.fswTake s) := by
  unfold State.fswTake; refine ite_only (fun _ => ?_) (fun _ => ?_); dsimp only; refine State.updShow_only.after ?_
  refine State.tuneNext_only.after ?_; refine onCc_only.after ?_; refine State.setReg_only.after ?_
  refine State.setReg_only.after ?_; exact changesOnly_refl; exact changesOnly_refl

theorem State.lfOffer_only {s : State} {k : Nat} : changesOnly [.flt, .nvm] s (State.lfOffer s k) := by
  unfold State.lfOffer; split; refine ite_only (fun _ => ?_) (fun _ => ?_); exact changesOnly_refl; refine onFlt_only.after ?_
  refine State.nvmPush_only.after ?_; exact changesOnly_refl; exact changesOnly_refl

theorem State.lfOffers_only {s : State} : changesOnly [.flt, .nvm] s (State.lfOffers s) := by
  unfold State.lfOffers; refine ite_only (fun _ => ?_) (fun _ => ?_); refine State.lfOffer_only.after ?_
  refine State.lfOffer_only.after ?_; exact changesOnly_refl; exact changesOnly_refl

end Sys2Proof.Machine
end

