-- ==== Sys2Proof/Laws/OnlyPower.lean ====
section
/-! SUPPORT. Which parts of the state each operation of Machine/Power.lean may change. -/
namespace Sys2Proof.Machine

set_option Elab.async false
open Sys2Proof.Safety

theorem State.pcGone_only {s : State} :
    changesOnly [.sys, .qs, .fab, .cc, .pp, .sw, .seq, .mb, .nvm, .tca, .tcb] s (State.pcGone s) := by
  unfold State.pcGone; dsimp only; refine ite_only (fun _ => ?_) (fun _ => ?_); refine State.noSource_only.after ?_
  refine State.tuneNext_only.after ?_; refine onCc_only.after ?_; refine State.setPresent_only.after ?_
  refine foldl_only ?_ (fun _ _ => ?_); exact changesOnly_refl; refine State.finishO_only.after ?_; exact changesOnly_refl
  refine State.sinkEnded_only.after ?_; refine State.endPath_only.after ?_; refine State.tuneNext_only.after ?_
  refine onCc_only.after ?_; refine State.setPresent_only.after ?_; refine foldl_only ?_ (fun _ _ => ?_); exact changesOnly_refl
  refine State.finishO_only.after ?_; exact changesOnly_refl

theorem State.batGone_only {s : State} :
    changesOnly [.sys, .qs, .fab, .cc, .pp, .chg, .sw, .mb, .tca, .tcb, .free] s (State.batGone s) := by
  unfold State.batGone; dsimp only; refine when_only ?_ (fun _ => ?_); refine State.suspendAnew_only.after ?_
  refine State.modelDrop_only.after ?_; refine State.sweepAbort_only.after ?_; refine State.raise_only.after ?_
  refine State.limpFollow_only.after ?_; refine State.switchOff_only.after ?_; refine onPp_only.after ?_; exact changesOnly_refl
  refine State.srcRemove_only.after ?_; refine State.srcRemove_only.after ?_; exact changesOnly_refl

theorem State.scanBegin_only {s : State} : changesOnly [.pp] s (State.scanBegin s) := by
  unfold State.scanBegin; refine ite_only (fun _ => ?_) (fun _ => ?_); exact changesOnly_refl
  refine ite_only (fun _ => ?_) (fun _ => ?_); refine onPp_only.after ?_; exact changesOnly_refl; refine onPp_only.after ?_
  exact changesOnly_refl

theorem State.scanStep_only {s : State} {c : Scan} {v i : Nat} : changesOnly [.qs, .pp] s (State.scanStep s c v i) := by
  unfold State.scanStep; refine ite_only (fun _ => ?_) (fun _ => ?_); refine onPp_only.after ?_; exact changesOnly_refl
  dsimp only; refine ite_only (fun _ => ?_) (fun _ => ?_); refine onPp_only.after ?_; exact changesOnly_refl
  refine State.raise_only.after ?_; refine onPp_only.after ?_; exact changesOnly_refl

end Sys2Proof.Machine
end

