-- ==== Sys2Proof/Laws/OnlyCharge.lean ====
section
/-! SUPPORT. Which parts of the state each operation of Machine/Charge.lean may change. -/
namespace Sys2Proof.Machine

set_option Elab.async false
open Sys2Proof.Safety

theorem State.chemWrite_only {s : State} {v : Byte} :
    changesOnly [.sys, .qs, .bus, .grd, .pp, .chg, .ms, .sw, .mb, .free] s (State.chemWrite s v) := by
  unfold State.chemWrite; dsimp only; refine ite_only (fun _ => ?_) (fun _ => ?_); refine State.guardFail_only.after ?_
  exact changesOnly_refl; refine ite_only (fun _ => ?_) (fun _ => ?_); refine State.guardFail_only.after ?_
  refine onGrd_only.after ?_; exact changesOnly_refl; refine when_only ?_ (fun _ => ?_); refine State.modelDrop_only.after ?_
  refine onChg_only.after ?_; refine State.setReg_only.after ?_; refine State.setReg_only.after ?_
  refine State.setReg_only.after ?_; refine onGrd_only.after ?_; exact changesOnly_refl; refine State.chargeStart_only.after ?_
  exact changesOnly_refl

theorem State.modelTick_only {s : State} : changesOnly [.ms, .sw, .free] s (State.modelTick s) := by
  unfold State.modelTick; dsimp only; refine ite_only (fun _ => ?_) (fun _ => ?_); refine onSw_only.after ?_
  refine onMs_only.after ?_; exact changesOnly_refl; refine useFree_only.after ?_; refine onSw_only.after ?_
  refine onMs_only.after ?_; exact changesOnly_refl

theorem State.modelTake_only {s : State} : changesOnly [.sys, .qs, .ms, .sw, .free] s (State.modelTake s) := by
  unfold State.modelTake; split; refine State.modelTick_only.after ?_; exact changesOnly_refl; dsimp only
  refine State.raise_only.after ?_; refine State.tierFix_only.after ?_; refine State.modelTick_only.after ?_
  refine onSw_only.after ?_; exact changesOnly_refl

theorem State.polarTick_only {s : State} : changesOnly [.sw, .free] s (State.polarTick s) := by
  unfold State.polarTick; dsimp only; refine useFree_only.after ?_; refine onSw_only.after ?_; refine onSw_only.after ?_
  exact changesOnly_refl

theorem State.switchTick_only {s : State} : changesOnly [.pp] s (State.switchTick s) := by
  unfold State.switchTick; refine ite_only (fun _ => ?_) (fun _ => ?_); exact changesOnly_refl
  refine ite_only (fun _ => ?_) (fun _ => ?_); refine when_only ?_ (fun _ => ?_); exact changesOnly_refl
  refine State.switchIdle_only.after ?_; exact changesOnly_refl; refine ite_only (fun _ => ?_) (fun _ => ?_)
  exact changesOnly_refl; dsimp only; split; refine onPp_only.after ?_; exact changesOnly_refl; refine onPp_only.after ?_
  exact changesOnly_refl; refine onPp_only.after ?_; refine State.switchFull_only.after ?_; exact changesOnly_refl
  refine onPp_only.after ?_; refine State.switchFull_only.after ?_; exact changesOnly_refl; exact changesOnly_refl

theorem State.tgtTick_only {s : State} : changesOnly [.chg, .sw] s (State.tgtTick s) := by
  unfold State.tgtTick; split; dsimp only; refine when_only ?_ (fun _ => ?_); refine onChg_only.after ?_; exact changesOnly_refl
  refine State.sweepDisturb_only.after ?_; exact changesOnly_refl

theorem State.tick1_only {s : State} : changesOnly [.qs, .pp, .chg, .ms, .sw, .free] s (State.tick1 s) := by
  unfold State.tick1; dsimp only; refine ite_only (fun _ => ?_) (fun _ => ?_); refine when_only ?_ (fun _ => ?_)
  refine onChg_only.after ?_; exact changesOnly_refl; refine State.chgOff_only.after ?_; exact changesOnly_refl
  refine onChg_only.after ?_; refine when_only ?_ (fun _ => ?_); refine when_only ?_ (fun _ => ?_)
  refine when_only ?_ (fun _ => ?_); refine when_only ?_ (fun _ => ?_); refine onChg_only.after ?_; exact changesOnly_refl
  refine State.chargeStart_only.after ?_; exact changesOnly_refl; refine State.suspend_only.after ?_; exact changesOnly_refl
  refine State.suspendAnew_only.after ?_; exact changesOnly_refl; refine State.suspendAnew_only.after ?_; exact changesOnly_refl

theorem State.tick2_only {s : State} : changesOnly [.qs, .pp, .chg] s (State.tick2 s) := by
  unfold State.tick2; refine ite_only (fun _ => ?_) (fun _ => ?_); refine State.suspend_only.after ?_; exact changesOnly_refl
  refine State.clearReason_only.after ?_; exact changesOnly_refl

theorem State.tick3_only {s : State} : changesOnly [.qs, .pp, .chg, .ms, .sw, .free] s (State.tick3 s) := by
  unfold State.tick3; dsimp only; refine onChg_only.after ?_; refine when_only ?_ (fun _ => ?_)
  refine when_only ?_ (fun _ => ?_); exact changesOnly_refl; refine State.suspendAnew_only.after ?_; exact changesOnly_refl
  refine State.autoStart_only.after ?_; exact changesOnly_refl

theorem State.tick4_only {s : State} : changesOnly [.qs, .pp, .chg] s (State.tick4 s) := by
  unfold State.tick4; refine when_only ?_ (fun _ => ?_); exact changesOnly_refl; refine State.suspend_only.after ?_
  exact changesOnly_refl

theorem State.zoneFind_only {s : State} : changesOnly [.chg] s (State.zoneFind s) := by
  unfold State.zoneFind; refine ite_only (fun _ => ?_) (fun _ => ?_); refine onChg_only.after ?_; exact changesOnly_refl
  dsimp only; refine onChg_only.after ?_; exact changesOnly_refl

theorem State.zoneTake_only {s : State} {z : Zone} : changesOnly [.qs, .pp, .chg] s (State.zoneTake s z) := by
  unfold State.zoneTake; dsimp only; refine ite_only (fun _ => ?_) (fun _ => ?_); refine State.suspend_only.after ?_
  refine ite_only (fun _ => ?_) (fun _ => ?_); refine State.suspend_only.after ?_; refine State.raise_only.after ?_
  refine onChg_only.after ?_; exact changesOnly_refl; refine State.clearReason_only.after ?_; refine State.raise_only.after ?_
  refine onChg_only.after ?_; exact changesOnly_refl; refine State.clearReason_only.after ?_
  refine ite_only (fun _ => ?_) (fun _ => ?_); refine State.suspend_only.after ?_; refine State.raise_only.after ?_
  refine onChg_only.after ?_; exact changesOnly_refl; refine State.clearReason_only.after ?_; refine State.raise_only.after ?_
  refine onChg_only.after ?_; exact changesOnly_refl

theorem State.tick5_only {s : State} : changesOnly [.qs, .pp, .chg] s (State.tick5 s) := by
  unfold State.tick5; dsimp only; refine ite_only (fun _ => ?_) (fun _ => ?_); refine when_only ?_ (fun _ => ?_)
  refine when_only ?_ (fun _ => ?_); refine onChg_only.after ?_; refine State.zoneFind_only.after ?_; exact changesOnly_refl
  refine State.suspend_only.after ?_; refine onChg_only.after ?_; exact changesOnly_refl; refine State.clearReason_only.after ?_
  refine when_only ?_ (fun _ => ?_); exact changesOnly_refl; refine State.zoneTake_only.after ?_; exact changesOnly_refl
  refine ite_only (fun _ => ?_) (fun _ => ?_); refine State.suspend_only.after ?_; refine ite_only (fun _ => ?_) (fun _ => ?_)
  refine State.suspend_only.after ?_; refine when_only ?_ (fun _ => ?_); refine when_only ?_ (fun _ => ?_)
  refine onChg_only.after ?_; refine State.zoneFind_only.after ?_; exact changesOnly_refl; refine State.suspend_only.after ?_
  refine onChg_only.after ?_; exact changesOnly_refl; refine State.clearReason_only.after ?_; refine when_only ?_ (fun _ => ?_)
  exact changesOnly_refl; refine State.zoneTake_only.after ?_; exact changesOnly_refl; refine State.clearReason_only.after ?_
  refine when_only ?_ (fun _ => ?_); refine when_only ?_ (fun _ => ?_); refine onChg_only.after ?_
  refine State.zoneFind_only.after ?_; exact changesOnly_refl; refine State.suspend_only.after ?_; refine onChg_only.after ?_
  exact changesOnly_refl; refine State.clearReason_only.after ?_; refine when_only ?_ (fun _ => ?_); exact changesOnly_refl
  refine State.zoneTake_only.after ?_; exact changesOnly_refl; refine State.clearReason_only.after ?_
  refine ite_only (fun _ => ?_) (fun _ => ?_); refine State.suspend_only.after ?_; refine when_only ?_ (fun _ => ?_)
  refine when_only ?_ (fun _ => ?_); refine onChg_only.after ?_; refine State.zoneFind_only.after ?_; exact changesOnly_refl
  refine State.suspend_only.after ?_; refine onChg_only.after ?_; exact changesOnly_refl; refine State.clearReason_only.after ?_
  refine when_only ?_ (fun _ => ?_); exact changesOnly_refl; refine State.zoneTake_only.after ?_; exact changesOnly_refl
  refine State.clearReason_only.after ?_; refine when_only ?_ (fun _ => ?_); refine when_only ?_ (fun _ => ?_)
  refine onChg_only.after ?_; refine State.zoneFind_only.after ?_; exact changesOnly_refl; refine State.suspend_only.after ?_
  refine onChg_only.after ?_; exact changesOnly_refl; refine State.clearReason_only.after ?_; refine when_only ?_ (fun _ => ?_)
  exact changesOnly_refl; refine State.zoneTake_only.after ?_; exact changesOnly_refl

theorem State.tick6_only {was : Bool} {s : State} : changesOnly [.qs, .pp, .chg, .ms, .sw, .free] s (State.tick6 was s) := by
  unfold State.tick6; dsimp only; split; refine when_only ?_ (fun _ => ?_); refine onChg_only.after ?_; exact changesOnly_refl
  refine onChg_only.after ?_; exact changesOnly_refl; refine when_only ?_ (fun _ => ?_); refine onChg_only.after ?_
  exact changesOnly_refl; refine onChg_only.after ?_; exact changesOnly_refl; refine when_only ?_ (fun _ => ?_)
  refine onChg_only.after ?_; exact changesOnly_refl; refine onChg_only.after ?_; exact changesOnly_refl
  refine when_only ?_ (fun _ => ?_); refine onChg_only.after ?_; exact changesOnly_refl; refine State.chgDone_only.after ?_
  exact changesOnly_refl; refine when_only ?_ (fun _ => ?_); refine onChg_only.after ?_; exact changesOnly_refl
  refine onChg_only.after ?_; exact changesOnly_refl; refine when_only ?_ (fun _ => ?_); refine onChg_only.after ?_
  exact changesOnly_refl; refine State.autoStart_only.after ?_; exact changesOnly_refl; refine onChg_only.after ?_
  exact changesOnly_refl; refine onChg_only.after ?_; exact changesOnly_refl

theorem State.tick7_only {s : State} : changesOnly [.qs, .pp, .chg] s (State.tick7 s) := by
  unfold State.tick7; refine ite_only (fun _ => ?_) (fun _ => ?_); refine onChg_only.after ?_; exact changesOnly_refl
  dsimp only; refine ite_only (fun _ => ?_) (fun _ => ?_); refine State.suspend_only.after ?_; refine onChg_only.after ?_
  exact changesOnly_refl; refine ite_only (fun _ => ?_) (fun _ => ?_); refine State.chgDone_only.after ?_
  refine onChg_only.after ?_; exact changesOnly_refl; refine ite_only (fun _ => ?_) (fun _ => ?_)
  refine State.suspend_only.after ?_; refine onChg_only.after ?_; exact changesOnly_refl; refine onChg_only.after ?_
  exact changesOnly_refl

theorem State.tickKeep_only {s : State} : changesOnly [.chg] s (State.tickKeep s) := by
  unfold State.tickKeep; dsimp only; refine onChg_only.after ?_; exact changesOnly_refl

theorem State.tickSweep_only {s : State} : changesOnly [.qs, .ms, .sw, .mb, .free] s (State.tickSweep s) := by
  unfold State.tickSweep; dsimp only; refine ite_only (fun _ => ?_) (fun _ => ?_); refine ite_only (fun _ => ?_) (fun _ => ?_)
  refine onSw_only.after ?_; refine when_only ?_ (fun _ => ?_); exact changesOnly_refl; split
  refine State.sweepAbort_only.after ?_; exact changesOnly_refl; refine when_only ?_ (fun _ => ?_); exact changesOnly_refl
  refine State.sweepStop_only.after ?_; exact changesOnly_refl; refine State.trigSweep_only.after ?_; refine onSw_only.after ?_
  refine when_only ?_ (fun _ => ?_); exact changesOnly_refl; split; refine State.sweepAbort_only.after ?_
  exact changesOnly_refl; refine when_only ?_ (fun _ => ?_); exact changesOnly_refl; refine State.sweepStop_only.after ?_
  exact changesOnly_refl; refine ite_only (fun _ => ?_) (fun _ => ?_); refine when_only ?_ (fun _ => ?_); exact changesOnly_refl
  split; refine State.sweepAbort_only.after ?_; exact changesOnly_refl; refine when_only ?_ (fun _ => ?_)
  exact changesOnly_refl; refine State.sweepStop_only.after ?_; exact changesOnly_refl
  refine ite_only (fun _ => ?_) (fun _ => ?_); refine State.sweepBegin_only.after ?_; refine onSw_only.after ?_
  refine when_only ?_ (fun _ => ?_); exact changesOnly_refl; split; refine State.sweepAbort_only.after ?_
  exact changesOnly_refl; refine when_only ?_ (fun _ => ?_); exact changesOnly_refl; refine State.sweepStop_only.after ?_
  exact changesOnly_refl; refine ite_only (fun _ => ?_) (fun _ => ?_); refine State.trigSweep_only.after ?_
  refine onSw_only.after ?_; refine when_only ?_ (fun _ => ?_); exact changesOnly_refl; split
  refine State.sweepAbort_only.after ?_; exact changesOnly_refl; refine when_only ?_ (fun _ => ?_); exact changesOnly_refl
  refine State.sweepStop_only.after ?_; exact changesOnly_refl; refine when_only ?_ (fun _ => ?_); exact changesOnly_refl; split
  refine State.sweepAbort_only.after ?_; exact changesOnly_refl; refine when_only ?_ (fun _ => ?_); exact changesOnly_refl
  refine State.sweepStop_only.after ?_; exact changesOnly_refl

theorem State.vrefTick_only {s : State} : changesOnly [.chg] s (State.vrefTick s) := by
  unfold State.vrefTick; dsimp only; refine onChg_only.after ?_; exact changesOnly_refl

theorem State.tickCharge_only {s : State} : changesOnly [.qs, .pp, .chg, .ms, .sw, .mb, .free] s (State.tickCharge s) := by
  unfold State.tickCharge; refine ite_only (fun _ => ?_) (fun _ => ?_); exact changesOnly_refl; dsimp only
  refine State.tickKeep_only.after ?_; refine State.switchTick_only.after ?_; refine State.vrefTick_only.after ?_
  refine State.tgtTick_only.after ?_; refine State.tickSweep_only.after ?_; refine State.tick7_only.after ?_
  refine State.tick6_only.after ?_; refine State.tick5_only.after ?_; refine State.tick4_only.after ?_
  refine State.tick3_only.after ?_; refine State.tick2_only.after ?_; refine State.tick1_only.after ?_
  refine when_only ?_ (fun _ => ?_); exact changesOnly_refl; refine State.chargeTier1_only.after ?_; exact changesOnly_refl

theorem State.tickEnd_only {m : TeaselIn} {s : State} :
    changesOnly [.sys, .qs, .bus, .pp, .chg, .ms, .sw, .seq, .mb, .nvm, .tca, .tcb] s (State.tickEnd m s) := by
  unfold State.tickEnd; dsimp only; refine when_only ?_ (fun _ => ?_); refine onChg_only.after ?_; refine onSw_only.after ?_
  refine onMs_only.after ?_; exact changesOnly_refl; refine when_only ?_ (fun _ => ?_); refine onSys_only.after ?_
  exact changesOnly_refl; refine State.dormBegin_only.after ?_; exact changesOnly_refl

end Sys2Proof.Machine
end

