-- ==== Sys2Proof/Laws/OnlyMeasure.lean ====
section
/-! SUPPORT. Which parts of the state each operation of Machine/Measure.lean may change. -/
namespace Sys2Proof.Machine

set_option Elab.async false
open Sys2Proof.Safety

theorem State.ccAdd_only {s : State} {ua : Int} : changesOnly [.qs, .ms] s (State.ccAdd s ua) := by
  unfold State.ccAdd; dsimp only; refine ite_only (fun _ => ?_) (fun _ => ?_); exact changesOnly_refl
  refine ite_only (fun _ => ?_) (fun _ => ?_); refine onMs_only.after ?_; exact changesOnly_refl
  refine State.raise_only.after ?_; refine onMs_only.after ?_; exact changesOnly_refl

theorem State.sampleTake_only {s : State} {x : SampleSet} :
    changesOnly [.qs, .ms, .sw, .flt, .mb, .free] s (State.sampleTake s x) := by
  unfold State.sampleTake; refine ite_only (fun _ => ?_) (fun _ => ?_); refine State.yarrow_only.after ?_
  refine onQs_only.after ?_; exact changesOnly_refl; refine State.drop_only.after ?_; exact changesOnly_refl

theorem State.pointBegin_only {s : State} : changesOnly [.sw] s (State.pointBegin s) := by
  unfold State.pointBegin; refine onSw_only.after ?_; exact changesOnly_refl

theorem State.setGrade_only {s : State} {k : Nat} {f : Grade → Grade} : changesOnly [.sw] s (State.setGrade s k f) := by
  unfold State.setGrade; refine onSw_only.after ?_; exact changesOnly_refl

theorem State.ccPreset_only {s : State} {v : Int} : changesOnly [.chg, .ms] s (State.ccPreset s v) := by
  unfold State.ccPreset; dsimp only; refine onChg_only.after ?_; refine onMs_only.after ?_; exact changesOnly_refl

end Sys2Proof.Machine
end

