-- ==== Sys2Proof/Laws/OnlyBus.lean ====
section
/-! SUPPORT. Which parts of the state each operation of Machine/Bus.lean may change. -/
namespace Sys2Proof.Machine

set_option Elab.async false
open Sys2Proof.Safety

theorem State.bufferWrite_only {s : State} {r : Nat} {v : Byte} : changesOnly [.bus] s (State.bufferWrite s r v) := by
  unfold State.bufferWrite; split; exact changesOnly_refl; refine State.updShow_only.after ?_; refine onBus_only.after ?_
  exact changesOnly_refl

theorem State.hostWrite_only {s : State} {a : Nat} {v : Byte} : changesOnly [.qs, .bus, .mb] s (State.hostWrite s a v) := by
  unfold State.hostWrite; refine ite_only (fun _ => ?_) (fun _ => ?_); refine onBus_only.after ?_; exact changesOnly_refl
  refine ite_only (fun _ => ?_) (fun _ => ?_); refine State.onPort_only.after ?_; exact changesOnly_refl
  refine ite_only (fun _ => ?_) (fun _ => ?_); refine State.onPort_only.after ?_; exact changesOnly_refl
  refine ite_only (fun _ => ?_) (fun _ => ?_); refine ite_only (fun _ => ?_) (fun _ => ?_); exact changesOnly_refl
  refine State.guardFail_only.after ?_; exact changesOnly_refl; refine ite_only (fun _ => ?_) (fun _ => ?_)
  refine ite_only (fun _ => ?_) (fun _ => ?_); refine State.busFlag_only.after ?_; exact changesOnly_refl
  refine State.bufferWrite_only.after ?_; exact changesOnly_refl; refine ite_only (fun _ => ?_) (fun _ => ?_)
  refine ite_only (fun _ => ?_) (fun _ => ?_); exact changesOnly_refl; refine onMb_only.after ?_; exact changesOnly_refl
  exact changesOnly_refl

theorem State.driven_only {s : State} {bp : BusPort} {v : Byte} : changesOnly [.bus] s (State.driven s bp v) := by
  unfold State.driven; refine State.onPort_only.after ?_; exact changesOnly_refl

theorem State.readGts_only {s : State} {bp : BusPort} : changesOnly [.bus] s (State.readGts s bp) := by
  unfold State.readGts; refine State.driven_only.after ?_; refine State.onPort_only.after ?_; exact changesOnly_refl

theorem State.readLine_only {s : State} {bp : BusPort} : changesOnly [.bus] s (State.readLine s bp) := by
  unfold State.readLine; dsimp only; refine ite_only (fun _ => ?_) (fun _ => ?_); refine State.busFlag_only.after ?_
  refine State.driven_only.after ?_; exact changesOnly_refl; refine ite_only (fun _ => ?_) (fun _ => ?_)
  refine State.driven_only.after ?_; exact changesOnly_refl; split; refine ite_only (fun _ => ?_) (fun _ => ?_)
  refine State.driven_only.after ?_; exact changesOnly_refl; refine State.onPort_only.after ?_; exact changesOnly_refl
  refine State.onPort_only.after ?_; exact changesOnly_refl

theorem State.readMir_only {s : State} {bp : BusPort} : changesOnly [.bus] s (State.readMir s bp) := by
  unfold State.readMir; dsimp only; refine State.driven_only.after ?_; refine State.onPort_only.after ?_; exact changesOnly_refl

theorem State.readRc_only {s : State} {bp : BusPort} : changesOnly [.qs, .bus] s (State.readRc s bp) := by
  unfold State.readRc; dsimp only; refine ite_only (fun _ => ?_) (fun _ => ?_); refine State.onPort_only.after ?_
  refine State.driven_only.after ?_; exact changesOnly_refl; refine ite_only (fun _ => ?_) (fun _ => ?_)
  refine onQs_only.after ?_; refine State.driven_only.after ?_; exact changesOnly_refl; refine State.driven_only.after ?_
  exact changesOnly_refl

theorem State.readByte_only {s : State} {bp : BusPort} : changesOnly [.qs, .bus] s (State.readByte s bp) := by
  unfold State.readByte; dsimp only; refine ite_only (fun _ => ?_) (fun _ => ?_); refine State.readRc_only.after ?_
  exact changesOnly_refl; refine ite_only (fun _ => ?_) (fun _ => ?_); refine State.readGts_only.after ?_
  exact changesOnly_refl; refine ite_only (fun _ => ?_) (fun _ => ?_); refine State.readMir_only.after ?_
  exact changesOnly_refl; refine ite_only (fun _ => ?_) (fun _ => ?_); refine State.readLine_only.after ?_
  exact changesOnly_refl; refine State.driven_only.after ?_; exact changesOnly_refl

theorem State.attnTry_only {s : State} {r : AttnRes} : changesOnly [.bus] s (State.attnTry s r) := by
  unfold State.attnTry; split; refine onBus_only.after ?_; exact changesOnly_refl; refine onBus_only.after ?_
  exact changesOnly_refl; refine ite_only (fun _ => ?_) (fun _ => ?_); refine onBus_only.after ?_; exact changesOnly_refl
  refine State.busFlag_only.after ?_; refine onBus_only.after ?_; exact changesOnly_refl
  refine ite_only (fun _ => ?_) (fun _ => ?_); refine onBus_only.after ?_; exact changesOnly_refl
  refine State.busFlag_only.after ?_; refine onBus_only.after ?_; exact changesOnly_refl
  refine ite_only (fun _ => ?_) (fun _ => ?_); refine onBus_only.after ?_; exact changesOnly_refl
  refine State.busFlag_only.after ?_; refine onBus_only.after ?_; exact changesOnly_refl

theorem State.applyConv_only {s : State} {fsw : Bool} {before : State} :
    changesOnly [.bus, .cc] s (State.applyConv s fsw before) := by
  unfold State.applyConv; dsimp only; refine when_only ?_ (fun _ => ?_); refine when_only ?_ (fun _ => ?_)
  refine when_only ?_ (fun _ => ?_); refine State.clampReg_only.after ?_; exact changesOnly_refl; refine onCc_only.after ?_
  exact changesOnly_refl; refine onCc_only.after ?_; exact changesOnly_refl; refine State.fswTake_only.after ?_
  refine onCc_only.after ?_; exact changesOnly_refl

theorem State.applyMeas_only {s : State} {before : State} :
    changesOnly [.qs, .bus, .ms, .sw, .mb, .free] s (State.applyMeas s before) := by
  unfold State.applyMeas; dsimp only; refine when_only ?_ (fun _ => ?_); refine when_only ?_ (fun _ => ?_)
  refine when_only ?_ (fun _ => ?_); refine State.clampReg_only.after ?_; refine State.clampReg_only.after ?_
  refine State.clampReg_only.after ?_; refine State.clampReg_only.after ?_; refine State.clampReg_only.after ?_
  refine State.clampReg_only.after ?_; refine State.clampReg_only.after ?_; exact changesOnly_refl
  refine State.setReg_only.after ?_; exact changesOnly_refl; refine State.bleedStop_only.after ?_; exact changesOnly_refl
  refine State.withdrawQueued_only.after ?_; refine State.sweepStop_only.after ?_; exact changesOnly_refl

theorem State.applyPath_only {s : State} {prio : Bool} {before : State} :
    changesOnly [.sys, .qs, .bus, .fab, .cc, .pp, .chg, .sw, .seq, .flt, .mb, .nvm, .tca, .tcb, .free]
      s (State.applyPath s prio before) := by
  unfold State.applyPath; dsimp only; refine when_only ?_ (fun _ => ?_); refine foldl_only ?_ (fun _ _ => ?_)
  refine foldl_only ?_ (fun _ _ => ?_); refine when_only ?_ (fun _ => ?_); refine when_only ?_ (fun _ => ?_)
  refine State.clampReg_only.after ?_; refine State.clampReg_only.after ?_; refine State.clampPair_only.after ?_
  refine ite_only (fun _ => ?_) (fun _ => ?_); refine onPp_only.after ?_; refine State.setReg_only.after ?_
  exact changesOnly_refl; refine when_only ?_ (fun _ => ?_); exact changesOnly_refl; refine onPp_only.after ?_
  exact changesOnly_refl; refine State.setReg_only.after ?_; exact changesOnly_refl; refine onPp_only.after ?_
  exact changesOnly_refl; refine when_only ?_ (fun _ => ?_); exact changesOnly_refl; refine State.sinkEnded_only.after ?_
  refine State.endPath_only.after ?_; exact changesOnly_refl; refine when_only ?_ (fun _ => ?_); exact changesOnly_refl
  refine ite_only (fun _ => ?_) (fun _ => ?_); refine State.sendCaps_only.after ?_; refine State.txClear_only.after ?_
  exact changesOnly_refl; refine when_only ?_ (fun _ => ?_); exact changesOnly_refl; refine State.negotiate_only.after ?_
  refine State.txClear_only.after ?_; exact changesOnly_refl; refine State.batGone_only.after ?_; exact changesOnly_refl

theorem State.applySeq_only {s : State} {slots imm : Bool} {before : State} :
    changesOnly [.qs, .bus, .pp, .seq, .mb, .nvm] s (State.applySeq s slots imm before) := by
  unfold State.applySeq; dsimp only; refine when_only ?_ (fun _ => ?_); refine when_only ?_ (fun _ => ?_)
  refine when_only ?_ (fun _ => ?_); refine when_only ?_ (fun _ => ?_); refine when_only ?_ (fun _ => ?_)
  refine foldl_only ?_ (fun _ _ => ?_); refine State.clampReg_only.after ?_; refine State.clampReg_only.after ?_
  refine State.clampReg_only.after ?_; exact changesOnly_refl; refine State.clampReg_only.after ?_; exact changesOnly_refl
  refine onSeq_only.after ?_; exact changesOnly_refl; refine ite_only (fun _ => ?_) (fun _ => ?_)
  refine State.tableApply_only.after ?_; exact changesOnly_refl; refine onSeq_only.after ?_; exact changesOnly_refl
  refine onSeq_only.after ?_; exact changesOnly_refl; refine State.nrstJudge_only.after ?_; exact changesOnly_refl
  refine State.withdrawQueued_only.after ?_; refine State.seqDisable_only.after ?_; exact changesOnly_refl

theorem State.applyTc_only {t : TcId} {s : State} :
    changesOnly [.sys, .qs, .bus, .fab, .cc, .pp, .sw, .mb, .tca, .tcb, .free] s (State.applyTc t s) := by
  unfold State.applyTc; dsimp only; refine State.frsEval_only.after ?_; refine State.tcReeval_only.after ?_
  refine when_only ?_ (fun _ => ?_); refine State.clampReg_only.after ?_; refine State.clampReg_only.after ?_
  refine State.clampReg_only.after ?_; refine State.clampReg_only.after ?_; refine when_only ?_ (fun _ => ?_)
  exact changesOnly_refl; refine State.setReg_only.after ?_; exact changesOnly_refl; refine State.vconnOn_only.after ?_
  exact changesOnly_refl

theorem State.applyBlock_only {s : State} {imm : Bool} {take : Nat → Bool} {k : Nat} :
    changesOnly [.sys, .qs, .bus, .fab, .cc, .pp, .chg, .ms, .sw, .seq, .flt, .mb, .nvm, .tca, .tcb, .free]
      s (State.applyBlock s imm take k) := by
  unfold State.applyBlock; dsimp only; refine ite_only (fun _ => ?_) (fun _ => ?_); exact changesOnly_refl
  refine ite_only (fun _ => ?_) (fun _ => ?_); refine onChg_only.after ?_; exact changesOnly_refl
  refine State.updShow_only.after ?_; split; refine State.applyConv_only.after ?_; refine State.takeShadows_only.after ?_
  exact changesOnly_refl; refine State.applyPath_only.after ?_; refine State.takeShadows_only.after ?_; exact changesOnly_refl
  refine State.applyChg_only.after ?_; refine State.takeShadows_only.after ?_; exact changesOnly_refl
  refine State.applyMeas_only.after ?_; refine State.takeShadows_only.after ?_; exact changesOnly_refl
  refine State.applyTc_only.after ?_; refine State.applyTc_only.after ?_; refine State.takeShadows_only.after ?_
  exact changesOnly_refl; refine State.applySeq_only.after ?_; refine State.takeShadows_only.after ?_; exact changesOnly_refl
  refine State.clampPair_only.after ?_; refine State.takeShadows_only.after ?_; exact changesOnly_refl
  refine State.clampReg_only.after ?_; refine State.takeShadows_only.after ?_; exact changesOnly_refl

theorem State.immWrite_only {s : State} {c : Host.Cell} :
    changesOnly [.sys, .qs, .bus, .fab, .cc, .pp, .chg, .ms, .sw, .seq, .flt, .mb, .nvm, .tca, .tcb, .free]
      s (State.immWrite s c) := by
  unfold State.immWrite; dsimp only; split; exact changesOnly_refl; refine ite_only (fun _ => ?_) (fun _ => ?_)
  refine State.updShow_only.after ?_; refine onBus_only.after ?_; exact changesOnly_refl; refine State.applyBlock_only.after ?_
  refine onBus_only.after ?_; exact changesOnly_refl

end Sys2Proof.Machine
end

