-- ==== Sys2Proof/Laws/OnlyMailbox.lean ====
section
/-! SUPPORT. Which parts of the state each operation of Machine/Mailbox.lean may change. -/
namespace Sys2Proof.Machine

set_option Elab.async false
open Sys2Proof.Safety

theorem State.postFinal_only {s : State} {n : Nat} : changesOnly [.mb] s (State.postFinal s n) := by
  unfold State.postFinal; dsimp only; split; refine State.onBox_only.after ?_; refine State.postFrame_only.after ?_
  exact changesOnly_refl; exact changesOnly_refl

theorem State.dormAsk_only {s : State} {n : Fin 4} {load : Nat} :
    changesOnly [.sys, .qs, .bus, .pp, .seq, .mb, .nvm, .tca, .tcb] s (State.dormAsk s n load) := by
  unfold State.dormAsk; dsimp only; refine ite_only (fun _ => ?_) (fun _ => ?_); refine State.finish_only.after ?_
  refine State.accept_only.after ?_; exact changesOnly_refl; refine ite_only (fun _ => ?_) (fun _ => ?_)
  refine State.dormBegin_only.after ?_; refine onSys_only.after ?_; refine State.accept_only.after ?_; exact changesOnly_refl
  refine onSys_only.after ?_; refine State.accept_only.after ?_; exact changesOnly_refl

theorem State.withdrawDown_only {s : State} {k : Fin 4} :
    changesOnly [.qs, .bus, .pp, .seq, .mb, .nvm] s (State.withdrawDown s k) := by
  unfold State.withdrawDown; refine ite_only (fun _ => ?_) (fun _ => ?_); refine State.seqStop_only.after ?_
  refine State.finishL_only.after ?_; refine onSeq_only.after ?_; exact changesOnly_refl; dsimp only
  refine State.finish_only.after ?_; refine onSeq_only.after ?_; exact changesOnly_refl

theorem State.withdrawUp_only {s : State} {k : Fin 4} : changesOnly [.qs, .bus, .pp, .seq, .mb, .nvm] s (State.withdrawUp s k) := by
  unfold State.withdrawUp; refine ite_only (fun _ => ?_) (fun _ => ?_); refine State.seqStop_only.after ?_
  refine State.finishL_only.after ?_; refine onSeq_only.after ?_; exact changesOnly_refl; dsimp only
  refine State.finish_only.after ?_; refine onSeq_only.after ?_; exact changesOnly_refl

theorem State.withdrawWork_only {s : State} {k : Fin 4} :
    changesOnly [.clk, .sys, .qs, .bus, .grd, .fab, .cc, .pp, .chg, .ms, .sw, .seq, .flt, .wd, .mb, .stk, .nvm, .tca, .tcb, .free]
      s (State.withdrawWork s k).1 := by
  unfold State.withdrawWork; dsimp only; split; dsimp only; refine State.dormCancel_only.after ?_; exact changesOnly_refl; split
  dsimp only; refine State.sweepStop_only.after ?_; refine State.finish_only.after ?_; refine onSw_only.after ?_
  exact changesOnly_refl; split; dsimp only; refine State.withdrawUp_only.after ?_; exact changesOnly_refl; split; dsimp only
  refine State.withdrawDown_only.after ?_; exact changesOnly_refl; split; dsimp only; refine State.finish_only.after ?_
  refine onCc_only.after ?_; exact changesOnly_refl; split; dsimp only; refine State.tuneNext_only.after ?_
  refine State.finish_only.after ?_; refine onCc_only.after ?_; exact changesOnly_refl; split; dsimp only
  refine State.shipCheck_only.after ?_; refine State.finish_only.after ?_; refine onNvm_only.after ?_; exact changesOnly_refl
  split; dsimp only; refine State.finish_only.after ?_; refine onQs_only.after ?_; refine onStk_only.after ?_
  exact changesOnly_refl; dsimp only; exact changesOnly_refl

theorem State.withdrawBox_only {s : State} {k : Fin 4} :
    changesOnly [.clk, .sys, .qs, .bus, .grd, .fab, .cc, .pp, .chg, .ms, .sw, .seq, .flt, .wd, .mb, .stk, .nvm, .tca, .tcb, .free]
      s (State.withdrawBox s k).1 := by
  unfold State.withdrawBox; dsimp only; split; dsimp only; refine onMb_only.after ?_; refine State.finish_only.after ?_
  exact changesOnly_refl; split; dsimp only; exact changesOnly_refl; refine State.withdrawWork_only.after ?_
  exact changesOnly_refl; split; dsimp only; exact changesOnly_refl; refine State.withdrawWork_only.after ?_
  exact changesOnly_refl; dsimp only; exact changesOnly_refl; dsimp only; exact changesOnly_refl

end Sys2Proof.Machine
end

