-- ==== Sys2Proof/Laws/OnlyRoute.lean ====
section
/-! SUPPORT. Which parts of the state each operation of Machine/Route.lean may change. -/
namespace Sys2Proof.Machine

set_option Elab.async false
open Sys2Proof.Safety

theorem State.tuneCmd_only {s : State} {n : Fin 4} {pc : Bool} : changesOnly [.cc, .mb] s (State.tuneCmd s n pc) := by
  unfold State.tuneCmd; dsimp only; refine ite_only (fun _ => ?_) (fun _ => ?_); refine State.finish_only.after ?_
  exact changesOnly_refl; refine ite_only (fun _ => ?_) (fun _ => ?_); refine State.finish_only.after ?_; exact changesOnly_refl
  refine State.tuneNext_only.after ?_; refine onCc_only.after ?_; refine State.accept_only.after ?_; exact changesOnly_refl

end Sys2Proof.Machine
end

