-- ==== Sys2Proof/Laws/OnlyNvm.lean ====
section
/-! SUPPORT. Which parts of the state each operation of Machine/Nvm.lean may change. -/
namespace Sys2Proof.Machine

set_option Elab.async false
open Sys2Proof.Safety

theorem State.storeCmd_only {s : State} {n : Fin 4} {region : Nat} :
    changesOnly [.qs, .mb, .nvm] s (State.storeCmd s n region) := by
  unfold State.storeCmd; dsimp only; refine ite_only (fun _ => ?_) (fun _ => ?_); refine State.finish_only.after ?_
  exact changesOnly_refl; refine ite_only (fun _ => ?_) (fun _ => ?_); refine State.finish_only.after ?_; exact changesOnly_refl
  refine ite_only (fun _ => ?_) (fun _ => ?_); refine State.finish_only.after ?_; refine State.drop_only.after ?_
  exact changesOnly_refl; refine State.nvmPush_only.after ?_; refine State.accept_only.after ?_; exact changesOnly_refl

theorem State.rollbackRise_only {s : State} : changesOnly [.qs, .nvm] s (State.rollbackRise s) := by
  unfold State.rollbackRise; refine ite_only (fun _ => ?_) (fun _ => ?_); refine ite_only (fun _ => ?_) (fun _ => ?_)
  refine onNvm_only.after ?_; exact changesOnly_refl; refine when_only ?_ (fun _ => ?_); exact changesOnly_refl
  refine State.raise_only.after ?_; refine onNvm_only.after ?_; exact changesOnly_refl; exact changesOnly_refl

theorem State.cfgBegin_only {s : State} {r : NvmReq} : changesOnly [.qs, .nvm] s (State.cfgBegin s r) := by
  unfold State.cfgBegin; dsimp only; refine ite_only (fun _ => ?_) (fun _ => ?_); refine onNvm_only.after ?_
  refine State.rollbackRise_only.after ?_; exact changesOnly_refl; refine State.eraseBegin_only.after ?_
  refine onNvm_only.after ?_; refine State.rollbackRise_only.after ?_; exact changesOnly_refl

theorem State.imgBegin_only {s : State} {k : Nat} : changesOnly [.qs, .nvm] s (State.imgBegin s k) := by
  unfold State.imgBegin; refine State.eraseBegin_only.after ?_; refine onNvm_only.after ?_; exact changesOnly_refl

theorem State.reqGone_only {s : State} {r : NvmReq} {status : Byte} {count : Bool} :
    changesOnly [.qs, .flt, .mb] s (State.reqGone s r status count) := by
  unfold State.reqGone; split; refine State.finishO_only.after ?_; exact changesOnly_refl; refine State.finishO_only.after ?_
  exact changesOnly_refl; refine State.finishO_only.after ?_; exact changesOnly_refl; refine State.lfUnqueue_only.after ?_
  exact changesOnly_refl; refine when_only ?_ (fun _ => ?_); exact changesOnly_refl; refine State.drop_only.after ?_
  exact changesOnly_refl

theorem State.eraseRest_only {s : State} {r : NvmReq} : changesOnly [.qs, .nvm] s (State.eraseRest s r) := by
  unfold State.eraseRest; split; refine State.eraseSectors_only.after ?_; exact changesOnly_refl
  refine State.eraseSectors_only.after ?_; exact changesOnly_refl; refine State.eraseSectors_only.after ?_
  exact changesOnly_refl; exact changesOnly_refl; exact changesOnly_refl

theorem State.lfFree_only {s : State} {k : Nat} : changesOnly [.flt, .nvm] s (State.lfFree s k) := by
  unfold State.lfFree; refine onNvm_only.after ?_; refine onFlt_only.after ?_; exact changesOnly_refl

theorem State.writeDone_only {s : State} {r : NvmReq} : changesOnly [.qs, .flt, .mb, .nvm, .free] s (State.writeDone s r) := by
  unfold State.writeDone; dsimp only; split; refine State.finishO_only.after ?_; refine useFree_only.after ?_
  refine onNvm_only.after ?_; refine State.eraseRest_only.after ?_; refine onNvm_only.after ?_; exact changesOnly_refl
  refine State.finishO_only.after ?_; refine onNvm_only.after ?_; refine State.eraseRest_only.after ?_
  refine onNvm_only.after ?_; exact changesOnly_refl; refine State.finishO_only.after ?_; refine onNvm_only.after ?_
  refine State.eraseRest_only.after ?_; refine onNvm_only.after ?_; exact changesOnly_refl; refine State.lfAhead_only.after ?_
  refine State.lfFree_only.after ?_; refine State.lfPut_only.after ?_; refine State.eraseRest_only.after ?_
  refine onNvm_only.after ?_; exact changesOnly_refl; refine State.ringAhead_only.after ?_; refine State.ringPut_only.after ?_
  refine State.eraseRest_only.after ?_; refine onNvm_only.after ?_; exact changesOnly_refl

theorem State.writeFailed_only {s : State} {r : NvmReq} : changesOnly [.qs, .mb, .nvm] s (State.writeFailed s r) := by
  unfold State.writeFailed; dsimp only; split; refine State.finishO_only.after ?_; refine State.eraseRest_only.after ?_
  refine onNvm_only.after ?_; refine State.raise_only.after ?_; exact changesOnly_refl; refine State.finishO_only.after ?_
  refine State.eraseRest_only.after ?_; refine onNvm_only.after ?_; refine State.raise_only.after ?_; exact changesOnly_refl
  refine State.finishO_only.after ?_; refine State.eraseRest_only.after ?_; refine onNvm_only.after ?_
  refine State.raise_only.after ?_; exact changesOnly_refl; refine State.lfAhead_only.after ?_; refine State.lfPut_only.after ?_
  refine State.raise_only.after ?_; exact changesOnly_refl; refine State.ringAhead_only.after ?_
  refine State.ringPut_only.after ?_; refine State.raise_only.after ?_; exact changesOnly_refl

theorem State.fuseWrite_only {s : State} {v : Byte} {n : Nodes} : changesOnly [.qs, .bus, .grd] s (State.fuseWrite s v n) := by
  unfold State.fuseWrite; dsimp only; refine ite_only (fun _ => ?_) (fun _ => ?_); refine State.guardFail_only.after ?_
  exact changesOnly_refl; refine ite_only (fun _ => ?_) (fun _ => ?_); exact changesOnly_refl
  refine ite_only (fun _ => ?_) (fun _ => ?_); refine onGrd_only.after ?_; refine State.guardFail_only.after ?_
  exact changesOnly_refl; refine onGrd_only.after ?_; exact changesOnly_refl

end Sys2Proof.Machine
end

