-- ==== Sys2Proof/Laws/OnlyClock.lean ====
section
/-! SUPPORT. Which parts of the state each operation of Machine/Clock.lean may change. -/
namespace Sys2Proof.Machine

set_option Elab.async false
open Sys2Proof.Safety

theorem State.gtsWrap_only {s : State} : changesOnly [.clk, .qs] s (State.gtsWrap s) := by
  unfold State.gtsWrap; dsimp only; refine when_only ?_ (fun _ => ?_); refine State.raise_only.after ?_
  refine onClk_only.after ?_; exact changesOnly_refl; refine State.raise_only.after ?_; exact changesOnly_refl

theorem State.gtsAdd_only {s : State} {n : Nat} : changesOnly [.clk, .qs] s (State.gtsAdd s n) := by
  unfold State.gtsAdd; dsimp only; refine ite_only (fun _ => ?_) (fun _ => ?_); refine onClk_only.after ?_
  exact changesOnly_refl; refine onClk_only.after ?_; refine State.gtsWrap_only.after ?_; exact changesOnly_refl

theorem State.pwmFault_only {s : State} {cause : BitVec 16} :
    changesOnly [.clk, .sys, .qs, .bus, .grd, .fab, .cc, .pp, .chg, .ms, .sw, .seq, .flt, .wd, .mb, .stk, .nvm, .tca, .tcb, .free]
      s (State.pwmFault s cause) := by
  unfold State.pwmFault; split; refine State.checkerFail_only.after ?_; exact changesOnly_refl; exact changesOnly_refl

theorem State.isolate_only {s : State} {d : Nat} :
    changesOnly [.sys, .qs, .bus, .fab, .cc, .pp, .ms, .sw, .seq] s (State.isolate s d) := by
  unfold State.isolate; refine ite_only (fun _ => ?_) (fun _ => ?_); refine State.seqIsolate_only.after ?_
  exact changesOnly_refl; refine ite_only (fun _ => ?_) (fun _ => ?_); refine State.hostLost_only.after ?_
  exact changesOnly_refl; refine ite_only (fun _ => ?_) (fun _ => ?_); dsimp only; split; refine when_only ?_ (fun _ => ?_)
  refine foldl_only ?_ (fun _ _ => ?_); exact changesOnly_refl; refine ite_only (fun _ => ?_) (fun _ => ?_)
  refine State.place_only.after ?_; refine State.onPhase_only.after ?_; exact changesOnly_refl; exact changesOnly_refl
  refine State.endPath_only.after ?_; exact changesOnly_refl; refine foldl_only ?_ (fun _ _ => ?_); exact changesOnly_refl
  refine ite_only (fun _ => ?_) (fun _ => ?_); refine State.place_only.after ?_; refine State.onPhase_only.after ?_
  exact changesOnly_refl; exact changesOnly_refl; refine ite_only (fun _ => ?_) (fun _ => ?_)
  refine State.setVbus_only.after ?_; exact changesOnly_refl; refine ite_only (fun _ => ?_) (fun _ => ?_)
  refine State.setVbus_only.after ?_; exact changesOnly_refl; refine ite_only (fun _ => ?_) (fun _ => ?_)
  refine onMs_only.after ?_; exact changesOnly_refl; refine ite_only (fun _ => ?_) (fun _ => ?_); refine onBus_only.after ?_
  exact changesOnly_refl; exact changesOnly_refl

theorem State.isolateServed_only {s0 s : State} :
    changesOnly [.sys, .qs, .bus, .fab, .cc, .pp, .ms, .sw, .seq] s (State.isolateServed s0 s) := by
  unfold State.isolateServed; split; refine when_only ?_ (fun _ => ?_); exact changesOnly_refl
  refine State.isolate_only.after ?_; exact changesOnly_refl; exact changesOnly_refl

theorem State.domLost_only {s : State} {d : Nat} : changesOnly [.sys, .qs, .seq, .flt] s (State.domLost s d) := by
  unfold State.domLost; refine ite_only (fun _ => ?_) (fun _ => ?_); refine onSys_only.after ?_
  refine State.dropsClear_only.after ?_; exact changesOnly_refl; refine ite_only (fun _ => ?_) (fun _ => ?_)
  refine State.seqLost_only.after ?_; exact changesOnly_refl; exact changesOnly_refl

theorem State.domReleased_only {s : State} {d : Nat} : changesOnly [.bus, .pp] s (State.domReleased s d) := by
  unfold State.domReleased; refine ite_only (fun _ => ?_) (fun _ => ?_); refine when_only ?_ (fun _ => ?_)
  exact changesOnly_refl; refine State.setVbus_only.after ?_; exact changesOnly_refl
  refine ite_only (fun _ => ?_) (fun _ => ?_); refine when_only ?_ (fun _ => ?_); exact changesOnly_refl
  refine State.setVbus_only.after ?_; exact changesOnly_refl; refine ite_only (fun _ => ?_) (fun _ => ?_)
  refine onBus_only.after ?_; exact changesOnly_refl; exact changesOnly_refl

theorem State.domDone_only {s : State} {on : Bool} {d : Nat} :
    changesOnly [.sys, .qs, .bus, .fab, .cc, .pp, .ms, .sw, .seq, .flt] s (State.domDone s on d) := by
  unfold State.domDone; dsimp only; refine State.isolateServed_only.after ?_; refine serveDom_only.after ?_
  refine ite_only (fun _ => ?_) (fun _ => ?_); refine State.domReleased_only.after ?_; refine State.setDom_only.after ?_
  refine onSys_only.after ?_; exact changesOnly_refl; refine State.domLost_only.after ?_; refine State.setDom_only.after ?_
  refine onSys_only.after ?_; exact changesOnly_refl

theorem State.taskFail_only {s : State} {t : FwTask} {cause : BitVec 16} :
    changesOnly [.clk, .sys, .qs, .bus, .grd, .fab, .cc, .pp, .chg, .ms, .sw, .seq, .flt, .wd, .mb, .stk, .nvm, .tca, .tcb, .free]
      s (State.taskFail s t cause) := by
  unfold State.taskFail; dsimp only; refine ite_only (fun _ => ?_) (fun _ => ?_); refine State.lasting_only.after ?_
  refine onFlt_only.after ?_; exact changesOnly_refl; refine State.failNote_only.after ?_; refine onFlt_only.after ?_
  exact changesOnly_refl

end Sys2Proof.Machine
end

