-- ==== Sys2Proof/Laws/Awake.lean ====
section
/-! SUPPORT. What a class 4 report changes outside DORMANT (R325): in DORMANT it also wakes the module, which renews the clocks, the
watchdog and the measurement; in every other mode these stay as they were, and the mode is not DORMANT afterwards. -/
namespace Sys2Proof.Machine

set_option Elab.async false
open Sys2Proof.Safety

/-- The mode of `s` is still the mode. -/
def modeKept (s t : State) : Prop := t.sys.mode = s.sys.mode

theorem kept_refl {s : State} : modeKept s s := rfl

end Sys2Proof.Machine

namespace Sys2Proof.Safety
open Sys2Proof.Machine

/-- An operation that leaves the system part alone keeps the mode. -/
theorem changesOnly.kept {s b t : State} {l : List Part} (h : changesOnly l b t) (hb : modeKept s b)
    (hl : decide (Part.sys ∉ l) = true := by decide) : modeKept s t := by
  have hs : t.sys = b.sys := h.2.2.1.resolve_left (of_decide_eq_true hl)
  unfold modeKept; rw [hs]; exact hb

end Sys2Proof.Safety

namespace Sys2Proof.Machine
open Sys2Proof.Safety

section
variable {s b : State}

theorem kept_onSys {f} (hb : modeKept s b) (hf : (f b.sys).mode = b.sys.mode) : modeKept s (b.onSys f) := by
  unfold modeKept; rw [onSys_sys, hf]; exact hb

theorem kept_when {c : Bool} {f} (hb : modeKept s b) (hf : ∀ u, modeKept u (f u)) : modeKept s (b.when c f) := by
  unfold State.when; split
  · exact (hf b).trans hb
  · exact hb

theorem kept_ite {c : Prop} [Decidable c] {x y : State} (hx : modeKept s x) (hy : modeKept s y) : modeKept s (if c then x else y) := by
  split
  · exact hx
  · exact hy

theorem State.endPath_kept {p why} : modeKept s (s.endPath p why) := by
  unfold State.endPath
  refine kept_ite ?_ kept_refl
  refine State.vbusRest_only.kept (kept_when (State.compIdle_only.kept (State.onPath_only.kept ?_)) fun u => kept_onSys kept_refl rfl)
  exact (foldl_only changesOnly_refl fun _ _ => State.leavePath_only.after changesOnly_refl : changesOnly [.qs, .fab, .cc, .pp, .sw] s _).kept kept_refl

theorem State.srcRemove_kept {t} : modeKept s (s.srcRemove t) := by
  unfold State.srcRemove
  exact kept_ite kept_refl (State.onTc_only.kept (State.vbusRest_only.kept (State.endPath_kept.trans (State.authDetach_only.kept (State.swapDetach_only.kept kept_refl)))))

theorem State.sinkEnded_kept {before p} : modeKept s (State.sinkEnded before p s) := by
  unfold State.sinkEnded
  refine State.noSource_only.kept (kept_ite kept_refl ?_)
  split
  · exact State.startPath_only.kept kept_refl
  · exact kept_ite (kept_when kept_refl fun u => onPp_only.kept kept_refl) (State.srcRemove_kept.trans State.srcRemove_kept)

theorem State.downDone_kept : modeKept s s.downDone := by
  unfold State.downDone
  dsimp only
  split
  · exact State.heldUp_only.kept (kept_onSys (State.tableTake_only.kept (State.finishL_only.kept (State.snap_only.kept (State.raise_only.kept (onSeq_only.kept kept_refl))))) rfl)
  · exact kept_onSys (State.tableTake_only.kept (State.finishL_only.kept (State.snap_only.kept (State.raise_only.kept (onSeq_only.kept kept_refl))))) rfl

theorem walkDown_kept {k : Nat} : modeKept s (walkDown k s) := by
  induction k with
  | zero => exact State.downDone_kept
  | succ k ih =>
    unfold walkDown
    split
    · exact ih
    · exact kept_ite (onSeq_only.kept (State.railOff_only.kept kept_refl)) (kept_ite (onSeq_only.kept kept_refl) ih)

theorem State.startDown_kept {r} : modeKept s (s.startDown r) := by
  unfold State.startDown
  exact walkDown_kept.trans (State.snap_only.kept (State.raise_only.kept (kept_when (onSeq_only.kept kept_refl) fun u =>
    State.finishL_only.kept kept_refl)))

theorem State.downRequest_kept {r} : modeKept s (s.downRequest r) := by
  unfold State.downRequest
  split
  all_goals first
    | exact kept_refl
    | exact onSeq_only.kept kept_refl
    | exact State.startDown_kept.trans (onSeq_only.kept kept_refl)

theorem State.dormNext_kept : modeKept s s.dormNext := by
  unfold State.dormNext
  exact kept_ite (kept_ite (State.downRequest_kept.trans (kept_onSys kept_refl rfl)) (kept_onSys kept_refl rfl)) kept_refl

theorem State.hardReset_kept {t sent cause} : modeKept s (s.hardReset t sent cause) := by
  unfold State.hardReset
  dsimp only
  refine State.dormNext_kept.trans (State.sinkEnded_kept.trans (State.setPresent_only.kept (State.onTc_only.kept ?_)))
  refine kept_when (State.setLearn_only.kept (State.vbusRest_only.kept (State.endPath_kept.trans ?_))) fun u =>
    State.finishO_only.kept (State.authEvent_only.kept kept_refl)
  refine State.eprEnd_only.kept (State.frsDisarm_only.kept (State.swapAbandon_only.kept (State.tcEvent_only.kept (kept_when kept_refl fun u => ?_))))
  exact State.onTc_only.kept (State.tx_only.kept kept_refl)

theorem State.holdSources_kept : modeKept s s.holdSources := by
  unfold State.holdSources
  exact kept_when (kept_when kept_refl fun u => State.hardReset_kept) fun u => State.hardReset_kept

theorem State.dormCancel_kept {status} : modeKept s (s.dormCancel status) := by
  unfold State.dormCancel
  refine kept_ite kept_refl (State.dormRails_only.kept (kept_when (onTcb_only.kept (onTca_only.kept
    (kept_onSys (State.finishO_only.kept kept_refl) rfl))) fun u => ?_))
  exact onBus_only.kept (onStk_only.kept kept_refl)

theorem State.holdEffects_kept : modeKept s s.holdEffects := by
  unfold State.holdEffects
  refine kept_when (State.frsDisarm_only.kept (State.frsDisarm_only.kept (State.switchIdle_only.kept (State.suspend_only.kept ?_))))
    fun u => State.holdSources_kept
  exact State.tuneDrop_only.kept (State.sweepAbort_only.kept (State.injDisarm_only.kept (State.fpEnd_only.kept State.dormCancel_kept)))

theorem State.outputsSafe_kept {opens} : modeKept s (s.outputsSafe opens) := by
  unfold State.outputsSafe
  exact onFab_only.kept (onFlt_only.kept (onPp_only.kept (kept_onSys (State.pathsOff_only.kept (State.gatesOff_only.kept kept_refl)) rfl)))

/-- HOLD does not begin in DORMANT and does not lead into it. -/
theorem State.holdLatch_awake {src cause cls} (h : s.sys.mode ≠ .dormant) : (s.holdLatch src cause cls).sys.mode ≠ .dormant := by
  have key : ∀ (b : State) (c : Bool) (data : List Byte), b.sys.mode ≠ .dormant → (b.when c fun t => t.raise src Ev.holdEnter data).sys.mode ≠ .dormant := by
    intro b c data hb
    have e : modeKept b (b.when c fun t => t.raise src Ev.holdEnter data) := kept_when kept_refl fun u => State.raise_only.kept kept_refl
    unfold modeKept at e
    rw [e]; exact hb
  refine key _ _ _ ?_
  rw [onSys_sys, onFlt_sys]
  dsimp only
  split
  · decide
  · exact h

/-- The forced safe state outside DORMANT (R325). -/
theorem State.forcedSafe_awake {src cause} (h : s.sys.mode ≠ .dormant) :
    changesOnly [.sys, .qs, .bus, .grd, .fab, .cc, .pp, .chg, .sw, .seq, .flt, .mb, .stk, .nvm, .tca, .tcb, .free] s (s.forcedSafe src cause)
      ∧ (s.forcedSafe src cause).sys.mode ≠ .dormant := by
  unfold State.forcedSafe State.when
  rw [if_neg (by simpa using h)]
  refine ⟨State.holdEffects_only.after (State.holdLatch_only.after (State.outputsSafe_only.after (State.lfCapture_only.after changesOnly_refl))), ?_⟩
  have e := State.holdEffects_kept (s := ((s.lfCapture true (s.source src) cause 4).outputsSafe (s.bsOpens cause 4)).holdLatch src cause 4)
  unfold modeKept at e
  rw [e]
  refine State.holdLatch_awake ?_
  have e2 : modeKept s ((s.lfCapture true (s.source src) cause 4).outputsSafe (s.bsOpens cause 4)) :=
    State.outputsSafe_kept.trans (State.lfCapture_only.kept kept_refl)
  unfold modeKept at e2
  rw [e2]; exact h

/-- A checker's report outside DORMANT (R317, R325). -/
theorem State.checkerFail_awake {src cause detail inj item member} (h : s.sys.mode ≠ .dormant) :
    changesOnly [.sys, .qs, .bus, .grd, .fab, .cc, .pp, .chg, .sw, .seq, .flt, .mb, .stk, .nvm, .tca, .tcb, .free] s
        (s.checkerFail src cause detail inj item member)
      ∧ (s.checkerFail src cause detail inj item member).sys.mode ≠ .dormant := by
  unfold State.checkerFail
  split
  · obtain ⟨h1, h2⟩ := State.forcedSafe_awake (src := src) (cause := cause) h
    refine ⟨onFlt_only.after (State.openRec_only.after h1), ?_⟩
    refine fun hc => h2 (Eq.trans (Eq.symm ?_) hc)
    exact (onFlt_only.kept (State.openRec_only.kept kept_refl) : modeKept (s.forcedSafe src cause) _)
  · refine ⟨State.failNote_only.after changesOnly_refl, ?_⟩
    have e : modeKept s (s.failNote src cause detail inj item member) := State.failNote_only.kept kept_refl
    unfold modeKept at e
    rw [e]; exact h

/-- One period of a path outside DORMANT (R161, R316): only a compensator that differs reports a failure. -/
theorem State.pathLoop_awake {p m} (h : s.sys.mode ≠ .dormant) :
    changesOnly [.sys, .qs, .bus, .grd, .fab, .cc, .pp, .chg, .sw, .seq, .flt, .mb, .stk, .nvm, .tca, .tcb, .free] s (s.pathLoop p m)
      ∧ (s.pathLoop p m).sys.mode ≠ .dormant := by
  have key : ∀ (l : List Part) (b : State) (c : Bool), changesOnly l s b → decide (Part.sys ∉ l) = true →
      decide (l ⊆ [.sys, .qs, .bus, .grd, .fab, .cc, .pp, .chg, .sw, .seq, .flt, .mb, .stk, .nvm, .tca, .tcb, .free]) = true →
      changesOnly [.sys, .qs, .bus, .grd, .fab, .cc, .pp, .chg, .sw, .seq, .flt, .mb, .stk, .nvm, .tca, .tcb, .free] s
          (b.when c fun t => t.checkerFail (Src.port p) Cause.loopCompare)
        ∧ (b.when c fun t => t.checkerFail (Src.port p) Cause.loopCompare).sys.mode ≠ .dormant := by
    intro l b c hb hl hs
    have e : modeKept s b := hb.kept kept_refl hl
    have hb' := hb.after changesOnly_refl hs
    have hm : b.sys.mode ≠ .dormant := by unfold modeKept at e; rw [e]; exact h
    unfold State.when; split
    · exact ⟨changesOnly_trans hb' (State.checkerFail_awake hm).1 (List.Subset.refl _), (State.checkerFail_awake hm).2⟩
    · exact ⟨hb', hm⟩
  unfold State.pathLoop
  dsimp only
  split
  · have g : ∀ f, changesOnly [.fab, .cc] s ((s.sensePort p m).onFab f) := fun f => onFab_only.after (State.sensePort_only.after changesOnly_refl)
    have e : ∀ f, ((s.sensePort p m).onFab f).sys.mode = s.sys.mode := fun f => (g f).kept kept_refl
    exact ⟨(g _).after changesOnly_refl, by rw [e]; exact h⟩
  · refine key [.qs, .fab, .cc, .pp, .sw, .flt, .free] _ _ ?_ (by decide) (by decide)
    refine State.stagesStep_only.after (State.clipCount_only.after (ite_only (fun _ => ?_) (fun _ => ?_)))
    · exact State.sensePort_only.after changesOnly_refl
    · exact onCc_only.after (State.sensePort_only.after changesOnly_refl)

/-- One period of a path behind its sample queue, outside DORMANT (R30). -/
theorem State.pathPeriod_awake {p m} (h : s.sys.mode ≠ .dormant) :
    changesOnly [.sys, .qs, .bus, .grd, .fab, .cc, .pp, .chg, .sw, .seq, .flt, .mb, .stk, .nvm, .tca, .tcb, .free] s (s.pathPeriod p m)
      ∧ (s.pathPeriod p m).sys.mode ≠ .dormant := by
  unfold State.pathPeriod
  dsimp only
  split
  · have e : modeKept s (s.sampleThrough p m).1 := State.sampleThrough_only.kept kept_refl
    have hm : (s.sampleThrough p m).1.sys.mode ≠ .dormant := by unfold modeKept at e; rw [e]; exact h
    exact ⟨changesOnly_trans (State.sampleThrough_only.after changesOnly_refl) (State.pathLoop_awake hm).1 (List.Subset.refl _),
      (State.pathLoop_awake hm).2⟩
  · exact State.pathLoop_awake h

end

end Sys2Proof.Machine
end

