-- ==== Sys2Proof/Laws/Frames.lean ====
section
/-! SUPPORT. What the shared operations that report, answer and note leave as it was, and what each does to its own part. -/
namespace Sys2Proof.Machine

set_option Elab.async false
open Sys2Proof.Safety

variable (s : State)

/-! ## One drop of a queue (R35) -/

theorem countDrop_frame (k : Nat) : (s.countDrop k).1 = s.onQs fun _ => (s.countDrop k).1.qs := by
  unfold State.countDrop
  dsimp only
  by_cases h : s.qs.drops.getD k 0 < 0xFFFF
  · by_cases h2 : s.qs.drops.getD k 0 + 1 = 0xFFFF
    · rw [if_pos h, if_pos h2]; rfl
    · rw [if_pos h, if_neg h2]; rfl
  · rw [if_neg h]; rfl

theorem drop_frame (k : Nat) : s.drop k = s.onQs fun _ => (s.drop k).qs := by
  have key : ∀ a : State, a = s.onQs (fun _ => a.qs) → (if a.eventFits 0 = true then
      a.pushEvent (a.mkEvent Src.vetch Ev.queueSat 0 [BitVec.ofNat 8 k]) else (a.countDrop 4).1)
        = s.onQs fun _ => (if a.eventFits 0 = true then
      a.pushEvent (a.mkEvent Src.vetch Ev.queueSat 0 [BitVec.ofNat 8 k]) else (a.countDrop 4).1).qs := by
    intro a h
    split
    · rw [h]; rfl
    · have := countDrop_frame a 4
      generalize (a.countDrop 4).1 = u at this ⊢
      rw [this, h]; rfl
  have hc := countDrop_frame s k
  unfold State.drop
  generalize s.countDrop k = p at hc ⊢
  obtain ⟨a, b⟩ := p
  cases b
  · exact hc
  · exact key a hc

@[simp] theorem drop_clk (k : Nat) : (s.drop k).clk = s.clk := by rw [drop_frame]; rfl
@[simp] theorem drop_sys (k : Nat) : (s.drop k).sys = s.sys := by rw [drop_frame]; rfl
@[simp] theorem drop_bus (k : Nat) : (s.drop k).bus = s.bus := by rw [drop_frame]; rfl
@[simp] theorem drop_grd (k : Nat) : (s.drop k).grd = s.grd := by rw [drop_frame]; rfl
@[simp] theorem drop_fab (k : Nat) : (s.drop k).fab = s.fab := by rw [drop_frame]; rfl
@[simp] theorem drop_cc (k : Nat) : (s.drop k).cc = s.cc := by rw [drop_frame]; rfl
@[simp] theorem drop_pp (k : Nat) : (s.drop k).pp = s.pp := by rw [drop_frame]; rfl
@[simp] theorem drop_chg (k : Nat) : (s.drop k).chg = s.chg := by rw [drop_frame]; rfl
@[simp] theorem drop_ms (k : Nat) : (s.drop k).ms = s.ms := by rw [drop_frame]; rfl
@[simp] theorem drop_sw (k : Nat) : (s.drop k).sw = s.sw := by rw [drop_frame]; rfl
@[simp] theorem drop_seq (k : Nat) : (s.drop k).seq = s.seq := by rw [drop_frame]; rfl
@[simp] theorem drop_flt (k : Nat) : (s.drop k).flt = s.flt := by rw [drop_frame]; rfl
@[simp] theorem drop_wd (k : Nat) : (s.drop k).wd = s.wd := by rw [drop_frame]; rfl
@[simp] theorem drop_mb (k : Nat) : (s.drop k).mb = s.mb := by rw [drop_frame]; rfl
@[simp] theorem drop_stk (k : Nat) : (s.drop k).stk = s.stk := by rw [drop_frame]; rfl
@[simp] theorem drop_nvm (k : Nat) : (s.drop k).nvm = s.nvm := by rw [drop_frame]; rfl
@[simp] theorem drop_tca (k : Nat) : (s.drop k).tca = s.tca := by rw [drop_frame]; rfl
@[simp] theorem drop_tcb (k : Nat) : (s.drop k).tcb = s.tcb := by rw [drop_frame]; rfl
@[simp] theorem drop_free (k : Nat) : (s.drop k).free = s.free := by rw [drop_frame]; rfl
@[simp] theorem drop_pending (k : Nat) : (s.drop k).pending = s.pending := by rw [drop_frame]; rfl

/-! ## An event (R31) -/

theorem raise_frame (src : Nat) (code : BitVec 16) (d : List Byte) (c : Nat) :
    s.raise src code d c = s.onQs fun _ => (s.raise src code d c).qs := by
  unfold State.raise
  split
  · rfl
  · exact drop_frame s 4

/-- An event that fits takes its place in the queue and sets the EVT bit of its group. -/
theorem raise_fits (src : Nat) (code : BitVec 16) (d : List Byte) (c : Nat) (h : s.eventFits c = true) :
    s.raise src code d c = s.onQs fun q => { q with
      events := eventPut q.events (s.mkEvent src code c d), evt := setBit q.evt (code.toNat / 256) true } := by
  unfold State.raise; rw [if_pos h]; rfl

@[simp] theorem raise_clk (src : Nat) (code : BitVec 16) (d : List Byte) (c : Nat) : (s.raise src code d c).clk = s.clk := by rw [raise_frame]; rfl
@[simp] theorem raise_sys (src : Nat) (code : BitVec 16) (d : List Byte) (c : Nat) : (s.raise src code d c).sys = s.sys := by rw [raise_frame]; rfl
@[simp] theorem raise_bus (src : Nat) (code : BitVec 16) (d : List Byte) (c : Nat) : (s.raise src code d c).bus = s.bus := by rw [raise_frame]; rfl
@[simp] theorem raise_grd (src : Nat) (code : BitVec 16) (d : List Byte) (c : Nat) : (s.raise src code d c).grd = s.grd := by rw [raise_frame]; rfl
@[simp] theorem raise_fab (src : Nat) (code : BitVec 16) (d : List Byte) (c : Nat) : (s.raise src code d c).fab = s.fab := by rw [raise_frame]; rfl
@[simp] theorem raise_cc (src : Nat) (code : BitVec 16) (d : List Byte) (c : Nat) : (s.raise src code d c).cc = s.cc := by rw [raise_frame]; rfl
@[simp] theorem raise_pp (src : Nat) (code : BitVec 16) (d : List Byte) (c : Nat) : (s.raise src code d c).pp = s.pp := by rw [raise_frame]; rfl
@[simp] theorem raise_chg (src : Nat) (code : BitVec 16) (d : List Byte) (c : Nat) : (s.raise src code d c).chg = s.chg := by rw [raise_frame]; rfl
@[simp] theorem raise_ms (src : Nat) (code : BitVec 16) (d : List Byte) (c : Nat) : (s.raise src code d c).ms = s.ms := by rw [raise_frame]; rfl
@[simp] theorem raise_sw (src : Nat) (code : BitVec 16) (d : List Byte) (c : Nat) : (s.raise src code d c).sw = s.sw := by rw [raise_frame]; rfl
@[simp] theorem raise_seq (src : Nat) (code : BitVec 16) (d : List Byte) (c : Nat) : (s.raise src code d c).seq = s.seq := by rw [raise_frame]; rfl
@[simp] theorem raise_flt (src : Nat) (code : BitVec 16) (d : List Byte) (c : Nat) : (s.raise src code d c).flt = s.flt := by rw [raise_frame]; rfl
@[simp] theorem raise_wd (src : Nat) (code : BitVec 16) (d : List Byte) (c : Nat) : (s.raise src code d c).wd = s.wd := by rw [raise_frame]; rfl
@[simp] theorem raise_mb (src : Nat) (code : BitVec 16) (d : List Byte) (c : Nat) : (s.raise src code d c).mb = s.mb := by rw [raise_frame]; rfl
@[simp] theorem raise_stk (src : Nat) (code : BitVec 16) (d : List Byte) (c : Nat) : (s.raise src code d c).stk = s.stk := by rw [raise_frame]; rfl
@[simp] theorem raise_nvm (src : Nat) (code : BitVec 16) (d : List Byte) (c : Nat) : (s.raise src code d c).nvm = s.nvm := by rw [raise_frame]; rfl
@[simp] theorem raise_tca (src : Nat) (code : BitVec 16) (d : List Byte) (c : Nat) : (s.raise src code d c).tca = s.tca := by rw [raise_frame]; rfl
@[simp] theorem raise_tcb (src : Nat) (code : BitVec 16) (d : List Byte) (c : Nat) : (s.raise src code d c).tcb = s.tcb := by rw [raise_frame]; rfl
@[simp] theorem raise_free (src : Nat) (code : BitVec 16) (d : List Byte) (c : Nat) : (s.raise src code d c).free = s.free := by rw [raise_frame]; rfl
@[simp] theorem raise_pending (src : Nat) (code : BitVec 16) (d : List Byte) (c : Nat) : (s.raise src code d c).pending = s.pending := by rw [raise_frame]; rfl

/-! ## GTS wraps (R23) -/

theorem gtsWrap_frame : s.gtsWrap = (s.onClk fun _ => s.gtsWrap.clk).onQs fun _ => s.gtsWrap.qs := by
  unfold State.gtsWrap State.when
  dsimp only
  split
  · rw [raise_frame, raise_frame]; simp; rfl
  · rw [raise_frame]; simp; rfl

@[simp] theorem gtsWrap_clk : s.gtsWrap.clk = { s.clk with gts := 0, epoch := s.clk.epoch + 1 } := by
  unfold State.gtsWrap State.when
  dsimp only
  split <;> simp

@[simp] theorem gtsWrap_sys  : (s.gtsWrap).sys = s.sys := by rw [gtsWrap_frame]; rfl
@[simp] theorem gtsWrap_bus  : (s.gtsWrap).bus = s.bus := by rw [gtsWrap_frame]; rfl
@[simp] theorem gtsWrap_grd  : (s.gtsWrap).grd = s.grd := by rw [gtsWrap_frame]; rfl
@[simp] theorem gtsWrap_fab  : (s.gtsWrap).fab = s.fab := by rw [gtsWrap_frame]; rfl
@[simp] theorem gtsWrap_cc  : (s.gtsWrap).cc = s.cc := by rw [gtsWrap_frame]; rfl
@[simp] theorem gtsWrap_pp  : (s.gtsWrap).pp = s.pp := by rw [gtsWrap_frame]; rfl
@[simp] theorem gtsWrap_chg  : (s.gtsWrap).chg = s.chg := by rw [gtsWrap_frame]; rfl
@[simp] theorem gtsWrap_ms  : (s.gtsWrap).ms = s.ms := by rw [gtsWrap_frame]; rfl
@[simp] theorem gtsWrap_sw  : (s.gtsWrap).sw = s.sw := by rw [gtsWrap_frame]; rfl
@[simp] theorem gtsWrap_seq  : (s.gtsWrap).seq = s.seq := by rw [gtsWrap_frame]; rfl
@[simp] theorem gtsWrap_flt  : (s.gtsWrap).flt = s.flt := by rw [gtsWrap_frame]; rfl
@[simp] theorem gtsWrap_wd  : (s.gtsWrap).wd = s.wd := by rw [gtsWrap_frame]; rfl
@[simp] theorem gtsWrap_mb  : (s.gtsWrap).mb = s.mb := by rw [gtsWrap_frame]; rfl
@[simp] theorem gtsWrap_stk  : (s.gtsWrap).stk = s.stk := by rw [gtsWrap_frame]; rfl
@[simp] theorem gtsWrap_nvm  : (s.gtsWrap).nvm = s.nvm := by rw [gtsWrap_frame]; rfl
@[simp] theorem gtsWrap_tca  : (s.gtsWrap).tca = s.tca := by rw [gtsWrap_frame]; rfl
@[simp] theorem gtsWrap_tcb  : (s.gtsWrap).tcb = s.tcb := by rw [gtsWrap_frame]; rfl
@[simp] theorem gtsWrap_free  : (s.gtsWrap).free = s.free := by rw [gtsWrap_frame]; rfl
@[simp] theorem gtsWrap_pending  : (s.gtsWrap).pending = s.pending := by rw [gtsWrap_frame]; rfl

/-- GTS and the epoch count on together. -/
theorem gtsAdd_clk (k : Nat) (h : k < 2 ^ 48) : (s.gtsAdd k).clk = { s.clk with
    gts := s.clk.gts + BitVec.ofNat 48 k, epoch := if s.clk.gts.toNat + k < 2 ^ 48 then s.clk.epoch else s.clk.epoch + 1 } := by
  have hlt := s.clk.gts.isLt
  unfold State.gtsAdd
  dsimp only
  split
  · have : BitVec.ofNat 48 (s.clk.gts.toNat + k) = s.clk.gts + BitVec.ofNat 48 k := by
      refine BitVec.eq_of_toNat_eq ?_
      simp only [BitVec.toNat_ofNat, BitVec.toNat_add]; omega
    simp only [onClk_clk, this]
  · have : BitVec.ofNat 48 (s.clk.gts.toNat + k - 2 ^ 48) = s.clk.gts + BitVec.ofNat 48 k := by
      refine BitVec.eq_of_toNat_eq ?_
      simp only [BitVec.toNat_ofNat, BitVec.toNat_add]; omega
    simp only [onClk_clk, gtsWrap_clk, this]

/-! ## GTS advances -/

theorem gtsAdd_frame (k : Nat) : s.gtsAdd k = (s.onClk fun _ => (s.gtsAdd k).clk).onQs fun _ => (s.gtsAdd k).qs := by
  unfold State.gtsAdd
  dsimp only
  split
  · simp only [onClk_clk, onClk_qs]; rfl
  · conv => lhs; rw [gtsWrap_frame]
    rfl

@[simp] theorem gtsAdd_sys (k : Nat) : (s.gtsAdd k).sys = s.sys := by rw [gtsAdd_frame]; rfl
@[simp] theorem gtsAdd_bus (k : Nat) : (s.gtsAdd k).bus = s.bus := by rw [gtsAdd_frame]; rfl
@[simp] theorem gtsAdd_grd (k : Nat) : (s.gtsAdd k).grd = s.grd := by rw [gtsAdd_frame]; rfl
@[simp] theorem gtsAdd_fab (k : Nat) : (s.gtsAdd k).fab = s.fab := by rw [gtsAdd_frame]; rfl
@[simp] theorem gtsAdd_cc (k : Nat) : (s.gtsAdd k).cc = s.cc := by rw [gtsAdd_frame]; rfl
@[simp] theorem gtsAdd_pp (k : Nat) : (s.gtsAdd k).pp = s.pp := by rw [gtsAdd_frame]; rfl
@[simp] theorem gtsAdd_chg (k : Nat) : (s.gtsAdd k).chg = s.chg := by rw [gtsAdd_frame]; rfl
@[simp] theorem gtsAdd_ms (k : Nat) : (s.gtsAdd k).ms = s.ms := by rw [gtsAdd_frame]; rfl
@[simp] theorem gtsAdd_sw (k : Nat) : (s.gtsAdd k).sw = s.sw := by rw [gtsAdd_frame]; rfl
@[simp] theorem gtsAdd_seq (k : Nat) : (s.gtsAdd k).seq = s.seq := by rw [gtsAdd_frame]; rfl
@[simp] theorem gtsAdd_flt (k : Nat) : (s.gtsAdd k).flt = s.flt := by rw [gtsAdd_frame]; rfl
@[simp] theorem gtsAdd_wd (k : Nat) : (s.gtsAdd k).wd = s.wd := by rw [gtsAdd_frame]; rfl
@[simp] theorem gtsAdd_mb (k : Nat) : (s.gtsAdd k).mb = s.mb := by rw [gtsAdd_frame]; rfl
@[simp] theorem gtsAdd_stk (k : Nat) : (s.gtsAdd k).stk = s.stk := by rw [gtsAdd_frame]; rfl
@[simp] theorem gtsAdd_nvm (k : Nat) : (s.gtsAdd k).nvm = s.nvm := by rw [gtsAdd_frame]; rfl
@[simp] theorem gtsAdd_tca (k : Nat) : (s.gtsAdd k).tca = s.tca := by rw [gtsAdd_frame]; rfl
@[simp] theorem gtsAdd_tcb (k : Nat) : (s.gtsAdd k).tcb = s.tcb := by rw [gtsAdd_frame]; rfl
@[simp] theorem gtsAdd_free (k : Nat) : (s.gtsAdd k).free = s.free := by rw [gtsAdd_frame]; rfl
@[simp] theorem gtsAdd_pending (k : Nat) : (s.gtsAdd k).pending = s.pending := by rw [gtsAdd_frame]; rfl

/-! ## A response (R398) -/

theorem finish_frame (n : Nat) (st : Byte) (d : List Byte) :
    s.finish n st d = s.onMb fun _ => (s.finish n st d).mb := by
  unfold State.finish; split <;> rfl

@[simp] theorem finish_clk (n : Nat) (st : Byte) (d : List Byte) : (s.finish n st d).clk = s.clk := by rw [finish_frame]; rfl
@[simp] theorem finish_sys (n : Nat) (st : Byte) (d : List Byte) : (s.finish n st d).sys = s.sys := by rw [finish_frame]; rfl
@[simp] theorem finish_qs (n : Nat) (st : Byte) (d : List Byte) : (s.finish n st d).qs = s.qs := by rw [finish_frame]; rfl
@[simp] theorem finish_bus (n : Nat) (st : Byte) (d : List Byte) : (s.finish n st d).bus = s.bus := by rw [finish_frame]; rfl
@[simp] theorem finish_grd (n : Nat) (st : Byte) (d : List Byte) : (s.finish n st d).grd = s.grd := by rw [finish_frame]; rfl
@[simp] theorem finish_fab (n : Nat) (st : Byte) (d : List Byte) : (s.finish n st d).fab = s.fab := by rw [finish_frame]; rfl
@[simp] theorem finish_cc (n : Nat) (st : Byte) (d : List Byte) : (s.finish n st d).cc = s.cc := by rw [finish_frame]; rfl
@[simp] theorem finish_pp (n : Nat) (st : Byte) (d : List Byte) : (s.finish n st d).pp = s.pp := by rw [finish_frame]; rfl
@[simp] theorem finish_chg (n : Nat) (st : Byte) (d : List Byte) : (s.finish n st d).chg = s.chg := by rw [finish_frame]; rfl
@[simp] theorem finish_ms (n : Nat) (st : Byte) (d : List Byte) : (s.finish n st d).ms = s.ms := by rw [finish_frame]; rfl
@[simp] theorem finish_sw (n : Nat) (st : Byte) (d : List Byte) : (s.finish n st d).sw = s.sw := by rw [finish_frame]; rfl
@[simp] theorem finish_seq (n : Nat) (st : Byte) (d : List Byte) : (s.finish n st d).seq = s.seq := by rw [finish_frame]; rfl
@[simp] theorem finish_flt (n : Nat) (st : Byte) (d : List Byte) : (s.finish n st d).flt = s.flt := by rw [finish_frame]; rfl
@[simp] theorem finish_wd (n : Nat) (st : Byte) (d : List Byte) : (s.finish n st d).wd = s.wd := by rw [finish_frame]; rfl
@[simp] theorem finish_stk (n : Nat) (st : Byte) (d : List Byte) : (s.finish n st d).stk = s.stk := by rw [finish_frame]; rfl
@[simp] theorem finish_nvm (n : Nat) (st : Byte) (d : List Byte) : (s.finish n st d).nvm = s.nvm := by rw [finish_frame]; rfl
@[simp] theorem finish_tca (n : Nat) (st : Byte) (d : List Byte) : (s.finish n st d).tca = s.tca := by rw [finish_frame]; rfl
@[simp] theorem finish_tcb (n : Nat) (st : Byte) (d : List Byte) : (s.finish n st d).tcb = s.tcb := by rw [finish_frame]; rfl
@[simp] theorem finish_free (n : Nat) (st : Byte) (d : List Byte) : (s.finish n st d).free = s.free := by rw [finish_frame]; rfl
@[simp] theorem finish_pending (n : Nat) (st : Byte) (d : List Byte) : (s.finish n st d).pending = s.pending := by rw [finish_frame]; rfl

/-! ## A response to the command a state names -/

theorem finishO_frame (n : Option (Fin 4)) (st : Byte) (d : List Byte) :
    s.finishO n st d = s.onMb fun _ => (s.finishO n st d).mb := by
  cases n with
  | none => rfl
  | some k => exact finish_frame s k.val st d

@[simp] theorem finishO_clk (n : Option (Fin 4)) (st : Byte) (d : List Byte) : (s.finishO n st d).clk = s.clk := by rw [finishO_frame]; rfl
@[simp] theorem finishO_sys (n : Option (Fin 4)) (st : Byte) (d : List Byte) : (s.finishO n st d).sys = s.sys := by rw [finishO_frame]; rfl
@[simp] theorem finishO_qs (n : Option (Fin 4)) (st : Byte) (d : List Byte) : (s.finishO n st d).qs = s.qs := by rw [finishO_frame]; rfl
@[simp] theorem finishO_bus (n : Option (Fin 4)) (st : Byte) (d : List Byte) : (s.finishO n st d).bus = s.bus := by rw [finishO_frame]; rfl
@[simp] theorem finishO_grd (n : Option (Fin 4)) (st : Byte) (d : List Byte) : (s.finishO n st d).grd = s.grd := by rw [finishO_frame]; rfl
@[simp] theorem finishO_fab (n : Option (Fin 4)) (st : Byte) (d : List Byte) : (s.finishO n st d).fab = s.fab := by rw [finishO_frame]; rfl
@[simp] theorem finishO_cc (n : Option (Fin 4)) (st : Byte) (d : List Byte) : (s.finishO n st d).cc = s.cc := by rw [finishO_frame]; rfl
@[simp] theorem finishO_pp (n : Option (Fin 4)) (st : Byte) (d : List Byte) : (s.finishO n st d).pp = s.pp := by rw [finishO_frame]; rfl
@[simp] theorem finishO_chg (n : Option (Fin 4)) (st : Byte) (d : List Byte) : (s.finishO n st d).chg = s.chg := by rw [finishO_frame]; rfl
@[simp] theorem finishO_ms (n : Option (Fin 4)) (st : Byte) (d : List Byte) : (s.finishO n st d).ms = s.ms := by rw [finishO_frame]; rfl
@[simp] theorem finishO_sw (n : Option (Fin 4)) (st : Byte) (d : List Byte) : (s.finishO n st d).sw = s.sw := by rw [finishO_frame]; rfl
@[simp] theorem finishO_seq (n : Option (Fin 4)) (st : Byte) (d : List Byte) : (s.finishO n st d).seq = s.seq := by rw [finishO_frame]; rfl
@[simp] theorem finishO_flt (n : Option (Fin 4)) (st : Byte) (d : List Byte) : (s.finishO n st d).flt = s.flt := by rw [finishO_frame]; rfl
@[simp] theorem finishO_wd (n : Option (Fin 4)) (st : Byte) (d : List Byte) : (s.finishO n st d).wd = s.wd := by rw [finishO_frame]; rfl
@[simp] theorem finishO_stk (n : Option (Fin 4)) (st : Byte) (d : List Byte) : (s.finishO n st d).stk = s.stk := by rw [finishO_frame]; rfl
@[simp] theorem finishO_nvm (n : Option (Fin 4)) (st : Byte) (d : List Byte) : (s.finishO n st d).nvm = s.nvm := by rw [finishO_frame]; rfl
@[simp] theorem finishO_tca (n : Option (Fin 4)) (st : Byte) (d : List Byte) : (s.finishO n st d).tca = s.tca := by rw [finishO_frame]; rfl
@[simp] theorem finishO_tcb (n : Option (Fin 4)) (st : Byte) (d : List Byte) : (s.finishO n st d).tcb = s.tcb := by rw [finishO_frame]; rfl
@[simp] theorem finishO_free (n : Option (Fin 4)) (st : Byte) (d : List Byte) : (s.finishO n st d).free = s.free := by rw [finishO_frame]; rfl
@[simp] theorem finishO_pending (n : Option (Fin 4)) (st : Byte) (d : List Byte) : (s.finishO n st d).pending = s.pending := by rw [finishO_frame]; rfl

/-! ## The start of a command's work (R400) -/

theorem begun_frame (n : Fin 4) : begun s n = (s.onFlt fun _ => (begun s n).flt).onMb fun _ => (begun s n).mb := rfl

@[simp] theorem begun_clk (n : Fin 4) : (begun s n).clk = s.clk := by rw [begun_frame]; rfl
@[simp] theorem begun_sys (n : Fin 4) : (begun s n).sys = s.sys := by rw [begun_frame]; rfl
@[simp] theorem begun_qs (n : Fin 4) : (begun s n).qs = s.qs := by rw [begun_frame]; rfl
@[simp] theorem begun_bus (n : Fin 4) : (begun s n).bus = s.bus := by rw [begun_frame]; rfl
@[simp] theorem begun_grd (n : Fin 4) : (begun s n).grd = s.grd := by rw [begun_frame]; rfl
@[simp] theorem begun_fab (n : Fin 4) : (begun s n).fab = s.fab := by rw [begun_frame]; rfl
@[simp] theorem begun_cc (n : Fin 4) : (begun s n).cc = s.cc := by rw [begun_frame]; rfl
@[simp] theorem begun_pp (n : Fin 4) : (begun s n).pp = s.pp := by rw [begun_frame]; rfl
@[simp] theorem begun_chg (n : Fin 4) : (begun s n).chg = s.chg := by rw [begun_frame]; rfl
@[simp] theorem begun_ms (n : Fin 4) : (begun s n).ms = s.ms := by rw [begun_frame]; rfl
@[simp] theorem begun_sw (n : Fin 4) : (begun s n).sw = s.sw := by rw [begun_frame]; rfl
@[simp] theorem begun_seq (n : Fin 4) : (begun s n).seq = s.seq := by rw [begun_frame]; rfl
@[simp] theorem begun_wd (n : Fin 4) : (begun s n).wd = s.wd := by rw [begun_frame]; rfl
@[simp] theorem begun_stk (n : Fin 4) : (begun s n).stk = s.stk := by rw [begun_frame]; rfl
@[simp] theorem begun_nvm (n : Fin 4) : (begun s n).nvm = s.nvm := by rw [begun_frame]; rfl
@[simp] theorem begun_tca (n : Fin 4) : (begun s n).tca = s.tca := by rw [begun_frame]; rfl
@[simp] theorem begun_tcb (n : Fin 4) : (begun s n).tcb = s.tcb := by rw [begun_frame]; rfl
@[simp] theorem begun_free (n : Fin 4) : (begun s n).free = s.free := by rw [begun_frame]; rfl
@[simp] theorem begun_pending (n : Fin 4) : (begun s n).pending = s.pending := by rw [begun_frame]; rfl

@[simp] theorem begun_fld (n : Fin 4) (k i w : Nat) : (begun s n).fld k i w = s.fld k i w := rfl

@[simp] theorem begun_inBytes (n : Fin 4) (k i w : Nat) : (begun s n).inBytes k i w = s.inBytes k i w := rfl

/-! ## PATH noted (R200, R202) -/

theorem pathEvent_frame (b : Byte) : s.pathEvent b = (s.onPp fun _ => (s.pathEvent b).pp).onQs fun _ => (s.pathEvent b).qs := by
  unfold State.pathEvent
  rw [raise_frame]; rfl

theorem pathNote_frame (b : Byte) :
    s.pathNote b = (s.onPp fun _ => (s.pathNote b).pp).onQs fun _ => (s.pathNote b).qs := by
  unfold State.pathNote
  dsimp only
  generalize hx : s.onPp _ = x
  have hp : ∀ c, x.pathEvent c = (s.onPp fun _ => (x.pathEvent c).pp).onQs fun _ => (x.pathEvent c).qs := by
    intro c; conv => lhs; rw [pathEvent_frame, ← hx]
    rw [← hx]; rfl
  have hs : x = (s.onPp fun _ => x.pp).onQs fun _ => x.qs := by rw [← hx]; rfl
  split
  · split
    · exact hp _
    · exact hs
  · split
    · exact hs
    · split
      · exact hp _
      · rw [← hx]; rfl

@[simp] theorem pathNote_clk (b : Byte) : (s.pathNote b).clk = s.clk := by rw [pathNote_frame]; rfl
@[simp] theorem pathNote_sys (b : Byte) : (s.pathNote b).sys = s.sys := by rw [pathNote_frame]; rfl
@[simp] theorem pathNote_bus (b : Byte) : (s.pathNote b).bus = s.bus := by rw [pathNote_frame]; rfl
@[simp] theorem pathNote_grd (b : Byte) : (s.pathNote b).grd = s.grd := by rw [pathNote_frame]; rfl
@[simp] theorem pathNote_fab (b : Byte) : (s.pathNote b).fab = s.fab := by rw [pathNote_frame]; rfl
@[simp] theorem pathNote_cc (b : Byte) : (s.pathNote b).cc = s.cc := by rw [pathNote_frame]; rfl
@[simp] theorem pathNote_chg (b : Byte) : (s.pathNote b).chg = s.chg := by rw [pathNote_frame]; rfl
@[simp] theorem pathNote_ms (b : Byte) : (s.pathNote b).ms = s.ms := by rw [pathNote_frame]; rfl
@[simp] theorem pathNote_sw (b : Byte) : (s.pathNote b).sw = s.sw := by rw [pathNote_frame]; rfl
@[simp] theorem pathNote_seq (b : Byte) : (s.pathNote b).seq = s.seq := by rw [pathNote_frame]; rfl
@[simp] theorem pathNote_flt (b : Byte) : (s.pathNote b).flt = s.flt := by rw [pathNote_frame]; rfl
@[simp] theorem pathNote_wd (b : Byte) : (s.pathNote b).wd = s.wd := by rw [pathNote_frame]; rfl
@[simp] theorem pathNote_mb (b : Byte) : (s.pathNote b).mb = s.mb := by rw [pathNote_frame]; rfl
@[simp] theorem pathNote_stk (b : Byte) : (s.pathNote b).stk = s.stk := by rw [pathNote_frame]; rfl
@[simp] theorem pathNote_nvm (b : Byte) : (s.pathNote b).nvm = s.nvm := by rw [pathNote_frame]; rfl
@[simp] theorem pathNote_tca (b : Byte) : (s.pathNote b).tca = s.tca := by rw [pathNote_frame]; rfl
@[simp] theorem pathNote_tcb (b : Byte) : (s.pathNote b).tcb = s.tcb := by rw [pathNote_frame]; rfl
@[simp] theorem pathNote_free (b : Byte) : (s.pathNote b).free = s.free := by rw [pathNote_frame]; rfl
@[simp] theorem pathNote_pending (b : Byte) : (s.pathNote b).pending = s.pending := by rw [pathNote_frame]; rfl

/-! ## A message to the partner -/

theorem tx_frame (t : TcId) (m : PdMsg) : s.tx t m = (s.onTca fun _ => (s.tx t m).tca).onTcb fun _ => (s.tx t m).tcb := by
  cases t <;> rfl

@[simp] theorem tx_clk (t : TcId) (m : PdMsg) : (s.tx t m).clk = s.clk := by rw [tx_frame]; rfl
@[simp] theorem tx_sys (t : TcId) (m : PdMsg) : (s.tx t m).sys = s.sys := by rw [tx_frame]; rfl
@[simp] theorem tx_qs (t : TcId) (m : PdMsg) : (s.tx t m).qs = s.qs := by rw [tx_frame]; rfl
@[simp] theorem tx_bus (t : TcId) (m : PdMsg) : (s.tx t m).bus = s.bus := by rw [tx_frame]; rfl
@[simp] theorem tx_grd (t : TcId) (m : PdMsg) : (s.tx t m).grd = s.grd := by rw [tx_frame]; rfl
@[simp] theorem tx_fab (t : TcId) (m : PdMsg) : (s.tx t m).fab = s.fab := by rw [tx_frame]; rfl
@[simp] theorem tx_cc (t : TcId) (m : PdMsg) : (s.tx t m).cc = s.cc := by rw [tx_frame]; rfl
@[simp] theorem tx_pp (t : TcId) (m : PdMsg) : (s.tx t m).pp = s.pp := by rw [tx_frame]; rfl
@[simp] theorem tx_chg (t : TcId) (m : PdMsg) : (s.tx t m).chg = s.chg := by rw [tx_frame]; rfl
@[simp] theorem tx_ms (t : TcId) (m : PdMsg) : (s.tx t m).ms = s.ms := by rw [tx_frame]; rfl
@[simp] theorem tx_sw (t : TcId) (m : PdMsg) : (s.tx t m).sw = s.sw := by rw [tx_frame]; rfl
@[simp] theorem tx_seq (t : TcId) (m : PdMsg) : (s.tx t m).seq = s.seq := by rw [tx_frame]; rfl
@[simp] theorem tx_flt (t : TcId) (m : PdMsg) : (s.tx t m).flt = s.flt := by rw [tx_frame]; rfl
@[simp] theorem tx_wd (t : TcId) (m : PdMsg) : (s.tx t m).wd = s.wd := by rw [tx_frame]; rfl
@[simp] theorem tx_mb (t : TcId) (m : PdMsg) : (s.tx t m).mb = s.mb := by rw [tx_frame]; rfl
@[simp] theorem tx_stk (t : TcId) (m : PdMsg) : (s.tx t m).stk = s.stk := by rw [tx_frame]; rfl
@[simp] theorem tx_nvm (t : TcId) (m : PdMsg) : (s.tx t m).nvm = s.nvm := by rw [tx_frame]; rfl
@[simp] theorem tx_free (t : TcId) (m : PdMsg) : (s.tx t m).free = s.free := by rw [tx_frame]; rfl
@[simp] theorem tx_pending (t : TcId) (m : PdMsg) : (s.tx t m).pending = s.pending := by rw [tx_frame]; rfl

/-! ## The messages of the command before, and the mark of a first failure of Cowslip -/

theorem txClear_frame (t : TcId) : s.txClear t =
    (((s.taskRan .cowslip).onTca fun _ => (s.txClear t).tca).onTcb fun _ => (s.txClear t).tcb) := by
  cases t <;> rfl

@[simp] theorem txClear_flt (t : TcId) : (s.txClear t).flt = { s.flt with taskOnce := setBit s.flt.taskOnce (taskIdx .cowslip) false } := by
  rw [txClear_frame]; rfl

@[simp] theorem txClear_clk (t : TcId) : (s.txClear t).clk = s.clk := by rw [txClear_frame]; rfl
@[simp] theorem txClear_sys (t : TcId) : (s.txClear t).sys = s.sys := by rw [txClear_frame]; rfl
@[simp] theorem txClear_qs (t : TcId) : (s.txClear t).qs = s.qs := by rw [txClear_frame]; rfl
@[simp] theorem txClear_bus (t : TcId) : (s.txClear t).bus = s.bus := by rw [txClear_frame]; rfl
@[simp] theorem txClear_grd (t : TcId) : (s.txClear t).grd = s.grd := by rw [txClear_frame]; rfl
@[simp] theorem txClear_fab (t : TcId) : (s.txClear t).fab = s.fab := by rw [txClear_frame]; rfl
@[simp] theorem txClear_cc (t : TcId) : (s.txClear t).cc = s.cc := by rw [txClear_frame]; rfl
@[simp] theorem txClear_pp (t : TcId) : (s.txClear t).pp = s.pp := by rw [txClear_frame]; rfl
@[simp] theorem txClear_chg (t : TcId) : (s.txClear t).chg = s.chg := by rw [txClear_frame]; rfl
@[simp] theorem txClear_ms (t : TcId) : (s.txClear t).ms = s.ms := by rw [txClear_frame]; rfl
@[simp] theorem txClear_sw (t : TcId) : (s.txClear t).sw = s.sw := by rw [txClear_frame]; rfl
@[simp] theorem txClear_seq (t : TcId) : (s.txClear t).seq = s.seq := by rw [txClear_frame]; rfl
@[simp] theorem txClear_wd (t : TcId) : (s.txClear t).wd = s.wd := by rw [txClear_frame]; rfl
@[simp] theorem txClear_mb (t : TcId) : (s.txClear t).mb = s.mb := by rw [txClear_frame]; rfl
@[simp] theorem txClear_stk (t : TcId) : (s.txClear t).stk = s.stk := by rw [txClear_frame]; rfl
@[simp] theorem txClear_nvm (t : TcId) : (s.txClear t).nvm = s.nvm := by rw [txClear_frame]; rfl
@[simp] theorem txClear_free (t : TcId) : (s.txClear t).free = s.free := by rw [txClear_frame]; rfl
@[simp] theorem txClear_pending (t : TcId) : (s.txClear t).pending = s.pending := by rw [txClear_frame]; rfl

/-! ## A Type-C port rewritten -/

theorem onTc_frame (t : TcId) (f : TcPort → TcPort) : s.onTc t f = (s.onTca fun _ => (s.onTc t f).tca).onTcb fun _ => (s.onTc t f).tcb := by
  cases t <;> rfl

@[simp] theorem onTc_tc (t : TcId) (f : TcPort → TcPort) : (s.onTc t f).tc t = f (s.tc t) := by cases t <;> rfl

@[simp] theorem txClear_tc (t : TcId) : (s.txClear t).tc t = { s.tc t with
    tx := [], rpOut := if (s.tc t).tx.contains .getStatus && ((s.tc t).src && (s.tc t).contract.isSome) then 2 else (s.tc t).rpOut } := by
  have key : ∀ x : TcPort, (if x.tx.contains .getStatus then { x.closes with tx := [] } else { x with tx := [] })
      = { x with tx := [], rpOut := if x.tx.contains .getStatus && (x.src && x.contract.isSome) then 2 else x.rpOut } := by
    intro x
    cases h : x.tx.contains .getStatus
    · simp
    · rw [if_pos rfl, Bool.true_and]; rfl
  cases t <;> exact key _

@[simp] theorem txClear_attached (t : TcId) : (s.txClear t).attached t = s.attached t := by
  unfold State.attached
  rw [txClear_tc]

@[simp] theorem tx_tc (t : TcId) (m : PdMsg) : (s.tx t m).tc t = { s.tc t with
    tx := (s.tc t).tx ++ [m], rpOut := if (s.tc t).rpOut == 2 && opens m then 1 else (s.tc t).rpOut } := by cases t <;> rfl

@[simp] theorem onTc_clk (t : TcId) (f : TcPort → TcPort) : (s.onTc t f).clk = s.clk := by rw [onTc_frame]; rfl
@[simp] theorem onTc_sys (t : TcId) (f : TcPort → TcPort) : (s.onTc t f).sys = s.sys := by rw [onTc_frame]; rfl
@[simp] theorem onTc_qs (t : TcId) (f : TcPort → TcPort) : (s.onTc t f).qs = s.qs := by rw [onTc_frame]; rfl
@[simp] theorem onTc_bus (t : TcId) (f : TcPort → TcPort) : (s.onTc t f).bus = s.bus := by rw [onTc_frame]; rfl
@[simp] theorem onTc_grd (t : TcId) (f : TcPort → TcPort) : (s.onTc t f).grd = s.grd := by rw [onTc_frame]; rfl
@[simp] theorem onTc_fab (t : TcId) (f : TcPort → TcPort) : (s.onTc t f).fab = s.fab := by rw [onTc_frame]; rfl
@[simp] theorem onTc_cc (t : TcId) (f : TcPort → TcPort) : (s.onTc t f).cc = s.cc := by rw [onTc_frame]; rfl
@[simp] theorem onTc_pp (t : TcId) (f : TcPort → TcPort) : (s.onTc t f).pp = s.pp := by rw [onTc_frame]; rfl
@[simp] theorem onTc_chg (t : TcId) (f : TcPort → TcPort) : (s.onTc t f).chg = s.chg := by rw [onTc_frame]; rfl
@[simp] theorem onTc_ms (t : TcId) (f : TcPort → TcPort) : (s.onTc t f).ms = s.ms := by rw [onTc_frame]; rfl
@[simp] theorem onTc_sw (t : TcId) (f : TcPort → TcPort) : (s.onTc t f).sw = s.sw := by rw [onTc_frame]; rfl
@[simp] theorem onTc_seq (t : TcId) (f : TcPort → TcPort) : (s.onTc t f).seq = s.seq := by rw [onTc_frame]; rfl
@[simp] theorem onTc_flt (t : TcId) (f : TcPort → TcPort) : (s.onTc t f).flt = s.flt := by rw [onTc_frame]; rfl
@[simp] theorem onTc_wd (t : TcId) (f : TcPort → TcPort) : (s.onTc t f).wd = s.wd := by rw [onTc_frame]; rfl
@[simp] theorem onTc_mb (t : TcId) (f : TcPort → TcPort) : (s.onTc t f).mb = s.mb := by rw [onTc_frame]; rfl
@[simp] theorem onTc_stk (t : TcId) (f : TcPort → TcPort) : (s.onTc t f).stk = s.stk := by rw [onTc_frame]; rfl
@[simp] theorem onTc_nvm (t : TcId) (f : TcPort → TcPort) : (s.onTc t f).nvm = s.nvm := by rw [onTc_frame]; rfl
@[simp] theorem onTc_free (t : TcId) (f : TcPort → TcPort) : (s.onTc t f).free = s.free := by rw [onTc_frame]; rfl
@[simp] theorem onTc_pending (t : TcId) (f : TcPort → TcPort) : (s.onTc t f).pending = s.pending := by rw [onTc_frame]; rfl

/-! ## A programming cut (R467) -/

@[simp] theorem nvmCutNow_clk : s.nvmCutNow.clk = s.clk := by
  have h := State.nvmCutNow_only (s := s)
  simp only [changesOnly] at h
  simp at h
  simp [h]
@[simp] theorem ringPut_clk (e : SnapEntry) : (s.ringPut e).clk = s.clk := by
  have h := State.ringPut_only (s := s) (e := e)
  simp only [changesOnly] at h
  simp at h
  simp [h]
@[simp] theorem lfPut_clk (e : LfRec) : (s.lfPut e).clk = s.clk := by
  have h := State.lfPut_only (s := s) (e := e)
  simp only [changesOnly] at h
  simp at h
  simp [h]
@[simp] theorem nvmCutNow_sys : s.nvmCutNow.sys = s.sys := by
  have h := State.nvmCutNow_only (s := s)
  simp only [changesOnly] at h
  simp at h
  simp [h]
@[simp] theorem ringPut_sys (e : SnapEntry) : (s.ringPut e).sys = s.sys := by
  have h := State.ringPut_only (s := s) (e := e)
  simp only [changesOnly] at h
  simp at h
  simp [h]
@[simp] theorem lfPut_sys (e : LfRec) : (s.lfPut e).sys = s.sys := by
  have h := State.lfPut_only (s := s) (e := e)
  simp only [changesOnly] at h
  simp at h
  simp [h]
@[simp] theorem nvmCutNow_bus : s.nvmCutNow.bus = s.bus := by
  have h := State.nvmCutNow_only (s := s)
  simp only [changesOnly] at h
  simp at h
  simp [h]
@[simp] theorem ringPut_bus (e : SnapEntry) : (s.ringPut e).bus = s.bus := by
  have h := State.ringPut_only (s := s) (e := e)
  simp only [changesOnly] at h
  simp at h
  simp [h]
@[simp] theorem lfPut_bus (e : LfRec) : (s.lfPut e).bus = s.bus := by
  have h := State.lfPut_only (s := s) (e := e)
  simp only [changesOnly] at h
  simp at h
  simp [h]
@[simp] theorem nvmCutNow_grd : s.nvmCutNow.grd = s.grd := by
  have h := State.nvmCutNow_only (s := s)
  simp only [changesOnly] at h
  simp at h
  simp [h]
@[simp] theorem ringPut_grd (e : SnapEntry) : (s.ringPut e).grd = s.grd := by
  have h := State.ringPut_only (s := s) (e := e)
  simp only [changesOnly] at h
  simp at h
  simp [h]
@[simp] theorem lfPut_grd (e : LfRec) : (s.lfPut e).grd = s.grd := by
  have h := State.lfPut_only (s := s) (e := e)
  simp only [changesOnly] at h
  simp at h
  simp [h]
@[simp] theorem nvmCutNow_fab : s.nvmCutNow.fab = s.fab := by
  have h := State.nvmCutNow_only (s := s)
  simp only [changesOnly] at h
  simp at h
  simp [h]
@[simp] theorem ringPut_fab (e : SnapEntry) : (s.ringPut e).fab = s.fab := by
  have h := State.ringPut_only (s := s) (e := e)
  simp only [changesOnly] at h
  simp at h
  simp [h]
@[simp] theorem lfPut_fab (e : LfRec) : (s.lfPut e).fab = s.fab := by
  have h := State.lfPut_only (s := s) (e := e)
  simp only [changesOnly] at h
  simp at h
  simp [h]
@[simp] theorem nvmCutNow_cc : s.nvmCutNow.cc = s.cc := by
  have h := State.nvmCutNow_only (s := s)
  simp only [changesOnly] at h
  simp at h
  simp [h]
@[simp] theorem ringPut_cc (e : SnapEntry) : (s.ringPut e).cc = s.cc := by
  have h := State.ringPut_only (s := s) (e := e)
  simp only [changesOnly] at h
  simp at h
  simp [h]
@[simp] theorem lfPut_cc (e : LfRec) : (s.lfPut e).cc = s.cc := by
  have h := State.lfPut_only (s := s) (e := e)
  simp only [changesOnly] at h
  simp at h
  simp [h]
@[simp] theorem nvmCutNow_pp : s.nvmCutNow.pp = s.pp := by
  have h := State.nvmCutNow_only (s := s)
  simp only [changesOnly] at h
  simp at h
  simp [h]
@[simp] theorem ringPut_pp (e : SnapEntry) : (s.ringPut e).pp = s.pp := by
  have h := State.ringPut_only (s := s) (e := e)
  simp only [changesOnly] at h
  simp at h
  simp [h]
@[simp] theorem lfPut_pp (e : LfRec) : (s.lfPut e).pp = s.pp := by
  have h := State.lfPut_only (s := s) (e := e)
  simp only [changesOnly] at h
  simp at h
  simp [h]
@[simp] theorem nvmCutNow_chg : s.nvmCutNow.chg = s.chg := by
  have h := State.nvmCutNow_only (s := s)
  simp only [changesOnly] at h
  simp at h
  simp [h]
@[simp] theorem ringPut_chg (e : SnapEntry) : (s.ringPut e).chg = s.chg := by
  have h := State.ringPut_only (s := s) (e := e)
  simp only [changesOnly] at h
  simp at h
  simp [h]
@[simp] theorem lfPut_chg (e : LfRec) : (s.lfPut e).chg = s.chg := by
  have h := State.lfPut_only (s := s) (e := e)
  simp only [changesOnly] at h
  simp at h
  simp [h]
@[simp] theorem nvmCutNow_ms : s.nvmCutNow.ms = s.ms := by
  have h := State.nvmCutNow_only (s := s)
  simp only [changesOnly] at h
  simp at h
  simp [h]
@[simp] theorem ringPut_ms (e : SnapEntry) : (s.ringPut e).ms = s.ms := by
  have h := State.ringPut_only (s := s) (e := e)
  simp only [changesOnly] at h
  simp at h
  simp [h]
@[simp] theorem lfPut_ms (e : LfRec) : (s.lfPut e).ms = s.ms := by
  have h := State.lfPut_only (s := s) (e := e)
  simp only [changesOnly] at h
  simp at h
  simp [h]
@[simp] theorem nvmCutNow_sw : s.nvmCutNow.sw = s.sw := by
  have h := State.nvmCutNow_only (s := s)
  simp only [changesOnly] at h
  simp at h
  simp [h]
@[simp] theorem ringPut_sw (e : SnapEntry) : (s.ringPut e).sw = s.sw := by
  have h := State.ringPut_only (s := s) (e := e)
  simp only [changesOnly] at h
  simp at h
  simp [h]
@[simp] theorem lfPut_sw (e : LfRec) : (s.lfPut e).sw = s.sw := by
  have h := State.lfPut_only (s := s) (e := e)
  simp only [changesOnly] at h
  simp at h
  simp [h]
@[simp] theorem nvmCutNow_seq : s.nvmCutNow.seq = s.seq := by
  have h := State.nvmCutNow_only (s := s)
  simp only [changesOnly] at h
  simp at h
  simp [h]
@[simp] theorem ringPut_seq (e : SnapEntry) : (s.ringPut e).seq = s.seq := by
  have h := State.ringPut_only (s := s) (e := e)
  simp only [changesOnly] at h
  simp at h
  simp [h]
@[simp] theorem lfPut_seq (e : LfRec) : (s.lfPut e).seq = s.seq := by
  have h := State.lfPut_only (s := s) (e := e)
  simp only [changesOnly] at h
  simp at h
  simp [h]
@[simp] theorem nvmCutNow_wd : s.nvmCutNow.wd = s.wd := by
  have h := State.nvmCutNow_only (s := s)
  simp only [changesOnly] at h
  simp at h
  simp [h]
@[simp] theorem ringPut_wd (e : SnapEntry) : (s.ringPut e).wd = s.wd := by
  have h := State.ringPut_only (s := s) (e := e)
  simp only [changesOnly] at h
  simp at h
  simp [h]
@[simp] theorem lfPut_wd (e : LfRec) : (s.lfPut e).wd = s.wd := by
  have h := State.lfPut_only (s := s) (e := e)
  simp only [changesOnly] at h
  simp at h
  simp [h]
@[simp] theorem nvmCutNow_mb : s.nvmCutNow.mb = s.mb := by
  have h := State.nvmCutNow_only (s := s)
  simp only [changesOnly] at h
  simp at h
  simp [h]
@[simp] theorem ringPut_mb (e : SnapEntry) : (s.ringPut e).mb = s.mb := by
  have h := State.ringPut_only (s := s) (e := e)
  simp only [changesOnly] at h
  simp at h
  simp [h]
@[simp] theorem lfPut_mb (e : LfRec) : (s.lfPut e).mb = s.mb := by
  have h := State.lfPut_only (s := s) (e := e)
  simp only [changesOnly] at h
  simp at h
  simp [h]
@[simp] theorem nvmCutNow_stk : s.nvmCutNow.stk = s.stk := by
  have h := State.nvmCutNow_only (s := s)
  simp only [changesOnly] at h
  simp at h
  simp [h]
@[simp] theorem ringPut_stk (e : SnapEntry) : (s.ringPut e).stk = s.stk := by
  have h := State.ringPut_only (s := s) (e := e)
  simp only [changesOnly] at h
  simp at h
  simp [h]
@[simp] theorem lfPut_stk (e : LfRec) : (s.lfPut e).stk = s.stk := by
  have h := State.lfPut_only (s := s) (e := e)
  simp only [changesOnly] at h
  simp at h
  simp [h]
@[simp] theorem nvmCutNow_tca : s.nvmCutNow.tca = s.tca := by
  have h := State.nvmCutNow_only (s := s)
  simp only [changesOnly] at h
  simp at h
  simp [h]
@[simp] theorem ringPut_tca (e : SnapEntry) : (s.ringPut e).tca = s.tca := by
  have h := State.ringPut_only (s := s) (e := e)
  simp only [changesOnly] at h
  simp at h
  simp [h]
@[simp] theorem lfPut_tca (e : LfRec) : (s.lfPut e).tca = s.tca := by
  have h := State.lfPut_only (s := s) (e := e)
  simp only [changesOnly] at h
  simp at h
  simp [h]
@[simp] theorem nvmCutNow_tcb : s.nvmCutNow.tcb = s.tcb := by
  have h := State.nvmCutNow_only (s := s)
  simp only [changesOnly] at h
  simp at h
  simp [h]
@[simp] theorem ringPut_tcb (e : SnapEntry) : (s.ringPut e).tcb = s.tcb := by
  have h := State.ringPut_only (s := s) (e := e)
  simp only [changesOnly] at h
  simp at h
  simp [h]
@[simp] theorem lfPut_tcb (e : LfRec) : (s.lfPut e).tcb = s.tcb := by
  have h := State.lfPut_only (s := s) (e := e)
  simp only [changesOnly] at h
  simp at h
  simp [h]
@[simp] theorem nvmCutNow_pending : s.nvmCutNow.pending = s.pending := by
  have h := State.nvmCutNow_only (s := s)
  simp only [changesOnly] at h
  simp at h
  simp [h]
@[simp] theorem ringPut_pending (e : SnapEntry) : (s.ringPut e).pending = s.pending := by
  have h := State.ringPut_only (s := s) (e := e)
  simp only [changesOnly] at h
  simp at h
  simp [h]
@[simp] theorem lfPut_pending (e : LfRec) : (s.lfPut e).pending = s.pending := by
  have h := State.lfPut_only (s := s) (e := e)
  simp only [changesOnly] at h
  simp at h
  simp [h]

end Sys2Proof.Machine
end

