-- ==== Sys2Proof/Laws/Keep.lean ====
section
/-! SUPPORT. The invariant of Safety.lean together with the queue of waiting commands and the fuses blown (R472): what each update of a part of the state keeps of
them, and how a test, a fold and a buffer write carry them on. -/
namespace Sys2Proof.Machine

set_option Elab.async false
open Sys2Proof.Safety

/-- The queue is `q.1`, no fuse of `q.2` is intact again, and the invariant holds. -/
def Good (q : List Instr × BitVec 5) (s : State) : Prop := (s.pending = q.1 ∧ q.2 &&& s.grd.fuse = q.2) ∧ Inv s

variable {q : List Instr × BitVec 5} {s : State}

/-! ## Updates of a part -/

@[simp] theorem good_onClk {f : Clk → Clk} (h : Good q s) : Good q (s.onClk f) := h
theorem good_onGrd {f : Guard → Guard} (h : Good q s)
    (hf : q.2 &&& s.grd.fuse = q.2 → q.2 &&& (f s.grd).fuse = q.2 := by intro h; exact h) : Good q (s.onGrd f) := ⟨⟨h.1.1, hf h.1.2⟩, h.2⟩
@[simp] theorem good_onPp {f : Power → Power} (h : Good q s) : Good q (s.onPp f) := h
@[simp] theorem good_onChg {f : Charge → Charge} (h : Good q s) : Good q (s.onChg f) := h
@[simp] theorem good_onMs {f : Meas → Meas} (h : Good q s) : Good q (s.onMs f) := h
@[simp] theorem good_onSw {f : Sweep → Sweep} (h : Good q s) : Good q (s.onSw f) := h
@[simp] theorem good_onSeq {f : Seqr → Seqr} (h : Good q s) : Good q (s.onSeq f) := h
@[simp] theorem good_onWd {f : Wdog → Wdog} (h : Good q s) : Good q (s.onWd f) := h
@[simp] theorem good_onStk {f : Stack → Stack} (h : Good q s) : Good q (s.onStk f) := h
@[simp] theorem good_onTca {f : TcPort → TcPort} (h : Good q s) : Good q (s.onTca f) := h
@[simp] theorem good_onTcb {f : TcPort → TcPort} (h : Good q s) : Good q (s.onTcb f) := h
@[simp] theorem good_useFree {k : Nat} (h : Good q s) : Good q (s.useFree k) := h

theorem good_onFab {f : Fabric → Fabric} (h : Good q s) (hf : fabOk s.fab → fabOk (f s.fab)) : Good q (s.onFab f) :=
  ⟨h.1, hf h.2.1, h.2.2⟩
theorem good_onCc {f : Conv → Conv} (h : Good q s) (hf : ccOk s.cc → ccOk (f s.cc)) : Good q (s.onCc f) :=
  ⟨h.1, h.2.1, hf h.2.2.1, h.2.2.2⟩
theorem good_onQs {f : Queues → Queues} (h : Good q s) (hf : qsOk s.qs → qsOk (f s.qs)) : Good q (s.onQs f) :=
  ⟨h.1, h.2.1, h.2.2.1, hf h.2.2.2.1, h.2.2.2.2⟩
theorem good_onMb {f : Mail → Mail} (h : Good q s) (hf : mbOk s.mb → mbOk (f s.mb)) : Good q (s.onMb f) :=
  ⟨h.1, h.2.1, h.2.2.1, h.2.2.2.1, hf h.2.2.2.2.1, h.2.2.2.2.2⟩
theorem good_onNvm {f : NvmS → NvmS} (h : Good q s) (hf : nvmOk s.nvm → nvmOk (f s.nvm)) : Good q (s.onNvm f) :=
  ⟨h.1, h.2.1, h.2.2.1, h.2.2.2.1, h.2.2.2.2.1, hf h.2.2.2.2.2.1, h.2.2.2.2.2.2⟩
theorem good_onFlt {f : Faults → Faults} (h : Good q s) (hf : fltOk s.flt → fltOk (f s.flt)) : Good q (s.onFlt f) :=
  ⟨h.1, h.2.1, h.2.2.1, h.2.2.2.1, h.2.2.2.2.1, h.2.2.2.2.2.1, hf h.2.2.2.2.2.2.1, h.2.2.2.2.2.2.2⟩
theorem good_onSys {f : Sys → Sys} (h : Good q s) (hf : sysOk s.sys → sysOk (f s.sys)) : Good q (s.onSys f) :=
  ⟨h.1, h.2.1, h.2.2.1, h.2.2.2.1, h.2.2.2.2.1, h.2.2.2.2.2.1, h.2.2.2.2.2.2.1, hf h.2.2.2.2.2.2.2.1, h.2.2.2.2.2.2.2.2⟩
theorem good_onBus {f : Bus → Bus} (h : Good q s)
    (hf : Memory.wf regDefault s.bus.page = true → Memory.wf regDefault (f s.bus).page = true) : Good q (s.onBus f) :=
  ⟨h.1, h.2.1, h.2.2.1, h.2.2.2.1, h.2.2.2.2.1, h.2.2.2.2.2.1, h.2.2.2.2.2.2.1, h.2.2.2.2.2.2.2.1, hf h.2.2.2.2.2.2.2.2⟩

/-! ## Tests and folds -/

theorem good_when {c : Bool} {f : State → State} (h : Good q s) (hf : c = true → Good q (f s)) : Good q (s.when c f) := by
  unfold State.when; split
  · exact hf ‹_›
  · exact h

theorem good_foldl {α : Type} {g : State → α → State} (hg : ∀ t x, Good q t → Good q (g t x)) (l : List α) (h : Good q s) :
    Good q (l.foldl g s) := by
  induction l generalizing s with
  | nil => exact h
  | cons a l ih => exact ih (hg _ _ h)

theorem good_mem_foldl {α : Type} {g : State → α → State} (l : List α) (hg : ∀ t, ∀ x ∈ l, Good q t → Good q (g t x)) (h : Good q s) :
    Good q (l.foldl g s) := by
  induction l generalizing s with
  | nil => exact h
  | cons a l ih => exact ih (fun t x hx => hg t x (List.mem_cons_of_mem _ hx)) (hg _ _ List.mem_cons_self h)

/-! ## Buffers -/

theorem memOrdered_mono {d : Nat → Byte} {m : List Host.Cell} {a b : Nat} (hab : a ≤ b) (h : memOrdered d b m = true) :
    memOrdered d a m = true := by
  cases m with
  | nil => rfl
  | cons c r =>
    simp only [memOrdered, Bool.and_eq_true, decide_eq_true_eq] at h ⊢
    exact ⟨⟨by omega, h.1.2⟩, h.2⟩

theorem memPut_ordered {d : Nat → Byte} {m : List Host.Cell} {lo a : Nat} {v : Byte} (hlo : lo ≤ a) (h : memOrdered d lo m = true) :
    memOrdered d lo (memPut d m a v) = true := by
  induction m generalizing lo with
  | nil => unfold memPut; split <;> simp_all [memOrdered]
  | cons c r ih =>
    obtain ⟨k, w⟩ := c
    simp only [memOrdered, Bool.and_eq_true, decide_eq_true_eq] at h
    unfold memPut
    split
    · split
      · simp_all [memOrdered]
      · simp_all [memOrdered]
    · split
      · split
        · exact memOrdered_mono (by omega) h.2
        · simp_all [memOrdered]
      · have : k + 1 ≤ a := by omega
        simp only [memOrdered, Bool.and_eq_true, decide_eq_true_eq]
        exact ⟨h.1, ih this h.2⟩

/-- A write keeps the canonical form. -/
@[simp] theorem memPut_wf {d : Nat → Byte} {m : List Host.Cell} (a : Nat) (v : Byte) (h : Memory.wf d m = true) :
    Memory.wf d (memPut d m a v) = true := memPut_ordered (Nat.zero_le _) h

@[simp] theorem memPuts_wf {d : Nat → Byte} {m : List Host.Cell} (a : Nat) (l : List Byte) (h : Memory.wf d m = true) :
    Memory.wf d (memPuts d m a l) = true := by
  induction l generalizing m a with
  | nil => exact h
  | cons v r ih => exact ih _ (memPut_wf a v h)

theorem filter_ordered {d : Nat → Byte} {m : List Host.Cell} {lo : Nat} (p : Host.Cell → Bool) (h : memOrdered d lo m = true) :
    memOrdered d lo (m.filter p) = true := by
  induction m generalizing lo with
  | nil => rfl
  | cons c r ih =>
    simp only [memOrdered, Bool.and_eq_true, decide_eq_true_eq] at h
    rw [List.filter_cons]
    split
    · simp only [memOrdered, Bool.and_eq_true, decide_eq_true_eq]; exact ⟨h.1, ih h.2⟩
    · exact memOrdered_mono (by omega) (ih h.2)

@[simp] theorem memErase_wf {d : Nat → Byte} {m : List Host.Cell} (a n : Nat) (h : Memory.wf d m = true) :
    Memory.wf d (memErase m a n) = true := filter_ordered _ h

@[simp] theorem nil_wf {d : Nat → Byte} : Memory.wf d [] = true := rfl

/-! ## Choices, outcomes and the parts' own lemmas -/


/-- A choice keeps what both its sides keep. -/
theorem good_ite {q : List Instr × BitVec 5} {c : Prop} [Decidable c] {a b : State} (ha : c → Good q a) (hb : ¬ c → Good q b) : Good q (if c then a else b) := by
  split
  · exact ha ‹_›
  · exact hb ‹_›

/-- The outcome is a next state that keeps the queue, the blown fuses and the invariant. -/
def GoodO (q : List Instr × BitVec 5) (o : Out) : Prop := ∃ t, o = .next t ∧ Good q t

theorem goodO_next {q : List Instr × BitVec 5} {s : State} (h : Good q s) : GoodO q (.next s) := ⟨s, rfl, h⟩

theorem goodO_ite {q : List Instr × BitVec 5} {c : Prop} [Decidable c] {a b : Out} (ha : c → GoodO q a) (hb : ¬ c → GoodO q b) : GoodO q (if c then a else b) := by
  split
  · exact ha ‹_›
  · exact hb ‹_›

/-- A freed and a fenced phase are in order. -/
theorem phaseOk_freed {x} (_ : phaseOk x) : phaseOk (freed x) := ⟨fun _ => ⟨rfl, rfl⟩, Nat.zero_le _⟩

theorem phaseOk_fenced {x} (_ : phaseOk x) : phaseOk (fencedPh x) := ⟨fun _ => ⟨rfl, rfl⟩, Nat.zero_le _⟩

/-- Writing a list of cells keeps the canonical form. -/
theorem memFold_wf {d : Nat → Byte} (l : List Host.Cell) : ∀ {m : List Host.Cell}, Memory.wf d m = true →
    Memory.wf d (l.foldl (fun p c => memPut d p c.1 c.2) m) = true := by
  induction l with
  | nil => exact fun h => h
  | cons c r ih => exact fun h => ih (memPut_wf _ _ h)

/-- Clearing drop counters keeps their bound. -/
theorem drops_clear {l : List Nat} {p : Nat → Bool} (h : ∀ d ∈ l, d ≤ 0xFFFF) : ∀ d ∈ l.mapIdx (fun k v => if p k then 0 else v), d ≤ 0xFFFF := by
  intro d hd
  obtain ⟨i, hi, rfl⟩ := List.mem_mapIdx.1 hd
  split
  · omega
  · exact h _ (List.getElem_mem hi)

/-- Shorter lists stay within a depth. -/
theorem stkErase {l : List Nat} {a n : Nat} (h : l.length ≤ n) : (l.erase a).length ≤ n := Nat.le_trans List.length_erase_le h

/-- A state read out of a pair. -/
theorem fst_good {q : List Instr × BitVec 5} {β : Type} {x : State × β} {a : State} {b : β} (e : x = (a, b)) (h : Good q x.1) : Good q a := by rw [e] at h; exact h

theorem drop_len {α : Type} (n : Nat) (l : List α) : (l.drop n).length ≤ l.length := by rw [List.length_drop]; exact Nat.sub_le _ _

/-- A response frame keeps the buffers in form (R394, R398). -/
theorem put_mb {m : Mail} {n k : Nat} {l : List Byte} {o : BitVec 4} (hx : mbOk m) :
    mbOk { m with outb := memPuts zeroByte (memErase m.outb (256 * n) 256) k l, outrdy := o } :=
  ⟨hx.1, hx.2.1, memPuts_wf _ _ (memErase_wf _ _ hx.2.2)⟩

end Sys2Proof.Machine
end

