-- ==== Sys2Proof/Laws/KeepOps.lean ====
section
/-! SUPPORT. What each operation and each meaning of Machine/Ops.lean keeps: the queue of waiting commands and the invariant of
Safety.lean; a meaning also answers a next state. -/
namespace Sys2Proof.Machine

set_option Elab.async false
open Sys2Proof.Safety

theorem State.setReg_good {q s a v} (h : Good q s) : Good q (s.setReg a v) := good_onBus h fun hp => memPut_wf a v hp

theorem State.updShow_good {q} {s} (h : Good q s) : Good q (State.updShow s) := by
  unfold State.updShow
  exact good_onBus h (fun h => h)

theorem State.takeShadows_good {q} {s} {a1} {a2} (h : Good q s) : Good q (State.takeShadows s a1 a2) := by
  unfold State.takeShadows
  extract_lets +onlyGivenNames v1
  clear_value v1
  exact good_onBus h (fun hx => memFold_wf _ hx)

theorem State.clampReg_good {q} {s} {a1} {a2} {a3} (h : Good q s) : Good q (State.clampReg s a1 a2 a3) := by
  unfold State.clampReg
  exact State.setReg_good h

theorem State.clampPair_good {q} {s} {a1} {a2} {a3} (h : Good q s) : Good q (State.clampPair s a1 a2 a3) := by
  unfold State.clampPair
  extract_lets +onlyGivenNames v1
  clear_value v1
  exact State.setReg_good (State.setReg_good h)

/-- Putting an event into the queue makes it one longer (R31). -/
@[simp] theorem eventPut_length (l : List EventRec) (e : EventRec) : (eventPut l e).length = l.length + 1 := by
  simp only [eventPut, List.length_append, List.length_cons, List.length_take, List.length_drop]
  omega

theorem State.pushEvent_good {q s e} (h : Good q s) (hl : s.qs.events.length < 256) : Good q (s.pushEvent e) := by
  refine good_onQs h fun hq => ?_
  simp_all [qsOk]

theorem set_le {l : List Nat} {k v m : Nat} (h : ∀ d ∈ l, d ≤ m) (hv : v ≤ m) : ∀ d ∈ l.set k v, d ≤ m := by
  intro d hd
  rcases List.mem_or_eq_of_mem_set hd with hd | rfl
  · exact h _ hd
  · exact hv

theorem State.countDrop_good {q s k} (h : Good q s) : Good q (s.countDrop k).1 := by
  unfold State.countDrop
  dsimp only
  have key : ∀ v : Nat, v < 65535 → Good q (s.onQs fun x => { x with drops := x.drops.set k (v + 1) }) := fun v hv =>
    good_onQs h fun hq => ⟨hq.1, hq.2.1, hq.2.2.1, hq.2.2.2.1, hq.2.2.2.2.1, by simpa using hq.2.2.2.2.2.1, set_le hq.2.2.2.2.2.2 (by omega)⟩
  split
  · split
    · exact good_onQs (key _ ‹_›) fun hq => hq
    · exact key _ ‹_›
  · exact h

theorem State.drop_good {q s k} (h : Good q s) : Good q (s.drop k) := by
  unfold State.drop
  rcases hc : s.countDrop k with ⟨s1, hit⟩
  have h1 : Good q s1 := by have := countDrop_good (k := k) h; rwa [hc] at this
  dsimp only
  split
  · exact h1
  · split
    · refine pushEvent_good h1 ?_
      rename_i hf; simp [State.eventFits] at hf; omega
    · exact countDrop_good h1

theorem State.raise_good {q s a b c d} (h : Good q s) : Good q (s.raise a b c d) := by
  unfold State.raise
  split
  · refine pushEvent_good h ?_
    rename_i hf; simp only [State.eventFits] at hf; split at hf <;> simp at hf <;> omega
  · exact drop_good h

theorem State.raiseRec_good {q s e} (h : Good q s) : Good q (s.raiseRec e) := by
  unfold State.raiseRec
  split
  · refine pushEvent_good h ?_
    rename_i hf; simp only [State.eventFits] at hf; split at hf <;> simp at hf <;> omega
  · exact drop_good h

theorem State.dropsClear_good {q} {s} (h : Good q s) : Good q (State.dropsClear s) := by
  unfold State.dropsClear
  exact good_onQs h (by (intro hx; simp_all [qsOk, mbOk, nvmOk, fltOk, sysOk, ccOk, fabOk, phaseOk, cfgOk]; done))

theorem State.counterSat_good {q} {s} {a1} {a2} (h : Good q s) : Good q (State.counterSat s a1 a2) := by
  unfold State.counterSat
  exact State.raise_good h

theorem State.when_good {q s c} {f : State → State} (h : Good q s) (hf : c = true → Good q (f s)) : Good q (s.when c f) := good_when h hf

theorem State.useFree_good {q s k} (h : Good q s) : Good q (s.useFree k) := h
end Sys2Proof.Machine
end

