-- ==== Sys2Proof/Laws/KeepFabric.lean ====
section
/-! SUPPORT. What each operation and each meaning of Machine/Fabric.lean keeps: the queue of waiting commands and the invariant of
Safety.lean; a meaning also answers a next state. -/
namespace Sys2Proof.Machine

set_option Elab.async false
open Sys2Proof.Safety

theorem State.onPhase_good {q s i} {f : Phase → Phase} (h : Good q s) (hf : ∀ x, phaseOk x → phaseOk (f x)) : Good q (s.onPhase i f) := by
  refine good_onFab h fun hx => ⟨by simpa using hx.1, hx.2.1, fun x hm => ?_⟩
  rcases List.mem_or_eq_of_mem_set hm with hm | rfl
  · exact hx.2.2 _ hm
  · refine hf _ ?_
    rw [List.getD_eq_getElem?_getD]
    rcases hi : s.fab.ph[i]? with _ | y
    · simp [phaseOk]
    · exact hx.2.2 _ (List.mem_of_getElem? hi)

theorem State.onPhases_good {q s} {f : Phase → Phase} (h : Good q s) (hf : ∀ x, phaseOk x → phaseOk (f x)) : Good q (s.onPhases f) := by
  refine good_onFab h fun hx => ⟨by simpa using hx.1, hx.2.1, fun x hm => ?_⟩
  obtain ⟨y, hy, rfl⟩ := List.mem_map.1 hm
  exact hf _ (hx.2.2 _ hy)

theorem State.onPath_good {q s p} {f : PathSt → PathSt} (h : Good q s) : Good q (s.onPath p f) :=
  good_onFab h fun hx => ⟨hx.1, by simpa using hx.2.1, hx.2.2⟩

theorem State.sweepDisturb_good {q} {s} (h : Good q s) : Good q (State.sweepDisturb s) := by
  unfold State.sweepDisturb
  exact good_ite (fun _ => good_onSw h) (fun _ => h)

theorem State.place_good {q} {s} {a1} {a2} {a3} {a4} (h : Good q s) : Good q (State.place s a1 a2 a3 a4) := by
  unfold State.place
  extract_lets +onlyGivenNames v1
  clear_value v1
  extract_lets +onlyGivenNames v2
  clear_value v2
  exact State.raise_good (State.when_good h (fun _ => State.sweepDisturb_good h))

theorem State.placeChanges_good {q} {s} {a1} {a2} (h : Good q s) (hs1 : Good q a1) : Good q (State.placeChanges s a1 a2) := by
  unfold State.placeChanges
  exact good_foldl (fun _ _ x3 => (by extract_lets +onlyGivenNames t4; clear_value t4; extract_lets +onlyGivenNames t5; clear_value t5; exact good_ite (fun _ => x3) (fun _ => State.place_good x3))) _ hs1

theorem State.groupAngle_good {q s ok} (h : Good q s) : Good q (s.groupAngle ok) := by
  unfold State.groupAngle
  generalize s.groupPlace = g
  obtain ⟨b, n⟩ := g
  refine good_onFab h fun hx => ⟨by simpa using hx.1, hx.2.1, fun x hm => ?_⟩
  obtain ⟨i, hi, rfl⟩ := List.mem_mapIdx.1 hm
  have := hx.2.2 _ (List.getElem_mem hi)
  split <;> exact this

theorem State.reAngle_good {q s p} (h : Good q s) : Good q (s.reAngle p) := by
  unfold State.reAngle
  refine good_ite (fun _ => h) fun _ => good_onFab h fun hx => ⟨by simpa using hx.1, hx.2.1, fun x hm => ?_⟩
  obtain ⟨i, hi, rfl⟩ := List.mem_mapIdx.1 hm
  have := hx.2.2 _ (List.getElem_mem hi)
  split <;> exact this

theorem State.joinAngle_good {q} {s} {a1} {a2} (h : Good q s) : Good q (State.joinAngle s a1 a2) := by
  unfold State.joinAngle
  exact State.onPhase_good (good_ite (fun _ => State.groupAngle_good h) (fun _ => State.reAngle_good h)) (fun x h => h)

theorem State.placeFree_good {q} {s} {a1} {a2} {a3} (h : Good q s) : Good q (State.placeFree s a1 a2 a3) := by
  unfold State.placeFree
  extract_lets +onlyGivenNames t1
  have g2 : Good q t1 := State.onPhase_good h (by (intro hx; simp_all [phaseOk]))
  clear_value t1
  exact State.place_good g2

theorem State.handOff_good {q} {s} {a1} {a2} {a3} (h : Good q s) : Good q (State.handOff s a1 a2 a3) := by
  unfold State.handOff
  extract_lets +onlyGivenNames v1
  clear_value v1
  extract_lets +onlyGivenNames t2
  have g3 : Good q t2 := State.onPhase_good h (by (intro hx; simp_all [phaseOk]))
  clear_value t2
  exact State.place_good g3

theorem State.drainOff_good {q} {s} {a1} {a2} (h : Good q s) : Good q (State.drainOff s a1 a2) := by
  unfold State.drainOff
  extract_lets +onlyGivenNames v1
  clear_value v1
  extract_lets +onlyGivenNames t2
  have g3 : Good q t2 := State.onPhase_good h (by (intro hx; simp_all [phaseOk]))
  clear_value t2
  exact State.place_good g3

theorem State.drainFlip_good {q} {s} {a1} {a2} (h : Good q s) : Good q (State.drainFlip s a1 a2) := by
  unfold State.drainFlip
  extract_lets +onlyGivenNames v1
  clear_value v1
  extract_lets +onlyGivenNames t2
  have g3 : Good q t2 := State.onPhase_good h (by (intro hx; simp_all [phaseOk]))
  clear_value t2
  exact State.place_good g3

theorem State.setVbus_good {q} {s} {a1} {a2} (h : Good q s) : Good q (State.setVbus s a1 a2) := by
  unfold State.setVbus
  split
  exacts [good_onPp h, good_onPp h, h]

theorem State.vbusRest_good {q} {s} {a1} (h : Good q s) : Good q (State.vbusRest s a1) := by
  unfold State.vbusRest
  exact State.when_good h (fun _ => State.setVbus_good h)

theorem State.leavePath_good {q} {s} {a1} {a2} {a3} (h : Good q s) : Good q (State.leavePath s a1 a2 a3) := by
  unfold State.leavePath
  extract_lets +onlyGivenNames v1
  clear_value v1
  split
  exacts [good_ite (fun _ => State.drainOff_good h) (fun _ => h), good_ite (fun _ => State.place_good (State.onPhase_good h (by (intro hx; simp_all [phaseOk])))) (fun _ => h), good_ite (fun _ => State.place_good (State.onPhase_good h (by (intro hx; simp_all [phaseOk])))) (fun _ => h), good_ite (fun _ => State.place_good (State.onPhase_good h (by (intro hx; simp_all [phaseOk])))) (fun _ => h), good_ite (fun _ => State.place_good (State.onPhase_good h (fun x h => phaseOk_freed h))) (fun _ => h), h, h]

theorem State.compIdle_good {q} {s} {a1} (h : Good q s) : Good q (State.compIdle s a1) := by
  unfold State.compIdle
  exact good_onCc h (by (intro hx; simpa [ccOk] using hx))

theorem State.endPath_good {q} {s} {a1} {a2} (h : Good q s) : Good q (State.endPath s a1 a2) := by
  unfold State.endPath
  exact good_ite (fun _ => (by extract_lets +onlyGivenNames t2; have g3 : Good q t2 := good_foldl (fun _ _ x6 => State.leavePath_good x6) _ h; clear_value t2; extract_lets +onlyGivenNames t7; have g8 : Good q t7 := State.compIdle_good (State.onPath_good g3); clear_value t7; exact State.vbusRest_good (State.when_good g8 (fun _ => good_onSys g8 (fun h => h))))) (fun _ => h)

theorem State.gatesOff_good {q} {s} (h : Good q s) : Good q (State.gatesOff s) := by
  unfold State.gatesOff
  exact good_foldl (fun _ _ g1 => (by extract_lets +onlyGivenNames v2; clear_value v2; split; exacts [g1, g1, State.place_good (State.onPhase_good g1 (fun x h => phaseOk_freed h))])) _ h

theorem State.pathsOff_good {q} {s} (h : Good q s) : Good q (State.pathsOff s) := by
  unfold State.pathsOff
  exact good_onFab (good_foldl (fun _ _ x3 => State.compIdle_good x3) _ h) (by (intro hx; exact ⟨hx.1, by simpa using hx.2.1, hx.2.2⟩))

theorem State.setDom_good {q} {s} {a1} {a2} (h : Good q s) : Good q (State.setDom s a1 a2) := by
  unfold State.setDom
  exact good_onSys h (fun h => h)

theorem serveDom_good {q n} : ∀ {s}, Good q s → Good q (serveDom n s) := by
  induction n with
  | zero => intro s h; exact h
  | succ n ih =>
    intro s h
    unfold serveDom
    split
    · dsimp only
      split
      · exact ih (good_onSys h fun hx => hx)
      · exact good_onSys (good_onSys h fun hx => hx) fun hx => hx
    · exact h

theorem State.domRequest_good {q} {s} {a1} (h : Good q s) : Good q (State.domRequest s a1) := by
  unfold State.domRequest
  extract_lets +onlyGivenNames t1
  have g2 : Good q t1 := good_onSys h (fun h => h)
  clear_value t1
  exact serveDom_good g2

theorem State.domOn_good {q} {s} {a1} (h : Good q s) : Good q (State.domOn s a1) := by
  unfold State.domOn
  exact State.when_good h (fun _ => State.domRequest_good h)

theorem State.domOff_good {q} {s} {a1} (h : Good q s) : Good q (State.domOff s a1) := by
  unfold State.domOff
  exact State.when_good h (fun _ => State.domRequest_good h)

theorem State.bringUp_good {q} {s} {a1} (h : Good q s) : Good q (State.bringUp s a1) := by
  unfold State.bringUp
  exact good_foldl (fun _ _ x3 => good_ite (fun _ => x3) (fun _ => good_ite (fun _ => State.domOn_good x3) (fun _ => State.setDom_good x3))) _ h

theorem State.formPath_good {q} {s} {a1} {a2} (h : Good q s) : Good q (State.formPath s a1 a2) := by
  unfold State.formPath
  exact State.setVbus_good (State.compIdle_good (State.onPath_good h))

theorem State.portRest_good {q} {s} {a1} (h : Good q s) : Good q (State.portRest s a1) := by
  unfold State.portRest
  exact State.when_good h (fun _ => State.domOff_good (State.setVbus_good h))

theorem State.drainDone_good {q} {s} {a1} (h : Good q s) : Good q (State.drainDone s a1) := by
  unfold State.drainDone
  extract_lets +onlyGivenNames t1
  clear_value t1
  exact good_ite (fun _ => h) (fun _ => (by extract_lets +onlyGivenNames t4; clear_value t4; extract_lets +onlyGivenNames t5; have g6 : Good q t5 := good_ite (fun _ => (by split; exacts [State.onPhase_good h (by (intro x hx; simp_all [phaseOk, State.dutyPreset]; done)), State.onPhase_good h (fun x h => phaseOk_freed h)])) (fun _ => State.onPhase_good h (by (intro hx; simp_all [qsOk, mbOk, nvmOk, fltOk, sysOk, ccOk, fabOk, phaseOk, cfgOk]; done))); clear_value t5; split; exacts [State.reAngle_good g6, g6]))

theorem State.seeNodes_good {q} {s} {a1} (h : Good q s) : Good q (State.seeNodes s a1) := by
  unfold State.seeNodes
  extract_lets +onlyGivenNames t1
  have g2 : Good q t1 := good_onSys (good_onPp h) (fun h => h)
  clear_value t1
  exact good_onNvm g2 (fun h => h)

theorem State.selClosed_good {q} {s} {a1} (h : Good q s) : Good q (State.selClosed s a1) := by
  unfold State.selClosed
  split
  exacts [State.onPhase_good h (fun x h => phaseOk_freed h), good_ite (fun _ => (by extract_lets +onlyGivenNames t2; have g3 : Good q t2 := State.onPhase_good h (by (intro x hx; simp_all [phaseOk, State.dutyPreset]; done)); clear_value t2; exact State.joinAngle_good g3)) (fun _ => State.onPhase_good h (fun x h => h))]

theorem State.settleDone_good {q} {s} {a1} (h : Good q s) : Good q (State.settleDone s a1) := by
  unfold State.settleDone
  exact good_ite (fun _ => h) (fun _ => (by split; exacts [State.portRest_good (State.vbusRest_good (State.selClosed_good h)), State.selClosed_good h]))

theorem State.startDone_good {q} {s} {a1} (h : Good q s) : Good q (State.startDone s a1) := by
  unfold State.startDone
  exact good_ite (fun _ => State.onPhase_good h (by (intro hx; simp_all [phaseOk]))) (fun _ => h)
end Sys2Proof.Machine
end

