-- ==== Sys2Proof/Laws/KeepChargeOps.lean ====
section
/-! SUPPORT. What each operation and each meaning of Machine/ChargeOps.lean keeps: the queue of waiting commands and the invariant of
Safety.lean; a meaning also answers a next state. -/
namespace Sys2Proof.Machine

set_option Elab.async false
open Sys2Proof.Safety

theorem State.applyChg_good {q} {s} (h : Good q s) : Good q (State.applyChg s) := by
  unfold State.applyChg
  extract_lets +onlyGivenNames v1
  clear_value v1
  extract_lets +onlyGivenNames t2
  have g3 : Good q t2 := State.clampReg_good (State.clampPair_good (State.clampPair_good h))
  clear_value t2
  extract_lets +onlyGivenNames t4
  have g5 : Good q t4 := State.clampReg_good (State.clampReg_good (State.clampReg_good g3))
  clear_value t4
  exact State.clampReg_good (State.clampReg_good (State.clampPair_good g5))

theorem State.applyHeld_good {q} {s} (h : Good q s) : Good q (State.applyHeld s) := by
  unfold State.applyHeld
  exact good_ite (fun _ => h) (fun _ => State.updShow_good (good_onChg (State.applyChg_good (State.takeShadows_good h))))

theorem State.socSeed_good {q} {s} (h : Good q s) : Good q (State.socSeed s) := by
  unfold State.socSeed
  extract_lets +onlyGivenNames v1
  clear_value v1
  extract_lets +onlyGivenNames v2
  clear_value v2
  exact State.useFree_good (good_onMs h)

theorem State.switchIdle_good {q} {s} (h : Good q s) : Good q (State.switchIdle s) := by
  unfold State.switchIdle
  exact good_onPp h

theorem State.suspend_good {q} {s} {a1} (h : Good q s) : Good q (State.suspend s a1) := by
  unfold State.suspend
  exact good_ite (fun _ => h) (fun _ => (by extract_lets +onlyGivenNames v1; clear_value v1; extract_lets +onlyGivenNames v2; clear_value v2; extract_lets +onlyGivenNames v3; clear_value v3; extract_lets +onlyGivenNames v4; clear_value v4; extract_lets +onlyGivenNames t5; have g6 : Good q t5 := good_onChg h; clear_value t5; exact State.raise_good (State.switchIdle_good g6)))

theorem State.suspendAnew_good {q} {s} {a1} (h : Good q s) : Good q (State.suspendAnew s a1) := by
  unfold State.suspendAnew
  exact State.suspend_good (State.when_good h (fun _ => good_onChg h))

theorem State.clearReason_good {q} {s} {a1} (h : Good q s) : Good q (State.clearReason s a1) := by
  unfold State.clearReason
  exact good_ite (fun _ => h) (fun _ => (by extract_lets +onlyGivenNames v1; clear_value v1; exact good_ite (fun _ => (by extract_lets +onlyGivenNames v2; clear_value v2; exact State.raise_good (good_onChg h))) (fun _ => good_onChg h)))

theorem State.chgDone_good {q} {s} {a1} (h : Good q s) : Good q (State.chgDone s a1) := by
  unfold State.chgDone
  exact State.raise_good (State.switchIdle_good (good_onChg h))

theorem State.chgOff_good {q} {s} (h : Good q s) : Good q (State.chgOff s) := by
  unfold State.chgOff
  exact State.switchIdle_good (good_onChg h)

theorem State.chargeStart_good {q} {s} {a1} (h : Good q s) : Good q (State.chargeStart s a1) := by
  unfold State.chargeStart
  extract_lets +onlyGivenNames t1
  have g2 : Good q t1 := good_onChg h
  clear_value t1
  split
  exacts [State.suspend_good (good_onChg g2), (by extract_lets +onlyGivenNames t3; have g4 : Good q t3 := good_onChg g2; clear_value t3; extract_lets +onlyGivenNames t5; have g6 : Good q t5 := State.when_good g4 (fun _ => State.socSeed_good g4); clear_value t5; extract_lets +onlyGivenNames t8; clear_value t8; extract_lets +onlyGivenNames t9; have g10 : Good q t9 := good_ite (fun _ => State.chgDone_good g6) (fun _ => good_onSw (good_onChg g6)); clear_value t9; exact good_foldl (fun _ _ x15 => State.suspend_good x15) _ g10)]

theorem State.autoStart_good {q} {s} {a1} (h : Good q s) : Good q (State.autoStart s a1) := by
  unfold State.autoStart
  exact State.when_good h (fun _ => State.chargeStart_good h)
end Sys2Proof.Machine
end

