-- ==== Sys2Proof/Laws/KeepFlags.lean ====
section
/-! SUPPORT. What each operation and each meaning of Machine/Flags.lean keeps: the queue of waiting commands and the invariant of
Safety.lean; a meaning also answers a next state. -/
namespace Sys2Proof.Machine

set_option Elab.async false
open Sys2Proof.Safety

theorem State.onTc_good {q} {s} {a1} {a2} (h : Good q s) : Good q (State.onTc s a1 a2) := by
  unfold State.onTc
  split
  exacts [good_onTca h, good_onTcb h]
end Sys2Proof.Machine
end

