-- ==== Sys2Proof/Laws/KeepMbxOps.lean ====
section
/-! SUPPORT. What each operation and each meaning of Machine/MbxOps.lean keeps: the queue of waiting commands and the invariant of
Safety.lean; a meaning also answers a next state. -/
namespace Sys2Proof.Machine

set_option Elab.async false
open Sys2Proof.Safety

theorem State.onBox_good {q} {s} {a1} {a2} (h : Good q s) : Good q (State.onBox s a1 a2) := by
  unfold State.onBox
  exact good_onMb h (by (intro hx; simp_all [mbOk]))

theorem State.postFrame_good {q} {s} {a1} {a2} {a3} (h : Good q s) : Good q (State.postFrame s a1 a2 a3) := by
  unfold State.postFrame
  extract_lets +onlyGivenNames t1
  clear_value t1
  exact good_onMb h (by (intro hx; simp_all [qsOk, mbOk, nvmOk, fltOk, sysOk, ccOk, fabOk, phaseOk, cfgOk]; done))

theorem State.finish_good {q} {s} {a1} {a2} {a3} (h : Good q s) : Good q (State.finish s a1 a2 a3) := by
  unfold State.finish
  split
  exacts [State.onBox_good (State.postFrame_good h), State.onBox_good h, State.onBox_good h, h, h]

theorem State.finishO_good {q} {s} {a1} {a2} {a3} (h : Good q s) : Good q (State.finishO s a1 a2 a3) := by
  unfold State.finishO
  split
  exacts [State.finish_good h, h]

theorem State.finishL_good {q} {s} {a1} {a2} {a3} (h : Good q s) : Good q (State.finishL s a1 a2 a3) := by
  unfold State.finishL
  exact good_foldl (fun _ _ g1 => State.finish_good g1) _ h

theorem State.accept_good {q} {s} {a1} {a2} (h : Good q s) : Good q (State.accept s a1 a2) := by
  unfold State.accept
  exact State.onBox_good (State.postFrame_good h)

theorem State.finishAct_good {q} {s} {a1} {a2} (h : Good q s) : Good q (State.finishAct s a1 a2) := by
  unfold State.finishAct
  exact State.onBox_good (State.finish_good h)

theorem State.takeFrame_good {q} {s} {a1} (h : Good q s) : Good q (State.takeFrame s a1) := by
  unfold State.takeFrame
  exact good_ite (fun _ => h) (fun _ => (by extract_lets +onlyGivenNames t1; have g2 : Good q t1 := good_onMb h (by (intro hx; simp_all [mbOk])); clear_value t1; split; exacts [good_onMb (State.finish_good g2) (fun h => h), g2]))

theorem State.taskRan_good {q} {s} {a1} (h : Good q s) : Good q (State.taskRan s a1) := by
  unfold State.taskRan
  exact good_onFlt h (fun h => h)

theorem State.takeRings_good {q} {s} (h : Good q s) : Good q (State.takeRings s) := by
  unfold State.takeRings
  exact good_ite (fun _ => good_foldl (fun _ _ g1 => State.takeFrame_good g1) _ h) (fun _ => h)

theorem State.carry_good {q} {s} {a1} {a2} {a3} {a4} {a5} {a6} (h : Good q s) (hf6 : ∀ t, Good q t → Good q (a6 t)) : Good q (State.carry s a1 a2 a3 a4 a5 a6) := by
  unfold State.carry
  exact good_ite (fun _ => h) (fun _ => (by extract_lets +onlyGivenNames t1; have g2 : Good q t1 := State.onBox_good (good_onMb h (fun h => h)); clear_value t1; exact good_ite (fun _ => State.finish_good g2) (fun _ => good_ite (fun _ => State.finish_good g2) (fun _ => good_ite (fun _ => State.finish_good g2) (fun _ => hf6 _ g2)))))

theorem State.query_good {q} {s} {a1} {a2} {a3} (h : Good q s) : Good q (State.query s a1 a2 a3) := by
  unfold State.query
  exact State.carry_good h (fun _ g1 => State.finish_good g1)

theorem State.withdrawBoxes_good {q} {s} {a1} (h : Good q s) : Good q (State.withdrawBoxes s a1) := by
  unfold State.withdrawBoxes
  exact good_foldl (fun _ _ x3 => good_ite (fun _ => good_onMb (State.finish_good x3) (fun h => h)) (fun _ => x3)) _ h

theorem State.withdrawQueued_good {q} {s} {a1} (h : Good q s) : Good q (State.withdrawQueued s a1) := by
  unfold State.withdrawQueued
  exact good_foldl (fun _ _ g1 => good_ite (fun _ => good_onMb (State.finish_good g1) (fun h => h)) (fun _ => g1)) _ h

theorem State.nvmPush_good {q s r} (h : Good q s) (hl : s.nvm.q.length < 8) (hc : cfgOk r.cfg) : Good q (s.nvmPush r) := by
  refine good_onNvm h fun hx => ?_
  obtain ⟨h1, h2, h3, h4, h5, h6, h7, h8⟩ := hx
  refine ⟨?_, h2, h3, h4, h5, h6, ?_, h8⟩
  · simp; omega
  · intro r hr
    rcases List.mem_append.1 hr with hr | hr
    · exact h7 _ hr
    · rw [List.mem_singleton.1 hr]; exact hc
end Sys2Proof.Machine
end

