-- ==== Sys2Proof/Laws/KeepNvmOps.lean ====
section
/-! SUPPORT. What each operation and each meaning of Machine/NvmOps.lean keeps: the queue of waiting commands and the invariant of
Safety.lean; a meaning also answers a next state. -/
namespace Sys2Proof.Machine

set_option Elab.async false
open Sys2Proof.Safety

theorem State.wearCheck_good {q} {s} {a1} (h : Good q s) : Good q (State.wearCheck s a1) := by
  unfold State.wearCheck
  exact State.when_good h (fun _ => State.raise_good (good_onNvm h (fun h => h)))

theorem nvmOk_erased {n : NvmS} {l : List Nat} (h : nvmOk n) : nvmOk (n.erased l) := by
  obtain ⟨h1, h2, h3, h4, h5, h6, h7, h8⟩ := h
  refine ⟨h1, by simpa [NvmS.erased] using h2, filter_ordered _ h3, filter_ordered _ h4, h5, fun b hb => ?_, h7, h8⟩
  obtain ⟨i, hi, hx⟩ := List.mem_mapIdx.1 hb
  split at hx
  · cases hx
  · exact h6 b (hx ▸ List.getElem_mem hi)

theorem State.eraseSectors_good {q} {s} {a1} {a2} (h : Good q s) : Good q (State.eraseSectors s a1 a2) := by
  unfold State.eraseSectors
  extract_lets +onlyGivenNames t1
  have g2 : Good q t1 := good_onNvm h nvmOk_erased
  clear_value t1
  exact State.wearCheck_good (State.when_good g2 (fun _ => State.counterSat_good g2))

theorem State.eraseBegin_good {q} {s} {a1} {a2} (h : Good q s) : Good q (State.eraseBegin s a1 a2) := by
  unfold State.eraseBegin
  exact State.eraseSectors_good (good_onNvm h (by (intro hx; simp_all [qsOk, mbOk, nvmOk, fltOk, sysOk, ccOk, fabOk, phaseOk, cfgOk]; done)))

theorem State.eraseCut_good {q} {s} {a1} {a2} {a3} (h : Good q s) : Good q (State.eraseCut s a1 a2 a3) := by
  unfold State.eraseCut
  extract_lets +onlyGivenNames t1
  clear_value t1
  extract_lets +onlyGivenNames t2
  have g3 : Good q t2 := State.eraseSectors_good h
  clear_value t2
  exact good_ite (fun _ => g3) (fun _ => (by split; exacts [good_onNvm g3 (fun h => h), g3]))

theorem State.aheadBegin_good {q} {s} {a1} (h : Good q s) : Good q (State.aheadBegin s a1) := by
  unfold State.aheadBegin
  have g := State.eraseSectors_good (a1 := 3) (a2 := [a1]) h
  generalize s.eraseSectors 3 [a1] = t at g ⊢
  exact good_onNvm g (fun h => h)

theorem State.aheadEnd_good {q} {s} {a1} (h : Good q s) : Good q (State.aheadEnd s a1) := by
  unfold State.aheadEnd
  split
  exacts [good_onNvm h (fun h => h), h]

theorem State.logBlank_good {q} {s} {a1} {a2} (h : Good q s) : Good q (State.logBlank s a1 a2) := by
  unfold State.logBlank
  exact State.when_good h (fun _ => State.eraseSectors_good h)

theorem State.ringPut_good {q} {s} {a1} (h : Good q s) : Good q (State.ringPut s a1) := by
  unfold State.ringPut
  extract_lets +onlyGivenNames t1
  clear_value t1
  extract_lets +onlyGivenNames t2
  have g3 : Good q t2 := State.when_good h (fun _ => State.logBlank_good h)
  clear_value t2
  exact good_onNvm g3 (fun h => h)

theorem State.lfPut_good {q} {s} {a1} (h : Good q s) : Good q (State.lfPut s a1) := by
  unfold State.lfPut
  extract_lets +onlyGivenNames t1
  clear_value t1
  extract_lets +onlyGivenNames t2
  have g3 : Good q t2 := State.when_good h (fun _ => State.logBlank_good h)
  clear_value t2
  exact good_onNvm g3 (fun h => h)

theorem State.ringAhead_good {q} {s} (h : Good q s) : Good q (State.ringAhead s) := by
  unfold State.ringAhead
  exact State.when_good h (fun _ => State.aheadBegin_good h)

theorem State.lfAhead_good {q} {s} (h : Good q s) : Good q (State.lfAhead s) := by
  unfold State.lfAhead
  exact State.when_good h (fun _ => State.aheadBegin_good h)

theorem State.lfUnqueue_good {q} {s} {a1} (h : Good q s) : Good q (State.lfUnqueue s a1) := by
  unfold State.lfUnqueue
  exact good_onFlt h (by (intro hx; simp_all [fltOk]))

theorem State.cfgCut_good {q} {s} {a1} (h : Good q s) : Good q (State.cfgCut s a1) := by
  unfold State.cfgCut
  exact good_ite (fun _ => State.useFree_good (good_onNvm h (fun h => h))) (fun _ => State.useFree_good (State.eraseCut_good h))

theorem State.cutProg_good {q} {s} (h : Good q s) : Good q (State.cutProg s) := by
  unfold State.cutProg
  split
  exacts [(by extract_lets +onlyGivenNames t1; have g2 : Good q t1 := good_onNvm h (by (intro hx; simp_all [qsOk, mbOk, nvmOk, fltOk, sysOk, ccOk, fabOk, phaseOk, cfgOk]; done)); clear_value t1; split; exacts [State.ringPut_good g2, State.lfUnqueue_good (State.lfPut_good g2), State.cfgCut_good g2, State.useFree_good (State.eraseCut_good g2), State.useFree_good (State.eraseCut_good g2)]), h]

theorem State.aheadCut_good {q} {s} (h : Good q s) : Good q (State.aheadCut s) := by
  unfold State.aheadCut
  exact State.when_good h (fun _ => State.useFree_good (State.aheadEnd_good h))

theorem State.nvmCutNow_good {q} {s} (h : Good q s) : Good q (State.nvmCutNow s) := by
  unfold State.nvmCutNow
  exact good_onFlt (good_onNvm (State.aheadCut_good (State.cutProg_good h)) (by (intro hx; simp_all [qsOk, mbOk, nvmOk, fltOk, sysOk, ccOk, fabOk, phaseOk, cfgOk]; done))) (by (intro hx; simp_all [qsOk, mbOk, nvmOk, fltOk, sysOk, ccOk, fabOk, phaseOk, cfgOk]; done))

theorem State.snapsDrop_good {q} {s} (h : Good q s) : Good q (State.snapsDrop s) := by
  unfold State.snapsDrop
  exact good_foldl (fun _ _ g1 => State.drop_good g1) _ (good_onNvm h (fun hx => ⟨Nat.le_trans (List.length_filter_le _ _) hx.1, hx.2.1, hx.2.2.1, hx.2.2.2.1, hx.2.2.2.2.1, hx.2.2.2.2.2.1, fun r hr => hx.2.2.2.2.2.2.1 r (List.mem_of_mem_filter hr), hx.2.2.2.2.2.2.2⟩))

theorem State.logCut_good {q} {s} (h : Good q s) : Good q (State.logCut s) := by
  unfold State.logCut
  split
  exacts [State.when_good h (fun _ => State.snapsDrop_good (State.cutProg_good h)), State.when_good h (fun _ => State.snapsDrop_good (State.aheadCut_good h))]
end Sys2Proof.Machine
end

