-- ==== Sys2Proof/Laws/KeepSeqOps.lean ====
section
/-! SUPPORT. What each operation and each meaning of Machine/SeqOps.lean keeps: the queue of waiting commands and the invariant of
Safety.lean; a meaning also answers a next state. -/
namespace Sys2Proof.Machine

set_option Elab.async false
open Sys2Proof.Safety

theorem State.snapFill_good {q} {s} {a1} {a2} (h : Good q s) : Good q (State.snapFill s a1 a2) := by
  unfold State.snapFill
  exact good_ite (fun _ => h) (fun _ => good_ite (fun _ => (by extract_lets +onlyGivenNames t4; clear_value t4; exact good_onSeq (State.nvmPush_good h (by (simp_all [cfgOk, State.nvmRoom]; done)) (by rfl)))) (fun _ => State.drop_good h))

theorem State.snap_good {q} {s} {a1} {a2} {a3} {a4} {a5} (h : Good q s) : Good q (State.snap s a1 a2 a3 a4 a5) := by
  unfold State.snap
  extract_lets +onlyGivenNames v1
  clear_value v1
  exact good_ite (fun _ => State.snapFill_good h) (fun _ => good_ite (fun _ => good_onSeq h) (fun _ => State.drop_good h))

theorem State.snapTake_good {q} {s} (h : Good q s) : Good q (State.snapTake s) := by
  unfold State.snapTake
  exact good_onSeq (good_foldl (fun _ _ g1 => State.snapFill_good g1) _ h)

theorem State.stepEvent_good {q} {s} {a1} {a2} (h : Good q s) : Good q (State.stepEvent s a1 a2) := by
  unfold State.stepEvent
  exact State.raise_good h

theorem State.pfwAssert_good {q} {s} {a1} {a2} (h : Good q s) : Good q (State.pfwAssert s a1 a2) := by
  unfold State.pfwAssert
  exact good_ite (fun _ => h) (fun _ => State.snap_good (State.raise_good (good_onSeq h)))

theorem State.tableBack_good {q} {s} (h : Good q s) : Good q (State.tableBack s) := by
  unfold State.tableBack
  exact good_foldl (fun _ _ g1 => (by extract_lets +onlyGivenNames v2; clear_value v2; exact State.setReg_good (State.setReg_good (State.setReg_good (State.setReg_good g1))))) _ h

theorem State.tableApply_good {q} {s} (h : Good q s) : Good q (State.tableApply s) := by
  unfold State.tableApply
  exact good_ite (fun _ => good_onSeq h) (fun _ => good_onSeq (State.tableBack_good h))

theorem State.tableTake_good {q} {s} (h : Good q s) : Good q (State.tableTake s) := by
  unfold State.tableTake
  exact good_ite (fun _ => State.updShow_good (State.tableApply_good h)) (fun _ => h)

theorem State.upDone_good {q} {s} (h : Good q s) : Good q (State.upDone s) := by
  unfold State.upDone
  extract_lets +onlyGivenNames t1
  have g2 : Good q t1 := good_onSeq h
  clear_value t1
  exact State.tableTake_good (State.finishL_good (State.snap_good (State.raise_good g2)))

theorem State.nrstJudge_good {q} {s} {a1} (h : Good q s) : Good q (State.nrstJudge s a1) := by
  unfold State.nrstJudge
  exact good_onSeq h

theorem walkUp_good {q n} : ∀ {s}, Good q s → Good q (walkUp n s) := by
  induction n with
  | zero => intro s h; unfold walkUp; exact State.upDone_good h
  | succ n ih => intro s h; unfold walkUp; split; exact ih h; exact good_onSeq h

theorem State.beginUp_good {q} {s} {a1} {a2} (h : Good q s) : Good q (State.beginUp s a1 a2) := by
  unfold State.beginUp
  extract_lets +onlyGivenNames t1
  have g2 : Good q t1 := good_onSeq h
  clear_value t1
  extract_lets +onlyGivenNames t3
  have g4 : Good q t3 := good_onPp g2
  clear_value t3
  exact walkUp_good (State.snap_good (State.raise_good g4))

theorem State.heldUp_good {q} {s} {a1} (h : Good q s) : Good q (State.heldUp s a1) := by
  unfold State.heldUp
  exact good_ite (fun _ => State.when_good (State.finishL_good (good_onSeq h)) (fun _ => State.raise_good (State.finishL_good (good_onSeq h)))) (fun _ => State.beginUp_good h)

theorem State.stopped_good {q} {s} (h : Good q s) : Good q (State.stopped s) := by
  unfold State.stopped
  extract_lets +onlyGivenNames t1
  have g2 : Good q t1 := State.tableTake_good (good_onSeq h)
  clear_value t1
  split
  exacts [State.heldUp_good g2, g2]

theorem State.downDone_good {q} {s} (h : Good q s) : Good q (State.downDone s) := by
  unfold State.downDone
  extract_lets +onlyGivenNames t1
  have g2 : Good q t1 := good_onSeq h
  clear_value t1
  extract_lets +onlyGivenNames t3
  have g4 : Good q t3 := State.snap_good (State.raise_good g2)
  clear_value t3
  extract_lets +onlyGivenNames t5
  have g6 : Good q t5 := good_onSys (State.tableTake_good (State.finishL_good g4)) (fun h => h)
  clear_value t5
  split
  exacts [State.heldUp_good g6, g6]

theorem State.railOff_good {q} {s} {a1} (h : Good q s) : Good q (State.railOff s a1) := by
  unfold State.railOff
  exact good_onSeq h

theorem walkDown_good {q n} : ∀ {s}, Good q s → Good q (walkDown n s) := by
  induction n with
  | zero => intro s h; unfold walkDown; exact State.downDone_good h
  | succ n ih =>
    intro s h; unfold walkDown
    split
    · exact ih h
    · split
      · exact good_onSeq (State.railOff_good h)
      · split
        · exact good_onSeq h
        · exact ih h

theorem State.startDown_good {q} {s} {a1} (h : Good q s) : Good q (State.startDown s a1) := by
  unfold State.startDown
  extract_lets +onlyGivenNames t1
  have g2 : Good q t1 := good_onSeq h
  clear_value t1
  extract_lets +onlyGivenNames t3
  have g4 : Good q t3 := State.when_good g2 (fun _ => State.finishL_good g2)
  clear_value t3
  extract_lets +onlyGivenNames t6
  have g7 : Good q t6 := State.snap_good (State.raise_good g4)
  clear_value t6
  exact walkDown_good g7

theorem State.downStep_good {q} {s} (h : Good q s) : Good q (State.downStep s) := by
  unfold State.downStep
  extract_lets +onlyGivenNames t1
  clear_value t1
  extract_lets +onlyGivenNames t2
  have g3 : Good q t2 := State.snap_good (State.stepEvent_good (good_onSeq h))
  clear_value t2
  exact good_ite (fun _ => State.stopped_good g3) (fun _ => walkDown_good g3)

theorem State.upNext_good {q} {s} (h : Good q s) : Good q (State.upNext s) := by
  unfold State.upNext
  split
  exacts [good_ite (fun _ => State.finishL_good (good_onSeq h)) (fun _ => State.startDown_good (good_onSeq h)), good_ite (fun _ => State.stopped_good (good_onSeq h)) (fun _ => walkUp_good h)]

theorem State.upStep_good {q} {s} (h : Good q s) : Good q (State.upStep s) := by
  unfold State.upStep
  extract_lets +onlyGivenNames v1
  clear_value v1
  split
  exacts [State.upNext_good h, (by extract_lets +onlyGivenNames t2; have g3 : Good q t2 := good_onSeq h; clear_value t2; exact State.upNext_good (State.snap_good (State.stepEvent_good g3)))]

theorem State.downCause_good {q} {s} {a1} {a2} (h : Good q s) : Good q (State.downCause s a1 a2) := by
  unfold State.downCause
  extract_lets +onlyGivenNames t1
  clear_value t1
  exact good_ite (fun _ => h) (fun _ => (by split; exacts [State.pfwAssert_good h, State.pfwAssert_good h, good_ite (fun _ => State.pfwAssert_good h) (fun _ => (by extract_lets +onlyGivenNames t6; have g7 : Good q t6 := good_ite (fun _ => h) (fun _ => good_onSeq h); clear_value t6; exact State.pfwAssert_good g7)), good_ite (fun _ => State.pfwAssert_good h) (fun _ => State.pfwAssert_good (good_onSeq h)), good_ite (fun _ => State.pfwAssert_good h) (fun _ => State.pfwAssert_good (good_onSeq h)), good_ite (fun _ => State.pfwAssert_good h) (fun _ => State.pfwAssert_good (good_onSeq h))]))

theorem State.downRequest_good {q} {s} {a1} (h : Good q s) : Good q (State.downRequest s a1) := by
  unfold State.downRequest
  split
  exacts [h, h, good_onSeq h, State.startDown_good (good_onSeq h), State.startDown_good (good_onSeq h), State.startDown_good (good_onSeq h)]

theorem State.upRequest_good {q} {s} {a1} {a2} (h : Good q s) : Good q (State.upRequest s a1 a2) := by
  unfold State.upRequest
  split
  exacts [h, State.when_good (good_onSeq h) (fun _ => State.raise_good (good_onSeq h)), good_onSeq h, good_onSeq h, State.beginUp_good h]

theorem State.seqStop_good {q} {s} (h : Good q s) : Good q (State.seqStop s) := by
  unfold State.seqStop
  split
  exacts [good_onSeq h, good_onSeq h, State.stopped_good (good_onSeq h), h, h, h]

theorem State.seqDisable_good {q} {s} (h : Good q s) : Good q (State.seqDisable s) := by
  unfold State.seqDisable
  extract_lets +onlyGivenNames t1
  have g2 : Good q t1 := good_onSeq h
  clear_value t1
  exact State.seqStop_good (State.finishL_good (State.finishL_good g2))

theorem State.seqIsolate_good {q} {s} (h : Good q s) : Good q (State.seqIsolate s) := by
  unfold State.seqIsolate
  exact good_onSeq h

theorem State.seqLost_good {q} {s} (h : Good q s) : Good q (State.seqLost s) := by
  unfold State.seqLost
  exact good_onFlt (good_onSeq h) (fun h => h)

theorem State.nrstoPulse_good {q} {s} {a1} (h : Good q s) : Good q (State.nrstoPulse s a1) := by
  unfold State.nrstoPulse
  exact good_ite (fun _ => h) (fun _ => State.raise_good (good_onSeq h))
end Sys2Proof.Machine
end

