-- ==== Sys2Proof/Laws/KeepPowerOps.lean ====
section
/-! SUPPORT. What each operation and each meaning of Machine/PowerOps.lean keeps: the queue of waiting commands and the invariant of
Safety.lean; a meaning also answers a next state. -/
namespace Sys2Proof.Machine

set_option Elab.async false
open Sys2Proof.Safety

theorem State.setPresent_good {q} {s} {a1} {a2} (h : Good q s) : Good q (State.setPresent s a1 a2) := by
  unfold State.setPresent
  split
  exacts [good_onPp h, good_onPp h, good_onPp h]

theorem State.setLearn_good {q} {s} {a1} {a2} (h : Good q s) : Good q (State.setLearn s a1 a2) := by
  unfold State.setLearn
  split
  exacts [good_onPp h, good_onPp h, h]

theorem State.limpFollow_good {q} {s} (h : Good q s) : Good q (State.limpFollow s) := by
  unfold State.limpFollow
  split
  exacts [State.when_good h (fun _ => good_onSys h (fun h => h)), h]

theorem State.switchOff_good {q} {s} (h : Good q s) : Good q (State.switchOff s) := by
  unfold State.switchOff
  exact good_onPp h

theorem State.vbatHold_good {q} {s} (h : Good q s) : Good q (State.vbatHold s) := by
  unfold State.vbatHold
  exact State.when_good h (fun _ => good_onPp h)

theorem State.switchClose_good {q} {s} (h : Good q s) : Good q (State.switchClose s) := by
  unfold State.switchClose
  exact good_ite (fun _ => h) (fun _ => good_ite (fun _ => good_onPp (State.vbatHold_good h)) (fun _ => good_onPp h))

theorem State.switchFull_good {q} {s} (h : Good q s) : Good q (State.switchFull s) := by
  unfold State.switchFull
  exact good_ite (fun _ => good_onPp (State.vbatHold_good h)) (fun _ => good_onPp (State.vbatHold_good h))

theorem State.batHw_good {q} {s} (h : Good q s) : Good q (State.batHw s) := by
  unfold State.batHw
  exact good_ite (fun _ => (by extract_lets +onlyGivenNames t2; clear_value t2; extract_lets +onlyGivenNames t3; have g4 : Good q t3 := good_onPp h; clear_value t3; exact good_ite (fun _ => State.switchClose_good g4) (fun _ => State.switchOff_good g4))) (fun _ => h)

theorem State.pathEvent_good {q} {s} {a1} (h : Good q s) : Good q (State.pathEvent s a1) := by
  unfold State.pathEvent
  exact State.raise_good (good_onPp h)

theorem State.pathNote_good {q} {a0} {s} (h : Good q s) : Good q (State.pathNote a0 s) := by
  unfold State.pathNote
  extract_lets +onlyGivenNames t1
  have g2 : Good q t1 := good_onPp h
  clear_value t1
  split
  exacts [good_ite (fun _ => State.pathEvent_good g2) (fun _ => g2), good_ite (fun _ => g2) (fun _ => good_ite (fun _ => State.pathEvent_good g2) (fun _ => good_onPp g2))]

theorem settle_good {q} {a0} {s} (h : Good q s) (hs0 : Good q a0) : GoodO q (settle a0 s) := by
  unfold settle
  exact goodO_next (State.pathNote_good h)
end Sys2Proof.Machine
end

