-- ==== Sys2Proof/Laws/KeepTcOps.lean ====
section
/-! SUPPORT. What each operation and each meaning of Machine/TcOps.lean keeps: the queue of waiting commands and the invariant of
Safety.lean; a meaning also answers a next state. -/
namespace Sys2Proof.Machine

set_option Elab.async false
open Sys2Proof.Safety

theorem State.tx_good {q} {s} {a1} {a2} (h : Good q s) : Good q (State.tx s a1 a2) := by
  unfold State.tx
  exact State.onTc_good h

theorem State.txClear_good {q} {s} {a1} (h : Good q s) : Good q (State.txClear s a1) := by
  unfold State.txClear
  exact State.onTc_good h

theorem State.tcEvent_good {q} {s} {a1} {a2} {a3} (h : Good q s) : Good q (State.tcEvent s a1 a2 a3) := by
  unfold State.tcEvent
  exact State.raise_good h

theorem State.swapEvent_good {q} {s} {a1} {a2} {a3} (h : Good q s) : Good q (State.swapEvent s a1 a2 a3) := by
  unfold State.swapEvent
  exact State.tcEvent_good h

theorem State.authEvent_good {q} {s} {a1} {a2} (h : Good q s) : Good q (State.authEvent s a1 a2) := by
  unfold State.authEvent
  exact State.tcEvent_good h

theorem State.sendReq_good {q} {s} {a1} {a2} (h : Good q s) : Good q (State.sendReq s a1 a2) := by
  unfold State.sendReq
  exact State.tx_good (State.onTc_good h)

theorem State.negotiate_good {q} {s} {a1} {a2} (h : Good q s) : Good q (State.negotiate s a1 a2) := by
  unfold State.negotiate
  split
  exacts [h, (by extract_lets +onlyGivenNames v1; clear_value v1; exact good_ite (fun _ => h) (fun _ => (by extract_lets +onlyGivenNames t2; have g3 : Good q t2 := State.sendReq_good (State.onTc_good h); clear_value t2; exact State.when_good g3 (fun _ => State.useFree_good (State.tcEvent_good g3)))))]

theorem State.reEvalNow_good {q} {s} {a1} (h : Good q s) : Good q (State.reEvalNow s a1) := by
  unfold State.reEvalNow
  exact State.when_good h (fun _ => State.when_good (State.onTc_good h) (fun _ => State.when_good (State.onTc_good h) (fun _ => State.negotiate_good (State.onTc_good h))))

theorem State.fallBack_good {q} {s} {a1} (h : Good q s) : Good q (State.fallBack s a1) := by
  unfold State.fallBack
  split
  exacts [h, (by split; exacts [State.tcEvent_good (State.sendReq_good (State.onTc_good h)), State.reEvalNow_good (State.onTc_good h)])]

theorem State.startPath_good {q} {s} {a1} {a2} (h : Good q s) : Good q (State.startPath s a1 a2) := by
  unfold State.startPath
  extract_lets +onlyGivenNames v1
  clear_value v1
  exact good_onCc (State.formPath_good h) (by (intro hx; simpa [ccOk] using hx))

theorem State.startSource_good {q} {s} {a1} (h : Good q s) : Good q (State.startSource s a1) := by
  unfold State.startSource
  exact State.onTc_good (State.startPath_good h)

theorem State.sendCaps_good {q} {s} {a1} (h : Good q s) : Good q (State.sendCaps s a1) := by
  unfold State.sendCaps
  exact good_ite (fun _ => h) (fun _ => (by extract_lets +onlyGivenNames v1; clear_value v1; extract_lets +onlyGivenNames t2; have g3 : Good q t2 := State.tx_good (State.onTc_good h); clear_value t2; exact State.when_good g3 (fun _ => State.tx_good (State.onTc_good g3))))

theorem State.capsChange_good {q} {s} {a1} (h : Good q s) : Good q (State.capsChange s a1) := by
  unfold State.capsChange
  exact State.when_good h (fun _ => State.sendCaps_good h)

theorem State.discoverCable_good {q} {s} {a1} (h : Good q s) : Good q (State.discoverCable s a1) := by
  unfold State.discoverCable
  exact State.tx_good (State.onTc_good h)

theorem State.vconnOn_good {q} {s} {a1} (h : Good q s) : Good q (State.vconnOn s a1) := by
  unfold State.vconnOn
  exact State.onTc_good h

theorem State.frsDisarm_good {q} {s} {a1} {a2} (h : Good q s) : Good q (State.frsDisarm s a1 a2) := by
  unfold State.frsDisarm
  exact good_ite (fun _ => State.tcEvent_good (State.onTc_good h)) (fun _ => h)

theorem State.frsEval_good {q} {s} {a1} (h : Good q s) : Good q (State.frsEval s a1) := by
  unfold State.frsEval
  extract_lets +onlyGivenNames v1
  clear_value v1
  exact good_ite (fun _ => good_ite (fun _ => h) (fun _ => State.tcEvent_good (good_onFab (State.onTc_good h) (fun h => h)))) (fun _ => State.frsDisarm_good h)

theorem State.authDetach_good {q} {s} {a1} (h : Good q s) : Good q (State.authDetach s a1) := by
  unfold State.authDetach
  extract_lets +onlyGivenNames t1
  clear_value t1
  exact State.onTc_good (State.when_good (State.finishO_good h) (fun _ => State.authEvent_good (State.finishO_good h)))

theorem State.swapDetach_good {q} {s} {a1} (h : Good q s) : Good q (State.swapDetach s a1) := by
  unfold State.swapDetach
  extract_lets +onlyGivenNames t1
  clear_value t1
  extract_lets +onlyGivenNames t2
  have g3 : Good q t2 := State.when_good h (fun _ => State.swapEvent_good h)
  clear_value t2
  exact State.onTc_good (State.finishO_good (State.finishO_good g3))

theorem State.srcRemove_good {q} {s} {a1} (h : Good q s) : Good q (State.srcRemove s a1) := by
  unfold State.srcRemove
  exact good_ite (fun _ => h) (fun _ => State.onTc_good (State.vbusRest_good (State.endPath_good (State.authDetach_good (State.swapDetach_good h)))))

theorem State.srcMustEnd_good {q} {s} {a1} (h : Good q s) : Good q (State.srcMustEnd s a1) := by
  unfold State.srcMustEnd
  extract_lets +onlyGivenNames t1
  clear_value t1
  exact good_ite (fun _ => h) (fun _ => (by split; exacts [good_ite (fun _ => State.tx_good (State.onTc_good h)) (fun _ => State.srcRemove_good h), State.onTc_good h, h, h, State.srcRemove_good h, State.srcRemove_good h]))

theorem State.noSource_good {q} {s} {a1} (h : Good q s) (hs1 : Good q a1) : Good q (State.noSource s a1) := by
  unfold State.noSource
  exact State.when_good hs1 (fun _ => State.downCause_good (good_onPp hs1))

theorem State.sinkEnded_good {q} {s} {a1} {a2} (h : Good q s) (hs2 : Good q a2) : Good q (State.sinkEnded s a1 a2) := by
  unfold State.sinkEnded
  exact State.noSource_good h (good_ite (fun _ => hs2) (fun _ => (by split; exacts [State.startPath_good hs2, good_ite (fun _ => State.when_good hs2 (fun _ => good_onPp hs2)) (fun _ => State.srcRemove_good (State.srcRemove_good hs2))])))

theorem State.authStart_good {q} {s} {a1} (h : Good q s) : Good q (State.authStart s a1) := by
  unfold State.authStart
  exact State.tx_good (State.onTc_good h)

theorem State.authMaybe_good {q} {s} {a1} (h : Good q s) : Good q (State.authMaybe s a1) := by
  unfold State.authMaybe
  extract_lets +onlyGivenNames v1
  clear_value v1
  exact State.when_good h (fun _ => State.authStart_good h)

theorem State.eprEnd_good {q} {s} {a1} {a2} (h : Good q s) : Good q (State.eprEnd s a1 a2) := by
  unfold State.eprEnd
  exact good_ite (fun _ => State.tcEvent_good (State.onTc_good h)) (fun _ => State.onTc_good h)

theorem State.eprLeave_good {q} {s} {a1} (h : Good q s) : Good q (State.eprLeave s a1) := by
  unfold State.eprLeave
  exact State.when_good h (fun _ => State.eprEnd_good (State.tx_good h))

theorem State.dormNext_good {q} {s} (h : Good q s) : Good q (State.dormNext s) := by
  unfold State.dormNext
  exact good_ite (fun _ => good_ite (fun _ => State.downRequest_good (good_onSys h (fun h => h))) (fun _ => good_onSys h (fun h => h))) (fun _ => h)

theorem State.tcPrep_good {q} {s} {a1} (h : Good q s) : Good q (State.tcPrep s a1) := by
  unfold State.tcPrep
  extract_lets +onlyGivenNames t1
  clear_value t1
  extract_lets +onlyGivenNames t2
  clear_value t2
  extract_lets +onlyGivenNames t3
  have g4 : Good q t3 := State.eprLeave_good h
  clear_value t3
  exact good_ite (fun _ => g4) (fun _ => (by split; exacts [State.onTc_good (State.sendReq_good g4), g4]))

theorem State.eprTry_good {q} {s} {a1} (h : Good q s) : Good q (State.eprTry s a1) := by
  unfold State.eprTry
  extract_lets +onlyGivenNames v1
  clear_value v1
  exact good_ite (fun _ => State.tx_good (State.onTc_good h)) (fun _ => h)

theorem State.swapAbandon_good {q} {s} {a1} (h : Good q s) : Good q (State.swapAbandon s a1) := by
  unfold State.swapAbandon
  extract_lets +onlyGivenNames t1
  clear_value t1
  extract_lets +onlyGivenNames t2
  have g3 : Good q t2 := State.when_good (State.when_good (State.when_good h (fun _ => State.swapEvent_good h)) (fun _ => State.swapEvent_good (State.when_good h (fun _ => State.swapEvent_good h)))) (fun _ => State.swapEvent_good (State.when_good (State.when_good h (fun _ => State.swapEvent_good h)) (fun _ => State.swapEvent_good (State.when_good h (fun _ => State.swapEvent_good h)))))
  clear_value t2
  extract_lets +onlyGivenNames t11
  have g12 : Good q t11 := State.finishO_good (State.finishO_good g3)
  clear_value t11
  exact State.onTc_good g12

theorem State.hardReset_good {q} {s} {a1} {a2} {a3} (h : Good q s) : Good q (State.hardReset s a1 a2 a3) := by
  unfold State.hardReset
  extract_lets +onlyGivenNames t1
  clear_value t1
  extract_lets +onlyGivenNames t2
  clear_value t2
  extract_lets +onlyGivenNames t3
  have g4 : Good q t3 := State.tcEvent_good (State.when_good h (fun _ => State.onTc_good (State.tx_good h)))
  clear_value t3
  extract_lets +onlyGivenNames t6
  have g7 : Good q t6 := State.eprEnd_good (State.frsDisarm_good (State.swapAbandon_good g4))
  clear_value t6
  extract_lets +onlyGivenNames t8
  have g9 : Good q t8 := State.setLearn_good (State.vbusRest_good (State.endPath_good g7))
  clear_value t8
  extract_lets +onlyGivenNames t10
  have g11 : Good q t10 := State.when_good g9 (fun _ => State.finishO_good (State.authEvent_good g9))
  clear_value t10
  extract_lets +onlyGivenNames t13
  have g14 : Good q t13 := State.onTc_good g11
  clear_value t13
  exact State.dormNext_good (State.sinkEnded_good h (State.setPresent_good g14))

theorem State.attachEvent_good {q} {s} {a1} {a2} (h : Good q s) : Good q (State.attachEvent s a1 a2) := by
  unfold State.attachEvent
  extract_lets +onlyGivenNames v1
  clear_value v1
  exact State.tcEvent_good h

theorem State.detach_good {q} {s} {a1} {a2} (h : Good q s) (hs1 : Good q a1) : Good q (State.detach s a1 a2) := by
  unfold State.detach
  extract_lets +onlyGivenNames t1
  clear_value t1
  extract_lets +onlyGivenNames t2
  have g3 : Good q t2 := State.attachEvent_good hs1
  clear_value t2
  extract_lets +onlyGivenNames t4
  have g5 : Good q t4 := State.withdrawBoxes_good (State.authDetach_good (State.swapDetach_good g3))
  clear_value t4
  extract_lets +onlyGivenNames t6
  have g7 : Good q t6 := State.eprEnd_good (State.frsDisarm_good g5)
  clear_value t6
  extract_lets +onlyGivenNames t8
  have g9 : Good q t8 := State.setPresent_good (State.setLearn_good (State.vbusRest_good (State.endPath_good g7)))
  clear_value t8
  extract_lets +onlyGivenNames t10
  have g11 : Good q t10 := State.onTc_good g9
  clear_value t10
  exact State.dormNext_good (State.sinkEnded_good h g11)

theorem State.tcReeval_good {q} {s} {a1} (h : Good q s) : Good q (State.tcReeval s a1) := by
  unfold State.tcReeval
  extract_lets +onlyGivenNames t1
  clear_value t1
  exact good_ite (fun _ => (by extract_lets +onlyGivenNames t3; have g4 : Good q t3 := State.when_good h (fun _ => State.eprEnd_good (State.tx_good h)); clear_value t3; extract_lets +onlyGivenNames t6; clear_value t6; extract_lets +onlyGivenNames t7; have g8 : Good q t7 := good_ite (fun _ => State.onTc_good g4) (fun _ => State.when_good g4 (fun _ => State.negotiate_good g4)); clear_value t7; exact State.eprTry_good g8)) (fun _ => good_ite (fun _ => good_ite (fun _ => State.srcMustEnd_good h) (fun _ => State.capsChange_good h)) (fun _ => h))
end Sys2Proof.Machine
end

