-- ==== Sys2Proof/Laws/KeepModeOps.lean ====
section
/-! SUPPORT. What each operation and each meaning of Machine/ModeOps.lean keeps: the queue of waiting commands and the invariant of
Safety.lean; a meaning also answers a next state. -/
namespace Sys2Proof.Machine

set_option Elab.async false
open Sys2Proof.Safety

theorem State.romStart_good {q} {s} (h : Good q s) : Good q (State.romStart s) := by
  unfold State.romStart
  exact good_ite (fun _ => h) (fun _ => good_onSys (good_onClk h) (by (intro hx; (try dsimp only); (repeat' split); all_goals exact hx)))

theorem State.applyCfg_good {q s c} (h : Good q s) (hc : cfgOk c) : Good q (s.applyCfg c) := by
  have h1 : Good q (s.onBus fun b => { b with
      page := c.page, cfgAddr := c.hostAddr, attnAddr := c.attnAddr, attnCfg := c.attn
      hp := { b.hp with filt := c.hpFilt, filtUse := c.hpFilt }, sp := { b.sp with filt := c.spFilt, filtUse := c.spFilt } }) :=
    good_onBus h fun _ => hc
  unfold State.applyCfg
  extract_lets +onlyGivenNames t1
  have g2 : Good q t1 := h1
  clear_value t1
  extract_lets +onlyGivenNames t3
  have g4 : Good q t3 := good_onGrd g2
  clear_value t3
  extract_lets +onlyGivenNames t5
  have g6 : Good q t5 := good_onFab g4 (by (intro hx; exact ⟨hx.1, by simpa using hx.2.1, hx.2.2⟩))
  clear_value t5
  extract_lets +onlyGivenNames t7
  have g8 : Good q t7 := good_onSys g6 (fun h => h)
  clear_value t7
  extract_lets +onlyGivenNames t9
  have g10 : Good q t9 := good_onChg g8
  clear_value t9
  extract_lets +onlyGivenNames t11
  have g12 : Good q t11 := good_onCc (good_onSw g10) (fun h => h)
  clear_value t11
  extract_lets +onlyGivenNames t13
  have g14 : Good q t13 := good_onStk (good_onNvm g12 (fun h => h))
  clear_value t13
  extract_lets +onlyGivenNames t15
  have g16 : Good q t15 := State.when_good g14 (fun _ => good_onSeq g14)
  clear_value t15
  extract_lets +onlyGivenNames t17
  have g18 : Good q t17 := good_ite (fun _ => State.tableApply_good g16) (fun _ => good_onSeq g16)
  clear_value t17
  extract_lets +onlyGivenNames t19
  have g20 : Good q t19 := State.when_good g18 (fun _ => good_onSeq g18)
  clear_value t19
  exact State.when_good g20 (fun _ => State.seqDisable_good g20)

theorem bankNow_ok {q s k b} (h : Good q s) (hb : s.bankNow = some (k, b)) : cfgOk b.cfg := by
  have hn := h.2.2.2.2.2.1.2.2.2.2.2.1
  have key : ∀ i b', (s.nvm.cfg.getD i none).filter Bank.ok = some b' → cfgOk b'.cfg := by
    intro i b' hi
    refine hn b' ?_
    rw [List.getD_eq_getElem?_getD] at hi
    rcases hg : s.nvm.cfg[i]? with _ | y
    · simp [hg] at hi
    · have : y = some b' := by
        cases y <;> simp_all
      exact this ▸ List.mem_of_getElem? hg
  unfold State.bankNow at hb
  split at hb
  · split at hb <;> cases hb
    · exact key _ _ ‹_›
    · exact key _ _ ‹_›
  · cases hb; exact key _ _ ‹_›
  · cases hb; exact key _ _ ‹_›
  · cases hb

theorem cfgNow_ok {q} {s : State} (h : Good q s) : cfgOk s.cfgNow := h.2.2.2.2.2.2.2.2

theorem State.limpTo_good {q} {s} {a1} (h : Good q s) : Good q (State.limpTo s a1) := by
  unfold State.limpTo
  extract_lets +onlyGivenNames t1
  have g2 : Good q t1 := State.when_good h (fun _ => State.bringUp_good h)
  clear_value t1
  extract_lets +onlyGivenNames t4
  clear_value t4
  extract_lets +onlyGivenNames t5
  have g6 : Good q t5 := good_onFab g2 (by (intro hx; refine ⟨by simpa using hx.1, by simpa using hx.2.1, ?_⟩; intro x hm; obtain ⟨i, hi, rfl⟩ := List.mem_mapIdx.1 hm; have := hx.2.2 _ (List.getElem_mem hi); (try dsimp only); (repeat' split); all_goals (first | exact this | exact phaseOk_freed this | exact ⟨fun h => by simp at h, Nat.zero_le _⟩)))
  clear_value t5
  extract_lets +onlyGivenNames t7
  have g8 : Good q t7 := good_onSys g6 (fun h => h)
  clear_value t7
  split
  exacts [State.setVbus_good g8, g8]

theorem State.limpOn_good {q} {s} (h : Good q s) : Good q (State.limpOn s) := by
  unfold State.limpOn
  exact State.limpTo_good h

theorem State.quietStart_good {q} {s} (h : Good q s) : Good q (State.quietStart s) := by
  unfold State.quietStart
  exact good_onFlt h (fun h => h)

theorem State.memberUnfence_good {q} {s} {a1} (h : Good q s) (hs1 : Good q a1) : Good q (State.memberUnfence s a1) := by
  unfold State.memberUnfence
  exact State.when_good h (fun _ => good_foldl (fun _ _ x4 => State.raise_good x4) _ (State.useFree_good h))

theorem State.resetUnfence_good {q} {s} {a1} (h : Good q s) (hs1 : Good q a1) : Good q (State.resetUnfence s a1) := by
  unfold State.resetUnfence
  extract_lets +onlyGivenNames t1
  have g2 : Good q t1 := good_foldl (fun _ _ x5 => State.raise_good x5) _ h
  clear_value t1
  exact State.memberUnfence_good (good_foldl (fun _ _ x8 => State.raise_good x8) _ g2) hs1

theorem State.cpuLost_good {q} {s} (h : Good q s) : Good q (State.cpuLost s) := by
  unfold State.cpuLost
  extract_lets +onlyGivenNames t1
  have g2 : Good q t1 := good_onFab h (by
    intro hx
    refine ⟨by simpa using hx.1, by simpa using hx.2.1, ?_⟩
    intro x hm
    obtain ⟨y, hy, rfl⟩ := List.mem_map.1 hm
    exact hx.2.2 y hy)
  clear_value t1
  extract_lets +onlyGivenNames t3
  have g4 : Good q t3 := good_onChg (good_onCc g2 (by (intro hx; simpa [ccOk] using hx)))
  clear_value t3
  extract_lets +onlyGivenNames t5
  have g6 : Good q t5 := good_onSw (good_onMs g4)
  clear_value t5
  extract_lets +onlyGivenNames t7
  have g8 : Good q t7 := good_onWd g6
  clear_value t7
  extract_lets +onlyGivenNames t9
  have g10 : Good q t9 := good_onPp g8
  clear_value t9
  exact good_onFlt (good_onBus g10 (fun hx => filter_ordered _ hx)) (fun h => h)

theorem State.hostLost_good {q} {s} (h : Good q s) : Good q (State.hostLost s) := by
  unfold State.hostLost
  exact good_onBus h (by (intro hx; simpa [ccOk] using hx))

theorem State.moduleReset_good {q} {s} {a1} (h : Good q s) : Good q (State.moduleReset s a1) := by
  unfold State.moduleReset
  exact good_ite (fun _ => h) (fun _ => (by extract_lets +onlyGivenNames t3; have g4 : Good q t3 := State.nvmCutNow_good (State.when_good h (fun _ => State.quietStart_good h)); clear_value t3; extract_lets +onlyGivenNames t6; have g7 : Good q t6 := good_onChg (State.hostLost_good (State.cpuLost_good g4)); clear_value t6; extract_lets +onlyGivenNames t8; have g9 : Good q t8 := good_onFlt (State.onPhases_good g7 (by (intro x hx; split <;> simp_all [phaseOk, freed, fencedPh]; done))) (fun h => h); clear_value t8; extract_lets +onlyGivenNames t10; have g11 : Good q t10 := good_onTcb (good_onTca g9); clear_value t10; extract_lets +onlyGivenNames t12; have g13 : Good q t12 := good_onPp g11; clear_value t12; extract_lets +onlyGivenNames t14; have g15 : Good q t14 := good_onMb (good_onGrd g13) (by (intro hx; simp_all [qsOk, mbOk, nvmOk, fltOk, sysOk, ccOk, fabOk, phaseOk, cfgOk]; done)); clear_value t14; extract_lets +onlyGivenNames t16; have g17 : Good q t16 := good_onQs g15 (by (intro hx; simp_all [qsOk, mbOk, nvmOk, fltOk, sysOk, ccOk, fabOk, phaseOk, cfgOk]; done)); clear_value t16; extract_lets +onlyGivenNames t18; have g19 : Good q t18 := good_onStk g17; clear_value t18; extract_lets +onlyGivenNames t20; have g21 : Good q t20 := good_onSeq g19; clear_value t20; extract_lets +onlyGivenNames t22; have g23 : Good q t22 := good_onNvm g21 (by (intro hx; simp_all [qsOk, mbOk, nvmOk, fltOk, sysOk, ccOk, fabOk, phaseOk, cfgOk]; done)); clear_value t22; extract_lets +onlyGivenNames t24; have g25 : Good q t24 := good_onSys g23 (fun h => h); clear_value t24; extract_lets +onlyGivenNames t26; have g27 : Good q t26 := good_onWd g25; clear_value t26; extract_lets +onlyGivenNames t28; have g29 : Good q t28 := State.resetUnfence_good (State.when_good g27 (fun _ => State.raise_good g27)) h; clear_value t28; extract_lets +onlyGivenNames t31; have g32 : Good q t31 := State.when_good g29 (fun _ => State.nrstoPulse_good g29); clear_value t31; exact State.romStart_good (State.limpOn_good (State.batHw_good g32))))

theorem State.aonOn_good {q s a b} (h : Good q s) : Good q (s.aonOn a b) := by
  refine ⟨h.1, ?_, ?_, ?_, ?_, ?_, ?_, ?_, rfl⟩
  · exact ⟨rfl, rfl, by intro x hx; simp [State.aonOn] at hx; rw [hx]; simp [phaseOk]⟩
  · rfl
  · refine ⟨by simp [State.aonOn], by simp [State.aonOn], by simp [State.aonOn], ?_, ?_, rfl, ?_⟩ <;> (intro x hx; simp [State.aonOn] at hx; rw [hx]; simp)
  · exact ⟨rfl, rfl, rfl⟩
  · obtain ⟨h1, h2, h3, h4, h5, h6, h7, h8⟩ := h.2.2.2.2.2.1
    exact ⟨by simp [State.aonOn], h2, h3, h4, rfl, h6, by simp [State.aonOn], by simp [State.aonOn]⟩
  · exact ⟨by simp [State.aonOn], by simp [State.aonOn]⟩
  · intro v hv; simp [State.aonOn] at hv

theorem State.shipCancel_good {q} {s} (h : Good q s) : Good q (State.shipCancel s) := by
  unfold State.shipCancel
  exact good_ite (fun _ => State.raise_good (good_onSys h (fun h => h))) (fun _ => h)

theorem State.dark_good {q} {s} {a1} {a2} (h : Good q s) : Good q (State.dark s a1 a2) := by
  unfold State.dark
  extract_lets +onlyGivenNames t1
  have g2 : Good q t1 := State.aonOn_good (State.nvmCutNow_good h)
  clear_value t1
  exact good_onWd (good_onClk (good_onSys g2 (fun h => h)))

theorem State.shipCheck_good {q} {s} (h : Good q s) : Good q (State.shipCheck s) := by
  unfold State.shipCheck
  exact State.when_good h (fun _ => State.dark_good h)

theorem State.dormRails_good {q} {s} {a1} (h : Good q s) : Good q (State.dormRails s a1) := by
  unfold State.dormRails
  exact State.when_good h (fun _ => State.upRequest_good (good_onSeq h))

theorem State.dormCancel_good {q} {s} {a1} (h : Good q s) : Good q (State.dormCancel s a1) := by
  unfold State.dormCancel
  exact good_ite (fun _ => h) (fun _ => (by extract_lets +onlyGivenNames t1; have g2 : Good q t1 := State.finishO_good h; clear_value t1; extract_lets +onlyGivenNames t3; have g4 : Good q t3 := good_onSys g2 (fun h => h); clear_value t3; extract_lets +onlyGivenNames t5; have g6 : Good q t5 := good_onTcb (good_onTca g4); clear_value t5; extract_lets +onlyGivenNames t7; have g8 : Good q t7 := State.when_good g6 (fun _ => good_onBus (good_onStk g6) (fun h => h)); clear_value t7; exact State.dormRails_good g8))

theorem State.dormBegin_good {q} {s} (h : Good q s) : Good q (State.dormBegin s) := by
  unfold State.dormBegin
  exact State.dormNext_good (State.tcPrep_good (State.tcPrep_good (good_onSeq (good_onSys h (fun h => h)))))

theorem State.dormCharge_good {q} {s} (h : Good q s) : Good q (State.dormCharge s) := by
  unfold State.dormCharge
  extract_lets +onlyGivenNames t1
  clear_value t1
  extract_lets +onlyGivenNames t2
  clear_value t2
  extract_lets +onlyGivenNames t3
  have g4 : Good q t3 := good_onMs h
  clear_value t3
  exact good_ite (fun _ => g4) (fun _ => good_ite (fun _ => good_onMs g4) (fun _ => State.raise_good (good_onMs g4)))

theorem State.wakeUp_good {q} {s} {a1} (h : Good q s) : Good q (State.wakeUp s a1) := by
  unfold State.wakeUp
  extract_lets +onlyGivenNames t1
  have g2 : Good q t1 := State.dormCharge_good h
  clear_value t1
  extract_lets +onlyGivenNames t3
  have g4 : Good q t3 := good_onSys g2 (fun h => h)
  clear_value t3
  extract_lets +onlyGivenNames t5
  have g6 : Good q t5 := good_onWd g4
  clear_value t5
  split
  exacts [good_ite (fun _ => good_onSys (good_onClk g6) (fun h => h)) (fun _ => State.romStart_good g6), State.romStart_good g6]

theorem State.wakeFrom_good {q} {s} {a1} (h : Good q s) : Good q (State.wakeFrom s a1) := by
  unfold State.wakeFrom
  extract_lets +onlyGivenNames t1
  clear_value t1
  exact good_ite (fun _ => h) (fun _ => good_ite (fun _ => State.wakeUp_good h) (fun _ => good_ite (fun _ => good_onSys h (fun h => h)) (fun _ => good_ite (fun _ => h) (fun _ => (by split; exacts [good_ite (fun _ => State.raise_good (State.dormRails_good (State.onBox_good (good_onSys h (fun h => h))))) (fun _ => State.dormCancel_good h), State.dormCancel_good h])))))
end Sys2Proof.Machine
end

