-- ==== Sys2Proof/Laws/KeepSweepOps.lean ====
section
/-! SUPPORT. What each operation and each meaning of Machine/SweepOps.lean keeps: the queue of waiting commands and the invariant of
Safety.lean; a meaning also answers a next state. -/
namespace Sys2Proof.Machine

set_option Elab.async false
open Sys2Proof.Safety

theorem State.balCount_good {q} {s} {a1} {a2} (h : Good q s) : Good q (State.balCount s a1 a2) := by
  unfold State.balCount
  exact good_foldl (fun _ _ g1 => (by extract_lets +onlyGivenNames v2; clear_value v2; extract_lets +onlyGivenNames v3; clear_value v3; extract_lets +onlyGivenNames t4; have g5 : Good q t4 := good_onMs g1; clear_value t4; exact State.when_good g5 (fun _ => State.counterSat_good (good_onMs g5)))) _ h

theorem State.bleedStop_good {q} {s} (h : Good q s) : Good q (State.bleedStop s) := by
  unfold State.bleedStop
  exact good_ite (fun _ => h) (fun _ => State.balCount_good (good_onMs h))

theorem State.sweepBegin_good {q} {s} {a1} {a2} {a3} {a4} (h : Good q s) : Good q (State.sweepBegin s a1 a2 a3 a4) := by
  unfold State.sweepBegin
  extract_lets +onlyGivenNames v1
  clear_value v1
  extract_lets +onlyGivenNames t2
  have g3 : Good q t2 := good_onSw h
  clear_value t2
  exact State.raise_good (State.bleedStop_good g3)

theorem State.sweepRefuse_good {q} {s} {a1} {a2} (h : Good q s) : Good q (State.sweepRefuse s a1 a2) := by
  unfold State.sweepRefuse
  exact State.raise_good (good_onSw h)

theorem State.sweepSchedule_good {q} {s} {a1} {a2} (h : Good q s) : Good q (State.sweepSchedule s a1 a2) := by
  unfold State.sweepSchedule
  extract_lets +onlyGivenNames t1
  have g2 : Good q t1 := good_onSw h
  clear_value t1
  split
  exacts [State.sweepBegin_good g2, good_onSw (State.sweepRefuse_good g2)]

theorem State.sweepStart_good {q} {s} (h : Good q s) : Good q (State.sweepStart s) := by
  unfold State.sweepStart
  exact State.sweepSchedule_good (good_onSw h)

theorem State.trigSweep_good {q} {s} {a1} (h : Good q s) : Good q (State.trigSweep s a1) := by
  unfold State.trigSweep
  split
  exacts [State.sweepStart_good h, State.sweepSchedule_good h, State.sweepSchedule_good h]

theorem State.sweepAnswer_good {q} {s} {a1} {a2} {a3} {a4} {a5} (h : Good q s) : Good q (State.sweepAnswer s a1 a2 a3 a4 a5) := by
  unfold State.sweepAnswer
  exact good_onSw (State.finishO_good h)

theorem State.sweepClose_good {q} {s} {a1} {a2} (h : Good q s) : Good q (State.sweepClose s a1 a2) := by
  unfold State.sweepClose
  exact good_onSw h

theorem State.sweepAbort_good {q} {s} {a1} (h : Good q s) : Good q (State.sweepAbort s a1) := by
  unfold State.sweepAbort
  exact good_ite (fun _ => h) (fun _ => (by extract_lets +onlyGivenNames v1; clear_value v1; extract_lets +onlyGivenNames t2; have g3 : Good q t2 := good_onSw (State.sweepClose_good h); clear_value t2; extract_lets +onlyGivenNames t4; have g5 : Good q t4 := State.raise_good g3; clear_value t4; exact good_ite (fun _ => good_onSw g5) (fun _ => State.useFree_good (State.sweepAnswer_good g5))))

theorem State.sweepStop_good {q} {s} (h : Good q s) : Good q (State.sweepStop s) := by
  unfold State.sweepStop
  exact good_ite (fun _ => h) (fun _ => good_ite (fun _ => good_onSw h) (fun _ => State.sweepAbort_good h))

theorem State.sweepSet_good {q} {s} {a1} (h : Good q s) : Good q (State.sweepSet s a1) := by
  unfold State.sweepSet
  exact good_ite (fun _ => h) (fun _ => (by extract_lets +onlyGivenNames t3; have g4 : Good q t3 := (by dsimp only [t3]; split; exacts [good_onSw h, h]); clear_value t3; extract_lets +onlyGivenNames t5; have g6 : Good q t5 := good_onSw g4; clear_value t5; extract_lets +onlyGivenNames t7; clear_value t7; exact good_ite (fun _ => g6) (fun _ => good_ite (fun _ => State.sweepAbort_good g4) (fun _ => good_ite (fun _ => g6) (fun _ => g4)))))

theorem State.teleTake_good {q} {s} {a1} (h : Good q s) : Good q (State.teleTake s a1) := by
  unfold State.teleTake
  exact State.sweepSet_good (good_onMs h)

theorem State.yarrow_good {q} {s} (h : Good q s) : Good q (State.yarrow s) := by
  unfold State.yarrow
  exact good_ite (fun _ => State.taskRan_good (good_onQs (good_foldl (fun _ _ x4 => State.teleTake_good x4) _ h) (by (intro hx; simp_all [qsOk, mbOk, nvmOk, fltOk, sysOk, ccOk, fabOk, phaseOk, cfgOk]; done)))) (fun _ => h)
end Sys2Proof.Machine
end

