-- ==== Sys2Proof/Laws/KeepFaultOps.lean ====
section
/-! SUPPORT. What each operation and each meaning of Machine/FaultOps.lean keeps: the queue of waiting commands and the invariant of
Safety.lean; a meaning also answers a next state. -/
namespace Sys2Proof.Machine

set_option Elab.async false
open Sys2Proof.Safety

theorem State.frecLost_good {q} {s} (h : Good q s) : Good q (State.frecLost s) := by
  unfold State.frecLost
  exact good_ite (fun _ => (by extract_lets +onlyGivenNames t1; have g2 : Good q t1 := good_onFlt h (fun h => h); clear_value t1; exact State.when_good g2 (fun _ => State.counterSat_good (good_onFlt g2 (fun h => h))))) (fun _ => h)

theorem State.recCount_good {q} {s} (h : Good q s) : Good q (State.recCount s) := by
  unfold State.recCount
  exact good_ite (fun _ => (by extract_lets +onlyGivenNames t1; have g2 : Good q t1 := good_onFlt h (fun h => h); clear_value t1; exact State.when_good g2 (fun _ => State.counterSat_good (good_onFlt g2 (fun h => h))))) (fun _ => h)

theorem State.lfLostCount_good {q} {s} (h : Good q s) : Good q (State.lfLostCount s) := by
  unfold State.lfLostCount
  exact good_ite (fun _ => (by extract_lets +onlyGivenNames t1; have g2 : Good q t1 := good_onFlt h (fun h => h); clear_value t1; exact State.when_good g2 (fun _ => State.counterSat_good (good_onFlt g2 (fun h => h))))) (fun _ => h)

theorem State.onRec_good {q} {s} {a1} {a2} (h : Good q s) : Good q (State.onRec s a1 a2) := by
  unfold State.onRec
  exact good_onFlt h (by (intro hx; simp_all [fltOk]))

theorem State.recAdd_good {q} {s} {a1} {a2} (h : Good q s) : Good q (State.recAdd s a1 a2) := by
  unfold State.recAdd
  split
  exacts [(by extract_lets +onlyGivenNames t1; have g2 : Good q t1 := State.onRec_good h; clear_value t1; exact State.when_good g2 (fun _ => State.counterSat_good g2)), h]

theorem State.frepSend_good {q} {s} {a1} (h : Good q s) : Good q (State.frepSend s a1) := by
  unfold State.frepSend
  exact good_ite (fun _ => good_ite (fun _ => good_onStk (good_onQs h (by (intro hx; simp_all [qsOk])))) (fun _ => State.drop_good h)) (fun _ => h)

theorem State.electJoin_good {q} {s} {a1} (h : Good q s) : Good q (State.electJoin s a1) := by
  unfold State.electJoin
  exact good_onStk h

/-- A record put into the store makes it one longer (R26). -/
@[simp] theorem recPut_length (l : List FaultRec) (r : FaultRec) : (recPut l r).length = l.length + 1 := by
  simp only [recPut, List.length_append, List.length_cons, List.length_take, List.length_drop]
  omega

/-- The newest class 1 record is one of the store (R337). -/
theorem newestMinor_mem {l : List FaultRec} {x : FaultRec} (h : newestMinor l = some x) : x ∈ l := by
  have key : ∀ (m : List FaultRec) (a : Option FaultRec), (∀ y, a = some y → y ∈ l) → (∀ y ∈ m, y ∈ l) →
      ∀ y, m.foldl (fun a x => match a with
        | some y => if y.recno < x.recno then some x else a
        | none => some x) a = some y → y ∈ l := by
    intro m
    induction m with
    | nil => exact fun a ha _ y hy => ha y hy
    | cons z m ih =>
      intro a ha hm
      refine ih _ ?_ fun y hy => hm y (List.mem_cons_of_mem _ hy)
      intro y hy
      have hz := hm z List.mem_cons_self
      dsimp only at hy
      split at hy
      · split at hy
        · cases hy; exact hz
        · exact ha y hy
      · cases hy; exact hz
  exact key _ none (by simp) (fun y hy => List.mem_of_mem_filter hy) x h

theorem storeAdd_len {l r l'} (hl : l.length ≤ 24) (h : storeAdd l r = some l') : l'.length ≤ 24 := by
  unfold storeAdd at h
  split at h
  · cases h; rw [recPut_length]; omega
  · split at h
    · cases h
    · obtain ⟨x, hx, rfl⟩ := Option.map_eq_some_iff.1 h
      have : (l.filter fun y => y.recno != x.recno).length < l.length := by
        refine Nat.lt_of_le_of_ne (List.length_filter_le ..) fun he => ?_
        have := List.filter_eq_self.1 (List.length_filter_eq_length_iff.1 he |> List.filter_eq_self.2) x (newestMinor_mem hx)
        simp at this
      rw [recPut_length]; omega

theorem State.openRec_good {q s a1 a2} (h : Good q s) : Good q (s.openRec a1 a2) := by
  unfold State.openRec
  extract_lets +onlyGivenNames v1
  clear_value v1
  extract_lets +onlyGivenNames v2
  clear_value v2
  extract_lets +onlyGivenNames v3
  clear_value v3
  extract_lets +onlyGivenNames v4
  clear_value v4
  extract_lets +onlyGivenNames v5
  clear_value v5
  split
  · exact State.when_good (State.frecLost_good h) (fun _ => State.snap_good (State.frecLost_good h))
  · extract_lets +onlyGivenNames t5
    have g6 : Good q t5 := good_onFlt h (fun hf => ⟨storeAdd_len hf.1 ‹_›, hf.2⟩)
    clear_value t5
    extract_lets +onlyGivenNames t7
    have g8 : Good q t7 := State.raiseRec_good (good_onFlt g6 (fun h => h))
    clear_value t7
    extract_lets +onlyGivenNames t9
    have g10 : Good q t9 := State.when_good g8 (fun _ => State.frepSend_good g8)
    clear_value t9
    extract_lets +onlyGivenNames t11
    have g12 : Good q t11 := State.when_good g10 (fun _ => State.electJoin_good g10)
    clear_value t11
    extract_lets +onlyGivenNames t13
    have g14 : Good q t13 :=
      State.when_good (State.when_good g12 (fun _ => State.snap_good g12)) (fun _ => State.quietStart_good (State.when_good g12 (fun _ => State.snap_good g12)))
    clear_value t13
    exact State.when_good g14 (fun _ => State.counterSat_good g14)

theorem State.recSort_good {q s a1} (h : Good q s) : Good q (s.recSort a1) := by
  unfold State.recSort
  split
  next r hr =>
    refine good_onFlt h fun hf => ⟨?_, hf.2⟩
    have hlt : (s.flt.recs.filter fun x => x.recno != a1).length < s.flt.recs.length :=
      List.length_filter_lt_length_iff_exists.2 ⟨r, List.mem_of_find?_eq_some hr, by simpa using List.find?_some hr⟩
    have := hf.1
    simp only [recPut_length]
    omega
  next => exact h

theorem State.recFold_good {q} {s} {a1} {a2} {a3} {a4} {a5} (h : Good q s) : Good q (State.recFold s a1 a2 a3 a4 a5) := by
  unfold State.recFold
  extract_lets +onlyGivenNames t1
  have g2 : Good q t1 := good_onFlt (State.onRec_good h) (fun h => h)
  clear_value t1
  exact State.when_good g2 (fun _ => State.recSort_good g2)

theorem State.lfCapture_good {q} {s} {a1} {a2} {a3} {a4} (h : Good q s) : Good q (State.lfCapture s a1 a2 a3 a4) := by
  unfold State.lfCapture
  exact good_ite (fun _ => (by extract_lets +onlyGivenNames v1; clear_value v1; exact good_onFlt h (by (intro hx; simp_all [fltOk])))) (fun _ => State.lfLostCount_good h)

theorem State.fpEnd_good {q} {s} (h : Good q s) : Good q (State.fpEnd s) := by
  unfold State.fpEnd
  exact good_ite (fun _ => State.raise_good (good_onGrd h)) (fun _ => h)

theorem State.injDisarm_good {q} {s} (h : Good q s) : Good q (State.injDisarm s) := by
  unfold State.injDisarm
  exact good_onGrd h

theorem State.tuneDrop_good {q} {s} (h : Good q s) : Good q (State.tuneDrop s) := by
  unfold State.tuneDrop
  exact good_foldl (fun _ _ g1 => State.finishO_good g1) _ (good_onCc h (fun h => h))

theorem State.outputsSafe_good {q} {s} {a1} (h : Good q s) : Good q (State.outputsSafe s a1) := by
  unfold State.outputsSafe
  extract_lets +onlyGivenNames t1
  have g2 : Good q t1 := State.pathsOff_good (State.gatesOff_good h)
  clear_value t1
  extract_lets +onlyGivenNames t3
  have g4 : Good q t3 := good_onSys g2 (fun h => h)
  clear_value t3
  extract_lets +onlyGivenNames t5
  have g6 : Good q t5 := good_onPp g4
  clear_value t5
  exact good_onFab (good_onFlt g6 (fun h => h)) (fun h => h)

theorem State.holdSources_good {q} {s} (h : Good q s) : Good q (State.holdSources s) := by
  unfold State.holdSources
  extract_lets +onlyGivenNames t1
  have g2 : Good q t1 := State.when_good h (fun _ => State.hardReset_good h)
  clear_value t1
  exact State.when_good g2 (fun _ => State.hardReset_good g2)

theorem State.holdEffects_good {q} {s} (h : Good q s) : Good q (State.holdEffects s) := by
  unfold State.holdEffects
  extract_lets +onlyGivenNames t1
  have g2 : Good q t1 := State.tuneDrop_good (State.sweepAbort_good (State.injDisarm_good (State.fpEnd_good (State.dormCancel_good h))))
  clear_value t1
  extract_lets +onlyGivenNames t3
  have g4 : Good q t3 := State.switchIdle_good (State.suspend_good g2)
  clear_value t3
  exact State.when_good (State.frsDisarm_good (State.frsDisarm_good g4)) (fun _ => State.holdSources_good (State.frsDisarm_good (State.frsDisarm_good g4)))

theorem State.holdLatch_good {q} {s} {a1} {a2} {a3} (h : Good q s) : Good q (State.holdLatch s a1 a2 a3) := by
  unfold State.holdLatch
  extract_lets +onlyGivenNames v1
  clear_value v1
  extract_lets +onlyGivenNames t2
  have g3 : Good q t2 := good_onFlt h (fun h => h)
  clear_value t2
  extract_lets +onlyGivenNames t4
  have g5 : Good q t4 := good_onSys g3 (fun h => h)
  clear_value t4
  exact State.when_good g5 (fun _ => State.raise_good g5)

theorem State.forcedSafe_good {q} {s} {a1} {a2} (h : Good q s) : Good q (State.forcedSafe s a1 a2) := by
  unfold State.forcedSafe
  extract_lets +onlyGivenNames t1
  have g2 : Good q t1 := State.holdEffects_good (State.holdLatch_good (State.outputsSafe_good (State.lfCapture_good h)))
  clear_value t1
  exact State.when_good g2 (fun _ => State.wakeFrom_good g2)

theorem State.hold3_good {q} {s} {a1} {a2} (h : Good q s) : Good q (State.hold3 s a1 a2) := by
  unfold State.hold3
  exact State.holdEffects_good (State.holdLatch_good (State.outputsSafe_good (State.lfCapture_good h)))

theorem State.modeFix_good {q} {s} (h : Good q s) : Good q (State.modeFix s) := by
  unfold State.modeFix
  extract_lets +onlyGivenNames t1
  have g2 : Good q t1 := State.when_good h (fun _ => good_onSys h (fun h => h))
  clear_value t1
  exact good_onFlt g2 (fun h => h)

theorem State.fencePhase_good {q} {s} {a1} (h : Good q s) : Good q (State.fencePhase s a1) := by
  unfold State.fencePhase
  extract_lets +onlyGivenNames t1
  clear_value t1
  exact good_ite (fun _ => h) (fun _ => (by extract_lets +onlyGivenNames t4; have g5 : Good q t4 := State.place_good (State.onPhase_good h (fun x h => phaseOk_fenced h)); clear_value t4; extract_lets +onlyGivenNames t6; have g7 : Good q t6 := (by dsimp only [t6]; split; exacts [State.portRest_good (State.vbusRest_good g5), g5]); clear_value t6; split; exacts [State.portRest_good (State.vbusRest_good (State.reAngle_good g7)), g7]))

theorem State.fenceTc_good {q} {s} {a1} (h : Good q s) : Good q (State.fenceTc s a1) := by
  unfold State.fenceTc
  extract_lets +onlyGivenNames t1
  clear_value t1
  extract_lets +onlyGivenNames t2
  have g3 : Good q t2 := State.frsDisarm_good (State.authDetach_good (State.finishO_good (State.finishO_good h)))
  clear_value t2
  exact State.onTc_good g3

theorem State.fenceAct_good {q} {s} {a1} (h : Good q s) : Good q (State.fenceAct s a1) := by
  unfold State.fenceAct
  exact good_ite (fun _ => State.fencePhase_good h) (fun _ => good_ite (fun _ => (by extract_lets +onlyGivenNames t4; have g5 : Good q t4 := good_foldl (fun _ _ x8 => State.fencePhase_good x8) _ h; clear_value t4; exact State.domRequest_good g5)) (fun _ => good_ite (fun _ => State.portRest_good (State.sinkEnded_good h (State.fenceTc_good (State.endPath_good h)))) (fun _ => good_ite (fun _ => State.portRest_good (State.sinkEnded_good h (State.fenceTc_good (State.endPath_good h)))) (fun _ => good_ite (fun _ => State.portRest_good (State.sinkEnded_good h (State.endPath_good h))) (fun _ => good_ite (fun _ => good_onTca h) (fun _ => good_ite (fun _ => good_onTcb h) (fun _ => good_ite (fun _ => State.suspend_good (State.switchOff_good h)) (fun _ => good_ite (fun _ => State.suspend_good h) (fun _ => good_ite (fun _ => good_onSeq (State.railOff_good h)) (fun _ => h))))))))))

theorem State.fenceUnit_good {q} {s} {a1} {a2} (h : Good q s) : Good q (State.fenceUnit s a1 a2) := by
  unfold State.fenceUnit
  extract_lets +onlyGivenNames t1
  have g2 : Good q t1 := State.fenceAct_good (good_onFlt h (fun h => h))
  clear_value t1
  exact State.modeFix_good (State.raise_good g2)

theorem State.unfencePhase_good {q} {s} {a1} (h : Good q s) : Good q (State.unfencePhase s a1) := by
  unfold State.unfencePhase
  exact State.place_good (State.onPhase_good h (fun x h => phaseOk_freed h))

theorem State.liftAct_good {q} {s} {a1} (h : Good q s) : Good q (State.liftAct s a1) := by
  unfold State.liftAct
  exact good_ite (fun _ => State.when_good h (fun _ => State.unfencePhase_good h)) (fun _ => good_ite (fun _ => State.domOn_good (good_foldl (fun _ _ x7 => good_ite (fun _ => State.unfencePhase_good x7) (fun _ => x7)) _ h)) (fun _ => good_ite (fun _ => State.when_good h (fun _ => State.domOn_good h)) (fun _ => good_ite (fun _ => State.when_good h (fun _ => State.domOn_good h)) (fun _ => good_ite (fun _ => State.when_good h (fun _ => State.domOn_good h)) (fun _ => good_ite (fun _ => State.switchClose_good h) (fun _ => good_ite (fun _ => good_onSeq h) (fun _ => h)))))))

theorem State.liftFence_good {q} {s} {a1} (h : Good q s) : Good q (State.liftFence s a1) := by
  unfold State.liftFence
  exact good_ite (fun _ => (by extract_lets +onlyGivenNames v1; clear_value v1; extract_lets +onlyGivenNames t2; have g3 : Good q t2 := State.liftAct_good (good_onFlt h (fun h => h)); clear_value t2; exact State.modeFix_good (State.raise_good g3))) (fun _ => h)

theorem State.noPhasesCheck_good {q} {s} {a1} (h : Good q s) : Good q (State.noPhasesCheck s a1) := by
  unfold State.noPhasesCheck
  exact good_ite (fun _ => State.openRec_good (State.hold3_good h)) (fun _ => h)

theorem State.failNote_good {q} {s} {a1} {a2} {a3} {a4} {a5} {a6} (h : Good q s) : Good q (State.failNote s a1 a2 a3 a4 a5 a6) := by
  unfold State.failNote
  extract_lets +onlyGivenNames t1
  clear_value t1
  split
  exacts [(by extract_lets +onlyGivenNames t2; have g3 : Good q t2 := good_onFlt h (fun h => h); clear_value t2; split; exacts [State.recFold_good (State.recAdd_good g3), g3]), (by split; exacts [State.recFold_good (State.recAdd_good h), good_onFlt h (fun h => h)])]

theorem State.checkerFail_good {q} {s} {a1} {a2} {a3} {a4} {a5} {a6} (h : Good q s) : Good q (State.checkerFail s a1 a2 a3 a4 a5 a6) := by
  unfold State.checkerFail
  exact good_ite (fun _ => (by extract_lets +onlyGivenNames t2; clear_value t2; extract_lets +onlyGivenNames t3; have g4 : Good q t3 := State.openRec_good (State.forcedSafe_good h); clear_value t3; exact good_onFlt g4 (fun h => h))) (fun _ => State.failNote_good h)

theorem State.transientRec_good {q} {s} {a1} (h : Good q s) : Good q (State.transientRec s a1) := by
  unfold State.transientRec
  extract_lets +onlyGivenNames v1
  clear_value v1
  extract_lets +onlyGivenNames t2
  have g3 : Good q t2 := State.when_good h (fun _ => State.onPhase_good h (fun x h => h))
  clear_value t2
  split
  exacts [good_onFlt (State.onRec_good (State.recAdd_good g3)) (fun h => h), State.openRec_good g3]

theorem State.railEvent_good {q} {s} {a1} {a2} (h : Good q s) : Good q (State.railEvent s a1 a2) := by
  unfold State.railEvent
  exact good_ite (fun _ => State.raise_good h) (fun _ => h)

theorem State.railLasting_good {q} {s} {a1} (h : Good q s) : Good q (State.railLasting s a1) := by
  unfold State.railLasting
  extract_lets +onlyGivenNames v1
  clear_value v1
  extract_lets +onlyGivenNames v2
  clear_value v2
  exact good_ite (fun _ => (by extract_lets +onlyGivenNames t3; have g4 : Good q t3 := State.snap_good h; clear_value t3; exact good_ite (fun _ => State.upNext_good (State.downCause_good (good_onSeq g4))) (fun _ => State.downCause_good g4))) (fun _ => good_ite (fun _ => State.snap_good h) (fun _ => h))

theorem State.memberFence_good {q} {s} {a1} {a2} (h : Good q s) : Good q (State.memberFence s a1 a2) := by
  unfold State.memberFence
  exact good_ite (fun _ => h) (fun _ => (by extract_lets +onlyGivenNames t1; have g2 : Good q t1 := State.raise_good (good_onStk h); clear_value t1; exact State.modeFix_good (State.raise_good g2)))

theorem State.slot0Yield_good {q} {s} {a1} (h : Good q s) : Good q (State.slot0Yield s a1) := by
  unfold State.slot0Yield
  exact good_ite (fun _ => h) (fun _ => good_onStk (State.memberUnfence_good h h))

theorem State.framesRefused_good {q} {s} (h : Good q s) : Good q (State.framesRefused s) := by
  unfold State.framesRefused
  exact State.raise_good (good_onStk h)

theorem State.stackLasting_good {q} {s} {a1} (h : Good q s) : Good q (State.stackLasting s a1) := by
  unfold State.stackLasting
  exact good_ite (fun _ => (by extract_lets +onlyGivenNames v1; clear_value v1; extract_lets +onlyGivenNames v2; clear_value v2; extract_lets +onlyGivenNames v3; clear_value v3; extract_lets +onlyGivenNames t4; have g5 : Good q t4 := good_onFlt h (fun h => h); clear_value t4; extract_lets +onlyGivenNames t6; have g7 : Good q t6 := (by unfold t6; split; exacts [State.memberFence_good g5, good_onStk g5, State.slot0Yield_good g5, State.framesRefused_good g5, g5]); clear_value t6; exact State.modeFix_good (State.when_good g7 (fun _ => State.raise_good g7)))) (fun _ => h)

theorem State.retDiscard_good {q} {s} {a1} (h : Good q s) : Good q (State.retDiscard s a1) := by
  unfold State.retDiscard
  split
  exacts [good_onWd h, good_onSys h (fun h => h), good_onFlt h (by (intro hx; simp_all [fltOk])), good_onFlt h (fun h => h), good_onFlt h (by (intro hx; simp_all [fltOk])), good_onFlt h (fun h => h), good_onFlt h (fun h => h), good_onWd h, good_onChg h, good_onMs h, good_onSw h, good_onSys h (fun h => h), good_onStk h, good_onSys h (by (intro hx; simp_all [sysOk]))]

theorem State.lasting_good {q} {s} {a1} (h : Good q s) : Good q (State.lasting s a1) := by
  unfold State.lasting
  extract_lets +onlyGivenNames t1
  clear_value t1
  split
  exacts [(by split; exacts [State.quietStart_good (State.onRec_good h), h]), good_ite (fun _ => State.moduleReset_good (State.lfCapture_good (State.openRec_good h))) (fun _ => State.openRec_good (State.hold3_good h)), (by extract_lets +onlyGivenNames t4; clear_value t4; extract_lets +onlyGivenNames t5; have g6 : Good q t5 := (by dsimp only [t5]; split; exacts [State.retDiscard_good h, h]); clear_value t5; extract_lets +onlyGivenNames t7; clear_value t7; extract_lets +onlyGivenNames t8; have g9 : Good q t8 := State.railEvent_good (State.openRec_good g6); clear_value t8; extract_lets +onlyGivenNames t10; have g11 : Good q t10 := (by dsimp only [t10]; split; exacts [State.fenceUnit_good g9, g9]); clear_value t10; exact State.noPhasesCheck_good (State.stackLasting_good (State.railLasting_good g11)))]

theorem State.transient_good {q} {s} {a1} (h : Good q s) : Good q (State.transient s a1) := by
  unfold State.transient
  exact good_ite (fun _ => (by split; exacts [State.quietStart_good (State.onRec_good h), State.quietStart_good h])) (fun _ => State.railEvent_good (State.transientRec_good h))

theorem State.holdExit_good {q} {s} {a1} (h : Good q s) : Good q (State.holdExit s a1) := by
  unfold State.holdExit
  extract_lets +onlyGivenNames v1
  clear_value v1
  extract_lets +onlyGivenNames t2
  have g3 : Good q t2 := good_onFlt h (by (intro hx; simp_all [fltOk]))
  clear_value t2
  extract_lets +onlyGivenNames t4
  have g5 : Good q t4 := good_onSys (State.recCount_good g3) (fun h => h)
  clear_value t4
  extract_lets +onlyGivenNames t6
  have g7 : Good q t6 := State.switchClose_good (good_onFlt g5 (fun h => h))
  clear_value t6
  extract_lets +onlyGivenNames t8
  have g9 : Good q t8 := State.when_good g7 (fun _ => State.clearReason_good g7)
  clear_value t8
  exact State.raise_good g9
end Sys2Proof.Machine
end

