-- ==== Sys2Proof/Laws/KeepBusOps.lean ====
section
/-! SUPPORT. What each operation and each meaning of Machine/BusOps.lean keeps: the queue of waiting commands and the invariant of
Safety.lean; a meaning also answers a next state. -/
namespace Sys2Proof.Machine

set_option Elab.async false
open Sys2Proof.Safety

theorem State.onPort_good {q} {s} {a1} {a2} (h : Good q s) : Good q (State.onPort s a1 a2) := by
  unfold State.onPort
  split
  exacts [good_onBus h (fun h => h), good_onBus h (fun h => h)]

theorem State.busFlag_good {q} {s} {a1} {a2} (h : Good q s) : Good q (State.busFlag s a1 a2) := by
  unfold State.busFlag
  exact State.onPort_good h

theorem State.guardFail_good {q} {s} {a1} (h : Good q s) : Good q (State.guardFail s a1) := by
  unfold State.guardFail
  exact State.raise_good (State.busFlag_good (State.onPort_good h))

theorem State.wrote_good {q} {s} {a1} {a2} (h : Good q s) : Good q (State.wrote s a1 a2) := by
  unfold State.wrote
  extract_lets +onlyGivenNames t1
  have g2 : Good q t1 := State.onPort_good h
  clear_value t1
  exact State.when_good g2 (fun _ => State.guardFail_good g2)

theorem State.guardPair_good {q} {s} {a1} {a2} {a3} {a4} {a5} (h : Good q s) (hf5 : ∀ b t, Good q t → Good q (a5 b t)) : Good q (State.guardPair s a1 a2 a3 a4 a5) := by
  unfold State.guardPair
  exact good_ite (fun _ => h) (fun _ => (by extract_lets +onlyGivenNames t1; have g2 : Good q t1 := State.onPort_good h; clear_value t1; split; exacts [good_ite (fun _ => hf5 _ _ (State.onPort_good g2)) (fun _ => State.guardFail_good g2), State.guardFail_good g2]))

theorem State.ringOne_good {q} {s} {a1} (h : Good q s) : Good q (State.ringOne s a1) := by
  unfold State.ringOne
  exact good_ite (fun _ => good_onMb h (fun h => h)) (fun _ => good_ite (fun _ => State.raise_good h) (fun _ => good_onMb h (fun h => h)))

theorem State.stackDormGo_good {q} {s} (h : Good q s) : Good q (State.stackDormGo s) := by
  unfold State.stackDormGo
  exact State.dormBegin_good (good_onSys (good_onStk h) (fun h => h))

theorem State.releaseAct_good {q} {s} {a1} {a2} (h : Good q s) : Good q (State.releaseAct s a1 a2) := by
  unfold State.releaseAct
  split
  exacts [good_ite (fun _ => good_onSys h (fun h => h)) (fun _ => h), State.moduleReset_good h, State.moduleReset_good h, State.stackDormGo_good h, h]

theorem State.release_good {q} {s} {a1} (h : Good q s) : Good q (State.release s a1) := by
  unfold State.release
  extract_lets +onlyGivenNames t1
  clear_value t1
  extract_lets +onlyGivenNames t2
  have g3 : Good q t2 := good_onMb h (by (intro hx; simp_all [qsOk, mbOk, nvmOk, fltOk, sysOk, ccOk, fabOk, phaseOk, cfgOk]; done))
  clear_value t2
  split
  exacts [State.onBox_good g3, State.when_good (State.onBox_good (good_onMb g3 (fun h => h))) (fun _ => State.releaseAct_good (State.onBox_good (good_onMb g3 (fun h => h)))), g3, g3, g3]

theorem State.doneBits_good {q} {s} {a1} (h : Good q s) : Good q (State.doneBits s a1) := by
  unfold State.doneBits
  exact good_foldl (fun _ _ x3 => good_ite (fun _ => x3) (fun _ => good_ite (fun _ => State.release_good x3) (fun _ => good_onMb x3 (fun h => h)))) _ h

theorem State.ringBits_good {q} {s} {a1} (h : Good q s) : Good q (State.ringBits s a1) := by
  unfold State.ringBits
  exact good_foldl (fun _ _ x3 => good_ite (fun _ => State.ringOne_good x3) (fun _ => x3)) _ h

theorem State.doorbell_good {q} {s} {a1} {a2} (h : Good q s) : Good q (State.doorbell s a1 a2) := by
  unfold State.doorbell
  exact State.takeRings_good (State.ringBits_good (State.doneBits_good h))

theorem State.doorbellHeld_good {q} {s} (h : Good q s) : Good q (State.doorbellHeld s) := by
  unfold State.doorbellHeld
  extract_lets +onlyGivenNames t1
  clear_value t1
  extract_lets +onlyGivenNames t2
  clear_value t2
  exact State.doorbell_good (good_onMb h (fun h => h))
end Sys2Proof.Machine
end

