-- ==== Sys2Proof/Laws/KeepWdogOps.lean ====
section
/-! SUPPORT. What each operation and each meaning of Machine/WdogOps.lean keeps: the queue of waiting commands and the invariant of
Safety.lean; a meaning also answers a next state. -/
namespace Sys2Proof.Machine

set_option Elab.async false
open Sys2Proof.Safety

theorem State.tierFix_good {q} {s} (h : Good q s) : Good q (State.tierFix s) := by
  unfold State.tierFix
  exact good_onSys h (fun h => h)

theorem inbox_set {l : List (List InboxItem)} {i : Nat} {v : List InboxItem} (h : ∀ x ∈ l, x.length ≤ 16) (hv : v.length ≤ 16) :
    ∀ x ∈ l.set i v, x.length ≤ 16 := by
  intro d hd
  rcases List.mem_or_eq_of_mem_set hd with hd | rfl
  · exact h _ hd
  · exact hv

theorem State.inboxPut_good {q s a1 a2} (h : Good q s) : Good q (State.inboxPut s a1 a2) := by
  unfold State.inboxPut
  refine good_ite (fun _ => good_onQs h ?_) (fun _ => State.drop_good h)
  exact fun hq => ⟨hq.1, hq.2.1, hq.2.2.1, hq.2.2.2.1, inbox_set hq.2.2.2.2.1 (by rw [List.length_append, List.length_singleton]; omega), hq.2.2.2.2.2⟩

theorem State.wdgPeriod_good {q} {s} (h : Good q s) : Good q (State.wdgPeriod s) := by
  unfold State.wdgPeriod
  extract_lets +onlyGivenNames t1
  have g2 : Good q t1 := good_onWd h
  clear_value t1
  exact good_foldl (fun _ _ g3 => State.inboxPut_good g3) _ g2

theorem State.wdgStart_good {q} {s} (h : Good q s) : Good q (State.wdgStart s) := by
  unfold State.wdgStart
  exact State.when_good h (fun _ => State.wdgPeriod_good h)

theorem State.wdgDup_good {q} {s} {a1} (h : Good q s) : Good q (State.wdgDup s a1) := by
  unfold State.wdgDup
  extract_lets +onlyGivenNames t1
  have g2 : Good q t1 := good_onWd h
  clear_value t1
  exact State.when_good g2 (fun _ => State.counterSat_good (good_onWd g2))

theorem State.wdgCount_good {q} {s} (h : Good q s) : Good q (State.wdgCount s) := by
  unfold State.wdgCount
  exact good_ite (fun _ => (by extract_lets +onlyGivenNames t1; have g2 : Good q t1 := good_onWd h; clear_value t1; exact State.when_good g2 (fun _ => State.counterSat_good (good_onWd g2)))) (fun _ => h)

theorem State.lateTurn_good {q} {s} (h : Good q s) : Good q (State.lateTurn s) := by
  unfold State.lateTurn
  extract_lets +onlyGivenNames t1
  clear_value t1
  exact good_onWd h

theorem State.wdgExpire_good {q} {s} {a1} {a2} (h : Good q s) : Good q (State.wdgExpire s a1 a2) := by
  unfold State.wdgExpire
  exact good_ite (fun _ => State.moduleReset_good (State.lateTurn_good h)) (fun _ => (by extract_lets +onlyGivenNames t3; clear_value t3; extract_lets +onlyGivenNames t4; have g5 : Good q t4 := good_onWd h; clear_value t4; exact State.wdgCount_good (State.moduleReset_good g5)))

theorem State.wdgRecords_good {q} {s} (h : Good q s) : Good q (State.wdgRecords s) := by
  unfold State.wdgRecords
  exact good_onWd (good_foldl (fun _ _ x3 => (by extract_lets +onlyGivenNames t4; clear_value t4; extract_lets +onlyGivenNames t5; clear_value t5; exact State.lfCapture_good (State.openRec_good x3))) _ h)

theorem State.wdgWrite_good {q} {s} {a1} (h : Good q s) : Good q (State.wdgWrite s a1) := by
  unfold State.wdgWrite
  exact good_ite (fun _ => h) (fun _ => good_ite (fun _ => State.wdgExpire_good h) (fun _ => good_ite (fun _ => (by extract_lets +onlyGivenNames t1; have g2 : Good q t1 := good_onWd (State.wdgDup_good h); clear_value t1; exact good_ite (fun _ => State.wdgPeriod_good g2) (fun _ => g2))) (fun _ => h)))

theorem State.hcwStart_good {q} {s} (h : Good q s) : Good q (State.hcwStart s) := by
  unfold State.hcwStart
  exact good_onWd h

theorem State.hcwExpire_good {q} {s} (h : Good q s) : Good q (State.hcwExpire s) := by
  unfold State.hcwExpire
  extract_lets +onlyGivenNames t1
  have g2 : Good q t1 := State.raise_good (State.openRec_good h)
  clear_value t1
  extract_lets +onlyGivenNames t3
  have g4 : Good q t3 := good_onChg (good_onWd g2)
  clear_value t3
  exact State.tierFix_good (State.raise_good g4)

theorem State.hcwServe_good {q} {s} {a1} (h : Good q s) : Good q (State.hcwServe s a1) := by
  unfold State.hcwServe
  extract_lets +onlyGivenNames t1
  have g2 : Good q t1 := State.when_good h (fun _ => State.hcwExpire_good h)
  clear_value t1
  exact State.tierFix_good (good_onSys (good_onChg (good_onWd g2)) (fun h => h))

theorem State.hcwKick_good {q} {s} {a1} {a2} (h : Good q s) : Good q (State.hcwKick s a1 a2) := by
  unfold State.hcwKick
  exact good_ite (fun _ => (by extract_lets +onlyGivenNames t2; have g3 : Good q t2 := good_onWd h; clear_value t2; exact good_ite (fun _ => g3) (fun _ => good_ite (fun _ => State.hcwServe_good g3) (fun _ => good_onWd g3)))) (fun _ => good_onWd h)
end Sys2Proof.Machine
end

