-- ==== Sys2Proof/Laws/KeepClock.lean ====
section
/-! SUPPORT. What each operation and each meaning of Machine/Clock.lean keeps: the queue of waiting commands and the invariant of
Safety.lean; a meaning also answers a next state. -/
namespace Sys2Proof.Machine

set_option Elab.async false
open Sys2Proof.Safety

theorem State.gtsWrap_good {q} {s} (h : Good q s) : Good q (State.gtsWrap s) := by
  unfold State.gtsWrap
  extract_lets +onlyGivenNames t1
  have g2 : Good q t1 := good_onClk h
  clear_value t1
  exact State.when_good (State.raise_good g2) (fun _ => State.raise_good (State.raise_good g2))

theorem State.gtsAdd_good {q} {s} {a1} (h : Good q s) : Good q (State.gtsAdd s a1) := by
  unfold State.gtsAdd
  extract_lets +onlyGivenNames v1
  clear_value v1
  exact good_ite (fun _ => good_onClk h) (fun _ => good_onClk (State.gtsWrap_good h))

theorem State.idleTick_good {q} {s} (h : Good q s) : Good q (State.idleTick s) := by
  unfold State.idleTick
  exact good_ite (fun _ => h) (fun _ => good_ite (fun _ => good_ite (fun _ => good_onClk h) (fun _ => good_ite (fun _ => good_onStk h) (fun _ => (by extract_lets +onlyGivenNames v1; clear_value v1; extract_lets +onlyGivenNames t2; have g3 : Good q t2 := State.when_good h (fun _ => good_onStk h); clear_value t2; extract_lets +onlyGivenNames t4; have g5 : Good q t4 := State.gtsAdd_good (good_onClk g3); clear_value t4; exact good_onWd g5)))) (fun _ => (by extract_lets +onlyGivenNames v6; clear_value v6; exact State.gtsAdd_good (good_onClk h))))

theorem execMoscStart_good {q} {s} (h : Good q s) : GoodO q (execMoscStart s) := by
  unfold execMoscStart
  exact goodO_ite (fun _ => (by extract_lets +onlyGivenNames t2; have g3 : Good q t2 := State.gtsAdd_good (good_onClk h); clear_value t2; exact goodO_next (State.domRequest_good (State.bringUp_good g3)))) (fun _ => goodO_next h)

theorem execClockLoss_good {q} {s} (h : Good q s) : GoodO q (execClockLoss s) := by
  unfold execClockLoss
  exact goodO_ite (fun _ => (by extract_lets +onlyGivenNames t2; clear_value t2; exact settle_good (State.wdgExpire_good (good_onClk h)) h)) (fun _ => goodO_next h)

theorem execAoscFreq_good {q} {a0} {s} (h : Good q s) : GoodO q (execAoscFreq a0 s) := by
  unfold execAoscFreq
  exact goodO_next (State.when_good h (fun _ => State.failNote_good h))

theorem execGtsCalibration_good {q} {a0} {s} (h : Good q s) : GoodO q (execGtsCalibration a0 s) := by
  unfold execGtsCalibration
  exact goodO_next (State.when_good h (fun _ => good_onClk h))

theorem execGtsWrap_good {q} {s} (h : Good q s) : GoodO q (execGtsWrap s) := by
  unfold execGtsWrap
  exact goodO_next (State.when_good h (fun _ => State.gtsWrap_good (good_onClk h)))

theorem State.pwmFault_good {q} {s} {a1} (h : Good q s) : Good q (State.pwmFault s a1) := by
  unfold State.pwmFault
  split
  exacts [State.checkerFail_good h, h]

theorem execPllLock_good {q} {s} (h : Good q s) : GoodO q (execPllLock s) := by
  unfold execPllLock
  exact settle_good (State.pwmFault_good h) h

theorem execDllCal_good {q} {s} (h : Good q s) : GoodO q (execDllCal s) := by
  unfold execDllCal
  exact settle_good (State.pwmFault_good h) h

theorem State.isolate_good {q} {s} {a1} (h : Good q s) : Good q (State.isolate s a1) := by
  unfold State.isolate
  exact good_ite (fun _ => State.seqIsolate_good h) (fun _ => good_ite (fun _ => State.hostLost_good h) (fun _ => good_ite (fun _ => (by extract_lets +onlyGivenNames t6; have g7 : Good q t6 := good_foldl (fun _ _ x10 => (by extract_lets +onlyGivenNames t11; clear_value t11; exact good_ite (fun _ => State.place_good (State.onPhase_good x10 (fun x h => phaseOk_freed h))) (fun _ => x10))) _ h; clear_value t6; split; exacts [State.when_good g7 (fun _ => State.endPath_good g7), g7])) (fun _ => good_ite (fun _ => State.setVbus_good h) (fun _ => good_ite (fun _ => State.setVbus_good h) (fun _ => good_ite (fun _ => good_onMs h) (fun _ => good_ite (fun _ => good_onBus h (fun h => h)) (fun _ => h)))))))

theorem State.isolateServed_good {q} {s} {a1} (h : Good q s) (hs1 : Good q a1) : Good q (State.isolateServed s a1) := by
  unfold State.isolateServed
  split
  exacts [State.when_good hs1 (fun _ => State.isolate_good hs1), hs1]

theorem execDomainSwitchRequest_good {q} {a0} {a1} {s} (h : Good q s) : GoodO q (execDomainSwitchRequest a0 a1 s) := by
  unfold execDomainSwitchRequest
  exact goodO_ite (fun _ => goodO_next h) (fun _ => goodO_ite (fun _ => (by extract_lets +onlyGivenNames t4; have g5 : Good q t4 := State.when_good h (fun _ => good_onClk h); clear_value t4; extract_lets +onlyGivenNames t7; have g8 : Good q t7 := good_foldl (fun _ _ x11 => State.domRequest_good x11) _ g5; clear_value t7; exact goodO_next (State.domRequest_good g8))) (fun _ => goodO_ite (fun _ => goodO_next h) (fun _ => goodO_next (State.isolateServed_good h (State.domRequest_good h)))))

theorem State.domLost_good {q} {s} {a1} (h : Good q s) : Good q (State.domLost s a1) := by
  unfold State.domLost
  exact good_ite (fun _ => good_onSys (State.dropsClear_good h) (fun h => h)) (fun _ => good_ite (fun _ => State.seqLost_good h) (fun _ => h))

theorem State.domReleased_good {q} {s} {a1} (h : Good q s) : Good q (State.domReleased s a1) := by
  unfold State.domReleased
  exact good_ite (fun _ => State.when_good h (fun _ => State.setVbus_good h)) (fun _ => good_ite (fun _ => State.when_good h (fun _ => State.setVbus_good h)) (fun _ => good_ite (fun _ => good_onBus h (fun h => h)) (fun _ => h)))

theorem State.domDone_good {q} {s} {a1} {a2} (h : Good q s) : Good q (State.domDone s a1 a2) := by
  unfold State.domDone
  extract_lets +onlyGivenNames t1
  have g2 : Good q t1 := State.setDom_good (good_onSys h (fun h => h))
  clear_value t1
  extract_lets +onlyGivenNames t3
  have g4 : Good q t3 := good_ite (fun _ => State.domReleased_good g2) (fun _ => State.domLost_good g2)
  clear_value t3
  exact State.isolateServed_good g4 (serveDom_good g4)

theorem execDomainPowerUpDone_good {q} {a0} {s} (h : Good q s) : GoodO q (execDomainPowerUpDone a0 s) := by
  unfold execDomainPowerUpDone
  exact goodO_ite (fun _ => goodO_next (State.domDone_good h)) (fun _ => goodO_next h)

theorem execDomainSwitchOffDone_good {q} {a0} {s} (h : Good q s) : GoodO q (execDomainSwitchOffDone a0 s) := by
  unfold execDomainSwitchOffDone
  exact goodO_ite (fun _ => goodO_next (State.domDone_good h)) (fun _ => goodO_next h)

theorem State.taskFail_good {q} {s} {a1} {a2} (h : Good q s) : Good q (State.taskFail s a1 a2) := by
  unfold State.taskFail
  extract_lets +onlyGivenNames t1
  clear_value t1
  extract_lets +onlyGivenNames t2
  clear_value t2
  exact good_ite (fun _ => (by extract_lets +onlyGivenNames t4; have g5 : Good q t4 := good_onFlt h (fun h => h); clear_value t4; exact State.lasting_good g5)) (fun _ => State.failNote_good (good_onFlt h (fun h => h)))

theorem execTaskDeadline_good {q} {a0} {s} (h : Good q s) : GoodO q (execTaskDeadline a0 s) := by
  unfold execTaskDeadline
  exact settle_good (State.when_good h (fun _ => State.taskFail_good h)) h

theorem execTaskMpu_good {q} {a0} {s} (h : Good q s) : GoodO q (execTaskMpu a0 s) := by
  unfold execTaskMpu
  exact settle_good (State.when_good h (fun _ => State.taskFail_good h)) h
end Sys2Proof.Machine
end

