-- ==== Sys2Proof/Laws/KeepSequencer.lean ====
section
/-! SUPPORT. What each operation and each meaning of Machine/Sequencer.lean keeps: the queue of waiting commands and the invariant of
Safety.lean; a meaning also answers a next state. -/
namespace Sys2Proof.Machine

set_option Elab.async false
open Sys2Proof.Safety

theorem State.setGood_good {q} {s} {a1} {a2} (h : Good q s) : Good q (State.setGood s a1 a2) := by
  unfold State.setGood
  exact good_onSeq h

theorem execOnDelayExpiry_good {q} {s} (h : Good q s) : GoodO q (execOnDelayExpiry s) := by
  unfold execOnDelayExpiry
  exact goodO_ite (fun _ => (by extract_lets +onlyGivenNames t2; have g3 : Good q t2 := good_onSeq h; clear_value t2; split; exacts [goodO_ite (fun _ => goodO_next (State.upNext_good g3)) (fun _ => (by extract_lets +onlyGivenNames t6; have g7 : Good q t6 := good_onSeq g3; clear_value t6; exact goodO_next (State.when_good g7 (fun _ => State.upStep_good g7)))), goodO_next (State.upNext_good g3)])) (fun _ => goodO_next h)

theorem State.railGood_good {q} {s} {a1} (h : Good q s) : Good q (State.railGood s a1) := by
  unfold State.railGood
  exact good_ite (fun _ => h) (fun _ => (by extract_lets +onlyGivenNames t1; have g2 : Good q t1 := State.setGood_good h; clear_value t1; exact good_ite (fun _ => State.upStep_good g2) (fun _ => g2)))

theorem execRailGood_good {q} {a0} {s} (h : Good q s) : GoodO q (execRailGood a0 s) := by
  unfold execRailGood
  exact goodO_next (State.railGood_good h)

theorem execUpTimeout_good {q} {s} (h : Good q s) : GoodO q (execUpTimeout s) := by
  unfold execUpTimeout
  exact goodO_ite (fun _ => goodO_ite (fun _ => goodO_next (State.upStep_good h)) (fun _ => goodO_next (State.failNote_good (good_onSeq h)))) (fun _ => goodO_next h)

theorem execNobatSupplyReturn_good {q} {s} (h : Good q s) : GoodO q (execNobatSupplyReturn s) := by
  unfold execNobatSupplyReturn
  exact goodO_next (State.when_good h (fun _ => State.upRequest_good h))

theorem State.railFell_good {q} {s} {a1} (h : Good q s) : Good q (State.railFell s a1) := by
  unfold State.railFell
  exact good_ite (fun _ => h) (fun _ => good_ite (fun _ => State.setGood_good h) (fun _ => State.failNote_good (State.setGood_good h)))

theorem execRailFault_good {q} {a0} {s} (h : Good q s) : GoodO q (execRailFault a0 s) := by
  unfold execRailFault
  exact goodO_next (State.railFell_good h)

theorem execTpfwExpiry_good {q} {s} (h : Good q s) : GoodO q (execTpfwExpiry s) := by
  unfold execTpfwExpiry
  exact goodO_ite (fun _ => (by extract_lets +onlyGivenNames t1; have g2 : Good q t1 := good_onSeq h; clear_value t1; exact goodO_next (State.shipCheck_good (good_ite (fun _ => State.startDown_good g2) (fun _ => g2))))) (fun _ => goodO_next h)

theorem execRailFallDone_good {q} {a0} {s} (h : Good q s) : GoodO q (execRailFallDone a0 s) := by
  unfold execRailFallDone
  exact goodO_ite (fun _ => (by extract_lets +onlyGivenNames t1; have g2 : Good q t1 := good_onSeq h; clear_value t1; exact goodO_next (good_ite (fun _ => State.shipCheck_good (State.downStep_good g2)) (fun _ => g2)))) (fun _ => goodO_next h)

theorem execFallTimeout_good {q} {s} (h : Good q s) : GoodO q (execFallTimeout s) := by
  unfold execFallTimeout
  exact goodO_ite (fun _ => (by extract_lets +onlyGivenNames t2; clear_value t2; exact goodO_next (State.shipCheck_good (State.downStep_good (State.when_good h (fun _ => State.failNote_good h)))))) (fun _ => goodO_next h)

theorem execOffDelayExpiry_good {q} {s} (h : Good q s) : GoodO q (execOffDelayExpiry s) := by
  unfold execOffDelayExpiry
  exact goodO_next (good_ite (fun _ => State.shipCheck_good (State.downStep_good h)) (fun _ => h))

theorem execAux2MoveDone_good {q} {a0} {s} (h : Good q s) : GoodO q (execAux2MoveDone a0 s) := by
  unfold execAux2MoveDone
  exact goodO_ite (fun _ => (by extract_lets +onlyGivenNames t1; have g2 : Good q t1 := good_onSeq h; clear_value t1; exact goodO_next (good_ite (fun _ => State.railGood_good g2) (fun _ => State.railFell_good g2)))) (fun _ => goodO_next h)

theorem execNrstoRelease_good {q} {s} (h : Good q s) : GoodO q (execNrstoRelease s) := by
  unfold execNrstoRelease
  exact goodO_next (State.when_good h (fun _ => good_onSeq h))

theorem execNrstoPulseEnd_good {q} {s} (h : Good q s) : GoodO q (execNrstoPulseEnd s) := by
  unfold execNrstoPulseEnd
  exact goodO_next (good_onSeq h)

theorem State.liftRails_good {q} {s} (h : Good q s) : Good q (State.liftRails s) := by
  unfold State.liftRails
  exact good_foldl (fun _ _ g1 => State.liftFence_good g1) _ h

theorem State.seqUpCmd_good {q} {s} {a1} (h : Good q s) : Good q (State.seqUpCmd s a1) := by
  unfold State.seqUpCmd
  exact good_ite (fun _ => State.finish_good h) (fun _ => (by extract_lets +onlyGivenNames t3; clear_value t3; extract_lets +onlyGivenNames t4; clear_value t4; extract_lets +onlyGivenNames t5; have g6 : Good q t5 := State.when_good h (fun _ => State.liftRails_good h); clear_value t5; exact good_ite (fun _ => State.finish_good h) (fun _ => good_ite (fun _ => State.finish_good (good_onSeq g6)) (fun _ => good_ite (fun _ => State.finish_good (good_onSeq g6)) (fun _ => State.upRequest_good (good_onSeq (State.accept_good g6)))))))

theorem execSeqUp_good {q} {a0} {s} (h : Good q s) : GoodO q (execSeqUp a0 s) := by
  unfold execSeqUp
  exact goodO_next (State.carry_good h (fun _ g1 => State.seqUpCmd_good g1))

theorem State.seqDownCmd_good {q} {s} {a1} (h : Good q s) : Good q (State.seqDownCmd s a1) := by
  unfold State.seqDownCmd
  exact good_ite (fun _ => State.finish_good h) (fun _ => good_ite (fun _ => State.finish_good h) (fun _ => State.downRequest_good (good_onSeq (State.accept_good h))))

theorem execSeqDown_good {q} {a0} {s} (h : Good q s) : GoodO q (execSeqDown a0 s) := by
  unfold execSeqDown
  exact goodO_next (State.carry_good h (fun _ g1 => State.seqDownCmd_good g1))

theorem execNrstPulse_good {q} {a0} {s} (h : Good q s) : GoodO q (execNrstPulse a0 s) := by
  unfold execNrstPulse
  exact goodO_next (State.carry_good h (fun _ g1 => State.finish_good (State.nrstoPulse_good g1)))

theorem execLogRead_good {q} {a0} {s} (h : Good q s) : GoodO q (execLogRead a0 s) := by
  unfold execLogRead
  extract_lets +onlyGivenNames v1
  clear_value v1
  exact goodO_next (State.carry_good h (fun _ g2 => State.finish_good g2))
end Sys2Proof.Machine
end

