-- ==== Sys2Proof/Laws/KeepFault.lean ====
section
/-! SUPPORT. What each operation and each meaning of Machine/Fault.lean keeps: the queue of waiting commands and the invariant of
Safety.lean; a meaning also answers a next state. -/
namespace Sys2Proof.Machine

set_option Elab.async false
open Sys2Proof.Safety

theorem State.cpuCheck_good {q} {s} {a1} {a2} (h : Good q s) : Good q (State.cpuCheck s a1 a2) := by
  unfold State.cpuCheck
  exact State.when_good h (fun _ => State.failNote_good h)

theorem execGateSupply_good {q} {a0} {s} (h : Good q s) : GoodO q (execGateSupply a0 s) := by
  unfold execGateSupply
  exact goodO_next (State.when_good h (fun _ => State.failNote_good h))

theorem execQuadSensor_good {q} {a0} {s} (h : Good q s) : GoodO q (execQuadSensor a0 s) := by
  unfold execQuadSensor
  exact goodO_next (State.when_good h (fun _ => State.failNote_good h))

theorem execSampleFault_good {q} {a0} {a1} {s} (h : Good q s) : GoodO q (execSampleFault a0 a1 s) := by
  unfold execSampleFault
  extract_lets +onlyGivenNames t1
  have g2 : Good q t1 := State.when_good h (fun _ => State.drop_good h)
  clear_value t1
  exact goodO_next (State.when_good g2 (fun _ => State.failNote_good g2))

theorem execVbusSwitch_good {q} {a0} {s} (h : Good q s) : GoodO q (execVbusSwitch a0 s) := by
  unfold execVbusSwitch
  exact goodO_next (State.when_good h (fun _ => State.failNote_good h))

theorem execPortOv_good {q} {a0} {a1} {s} (h : Good q s) : GoodO q (execPortOv a0 a1 s) := by
  unfold execPortOv
  exact settle_good (State.when_good h (fun _ => State.checkerFail_good h)) h

theorem execPcReverse_good {q} {a0} {s} (h : Good q s) : GoodO q (execPcReverse a0 s) := by
  unfold execPcReverse
  exact settle_good (State.when_good h (fun _ => State.checkerFail_good h)) h

theorem execBatswOc_good {q} {a0} {s} (h : Good q s) : GoodO q (execBatswOc a0 s) := by
  unfold execBatswOc
  exact settle_good (State.when_good h (fun _ => State.checkerFail_good h)) h

theorem execLockstep_good {q} {s} (h : Good q s) : GoodO q (execLockstep s) := by
  unfold execLockstep
  exact goodO_next (State.cpuCheck_good h)

theorem execNvmEcc_good {q} {s} (h : Good q s) : GoodO q (execNvmEcc s) := by
  unfold execNvmEcc
  exact goodO_next (State.cpuCheck_good h)

theorem execSramEcc1_good {q} {s} (h : Good q s) : GoodO q (execSramEcc1 s) := by
  unfold execSramEcc1
  exact goodO_next (State.cpuCheck_good h)

theorem execSramEcc2_good {q} {s} (h : Good q s) : GoodO q (execSramEcc2 s) := by
  unfold execSramEcc2
  exact goodO_next (State.cpuCheck_good h)

theorem execRetParity_good {q} {a0} {s} (h : Good q s) : GoodO q (execRetParity a0 s) := by
  unfold execRetParity
  exact goodO_next (State.failNote_good h)

theorem execCellOv_good {q} {a0} {s} (h : Good q s) : GoodO q (execCellOv a0 s) := by
  unfold execCellOv
  exact goodO_next (State.when_good h (fun _ => State.failNote_good h))

theorem State.injUse_good {q} {s} (h : Good q s) : Good q (State.injUse s) := by
  unfold State.injUse
  exact good_onGrd h

theorem State.finjCheck_good {q} {s} (h : Good q s) : Good q (State.finjCheck s) := by
  unfold State.finjCheck
  split
  exacts [good_ite (fun _ => h) (fun _ => State.raise_good (good_onGrd h)), h]

theorem State.passAct_good {q} {s} {a1} (h : Good q s) : Good q (State.passAct s a1) := by
  unfold State.passAct
  extract_lets +onlyGivenNames v1
  clear_value v1
  exact good_ite (fun _ => (by extract_lets +onlyGivenNames t2; have g3 : Good q t2 := State.setGood_good h; clear_value t2; exact good_ite (fun _ => State.upStep_good g3) (fun _ => g3))) (fun _ => good_ite (fun _ => State.setGood_good h) (fun _ => good_ite (fun _ => (by extract_lets +onlyGivenNames v4; clear_value v4; exact State.onTc_good h)) (fun _ => good_ite (fun _ => good_onSeq h) (fun _ => h))))

theorem State.evaluate_good {q} {s} {a1} {a2} (h : Good q s) : Good q (State.evaluate s a1 a2) := by
  unfold State.evaluate
  extract_lets +onlyGivenNames v1
  clear_value v1
  extract_lets +onlyGivenNames t2
  have g3 : Good q t2 := good_onFlt h (fun h => h)
  clear_value t2
  extract_lets +onlyGivenNames t4
  have g5 : Good q t4 := State.when_good g3 (fun _ => good_onGrd g3)
  clear_value t4
  exact State.finjCheck_good (good_ite (fun _ => State.passAct_good (State.transient_good g5)) (fun _ => State.lasting_good g5))

theorem execSecondEvaluation_good {q} {a0} {a1} {a2} {s} (h : Good q s) : GoodO q (execSecondEvaluation a0 a1 a2 s) := by
  unfold execSecondEvaluation
  split
  exacts [(by exact settle_good (State.evaluate_good h) h), goodO_next h]

theorem State.causesMark_good {q} {s} {a1} (h : Good q s) : Good q (State.causesMark s a1) := by
  unfold State.causesMark
  exact good_onFlt h (by (intro hx; simp_all [qsOk, mbOk, nvmOk, fltOk, sysOk, ccOk, fabOk, phaseOk, cfgOk]; done))

theorem State.quietEnd_good {q} {s} {a1} (h : Good q s) : Good q (State.quietEnd s a1) := by
  unfold State.quietEnd
  exact good_ite (fun _ => h) (fun _ => good_ite (fun _ => State.holdExit_good h) (fun _ => State.quietStart_good (State.causesMark_good h)))

theorem execQuietPeriodEnd_good {q} {a0} {s} (h : Good q s) : GoodO q (execQuietPeriodEnd a0 s) := by
  unfold execQuietPeriodEnd
  exact settle_good (State.quietEnd_good h) h

theorem State.holdRelease_good {q} {s} {a1} {a2} (h : Good q s) : Good q (State.holdRelease s a1 a2).1 := by
  unfold State.holdRelease
  split
  exacts [good_onGrd (State.holdExit_good h), State.raise_good (good_onGrd h)]

theorem execHoldRel_good {q} {a0} {a1} {a2} {a3} {s} (h : Good q s) : GoodO q (execHoldRel a0 a1 a2 a3 s) := by
  unfold execHoldRel
  refine settle_good (State.guardPair_good h (fun _ _ g1 => State.when_good g1 (fun _ => ?_))) h
  exact good_ite (fun _ => State.holdRelease_good g1) (fun _ => State.guardFail_good (State.holdRelease_good g1))

theorem State.fecMore_good {q} {s} {a1} (h : Good q s) : Good q (State.fecMore s a1) := by
  unfold State.fecMore
  exact good_ite (fun _ => (by extract_lets +onlyGivenNames t1; have g2 : Good q t1 := good_onFlt h (fun h => h); clear_value t1; exact State.when_good g2 (fun _ => State.counterSat_good (good_onFlt g2 (fun h => h))))) (fun _ => h)

theorem State.fecTake_good {q} {s} {a1} {a2} {a3} {a4} (h : Good q s) : Good q (State.fecTake s a1 a2 a3 a4) := by
  unfold State.fecTake
  split
  exacts [State.fecMore_good h, State.raise_good (good_onFlt h (fun h => h))]

theorem execFecCapture_good {q} {a0} {a1} {a2} {a3} {s} (h : Good q s) : GoodO q (execFecCapture a0 a1 a2 a3 s) := by
  unfold execFecCapture
  exact goodO_next (State.when_good h (fun _ => State.fecTake_good h))

theorem State.finjWrite_good {q} {s} {a1} (h : Good q s) : Good q (State.finjWrite s a1) := by
  unfold State.finjWrite
  extract_lets +onlyGivenNames t1
  clear_value t1
  extract_lets +onlyGivenNames t2
  clear_value t2
  exact good_ite (fun _ => good_ite (fun _ => State.guardFail_good (good_onGrd h)) (fun _ => good_onGrd h)) (fun _ => good_ite (fun _ => h) (fun _ => good_onGrd h))

theorem execFinj_good {q} {a0} {a1} {s} (h : Good q s) : GoodO q (execFinj a0 a1 s) := by
  unfold execFinj
  exact goodO_next (State.guardPair_good h (fun _ _ g1 => State.finjWrite_good g1))

theorem State.injectedCheck_good {q} {s} {a1} {a2} (h : Good q s) : Good q (State.injectedCheck s a1 a2) := by
  unfold State.injectedCheck
  exact State.finjCheck_good (State.failNote_good (State.injUse_good h))

theorem execTestWordRead_good {q} {s} (h : Good q s) : GoodO q (execTestWordRead s) := by
  unfold execTestWordRead
  exact goodO_next (State.when_good h (fun _ => State.injectedCheck_good h))
end Sys2Proof.Machine
end

