-- ==== Sys2Proof/Laws/KeepStart.lean ====
section
/-! SUPPORT. What each operation and each meaning of Machine/Start.lean keeps: the queue of waiting commands and the invariant of
Safety.lean; a meaning also answers a next state. -/
namespace Sys2Proof.Machine

set_option Elab.async false
open Sys2Proof.Safety

theorem execAonPowerOn_good {q} {a0} {s} (h : Good q s) : GoodO q (execAonPowerOn a0 s) := by
  unfold execAonPowerOn
  exact goodO_ite (fun _ => goodO_next (State.aonOn_good (good_onSys h (fun h => h)))) (fun _ => goodO_next h)

theorem execAonPowerLoss_good {q} {s} (h : Good q s) : GoodO q (execAonPowerLoss s) := by
  unfold execAonPowerLoss
  exact goodO_next (State.dark_good (State.seeNodes_good h))

theorem execTier0Ready_good {q} {a0} {s} (h : Good q s) : GoodO q (execTier0Ready a0 s) := by
  unfold execTier0Ready
  extract_lets +onlyGivenNames t1
  clear_value t1
  exact goodO_ite (fun _ => (by extract_lets +onlyGivenNames t3; have g4 : Good q t3 := good_onSys (good_onPp (State.seeNodes_good h)) (fun h => h); clear_value t3; exact settle_good (State.romStart_good (State.switchClose_good (State.placeChanges_good g4 (State.limpOn_good g4)))) h)) (fun _ => goodO_next h)

theorem State.limpLeave_good {q} {s} (h : Good q s) : Good q (State.limpLeave s) := by
  unfold State.limpLeave
  split
  exacts [State.vbusRest_good (State.onPhase_good (State.onPath_good h) (by (intro x hx; split <;> simp_all [phaseOk, freed, fencedPh]; done))), h]

theorem State.limpMove_good {q} {s} {a1} (h : Good q s) : Good q (State.limpMove s a1) := by
  unfold State.limpMove
  extract_lets +onlyGivenNames t1
  clear_value t1
  extract_lets +onlyGivenNames t2
  have g3 : Good q t2 := State.when_good (State.limpLeave_good h) (fun _ => State.bringUp_good (State.limpLeave_good h))
  clear_value t2
  extract_lets +onlyGivenNames t5
  clear_value t5
  extract_lets +onlyGivenNames t6
  have g7 : Good q t6 := good_onSys g3 (fun h => h)
  clear_value t6
  extract_lets +onlyGivenNames t8
  have g9 : Good q t8 := (by dsimp only [t8]; split; exacts [State.setVbus_good (State.onPath_good (State.formPath_good (State.onPhase_good g7 (by (intro x hx; simp_all [phaseOk, freed, fencedPh]; done))))), g7])
  clear_value t8
  exact State.when_good (State.limpFollow_good g9) (fun _ => State.place_good (State.limpFollow_good g9))

theorem execLimpSourceChange_good {q} {a0} {s} (h : Good q s) : GoodO q (execLimpSourceChange a0 s) := by
  unfold execLimpSourceChange
  extract_lets +onlyGivenNames t1
  have g2 : Good q t1 := State.batHw_good (State.seeNodes_good h)
  clear_value t1
  split
  exacts [goodO_ite (fun _ => settle_good (State.sinkEnded_good h (State.limpMove_good g2)) h) (fun _ => goodO_next h), (by extract_lets +onlyGivenNames t5; clear_value t5; exact goodO_ite (fun _ => settle_good (State.limpMove_good g2) h) (fun _ => goodO_next h))]

theorem execSoftConnectComplete_good {q} {s} (h : Good q s) : GoodO q (execSoftConnectComplete s) := by
  unfold execSoftConnectComplete
  exact settle_good (State.when_good h (fun _ => good_onPp h)) h

theorem State.softFail_good {q} {s} (h : Good q s) : Good q (State.softFail s) := by
  unfold State.softFail
  extract_lets +onlyGivenNames t1
  have g2 : Good q t1 := good_onPp h
  clear_value t1
  exact State.when_good g2 (fun _ => State.failNote_good g2)

theorem execSoftConnect_good {q} {s} (h : Good q s) : GoodO q (execSoftConnect s) := by
  unfold execSoftConnect
  exact settle_good (State.when_good h (fun _ => State.softFail_good h)) h

theorem execSoftConnectRetry_good {q} {s} (h : Good q s) : GoodO q (execSoftConnectRetry s) := by
  unfold execSoftConnectRetry
  exact settle_good (State.when_good h (fun _ => State.switchClose_good (good_onPp h))) h

theorem State.imageNext_good {q} {s} (h : Good q s) : Good q (State.imageNext s) := by
  unfold State.imageNext
  extract_lets +onlyGivenNames v1
  clear_value v1
  exact good_ite (fun _ => good_onSys h (fun h => h)) (fun _ => (by split; exacts [good_onSys h (fun h => h), good_onSys h (fun h => h)]))

theorem execImageVerification_good {q} {s} (h : Good q s) : GoodO q (execImageVerification s) := by
  unfold execImageVerification
  exact goodO_next (State.when_good h (fun _ => State.imageNext_good h))

theorem State.chargeFrom_good {q} {s} {a1} (h : Good q s) : Good q (State.chargeFrom s a1) := by
  unfold State.chargeFrom
  extract_lets +onlyGivenNames v1
  clear_value v1
  extract_lets +onlyGivenNames v2
  clear_value v2
  exact good_onChg h

theorem State.chargeTier1_good {q} {s} (h : Good q s) : Good q (State.chargeTier1 s) := by
  unfold State.chargeTier1
  extract_lets +onlyGivenNames t1
  have g2 : Good q t1 := good_onChg h
  clear_value t1
  extract_lets +onlyGivenNames t3
  clear_value t3
  split
  exacts [good_ite (fun _ => State.chargeFrom_good g2) (fun _ => State.autoStart_good (good_onChg g2)), State.autoStart_good g2]

theorem State.modelDrop_good {q} {s} (h : Good q s) : Good q (State.modelDrop s) := by
  unfold State.modelDrop
  extract_lets +onlyGivenNames t1
  have g2 : Good q t1 := State.when_good h (fun _ => State.useFree_good (State.sweepAnswer_good (good_onSw h)))
  clear_value t1
  exact State.tierFix_good (good_onSw g2)

theorem State.batAtTier1_good {q} {s} (h : Good q s) : Good q (State.batAtTier1 s) := by
  unfold State.batAtTier1
  extract_lets +onlyGivenNames v1
  clear_value v1
  extract_lets +onlyGivenNames t2
  have g3 : Good q t2 := good_onPp h
  clear_value t2
  exact good_ite (fun _ => State.switchClose_good g3) (fun _ => State.modelDrop_good (State.switchOff_good g3))

theorem State.fwStart_good {q} {s} (h : Good q s) : Good q (State.fwStart s) := by
  unfold State.fwStart
  extract_lets +onlyGivenNames t1
  clear_value t1
  extract_lets +onlyGivenNames t2
  have g3 : Good q t2 := good_onSys h (fun h => h)
  clear_value t2
  extract_lets +onlyGivenNames t4
  have g5 : Good q t4 := good_onMs (State.bringUp_good g3)
  clear_value t4
  exact State.yarrow_good (State.takeRings_good (State.snapTake_good (State.wdgRecords_good (State.wdgStart_good (State.hcwStart_good g5)))))

theorem State.imageShow_good {q} {s} (h : Good q s) : Good q (State.imageShow s) := by
  unfold State.imageShow
  exact good_onSys h (fun h => h)

theorem load_ok {b : Bank} {v : BitVec 16} (h : cfgOk b.cfg) : cfgOk (b.load v) := by
  unfold Bank.load
  split
  · exact h
  · exact filter_ordered _ h

theorem loadBank_ok {q s} (h : Good q s) : cfgOk (match (if s.sys.image = 0 then none else s.bankNow) with
    | some b => b.2.load s.sys.imageVer
    | none => {}) := by
  split
  · rename_i b hb
    split at hb
    · cases hb
    · exact load_ok (bankNow_ok h (k := b.1) (b := b.2) hb)
  · rfl

theorem State.loadCfg_good {q s} (h : Good q s) : Good q (State.loadCfg s) := by
  have hc := loadBank_ok h
  unfold State.loadCfg
  extract_lets +onlyGivenNames bank
  extract_lets +onlyGivenNames t1
  have g2 : Good q t1 := State.applyCfg_good h (by assumption)
  clear_value t1
  extract_lets +onlyGivenNames v3
  clear_value v3
  exact good_onBus (good_onSys g2 (fun h => h)) (fun h => h)

theorem State.seqTier1_good {q} {s} (h : Good q s) : Good q (State.seqTier1 s) := by
  unfold State.seqTier1
  exact State.when_good h (fun _ => State.upRequest_good h)

theorem State.hrAtTier1_good {q} {s} {a1} (h : Good q s) : Good q (State.hrAtTier1 s a1) := by
  unfold State.hrAtTier1
  exact good_ite (fun _ => (by extract_lets +onlyGivenNames t2; have g3 : Good q t2 := State.onTc_good h; clear_value t2; exact good_ite (fun _ => State.hardReset_good g3) (fun _ => State.tcEvent_good (State.tx_good g3)))) (fun _ => h)

theorem State.shortPress_good {q} {s} {a1} (h : Good q s) : Good q (State.shortPress s a1) := by
  unfold State.shortPress
  extract_lets +onlyGivenNames t1
  have g2 : Good q t1 := State.raise_good h
  clear_value t1
  split
  exacts [State.nrstoPulse_good g2, State.when_good g2 (fun _ => State.upRequest_good (State.liftRails_good g2)), good_ite (fun _ => State.when_good g2 (fun _ => State.upRequest_good (State.liftRails_good g2))) (fun _ => State.nrstoPulse_good g2), g2]

theorem State.pressTake_good {q} {s} (h : Good q s) : Good q (State.pressTake s) := by
  unfold State.pressTake
  split
  exacts [State.shortPress_good (good_onSys h (fun h => h)), h]

theorem State.tier1_good {q} {s} (h : Good q s) : Good q (State.tier1 s) := by
  unfold State.tier1
  extract_lets +onlyGivenNames t1
  have g2 : Good q t1 := good_onSys (State.batAtTier1_good (State.loadCfg_good h)) (fun h => h)
  clear_value t1
  extract_lets +onlyGivenNames v3
  clear_value v3
  extract_lets +onlyGivenNames t4
  have g5 : Good q t4 := by
    refine good_onClk (good_ite (fun hf => good_onQs g2 fun hq => ⟨?_, hq.2⟩) fun _ => State.drop_good g2)
    simp [State.eventFits] at hf
    simp only [List.length_cons]
    omega
  clear_value t4
  extract_lets +onlyGivenNames t6
  have g7 : Good q t6 := good_onStk (State.fwStart_good g5)
  clear_value t6
  extract_lets +onlyGivenNames t8
  have g9 : Good q t8 := good_onCc g7 (fun h => h)
  clear_value t8
  extract_lets +onlyGivenNames t10
  have g11 : Good q t10 := good_onMs (good_onChg g9)
  clear_value t10
  exact State.pressTake_good (State.hrAtTier1_good (State.hrAtTier1_good (State.seqTier1_good g11)))

theorem execConfigurationLoad_good {q} {s} (h : Good q s) : GoodO q (execConfigurationLoad s) := by
  unfold execConfigurationLoad
  exact settle_good (State.when_good h (fun _ => State.tier1_good h)) h

theorem State.takeOver_good {q} {s} {a1} (h : Good q s) : Good q (State.takeOver s a1) := by
  unfold State.takeOver
  extract_lets +onlyGivenNames v1
  clear_value v1
  extract_lets +onlyGivenNames t2
  have g3 : Good q t2 := State.onPath_good (State.onPhase_good h (by (intro hx; simp_all [phaseOk])))
  clear_value t2
  extract_lets +onlyGivenNames t4
  have g5 : Good q t4 := good_onCc g3 (by (intro hx; simpa [ccOk] using hx))
  clear_value t4
  extract_lets +onlyGivenNames t6
  have g7 : Good q t6 := good_onSys g5 (fun h => h)
  clear_value t6
  exact State.reAngle_good (State.place_good g7)

theorem execTakeover_good {q} {a0} {s} (h : Good q s) : GoodO q (execTakeover a0 s) := by
  unfold execTakeover
  exact settle_good (State.when_good h (fun _ => State.takeOver_good h)) h

theorem execTakeoverDeferralExpiry_good {q} {a0} {s} (h : Good q s) : GoodO q (execTakeoverDeferralExpiry a0 s) := by
  unfold execTakeoverDeferralExpiry
  exact settle_good (State.when_good h (fun _ => State.takeOver_good h)) h

theorem execDormantIdleExpiry_good {q} {a0} {s} (h : Good q s) : GoodO q (execDormantIdleExpiry a0 s) := by
  unfold execDormantIdleExpiry
  exact settle_good (State.when_good h (fun _ => State.dormBegin_good h)) h

theorem State.dormSwitch_good {q} {s} {a1} (h : Good q s) : Good q (State.dormSwitch s a1) := by
  unfold State.dormSwitch
  exact good_ite (fun _ => h) (fun _ => good_ite (fun _ => good_onPp h) (fun _ => good_onPp (State.switchFull_good h)))

theorem State.dormEnter_good {q s a1} (h : Good q s) : Good q (State.dormEnter s a1) := by
  unfold State.dormEnter
  extract_lets +onlyGivenNames p lim keep t1
  have hk : cfgOk keep.cfg := cfgNow_ok h
  clear_value keep
  have g1 : Good q t1 := good_onClk (good_onGrd (State.injDisarm_good (State.fpEnd_good h)))
  clear_value t1
  extract_lets +onlyGivenNames t2
  have g2 : Good q t2 := good_onSys g1 (by intro hx; simp_all [sysOk])
  clear_value t2
  extract_lets +onlyGivenNames t3
  have g3 : Good q t3 :=
    State.placeChanges_good h (State.limpTo_good (good_onBus (State.dropsClear_good (State.hostLost_good (State.cpuLost_good g2))) (fun h => h)))
  clear_value t3
  extract_lets +onlyGivenNames t4
  have g4 : Good q t4 := good_onSys g3 (fun h => h)
  clear_value t4
  extract_lets +onlyGivenNames t5
  have g5 : Good q t5 :=
    good_onPp (State.dormSwitch_good (State.when_good g4 (fun _ => State.seqLost_good (State.seqIsolate_good g4))))
  clear_value t5
  extract_lets +onlyGivenNames t6
  have g6 : Good q t6 := good_onStk g5
  clear_value t6
  exact good_onTcb (good_onTca g6)

theorem State.dormNow_good {q} {s} {a1} (h : Good q s) : Good q (State.dormNow s a1) := by
  unfold State.dormNow
  extract_lets +onlyGivenNames t1
  have g2 : Good q t1 := good_onSys (State.dormEnter_good h) (fun h => h)
  clear_value t1
  exact State.when_good g2 (fun _ => State.wakeUp_good g2)

theorem State.dormGo_good {q} {s} {a1} {a2} (h : Good q s) : Good q (State.dormGo s a1 a2) := by
  unfold State.dormGo
  extract_lets +onlyGivenNames t1
  clear_value t1
  split
  exacts [good_ite (fun _ => State.dormNow_good h) (fun _ => State.dormCancel_good h), good_ite (fun _ => h) (fun _ => good_ite (fun _ => State.finishAct_good h) (fun _ => State.dormCancel_good h)), good_ite (fun _ => State.dormNow_good h) (fun _ => State.raise_good (State.dormCancel_good h)), h]

theorem execDormantEntry_good {q} {a0} {a1} {s} (h : Good q s) : GoodO q (execDormantEntry a0 a1 s) := by
  unfold execDormantEntry
  exact settle_good (State.when_good h (fun _ => State.dormGo_good h)) h

theorem execDormantWake_good {q} {a0} {s} (h : Good q s) : GoodO q (execDormantWake a0 s) := by
  unfold execDormantWake
  exact settle_good (State.wakeFrom_good h) h

theorem execWakeTimer_good {q} {s} (h : Good q s) : GoodO q (execWakeTimer s) := by
  unfold execWakeTimer
  exact settle_good (State.when_good h (fun _ => State.wakeFrom_good h)) h

theorem State.restore_good {q s v} (h : Good q s) (hc : cfgOk v.cfg) : Good q (State.restore s v) := by
  unfold State.restore
  extract_lets +onlyGivenNames t1
  have g2 : Good q t1 := good_onCc (State.applyCfg_good h (by assumption)) (fun h => h)
  clear_value t1
  exact good_onPp (good_onSw (good_onSys g2 (fun h => h)))

theorem State.wakeRun_good {q s} (h : Good q s) : Good q (State.wakeRun s) := by
  unfold State.wakeRun
  extract_lets +onlyGivenNames t1
  have g2 : Good q t1 := (by unfold t1; split; exacts [State.restore_good h (by exact h.2.2.2.2.2.2.2.1 _ ‹_›), h])
  clear_value t1
  extract_lets +onlyGivenNames t3
  have g4 : Good q t3 := State.fwStart_good g2
  clear_value t3
  extract_lets +onlyGivenNames t5
  have g6 : Good q t5 := State.raise_good (by split; exacts [State.chargeFrom_good g4, g4])
  clear_value t5
  extract_lets +onlyGivenNames t7
  have g8 : Good q t7 := good_onBus (good_onStk g6) (fun h => h)
  clear_value t7
  exact State.pressTake_good (State.dormRails_good (State.tierFix_good g8))

theorem execWakeRunReached_good {q} {s} (h : Good q s) : GoodO q (execWakeRunReached s) := by
  unfold execWakeRunReached
  exact settle_good (State.when_good h (fun _ => State.wakeRun_good h)) h

theorem State.shipWrite_good {q} {s} {a1} (h : Good q s) : Good q (State.shipWrite s a1) := by
  unfold State.shipWrite
  exact good_ite (fun _ => State.guardFail_good h) (fun _ => good_ite (fun _ => State.guardFail_good (good_onSys h (fun h => h))) (fun _ => State.raise_good (good_onSys h (fun h => h))))

theorem execShipEnt_good {q} {a0} {a1} {s} (h : Good q s) : GoodO q (execShipEnt a0 a1 s) := by
  unfold execShipEnt
  exact goodO_next (State.guardPair_good h (fun _ _ g1 => State.shipWrite_good g1))

theorem execShipDelayEnd_good {q} {s} (h : Good q s) : GoodO q (execShipDelayEnd s) := by
  unfold execShipDelayEnd
  exact goodO_ite (fun _ => goodO_next (State.shipCheck_good (State.downRequest_good (good_onSys h (fun h => h))))) (fun _ => goodO_next h)

theorem execShipForceOpen_good {q} {s} (h : Good q s) : GoodO q (execShipForceOpen s) := by
  unfold execShipForceOpen
  exact goodO_next (State.when_good h (fun _ => State.dark_good h))

theorem execShipExit_good {q} {a0} {s} (h : Good q s) : GoodO q (execShipExit a0 s) := by
  unfold execShipExit
  exact goodO_next (State.when_good h (fun _ => State.aonOn_good h))

theorem execPbtnShipExit_good {q} {s} (h : Good q s) : GoodO q (execPbtnShipExit s) := by
  unfold execPbtnShipExit
  exact goodO_next (State.when_good h (fun _ => State.aonOn_good h))

theorem execPbtnPress_good {q} {s} (h : Good q s) : GoodO q (execPbtnPress s) := by
  unfold execPbtnPress
  exact goodO_next (State.shipCancel_good (good_onSys h (fun h => h)))

theorem State.pressEnd_good {q} {s} {a1} (h : Good q s) : Good q (State.pressEnd s a1) := by
  unfold State.pressEnd
  exact good_ite (fun _ => h) (fun _ => good_ite (fun _ => State.wakeFrom_good (good_ite (fun _ => State.shortPress_good h) (fun _ => good_onSys h (fun h => h)))) (fun _ => good_ite (fun _ => State.raise_good h) (fun _ => h)))

theorem execPbtnRelease_good {q} {a0} {s} (h : Good q s) : GoodO q (execPbtnRelease a0 s) := by
  unfold execPbtnRelease
  extract_lets +onlyGivenNames t1
  have g2 : Good q t1 := good_onSys h (fun h => h)
  clear_value t1
  exact settle_good (State.when_good g2 (fun _ => State.pressEnd_good g2)) h

theorem execPbtnForceOff_good {q} {s} (h : Good q s) : GoodO q (execPbtnForceOff s) := by
  unfold execPbtnForceOff
  exact goodO_ite (fun _ => goodO_next (State.downCause_good (good_onSeq (State.raise_good h)))) (fun _ => goodO_next h)

theorem execBatteryCut_good {q} {s} (h : Good q s) : GoodO q (execBatteryCut s) := by
  unfold execBatteryCut
  exact goodO_next (State.when_good h (fun _ => State.dark_good h))

theorem execBatteryCutEnd_good {q} {s} (h : Good q s) : GoodO q (execBatteryCutEnd s) := by
  unfold execBatteryCutEnd
  exact goodO_next (State.when_good h (fun _ => State.aonOn_good h))
end Sys2Proof.Machine
end

