-- ==== Sys2Proof/Laws/KeepTypeC.lean ====
section
/-! SUPPORT. What each operation and each meaning of Machine/TypeC.lean keeps: the queue of waiting commands and the invariant of
Safety.lean; a meaning also answers a next state. -/
namespace Sys2Proof.Machine

set_option Elab.async false
open Sys2Proof.Safety

theorem State.onPd_good {q} {s} {a1} {a2} (h : Good q s) (hf2 : ∀ t, Good q t → Good q (a2 t)) : GoodO q (State.onPd s a1 a2) := by
  unfold State.onPd
  exact settle_good (State.when_good h (fun _ => hf2 _ (State.txClear_good h))) h

theorem State.setRp_good {q} {s} {a1} {a2} (h : Good q s) : Good q (State.setRp s a1 a2) := by
  unfold State.setRp
  split
  exacts [good_onPp h, good_onPp h]

theorem State.setNode_good {q} {s} {a1} {a2} (h : Good q s) : Good q (State.setNode s a1 a2) := by
  unfold State.setNode
  split
  exacts [good_onPp h, good_onPp h]

theorem State.contractEvent_good {q} {s} {a1} {a2} (h : Good q s) : Good q (State.contractEvent s a1 a2) := by
  unfold State.contractEvent
  exact State.tcEvent_good h

theorem execCcAttach_good {q} {a0} {a1} {s} (h : Good q s) : GoodO q (execCcAttach a0 a1 s) := by
  unfold execCcAttach
  extract_lets +onlyGivenNames t1
  clear_value t1
  exact goodO_ite (fun _ => goodO_next h) (fun _ => goodO_ite (fun _ => goodO_next (State.onTc_good h)) (fun _ => goodO_ite (fun _ => goodO_next (State.onTc_good h)) (fun _ => goodO_next h)))

theorem State.attachSnk_good {q} {s} {a1} {a2} {a3} {a4} (h : Good q s) : Good q (State.attachSnk s a1 a2 a3 a4) := by
  unfold State.attachSnk
  extract_lets +onlyGivenNames t1
  have g2 : Good q t1 := State.onTc_good (State.setNode_good (State.setRp_good h))
  clear_value t1
  exact State.shipCancel_good (State.attachEvent_good (State.limpFollow_good (State.setPresent_good g2)))

theorem State.attachSrc_good {q} {s} {a1} {a2} (h : Good q s) : Good q (State.attachSrc s a1 a2) := by
  unfold State.attachSrc
  extract_lets +onlyGivenNames t1
  have g2 : Good q t1 := State.startSource_good (State.onTc_good h)
  clear_value t1
  extract_lets +onlyGivenNames t3
  have g4 : Good q t3 := State.attachEvent_good (State.vconnOn_good g2)
  clear_value t3
  exact good_ite (fun _ => State.discoverCable_good g4) (fun _ => State.sendCaps_good g4)

theorem State.debounceEnd_good {q} {s} {a1} {a2} {a3} {a4} (h : Good q s) : Good q (State.debounceEnd s a1 a2 a3 a4) := by
  unfold State.debounceEnd
  extract_lets +onlyGivenNames v1
  clear_value v1
  exact good_ite (fun _ => h) (fun _ => (by extract_lets +onlyGivenNames t2; have g3 : Good q t2 := State.onTc_good (State.liftFence_good h); clear_value t2; exact good_ite (fun _ => good_ite (fun _ => State.attachSrc_good g3) (fun _ => State.onTc_good g3)) (fun _ => State.attachSnk_good g3)))

theorem execAttachDebounceEnd_good {q} {a0} {a1} {a2} {a3} {s} (h : Good q s) : GoodO q (execAttachDebounceEnd a0 a1 a2 a3 s) := by
  unfold execAttachDebounceEnd
  exact State.onPd_good h (fun _ g1 => State.debounceEnd_good g1)

theorem State.detachPort_good {q} {s} {a1} (h : Good q s) : Good q (State.detachPort s a1) := by
  unfold State.detachPort
  extract_lets +onlyGivenNames t1
  clear_value t1
  exact good_ite (fun _ => h) (fun _ => good_ite (fun _ => State.onTc_good h) (fun _ => (by extract_lets +onlyGivenNames t6; have g7 : Good q t6 := State.setNode_good h; clear_value t6; extract_lets +onlyGivenNames t8; have g9 : Good q t8 := good_ite (fun _ => State.limpMove_good g7) (fun _ => g7); clear_value t8; exact State.detach_good h (State.txClear_good (State.setRp_good g9)))))

theorem execDetach_good {q} {a0} {s} (h : Good q s) : GoodO q (execDetach a0 s) := by
  unfold execDetach
  exact settle_good (State.when_good h (fun _ => State.detachPort_good h)) h

theorem State.dischargeDone_good {q} {s} {a1} (h : Good q s) : Good q (State.dischargeDone s a1) := by
  unfold State.dischargeDone
  extract_lets +onlyGivenNames v1
  clear_value v1
  exact good_ite (fun _ => h) (fun _ => (by extract_lets +onlyGivenNames t2; have g3 : Good q t2 := State.onTc_good h; clear_value t2; exact good_ite (fun _ => State.tx_good (State.onTc_good g3)) (fun _ => good_ite (fun _ => g3) (fun _ => State.onTc_good g3))))

theorem execPortDischargeDone_good {q} {a0} {s} (h : Good q s) : GoodO q (execPortDischargeDone a0 s) := by
  unfold execPortDischargeDone
  exact goodO_next (State.dischargeDone_good (State.txClear_good h))

theorem State.vbusBack_good {q} {s} {a1} (h : Good q s) : Good q (State.vbusBack s a1) := by
  unfold State.vbusBack
  extract_lets +onlyGivenNames v1
  clear_value v1
  exact good_ite (fun _ => State.onTc_good (State.setPresent_good (State.setNode_good h))) (fun _ => h)

theorem execVsafe5vReturn_good {q} {a0} {s} (h : Good q s) : GoodO q (execVsafe5vReturn a0 s) := by
  unfold execVsafe5vReturn
  exact State.onPd_good h (fun _ g1 => State.vbusBack_good g1)

theorem execRpAdvertisementChange_good {q} {a0} {a1} {s} (h : Good q s) : GoodO q (execRpAdvertisementChange a0 a1 s) := by
  unfold execRpAdvertisementChange
  exact goodO_next (State.limpFollow_good (State.setRp_good h))

theorem State.newOffers_good {q} {s} {a1} {a2} {a3} {a4} (h : Good q s) : Good q (State.newOffers s a1 a2 a3 a4) := by
  unfold State.newOffers
  extract_lets +onlyGivenNames v1
  clear_value v1
  exact good_ite (fun _ => h) (fun _ => (by extract_lets +onlyGivenNames t2; have g3 : Good q t2 := State.onTc_good h; clear_value t2; exact State.eprTry_good (State.negotiate_good g3)))

theorem execSourceCapabilities_good {q} {a0} {a1} {a2} {a3} {s} (h : Good q s) : GoodO q (execSourceCapabilities a0 a1 a2 a3 s) := by
  unfold execSourceCapabilities
  exact State.onPd_good h (fun _ g1 => State.newOffers_good g1)

theorem State.dataSwap_good {q} {s} {a1} (h : Good q s) : Good q (State.dataSwap s a1) := by
  unfold State.dataSwap
  exact State.swapEvent_good (State.onTc_good h)

theorem State.swapOff_good {q} {s} {a1} (h : Good q s) : Good q (State.swapOff s a1) := by
  unfold State.swapOff
  extract_lets +onlyGivenNames t1
  clear_value t1
  extract_lets +onlyGivenNames t2
  clear_value t2
  extract_lets +onlyGivenNames t3
  have g4 : Good q t3 := State.setLearn_good (State.vbusRest_good (State.endPath_good h))
  clear_value t3
  extract_lets +onlyGivenNames t5
  have g6 : Good q t5 := (by dsimp only [t5]; split; exacts [State.onBox_good g4, g4])
  clear_value t5
  extract_lets +onlyGivenNames t7
  have g8 : Good q t7 := State.onTc_good (State.eprEnd_good g6)
  clear_value t7
  exact good_ite (fun _ => g8) (fun _ => State.sinkEnded_good h (State.setPresent_good g8))

theorem State.accepted_good {q} {s} {a1} (h : Good q s) : Good q (State.accepted s a1) := by
  unfold State.accepted
  extract_lets +onlyGivenNames v1
  clear_value v1
  split
  exacts [State.swapOff_good h, State.onTc_good h, good_ite (fun _ => State.onTc_good (State.finishO_good (State.dataSwap_good h))) (fun _ => good_ite (fun _ => State.discoverCable_good (State.swapEvent_good (State.tx_good (State.vconnOn_good (State.onTc_good h))))) (fun _ => (by split; exacts [State.onTc_good h, h]))), good_ite (fun _ => State.onTc_good (State.finishO_good (State.dataSwap_good h))) (fun _ => good_ite (fun _ => State.discoverCable_good (State.swapEvent_good (State.tx_good (State.vconnOn_good (State.onTc_good h))))) (fun _ => (by split; exacts [State.onTc_good h, h]))), good_ite (fun _ => State.onTc_good (State.finishO_good (State.dataSwap_good h))) (fun _ => good_ite (fun _ => State.discoverCable_good (State.swapEvent_good (State.tx_good (State.vconnOn_good (State.onTc_good h))))) (fun _ => (by split; exacts [State.onTc_good h, h]))), good_ite (fun _ => State.onTc_good (State.finishO_good (State.dataSwap_good h))) (fun _ => good_ite (fun _ => State.discoverCable_good (State.swapEvent_good (State.tx_good (State.vconnOn_good (State.onTc_good h))))) (fun _ => (by split; exacts [State.onTc_good h, h])))]

theorem execPdAccept_good {q} {a0} {s} (h : Good q s) : GoodO q (execPdAccept a0 s) := by
  unfold execPdAccept
  exact State.onPd_good h (fun _ g1 => State.accepted_good g1)

theorem State.contractNow_good {q} {s} {a1} {a2} (h : Good q s) : Good q (State.contractNow s a1 a2) := by
  unfold State.contractNow
  extract_lets +onlyGivenNames t1
  clear_value t1
  extract_lets +onlyGivenNames t2
  have g3 : Good q t2 := State.contractEvent_good (State.limpFollow_good (State.onTc_good (State.setLearn_good h)))
  clear_value t2
  extract_lets +onlyGivenNames t4
  have g5 : Good q t4 := State.frsEval_good (State.authMaybe_good (State.eprTry_good (State.tx_good g3)))
  clear_value t4
  extract_lets +onlyGivenNames t6
  have g7 : Good q t6 := State.reEvalNow_good g5
  clear_value t6
  exact good_ite (fun _ => State.dormNext_good g7) (fun _ => g7)

theorem State.errorRecovery_good {q} {s} {a1} (h : Good q s) : Good q (State.errorRecovery s a1) := by
  unfold State.errorRecovery
  extract_lets +onlyGivenNames t1
  clear_value t1
  exact State.finishO_good (State.swapEvent_good (State.onTc_good (State.authDetach_good h)))

theorem State.swapToSource_good {q} {s} {a1} (h : Good q s) : Good q (State.swapToSource s a1) := by
  unfold State.swapToSource
  extract_lets +onlyGivenNames t1
  clear_value t1
  exact good_ite (fun _ => (by extract_lets +onlyGivenNames t3; have g4 : Good q t3 := State.swapEvent_good (State.tx_good (State.startSource_good (State.onTc_good h))); clear_value t3; exact State.sendCaps_good (State.finishO_good g4))) (fun _ => State.errorRecovery_good h)

theorem State.psReady_good {q} {s} {a1} (h : Good q s) : Good q (State.psReady s a1) := by
  unfold State.psReady
  extract_lets +onlyGivenNames v1
  clear_value v1
  split
  exacts [good_ite (fun _ => h) (fun _ => State.swapToSource_good h), State.finishO_good (State.swapEvent_good (State.onTc_good h)), State.sendCaps_good (State.swapEvent_good (State.tx_good (State.onTc_good h))), (by split; exacts [State.contractNow_good h, h]), (by split; exacts [State.contractNow_good h, h]), (by split; exacts [State.contractNow_good h, h])]

theorem execPsRdy_good {q} {a0} {s} (h : Good q s) : GoodO q (execPsRdy a0 s) := by
  unfold execPsRdy
  exact State.onPd_good h (fun _ g1 => State.psReady_good g1)

theorem State.swapRefused_good {q} {s} {a1} {a2} (h : Good q s) : Good q (State.swapRefused s a1 a2) := by
  unfold State.swapRefused
  extract_lets +onlyGivenNames v1
  clear_value v1
  extract_lets +onlyGivenNames t2
  have g3 : Good q t2 := State.finishO_good (State.swapEvent_good (State.onTc_good h))
  clear_value t2
  exact good_ite (fun _ => State.srcRemove_good (State.onTc_good g3)) (fun _ => g3)

theorem State.dataRefused_good {q} {s} {a1} {a2} (h : Good q s) : Good q (State.dataRefused s a1 a2) := by
  unfold State.dataRefused
  extract_lets +onlyGivenNames v1
  clear_value v1
  exact State.finishO_good (State.swapEvent_good (State.onTc_good h))

theorem State.refused_good {q} {s} {a1} {a2} (h : Good q s) : Good q (State.refused s a1 a2) := by
  unfold State.refused
  split
  exacts [State.swapRefused_good h, State.hardReset_good h, State.dataRefused_good h, State.swapEvent_good (State.onTc_good h), State.fallBack_good (State.onTc_good h), h]

theorem execPdWait_good {q} {a0} {s} (h : Good q s) : GoodO q (execPdWait a0 s) := by
  unfold execPdWait
  exact State.onPd_good h (fun _ g1 => (by extract_lets +onlyGivenNames v2; clear_value v2; split; exacts [good_ite (fun _ => State.refused_good g1) (fun _ => State.onTc_good g1), good_ite (fun _ => State.refused_good g1) (fun _ => State.onTc_good g1), good_ite (fun _ => State.refused_good g1) (fun _ => State.onTc_good g1), State.refused_good g1, State.refused_good g1, g1]))

theorem State.waitRetry_good {q} {s} {a1} (h : Good q s) : Good q (State.waitRetry s a1) := by
  unfold State.waitRetry
  extract_lets +onlyGivenNames v1
  clear_value v1
  exact good_ite (fun _ => h) (fun _ => (by extract_lets +onlyGivenNames t2; have g3 : Good q t2 := State.onTc_good h; clear_value t2; split; exacts [State.tx_good g3, State.tx_good g3, State.sendReq_good g3, g3]))

theorem execWaitRetry_good {q} {a0} {s} (h : Good q s) : GoodO q (execWaitRetry a0 s) := by
  unfold execWaitRetry
  exact State.onPd_good h (fun _ g1 => State.waitRetry_good g1)

theorem execPdReject_good {q} {a0} {s} (h : Good q s) : GoodO q (execPdReject a0 s) := by
  unfold execPdReject
  exact State.onPd_good h (fun _ g1 => State.refused_good g1)

theorem execFallbackRerequest_good {q} {a0} {s} (h : Good q s) : GoodO q (execFallbackRerequest a0 s) := by
  unfold execFallbackRerequest
  exact State.onPd_good h (fun _ g1 => (by extract_lets +onlyGivenNames v2; clear_value v2; split; exacts [good_ite (fun _ => State.sendReq_good (State.onTc_good g1)) (fun _ => g1), g1]))

theorem execPpsRerequest_good {q} {a0} {s} (h : Good q s) : GoodO q (execPpsRerequest a0 s) := by
  unfold execPpsRerequest
  exact State.onPd_good h (fun _ g1 => (by extract_lets +onlyGivenNames v2; clear_value v2; split; exacts [good_ite (fun _ => State.sendReq_good g1) (fun _ => g1), g1]))

theorem State.eprMsg_good {q} {s} {a1} {a2} (h : Good q s) : Good q (State.eprMsg s a1 a2) := by
  unfold State.eprMsg
  extract_lets +onlyGivenNames t1
  clear_value t1
  split
  exacts [good_ite (fun _ => h) (fun _ => good_ite (fun _ => State.sendCaps_good (State.tcEvent_good (State.onTc_good (State.tx_good (State.tx_good h))))) (fun _ => State.tx_good h)), good_ite (fun _ => State.eprLeave_good (State.tcEvent_good (State.onTc_good h))) (fun _ => h), State.onTc_good h, good_ite (fun _ => (by extract_lets +onlyGivenNames t9; have g10 : Good q t9 := State.eprEnd_good h; clear_value t9; exact good_ite (fun _ => State.sendCaps_good g10) (fun _ => State.negotiate_good g10))) (fun _ => h), h]

theorem execEprMode_good {q} {a0} {a1} {s} (h : Good q s) : GoodO q (execEprMode a0 a1 s) := by
  unfold execEprMode
  exact State.onPd_good h (fun _ g1 => State.eprMsg_good g1)

theorem execEprKeepalive_good {q} {a0} {s} (h : Good q s) : GoodO q (execEprKeepalive a0 s) := by
  unfold execEprKeepalive
  exact State.onPd_good h (fun _ g1 => State.when_good g1 (fun _ => State.tx_good g1))

theorem State.cableSeen_good {q} {s} {a1} {a2} (h : Good q s) : Good q (State.cableSeen s a1 a2) := by
  unfold State.cableSeen
  extract_lets +onlyGivenNames v1
  clear_value v1
  exact good_ite (fun _ => h) (fun _ => (by split; exacts [State.sendCaps_good (State.onTc_good h), good_ite (fun _ => State.tx_good (State.onTc_good h)) (fun _ => State.sendCaps_good (State.onTc_good h))]))

theorem execCableDiscovery_good {q} {a0} {a1} {s} (h : Good q s) : GoodO q (execCableDiscovery a0 a1 s) := by
  unfold execCableDiscovery
  exact State.onPd_good h (fun _ g1 => State.cableSeen_good g1)

theorem execVconnOc_good {q} {a0} {s} (h : Good q s) : GoodO q (execVconnOc a0 s) := by
  unfold execVconnOc
  exact goodO_next (State.when_good h (fun _ => State.failNote_good (State.onTc_good h)))

theorem execSourceCapabilitiesUpdate_good {q} {a0} {s} (h : Good q s) : GoodO q (execSourceCapabilitiesUpdate a0 s) := by
  unfold execSourceCapabilitiesUpdate
  exact State.onPd_good h (fun _ g1 => State.when_good g1 (fun _ => State.sendCaps_good g1))

theorem State.requested_good {q} {s} {a1} {a2} {a3} {a4} (h : Good q s) : Good q (State.requested s a1 a2 a3 a4) := by
  unfold State.requested
  exact good_ite (fun _ => h) (fun _ => (by split; exacts [(by extract_lets +onlyGivenNames t3; have g4 : Good q t3 := State.onTc_good (State.tx_good (State.tx_good h)); clear_value t3; exact State.authMaybe_good (State.tx_good (State.contractEvent_good g4))), State.onTc_good (State.tx_good h)]))

theorem execPdRequest_good {q} {a0} {a1} {a2} {a3} {s} (h : Good q s) : GoodO q (execPdRequest a0 a1 a2 a3 s) := by
  unfold execPdRequest
  exact State.onPd_good h (fun _ g1 => State.requested_good g1)

theorem execSinkCapabilities_good {q} {a0} {a1} {a2} {s} (h : Good q s) : GoodO q (execSinkCapabilities a0 a1 a2 s) := by
  unfold execSinkCapabilities
  exact State.onPd_good h (fun _ g1 => State.when_good g1 (fun _ => State.frsEval_good (State.onTc_good g1)))

theorem execPrSwapReceived_good {q} {a0} {s} (h : Good q s) : GoodO q (execPrSwapReceived a0 s) := by
  unfold execPrSwapReceived
  exact State.onPd_good h (fun _ g1 => (by extract_lets +onlyGivenNames v2; clear_value v2; exact good_ite (fun _ => g1) (fun _ => good_ite (fun _ => State.swapOff_good (State.tx_good g1)) (fun _ => State.swapEvent_good (State.tx_good g1)))))

theorem execDrSwapReceived_good {q} {a0} {s} (h : Good q s) : GoodO q (execDrSwapReceived a0 s) := by
  unfold execDrSwapReceived
  exact State.onPd_good h (fun _ g1 => State.when_good g1 (fun _ => State.dataSwap_good (State.tx_good g1)))

theorem execVconnSwapReceived_good {q} {a0} {s} (h : Good q s) : GoodO q (execVconnSwapReceived a0 s) := by
  unfold execVconnSwapReceived
  exact State.onPd_good h (fun _ x2 => (by extract_lets +onlyGivenNames t3; clear_value t3; exact good_ite (fun _ => x2) (fun _ => good_ite (fun _ => (by extract_lets +onlyGivenNames t7; clear_value t7; exact good_ite (fun _ => State.swapEvent_good (State.tx_good x2)) (fun _ => State.swapEvent_good (State.onTc_good (State.tx_good x2))))) (fun _ => State.when_good (State.swapEvent_good (State.tx_good (State.vconnOn_good (State.tx_good x2)))) (fun _ => State.discoverCable_good (State.swapEvent_good (State.tx_good (State.vconnOn_good (State.tx_good x2)))))))))

theorem execHardResetReceived_good {q} {a0} {s} (h : Good q s) : GoodO q (execHardResetReceived a0 s) := by
  unfold execHardResetReceived
  exact State.onPd_good h (fun _ g1 => State.when_good g1 (fun _ => State.hardReset_good (State.onTc_good g1)))

theorem execSourceCapabilitiesTimeout_good {q} {a0} {s} (h : Good q s) : GoodO q (execSourceCapabilitiesTimeout a0 s) := by
  unfold execSourceCapabilitiesTimeout
  exact State.onPd_good h (fun _ g1 => (by extract_lets +onlyGivenNames v2; clear_value v2; exact good_ite (fun _ => good_ite (fun _ => State.onTc_good g1) (fun _ => State.hardReset_good g1)) (fun _ => g1)))

theorem execHardResetSourceRestore_good {q} {a0} {s} (h : Good q s) : GoodO q (execHardResetSourceRestore a0 s) := by
  unfold execHardResetSourceRestore
  exact State.onPd_good h (fun _ g1 => (by extract_lets +onlyGivenNames v2; clear_value v2; exact good_ite (fun _ => good_ite (fun _ => (by extract_lets +onlyGivenNames t3; have g4 : Good q t3 := State.vconnOn_good (State.startSource_good (State.onTc_good g1)); clear_value t3; exact State.when_good g4 (fun _ => State.sendCaps_good g4))) (fun _ => State.srcRemove_good (State.onTc_good g1))) (fun _ => g1)))

theorem State.noAnswer_good {q} {s} {a1} (h : Good q s) : Good q (State.noAnswer s a1) := by
  unfold State.noAnswer
  extract_lets +onlyGivenNames t1
  clear_value t1
  split
  exacts [good_ite (fun _ => State.srcRemove_good h) (fun _ => State.swapAbandon_good h), good_ite (fun _ => h) (fun _ => State.errorRecovery_good h), State.errorRecovery_good h, State.hardReset_good h, State.hardReset_good h, good_ite (fun _ => State.hardReset_good h) (fun _ => good_ite (fun _ => good_ite (fun _ => State.onTc_good h) (fun _ => State.hardReset_good h)) (fun _ => good_ite (fun _ => State.swapAbandon_good h) (fun _ => State.onTc_good h)))]

theorem execPrSwapNoAnswer_good {q} {a0} {s} (h : Good q s) : GoodO q (execPrSwapNoAnswer a0 s) := by
  unfold execPrSwapNoAnswer
  exact State.onPd_good h (fun _ x2 => State.noAnswer_good x2)

theorem execSecurityRequest_good {q} {a0} {a1} {a2} {a3} {s} (h : Good q s) : GoodO q (execSecurityRequest a0 a1 a2 a3 s) := by
  unfold execSecurityRequest
  exact State.onPd_good h (fun _ g1 => State.when_good g1 (fun _ => State.useFree_good (State.tx_good g1)))

theorem State.authResult_good {q} {s} {a1} {a2} (h : Good q s) : Good q (State.authResult s a1 a2) := by
  unfold State.authResult
  extract_lets +onlyGivenNames t1
  clear_value t1
  extract_lets +onlyGivenNames t2
  have g3 : Good q t2 := State.authEvent_good (State.onTc_good h)
  clear_value t2
  extract_lets +onlyGivenNames t4
  have g5 : Good q t4 := State.finishO_good (State.onTc_good g3)
  clear_value t4
  exact State.when_good g5 (fun _ => State.tcReeval_good g5)

theorem execSecurityResponse_good {q} {a0} {a1} {a2} {s} (h : Good q s) : GoodO q (execSecurityResponse a0 a1 a2 s) := by
  unfold execSecurityResponse
  exact State.onPd_good h (fun _ g1 => State.when_good g1 (fun _ => State.authResult_good g1))

theorem execGetSourceCap_good {q} {a0} {s} (h : Good q s) : GoodO q (execGetSourceCap a0 s) := by
  unfold execGetSourceCap
  exact State.onPd_good h (fun _ g1 => State.when_good g1 (fun _ => good_ite (fun _ => State.sendCaps_good g1) (fun _ => good_ite (fun _ => State.tx_good g1) (fun _ => State.tx_good g1))))

theorem execGetSinkCap_good {q} {a0} {s} (h : Good q s) : GoodO q (execGetSinkCap a0 s) := by
  unfold execGetSinkCap
  exact State.onPd_good h (fun _ g1 => State.when_good g1 (fun _ => State.useFree_good (State.tx_good g1)))

theorem State.tellData_good {q} {s} {a1} {a2} (h : Good q s) : GoodO q (State.tellData s a1 a2) := by
  unfold State.tellData
  exact State.onPd_good h (fun _ g1 => State.when_good g1 (fun _ => State.useFree_good (State.tx_good g1)))

theorem execGetSourceCapExtended_good {q} {a0} {s} (h : Good q s) : GoodO q (execGetSourceCapExtended a0 s) := by
  unfold execGetSourceCapExtended
  exact State.tellData_good h

theorem execGetStatus_good {q} {a0} {s} (h : Good q s) : GoodO q (execGetStatus a0 s) := by
  unfold execGetStatus
  exact State.tellData_good h

theorem execGetRevision_good {q} {a0} {s} (h : Good q s) : GoodO q (execGetRevision a0 s) := by
  unfold execGetRevision
  exact State.tellData_good h

theorem execGetManufacturerInfo_good {q} {a0} {s} (h : Good q s) : GoodO q (execGetManufacturerInfo a0 s) := by
  unfold execGetManufacturerInfo
  exact State.tellData_good h

theorem execGetBatteryCap_good {q} {a0} {s} (h : Good q s) : GoodO q (execGetBatteryCap a0 s) := by
  unfold execGetBatteryCap
  exact State.onPd_good h (fun _ g1 => State.when_good g1 (fun _ => State.tx_good g1))

theorem execGetBatteryStatus_good {q} {a0} {s} (h : Good q s) : GoodO q (execGetBatteryStatus a0 s) := by
  unfold execGetBatteryStatus
  exact State.onPd_good h (fun _ g1 => State.when_good g1 (fun _ => State.tx_good g1))

theorem execAlert_good {q} {a0} {a1} {s} (h : Good q s) : GoodO q (execAlert a0 a1 s) := by
  unfold execAlert
  exact State.onPd_good h (fun _ g1 => State.when_good g1 (fun _ => State.tcEvent_good (State.tx_good g1)))

theorem execSoftReset_good {q} {a0} {s} (h : Good q s) : GoodO q (execSoftReset a0 s) := by
  unfold execSoftReset
  exact State.onPd_good h (fun _ g1 => State.when_good g1 (fun _ => (by extract_lets +onlyGivenNames t2; have g3 : Good q t2 := State.onTc_good (State.tx_good g1); clear_value t2; exact good_ite (fun _ => State.sendCaps_good g3) (fun _ => g3))))

theorem execDiscoverIdentity_good {q} {a0} {s} (h : Good q s) : GoodO q (execDiscoverIdentity a0 s) := by
  unfold execDiscoverIdentity
  exact State.onPd_good h (fun _ g1 => State.when_good g1 (fun _ => State.useFree_good (State.tx_good g1)))

theorem execUnsupportedVdm_good {q} {a0} {s} (h : Good q s) : GoodO q (execUnsupportedVdm a0 s) := by
  unfold execUnsupportedVdm
  exact State.onPd_good h (fun _ g1 => State.when_good g1 (fun _ => State.tx_good g1))

theorem execBist_good {q} {a0} {a1} {a2} {s} (h : Good q s) : GoodO q (execBist a0 a1 a2 s) := by
  unfold execBist
  exact State.onPd_good h (fun _ g1 => State.when_good g1 (fun _ => State.tx_good (State.onTc_good g1)))

theorem execPortQuery_good {q} {a0} {s} (h : Good q s) : GoodO q (execPortQuery a0 s) := by
  unfold execPortQuery
  exact goodO_next (State.carry_good h (fun _ g1 => State.finish_good g1))

theorem State.prSwapCmd_good {q} {s} {a1} {a2} (h : Good q s) : Good q (State.prSwapCmd s a1 a2) := by
  unfold State.prSwapCmd
  extract_lets +onlyGivenNames t1
  clear_value t1
  exact good_ite (fun _ => State.finish_good h) (fun _ => good_ite (fun _ => State.finish_good h) (fun _ => State.tx_good (State.onTc_good (State.accept_good h))))

theorem execPrSwap_good {q} {a0} {s} (h : Good q s) : GoodO q (execPrSwap a0 s) := by
  unfold execPrSwap
  exact goodO_next (State.carry_good h (fun _ g1 => (by extract_lets +onlyGivenNames v2; clear_value v2; exact State.prSwapCmd_good (State.txClear_good g1))))

theorem State.drSwapCmd_good {q} {s} {a1} {a2} (h : Good q s) : Good q (State.drSwapCmd s a1 a2) := by
  unfold State.drSwapCmd
  extract_lets +onlyGivenNames v1
  clear_value v1
  exact good_ite (fun _ => State.finish_good h) (fun _ => good_ite (fun _ => State.finish_good h) (fun _ => State.tx_good (State.onTc_good (State.accept_good h))))

theorem execDrSwap_good {q} {a0} {s} (h : Good q s) : GoodO q (execDrSwap a0 s) := by
  unfold execDrSwap
  exact goodO_next (State.carry_good h (fun _ g1 => (by extract_lets +onlyGivenNames v2; clear_value v2; exact State.drSwapCmd_good (State.txClear_good g1))))

theorem State.authCmd_good {q} {s} {a1} {a2} (h : Good q s) : Good q (State.authCmd s a1 a2) := by
  unfold State.authCmd
  extract_lets +onlyGivenNames v1
  clear_value v1
  exact good_ite (fun _ => State.finish_good h) (fun _ => good_ite (fun _ => State.finish_good h) (fun _ => (by extract_lets +onlyGivenNames t2; have g3 : Good q t2 := State.onTc_good (State.accept_good h); clear_value t2; exact good_ite (fun _ => g3) (fun _ => State.authStart_good g3))))

theorem execAuth_good {q} {a0} {s} (h : Good q s) : GoodO q (execAuth a0 s) := by
  unfold execAuth
  exact goodO_next (State.carry_good h (fun _ g1 => (by extract_lets +onlyGivenNames v2; clear_value v2; exact State.authCmd_good (State.txClear_good g1))))

theorem execRootSet_good {q} {a0} {s} (h : Good q s) : GoodO q (execRootSet a0 s) := by
  unfold execRootSet
  exact goodO_next (State.carry_good h (fun _ g1 => (by extract_lets +onlyGivenNames v2; clear_value v2; exact State.finish_good (good_onNvm g1 (fun h => h)))))
end Sys2Proof.Machine
end

