-- ==== Sys2Proof/Laws/KeepControl.lean ====
section
/-! SUPPORT. What each operation and each meaning of Machine/Control.lean keeps: the queue of waiting commands and the invariant of
Safety.lean; a meaning also answers a next state. -/
namespace Sys2Proof.Machine

set_option Elab.async false
open Sys2Proof.Safety

theorem State.tickMeasure_good {q} {a0} {s} (h : Good q s) : Good q (State.tickMeasure a0 s) := by
  unfold State.tickMeasure
  extract_lets +onlyGivenNames t1
  have g2 : Good q t1 := good_onSeq (good_onMs (State.seeNodes_good h))
  clear_value t1
  extract_lets +onlyGivenNames t3
  have g4 : Good q t3 := good_onFab g2 (by (intro hx; refine ⟨by simpa using hx.1, by simpa using hx.2.1, ?_⟩; intro x hm; obtain ⟨i, hi, rfl⟩ := List.mem_mapIdx.1 hm; have := hx.2.2 _ (List.getElem_mem hi); (try dsimp only); (repeat' split); all_goals (first | exact this | exact phaseOk_freed this | exact ⟨fun h => by simp at h, Nat.zero_le _⟩)))
  clear_value t3
  exact good_onFab g4 (by (intro hx; refine ⟨by simpa using hx.1, by simpa using hx.2.1, ?_⟩; intro x hm; obtain ⟨i, hi, rfl⟩ := List.mem_mapIdx.1 hm; have := hx.2.2 _ (List.getElem_mem hi); (try dsimp only); (repeat' split); all_goals (first | exact this | exact phaseOk_freed this | exact ⟨fun h => by simp at h, Nat.zero_le _⟩)))

theorem State.tickThermal_good {q} {s} (h : Good q s) : Good q (State.tickThermal s) := by
  unfold State.tickThermal
  extract_lets +onlyGivenNames v1
  clear_value v1
  extract_lets +onlyGivenNames v2
  clear_value v2
  exact good_onFab h (by (intro hx; (try dsimp only); (repeat' split); all_goals exact hx))

theorem State.peakEnd_good {q} {s} (h : Good q s) : Good q (State.peakEnd s) := by
  unfold State.peakEnd
  exact State.raise_good (good_onFab h (fun h => h))

theorem State.tickPeak_good {q} {s} (h : Good q s) : Good q (State.tickPeak s) := by
  unfold State.tickPeak
  extract_lets +onlyGivenNames v1
  clear_value v1
  extract_lets +onlyGivenNames t2
  have g3 : Good q t2 := good_onFab h (fun h => h)
  clear_value t2
  extract_lets +onlyGivenNames v4
  split
  exacts [State.when_good g3 (fun _ => State.raise_good (good_onFab g3 (fun h => h))), State.when_good g3 (fun _ => State.peakEnd_good g3), State.when_good g3 (fun _ => good_onFab g3 (fun h => h))]

theorem State.sinkReqs_good {q} {s} {a1} {a2} (h : Good q s) : Good q (State.sinkReqs s a1 a2) := by
  induction a1 generalizing s a2 with
  | nil =>
    unfold State.sinkReqs
    exact h
  | cons x r ih =>
    unfold State.sinkReqs
    exact ih (State.onPath_good h)

theorem State.tickRequests_good {q} {s} {a1} (h : Good q s) : Good q (State.tickRequests s a1) := by
  unfold State.tickRequests
  extract_lets +onlyGivenNames t1
  have g2 : Good q t1 := State.sinkReqs_good h
  clear_value t1
  exact good_foldl (fun _ _ g3 => State.when_good g3 (fun _ => State.onPath_good g3)) _ g2

theorem State.lowerBy_good {q} {s} {a1} {a2} {a3} (h : Good q s) : Good q (State.lowerBy s a1 a2 a3) := by
  unfold State.lowerBy
  extract_lets +onlyGivenNames v1
  clear_value v1
  exact good_ite (fun _ => h) (fun _ => good_foldl (fun _ _ g2 => State.onPath_good g2) _ h)

theorem State.shed_good {q} {s} {a1} {a2} (h : Good q s) : Good q (State.shed s a1 a2) := by
  unfold State.shed
  exact good_foldl (fun _ _ g1 => State.lowerBy_good g1) _ h

theorem State.floors_good {q} {s} {a1} (h : Good q s) : Good q (State.floors s a1) := by
  unfold State.floors
  exact good_foldl (fun _ _ g1 => State.onPath_good g1) _ h

theorem State.serveAsks_good {q} {s} {a1} {a2} (h : Good q s) : Good q (State.serveAsks s a1 a2) := by
  unfold State.serveAsks
  extract_lets +onlyGivenNames v1
  clear_value v1
  extract_lets +onlyGivenNames v2
  clear_value v2
  extract_lets +onlyGivenNames v3
  clear_value v3
  exact good_foldl (fun _ _ g4 => State.onPath_good g4) _ h

theorem State.reclaim_good {q} {s} {a1} {a2} {a3} (h : Good q s) : Good q (State.reclaim s a1 a2 a3) := by
  induction a2 generalizing s a1 a3 with
  | nil =>
    unfold State.reclaim
    exact h
  | cons x r ih =>
    unfold State.reclaim
    exact good_ite (fun _ => h) (fun _ => (by extract_lets +onlyGivenNames v1; clear_value v1; extract_lets +onlyGivenNames t2; have g3 : Good q t2 := State.lowerBy_good h; clear_value t2; exact ih g3))

theorem State.reclaimFor_good {q} {s} {a1} (h : Good q s) : Good q (State.reclaimFor s a1) := by
  unfold State.reclaimFor
  exact State.reclaim_good h

theorem State.tickGrants_good {q} {s} {a1} (h : Good q s) : Good q (State.tickGrants s a1) := by
  unfold State.tickGrants
  extract_lets +onlyGivenNames t1
  have g2 : Good q t1 := good_foldl (fun _ _ g3 => State.onPath_good g3) _ h
  clear_value t1
  extract_lets +onlyGivenNames t4
  have g5 : Good q t4 := State.shed_good (State.shed_good g2)
  clear_value t4
  extract_lets +onlyGivenNames t6
  have g7 : Good q t6 := good_foldl (fun _ _ g8 => State.serveAsks_good g8) _ (State.floors_good g5)
  clear_value t6
  extract_lets +onlyGivenNames t9
  have g10 : Good q t9 := good_onFab g7 (by (intro hx; exact ⟨hx.1, by simpa using hx.2.1, hx.2.2⟩))
  clear_value t9
  extract_lets +onlyGivenNames t11
  have g12 : Good q t11 := good_foldl (fun _ _ g13 => State.reclaimFor_good g13) _ g10
  clear_value t11
  exact good_onFab g12 (by (intro hx; exact ⟨hx.1, by simpa using hx.2.1, hx.2.2⟩))

theorem State.tickBasin_good {q} {s} (h : Good q s) : Good q (State.tickBasin s) := by
  unfold State.tickBasin
  extract_lets +onlyGivenNames v1
  clear_value v1
  extract_lets +onlyGivenNames t2
  have g3 : Good q t2 := State.tickGrants_good (good_onFab h (fun h => h))
  clear_value t2
  extract_lets +onlyGivenNames v4
  clear_value v4
  extract_lets +onlyGivenNames v5
  clear_value v5
  extract_lets +onlyGivenNames v6
  clear_value v6
  extract_lets +onlyGivenNames v7
  clear_value v7
  extract_lets +onlyGivenNames t8
  have g9 : Good q t8 := good_onFab g3 (fun h => h)
  clear_value t8
  exact State.when_good g9 (fun _ => State.raise_good g9)

theorem State.tickPaths_good {q} {s} (h : Good q s) : Good q (State.tickPaths s) := by
  unfold State.tickPaths
  extract_lets +onlyGivenNames v1
  clear_value v1
  extract_lets +onlyGivenNames t2
  have g3 : Good q t2 := State.when_good h (fun _ => good_foldl (fun _ _ g4 => State.when_good g4 (fun _ => State.startPath_good g4)) _ h)
  clear_value t2
  extract_lets +onlyGivenNames v5
  clear_value v5
  exact good_foldl (fun _ _ g6 => (by extract_lets +onlyGivenNames v7; clear_value v7; exact State.when_good g6 (fun _ => (by exact State.sinkEnded_good g6 (State.endPath_good g6))))) _ g3

theorem State.tickLead_good {q} {s} (h : Good q s) : Good q (State.tickLead s) := by
  unfold State.tickLead
  extract_lets +onlyGivenNames v1
  clear_value v1
  extract_lets +onlyGivenNames t2
  have g3 : Good q t2 := good_onFab h (fun h => h)
  clear_value t2
  extract_lets +onlyGivenNames t4
  have g5 : Good q t4 := State.when_good g3 (fun _ => State.sweepDisturb_good g3)
  clear_value t4
  exact good_ite (fun _ => State.sweepAbort_good g5) (fun _ => g5)

theorem State.tickTarget_good {q} {s} (h : Good q s) : Good q (State.tickTarget s) := by
  unfold State.tickTarget
  exact State.when_good h (fun _ => good_onStk h)

theorem State.tickAdds_good {q} {s} (h : Good q s) : Good q (State.tickAdds s) := by
  unfold State.tickAdds
  exact State.tickTarget_good (good_foldl (fun _ _ x3 => State.onPath_good x3) _ h)

theorem State.powerQuad_good {q} {s} {a1} (h : Good q s) : Good q (State.powerQuad s a1) := by
  unfold State.powerQuad
  exact State.domOn_good h

theorem State.placeOn_good {q} {s} {a1} {a2} {a3} (h : Good q s) : Good q (State.placeOn s a1 a2 a3) := by
  unfold State.placeOn
  exact good_ite (fun _ => State.powerQuad_good h) (fun _ => good_ite (fun _ => State.failNote_good h) (fun _ => State.placeFree_good h))

theorem State.gain_good {q} {s} {a1} {a2} (h : Good q s) : Good q (State.gain s a1 a2) := by
  unfold State.gain
  extract_lets +onlyGivenNames v1
  clear_value v1
  extract_lets +onlyGivenNames v2
  clear_value v2
  extract_lets +onlyGivenNames v3
  clear_value v3
  exact good_ite (fun _ => h) (fun _ => (by extract_lets +onlyGivenNames v6; clear_value v6; split; exacts [(by split; exacts [State.handOff_good h, h]), (by split; exacts [State.placeOn_good h, h])]))

theorem State.bound_good {q} {s} {a1} (h : Good q s) : Good q (State.bound s a1) := by
  unfold State.bound
  exact good_ite (fun _ => (by split; exacts [State.drainOff_good h, h])) (fun _ => h)

theorem State.allocate_good {q} {s} (h : Good q s) : Good q (State.allocate s) := by
  unfold State.allocate
  extract_lets +onlyGivenNames v1
  clear_value v1
  extract_lets +onlyGivenNames t2
  have g3 : Good q t2 := good_foldl (fun _ _ g4 => State.gain_good g4) _ h
  clear_value t2
  extract_lets +onlyGivenNames t5
  have g6 : Good q t5 := good_foldl (fun _ _ g7 => State.bound_good g7) _ g3
  clear_value t5
  exact State.when_good g6 (fun _ => (by split; exacts [State.drainOff_good g6, g6]))

theorem State.drainAll_good {q} {s} {a1} (h : Good q s) : Good q (State.drainAll s a1) := by
  unfold State.drainAll
  exact good_foldl (fun _ _ g1 => (by split; exacts [State.drainOff_good g1, State.drainOff_good g1, g1])) _ h

theorem State.applyMap_good {q} {s} {a1} (h : Good q s) : Good q (State.applyMap s a1) := by
  unfold State.applyMap
  extract_lets +onlyGivenNames t1
  clear_value t1
  split
  exacts [good_ite (fun _ => h) (fun _ => good_ite (fun _ => State.placeOn_good h) (fun _ => good_ite (fun _ => (by split; exacts [good_ite (fun _ => h) (fun _ => State.handOff_good h), h])) (fun _ => h))), good_ite (fun _ => (by split; exacts [good_ite (fun _ => h) (fun _ => State.drainOff_good h), h])) (fun _ => h)]

theorem State.reserveShort_good {q} {s} (h : Good q s) : Good q (State.reserveShort s) := by
  unfold State.reserveShort
  extract_lets +onlyGivenNames v1
  clear_value v1
  exact good_ite (fun _ => h) (fun _ => (by extract_lets +onlyGivenNames v4; clear_value v4; exact State.raise_good (State.frsDisarm_good h)))

theorem State.tickReserve_good {q} {s} (h : Good q s) : Good q (State.tickReserve s) := by
  unfold State.tickReserve
  extract_lets +onlyGivenNames t1
  have g2 : Good q t1 := State.reserveShort_good h
  clear_value t1
  extract_lets +onlyGivenNames v3
  clear_value v3
  extract_lets +onlyGivenNames v4
  clear_value v4
  extract_lets +onlyGivenNames v5
  clear_value v5
  extract_lets +onlyGivenNames t6
  have g7 : Good q t6 := good_onFab g2 (fun h => h)
  clear_value t6
  extract_lets +onlyGivenNames t8
  have g9 : Good q t8 := State.when_good g7 (fun _ => State.powerQuad_good (State.powerQuad_good (by split; exacts [State.useFree_good (State.onPath_good g7), g7])))
  clear_value t8
  exact State.frsEval_good (State.frsEval_good g9)

theorem State.tickReport_good {q} {s} (h : Good q s) : Good q (State.tickReport s) := by
  unfold State.tickReport
  exact good_onCc h (by (intro hx; simpa [ccOk] using hx))

theorem State.tickHealth_good {q} {s} (h : Good q s) : Good q (State.tickHealth s) := by
  unfold State.tickHealth
  exact State.onPhases_good h (fun x h => h)

theorem State.tickQuads_good {q} {s} (h : Good q s) : Good q (State.tickQuads s) := by
  unfold State.tickQuads
  extract_lets +onlyGivenNames t1
  have g2 : Good q t1 := State.when_good h (fun _ => State.powerQuad_good h)
  clear_value t1
  exact good_ite (fun _ => State.powerQuad_good (good_onFab g2 (fun h => h))) (fun _ => good_onFab g2 (fun h => h))

theorem State.tickDomains_good {q} {s} (h : Good q s) : Good q (State.tickDomains s) := by
  unfold State.tickDomains
  exact good_foldl (fun _ _ x3 => good_ite (fun _ => State.domOn_good x3) (fun _ => State.domOff_good x3)) _ h

theorem State.tickVsys_good {q} {s} (h : Good q s) : Good q (State.tickVsys s) := by
  unfold State.tickVsys
  extract_lets +onlyGivenNames t1
  have g2 : Good q t1 := State.when_good h (fun _ => good_onPp h)
  clear_value t1
  extract_lets +onlyGivenNames v3
  clear_value v3
  exact good_onPp g2

theorem State.tickPref_good {q} {s} {a1} (h : Good q s) : Good q (State.tickPref s a1) := by
  unfold State.tickPref
  extract_lets +onlyGivenNames t1
  clear_value t1
  split
  exacts [(by extract_lets +onlyGivenNames t2; clear_value t2; extract_lets +onlyGivenNames t3; clear_value t3; exact good_ite (fun _ => State.negotiate_good h) (fun _ => h)), h]

theorem State.tuneFree_good {q} {s} {a1} (h : Good q s) : Good q (State.tuneFree s a1) := by
  unfold State.tuneFree
  split
  exacts [State.drainOff_good h, State.drainOff_good h, good_ite (fun _ => State.place_good (State.onPhase_good h (by (intro hx; simp_all [qsOk, mbOk, nvmOk, fltOk, sysOk, ccOk, fabOk, phaseOk, cfgOk]; done)))) (fun _ => h), h]

theorem State.tickWake_good {q} {s} (h : Good q s) : Good q (State.tickWake s) := by
  unfold State.tickWake
  split
  exacts [State.when_good h (fun _ => State.takeOver_good h), h]

theorem State.tickPlace_good {q} {s} (h : Good q s) : Good q (State.tickPlace s) := by
  unfold State.tickPlace
  exact good_ite (fun _ => State.drainAll_good h) (fun _ => good_ite (fun _ => h) (fun _ => good_ite (fun _ => good_foldl (fun _ _ g1 => State.applyMap_good g1) _ h) (fun _ => State.allocate_good h)))

theorem State.tuneYield_good {q} {s} (h : Good q s) : Good q (State.tuneYield s) := by
  unfold State.tuneYield
  split
  exacts [good_ite (fun _ => good_onCc h (fun h => h)) (fun _ => h), h]

theorem State.tuneNext_good {q} {s} (h : Good q s) : Good q (State.tuneNext s) := by
  unfold State.tuneNext
  extract_lets +onlyGivenNames t1
  have g2 : Good q t1 := State.tuneYield_good h
  clear_value t1
  split
  exacts [g2, good_ite (fun _ => good_onCc g2 (fun h => h)) (fun _ => good_ite (fun _ => good_onCc g2 (fun h => h)) (fun _ => (by extract_lets +onlyGivenNames t7; clear_value t7; split; exacts [good_onCc g2 (fun h => h), g2])))]

theorem State.tuneLate_good {q} {s} {a1} (h : Good q s) : Good q (State.tuneLate s a1) := by
  unfold State.tuneLate
  extract_lets +onlyGivenNames t1
  clear_value t1
  exact good_ite (fun _ => State.tuneNext_good (State.finish_good (good_onCc h (fun h => h)))) (fun _ => good_ite (fun _ => State.finish_good (good_onCc h (fun h => h))) (fun _ => h))

theorem State.tickTune_good {q} {s} (h : Good q s) : Good q (State.tickTune s) := by
  unfold State.tickTune
  extract_lets +onlyGivenNames t1
  have g2 : Good q t1 := good_foldl (fun _ _ x5 => State.tuneLate_good x5) _ h
  clear_value t1
  extract_lets +onlyGivenNames t6
  clear_value t6
  split
  exacts [good_ite (fun _ => good_foldl (fun _ _ x10 => State.tuneFree_good x10) _ g2) (fun _ => good_ite (fun _ => g2) (fun _ => (by split; exacts [(by extract_lets +onlyGivenNames t14; have g15 : Good q t14 := State.placeOn_good g2; clear_value t14; exact State.when_good g15 (fun _ => State.onPhase_good g15 (fun x h => h))), g2]))), good_foldl (fun _ _ x19 => State.tuneFree_good x19) _ g2]

theorem State.tickAlways_good {q} {s} (h : Good q s) : Good q (State.tickAlways s) := by
  unfold State.tickAlways
  extract_lets +onlyGivenNames t1
  have g2 : Good q t1 := State.tickHealth_good (State.tickTune_good (State.tickVsys_good (State.tickPeak_good h)))
  clear_value t1
  exact good_ite (fun _ => g2) (fun _ => State.tickBasin_good g2)

theorem State.tickRun_good {q} {s} {a1} (h : Good q s) : Good q (State.tickRun s a1) := by
  unfold State.tickRun
  extract_lets +onlyGivenNames t1
  have g2 : Good q t1 := State.tickPaths_good (State.tickTune_good (State.tickVsys_good (State.tickPeak_good (State.tickWake_good h))))
  clear_value t1
  extract_lets +onlyGivenNames t3
  have g4 : Good q t3 := State.tickRequests_good (State.tickLead_good g2)
  clear_value t3
  extract_lets +onlyGivenNames t5
  have g6 : Good q t5 := State.tickAdds_good (State.tickReserve_good (good_ite (fun _ => g4) (fun _ => State.tickBasin_good g4)))
  clear_value t5
  extract_lets +onlyGivenNames t9
  have g10 : Good q t9 := State.tickReport_good (State.tickQuads_good (State.tickHealth_good (State.tickPlace_good g6)))
  clear_value t9
  exact State.capsChange_good (State.capsChange_good (State.tickPref_good (State.tickPref_good g10)))

theorem execControlTick_good {q} {a0} {s} (h : Good q s) : GoodO q (execControlTick a0 s) := by
  unfold execControlTick
  exact settle_good (State.when_good h (fun _ => (by extract_lets +onlyGivenNames t2; have g3 : Good q t2 := State.tickThermal_good (State.limpFollow_good (State.tickMeasure_good h)); clear_value t2; exact State.taskRan_good (State.tickDomains_good (good_ite (fun _ => State.tickRun_good g3) (fun _ => State.tickAlways_good g3)))))) h

theorem execPeakTimeout_good {q} {s} (h : Good q s) : GoodO q (execPeakTimeout s) := by
  unfold execPeakTimeout
  exact goodO_next (State.when_good h (fun _ => State.peakEnd_good h))

theorem execPeakRecoveryEnd_good {q} {s} (h : Good q s) : GoodO q (execPeakRecoveryEnd s) := by
  unfold execPeakRecoveryEnd
  exact goodO_next (State.when_good h (fun _ => good_onFab h (fun h => h)))

theorem State.removePhase_good {q} {s} {a1} (h : Good q s) : Good q (State.removePhase s a1) := by
  unfold State.removePhase
  exact good_ite (fun _ => State.when_good h (fun _ => good_onStk h)) (fun _ => good_ite (fun _ => h) (fun _ => (by split; exacts [h, (by extract_lets +onlyGivenNames t6; clear_value t6; split; exacts [State.handOff_good h, State.drainOff_good h])])))

theorem execPhaseRemove_good {q} {a0} {s} (h : Good q s) : GoodO q (execPhaseRemove a0 s) := by
  unfold execPhaseRemove
  exact goodO_next (State.removePhase_good h)

theorem execDrainComplete_good {q} {a0} {s} (h : Good q s) : GoodO q (execDrainComplete a0 s) := by
  unfold execDrainComplete
  exact settle_good (State.drainDone_good h) h

theorem execSelectorSettle_good {q} {a0} {s} (h : Good q s) : GoodO q (execSelectorSettle a0 s) := by
  unfold execSelectorSettle
  exact goodO_next (State.settleDone_good h)

theorem execSoftStartComplete_good {q} {a0} {s} (h : Good q s) : GoodO q (execSoftStartComplete a0 s) := by
  unfold execSoftStartComplete
  exact goodO_next (State.startDone_good h)

theorem execSelectorStuck_good {q} {a0} {s} (h : Good q s) : GoodO q (execSelectorStuck a0 s) := by
  unfold execSelectorStuck
  exact settle_good (State.failNote_good h) h

theorem execSelectorOverlap_good {q} {a0} {s} (h : Good q s) : GoodO q (execSelectorOverlap a0 s) := by
  unfold execSelectorOverlap
  exact settle_good (State.checkerFail_good h) h

theorem execQuadPowerOff_good {q} {s} (h : Good q s) : GoodO q (execQuadPowerOff s) := by
  unfold execQuadPowerOff
  exact goodO_next (State.when_good h (fun _ => State.domRequest_good (good_onFab h (fun h => h))))

theorem State.flipPhase_good {q} {s} {a1} {a2} (h : Good q s) : Good q (State.flipPhase s a1 a2) := by
  unfold State.flipPhase
  extract_lets +onlyGivenNames v1
  clear_value v1
  exact good_ite (fun _ => State.drainFlip_good h) (fun _ => h)

theorem State.joinSwap_good {q} {s} {a1} {a2} {a3} (h : Good q s) (hs2 : Good q a2) : Good q (State.joinSwap s a1 a2 a3) := by
  unfold State.joinSwap
  split
  exacts [State.placeOn_good hs2, good_ite (fun _ => hs2) (fun _ => State.handOff_good hs2), hs2]

theorem State.fastSwap_good {q} {s} {a1} (h : Good q s) : Good q (State.fastSwap s a1) := by
  unfold State.fastSwap
  extract_lets +onlyGivenNames t1
  clear_value t1
  extract_lets +onlyGivenNames t2
  clear_value t2
  extract_lets +onlyGivenNames t3
  clear_value t3
  extract_lets +onlyGivenNames t4
  have g5 : Good q t4 := State.eprEnd_good (State.frsDisarm_good (State.swapAbandon_good h))
  clear_value t4
  extract_lets +onlyGivenNames t6
  have g7 : Good q t6 := State.onPath_good (good_onCc g5 (by (intro hx; simpa [ccOk] using hx)))
  clear_value t6
  extract_lets +onlyGivenNames t8
  have g9 : Good q t8 := good_foldl (fun _ _ x12 => State.flipPhase_good x12) _ (State.setVbus_good g7)
  clear_value t8
  extract_lets +onlyGivenNames t13
  have g14 : Good q t13 := good_foldl (fun _ _ x17 => State.joinSwap_good h x17) _ g9
  clear_value t13
  extract_lets +onlyGivenNames t18
  have g19 : Good q t18 := good_onFab g14 (fun h => h)
  clear_value t18
  extract_lets +onlyGivenNames t20
  have g21 : Good q t20 := State.tx_good (State.onTc_good g19)
  clear_value t20
  exact State.sinkEnded_good h (State.setPresent_good (State.setLearn_good g21))

theorem execFastSwapSignal_good {q} {a0} {s} (h : Good q s) : GoodO q (execFastSwapSignal a0 s) := by
  unfold execFastSwapSignal
  exact State.onPd_good h (fun _ g1 => State.when_good g1 (fun _ => State.fastSwap_good g1))

theorem execFplace0_good {q} {a0} {a1} {s} (h : Good q s) : GoodO q (execFplace0 a0 a1 s) := by
  unfold execFplace0
  exact goodO_next (State.guardPair_good h (fun _ _ g1 => good_onGrd g1))

theorem execFplace1_good {q} {a0} {a1} {s} (h : Good q s) : GoodO q (execFplace1 a0 a1 s) := by
  unfold execFplace1
  exact goodO_next (State.guardPair_good h (fun _ _ g1 => good_onGrd g1))

theorem State.fpenWrite_good {q} {s} {a1} (h : Good q s) : Good q (State.fpenWrite s a1) := by
  unfold State.fpenWrite
  exact good_ite (fun _ => good_ite (fun _ => State.guardFail_good (good_onGrd h)) (fun _ => good_ite (fun _ => good_onGrd h) (fun _ => State.raise_good (good_onFab (State.frsDisarm_good (State.frsDisarm_good (good_onGrd h))) (fun h => h))))) (fun _ => State.fpEnd_good (good_onGrd h))

theorem execFpenSet_good {q} {a0} {a1} {s} (h : Good q s) : GoodO q (execFpenSet a0 a1 s) := by
  unfold execFpenSet
  exact goodO_next (State.guardPair_good h (fun _ _ g1 => State.fpenWrite_good g1))

theorem execFpenClear_good {q} {a0} {a1} {s} (h : Good q s) : GoodO q (execFpenClear a0 a1 s) := by
  unfold execFpenClear
  exact goodO_next (State.guardPair_good h (fun _ _ g1 => State.fpenWrite_good g1))

theorem State.replaceFor_good {q} {s} {a1} {a2} (h : Good q s) : Good q (State.replaceFor s a1 a2) := by
  unfold State.replaceFor
  exact good_ite (fun _ => h) (fun _ => (by extract_lets +onlyGivenNames v3; clear_value v3; split; exacts [State.placeOn_good h, (by split; exacts [(by split; exacts [State.handOff_good h, h]), h])]))

theorem execReplacementTick_good {q} {a0} {s} (h : Good q s) : GoodO q (execReplacementTick a0 s) := by
  unfold execReplacementTick
  exact goodO_next (State.when_good h (fun _ => good_foldl (fun _ _ g1 => State.replaceFor_good g1) _ h))
end Sys2Proof.Machine
end

