-- ==== Sys2Proof/Laws/KeepConversion.lean ====
section
/-! SUPPORT. What each operation and each meaning of Machine/Conversion.lean keeps: the queue of waiting commands and the invariant of
Safety.lean; a meaning also answers a next state. -/
namespace Sys2Proof.Machine

set_option Elab.async false
open Sys2Proof.Safety

theorem phase_ok {q i} {s : State} (h : Good q s) : phaseOk (s.phase i) := by
  unfold State.phase
  rw [List.getD_eq_getElem?_getD]
  rcases hi : s.fab.ph[i]? with _ | y
  · simp [phaseOk]
  · exact h.2.1.2.2 _ (List.mem_of_getElem? hi)

/-- What keeps a phase's state, port and next port, and its weight within 1, keeps it in order (R103, R121). -/
theorem phaseOk_same {x y : Phase} (h : phaseOk x) (hs : y.st = x.st) (hp : y.port = x.port) (hn : y.next = x.next)
    (hw : y.weight ≤ 16384) : phaseOk y := ⟨fun he => by rw [hp, hn]; exact h.1 (hs ▸ he), hw⟩

theorem Phase.latch_ok {x N k} (h : phaseOk x) : phaseOk (Phase.latch x N k) := phaseOk_same h rfl rfl rfl h.2

theorem State.phaseDuty_ok {s : State} {p b c k m n x} (h : phaseOk x) : phaseOk (s.phaseDuty p b c k m n x) := by
  unfold State.phaseDuty
  dsimp only
  split <;> exact phaseOk_same h rfl rfl rfl h.2

theorem Phase.ramp_ok {x k} (h : phaseOk x) : phaseOk (Phase.ramp x k) := by
  have hw := h.2
  unfold Phase.ramp
  dsimp only
  split
  · exact phaseOk_same h rfl rfl rfl (Nat.min_le_left _ _)
  · exact phaseOk_same h rfl rfl rfl (by dsimp only; omega)
  · exact h

theorem Phase.balance_ok {x f c m n} (h : phaseOk x) : phaseOk (Phase.balance x f c m n) := by
  unfold Phase.balance
  split
  · exact phaseOk_same h rfl rfl rfl h.2
  · split
    · exact h
    · exact phaseOk_same h rfl rfl rfl h.2

theorem State.phaseStep_good {q} {s} {a1 a2 a3 a4 a5 a6 a7 a8 a9 a10} (h : Good q s) :
    Good q (State.phaseStep s a1 a2 a3 a4 a5 a6 a7 a8 a9 a10) := by
  unfold State.phaseStep
  extract_lets +onlyGivenNames x y
  have hx : phaseOk x := Phase.latch_ok (phase_ok h)
  have hy : phaseOk y := State.phaseDuty_ok (phaseOk_same hx rfl rfl rfl hx.2)
  clear_value y
  have hz := Phase.balance_ok (f := s.cc.period) (c := a3) (m := a5) (n := a4) (Phase.ramp_ok (k := s.freeN (a8 + 4 * a10 + 3)) hy)
  exact State.onPhase_good h fun _ _ => phaseOk_same hz rfl rfl rfl hz.2

theorem State.stagesStep_good {q} {s} {a1} {a2} {a3} {a4} (h : Good q s) : Good q (State.stagesStep s a1 a2 a3 a4) := by
  unfold State.stagesStep
  extract_lets +onlyGivenNames t1
  clear_value t1
  extract_lets +onlyGivenNames t2
  clear_value t2
  extract_lets +onlyGivenNames t3
  clear_value t3
  extract_lets +onlyGivenNames t4
  clear_value t4
  extract_lets +onlyGivenNames t5
  clear_value t5
  extract_lets +onlyGivenNames t6
  clear_value t6
  extract_lets +onlyGivenNames t7
  clear_value t7
  extract_lets +onlyGivenNames t8
  clear_value t8
  extract_lets +onlyGivenNames t9
  clear_value t9
  extract_lets +onlyGivenNames t10
  have g11 : Good q t10 := good_onCc h (by (intro hx; simpa [ccOk] using hx))
  clear_value t10
  extract_lets +onlyGivenNames t12
  clear_value t12
  extract_lets +onlyGivenNames t13
  have g14 : Good q t13 := good_foldl (fun _ _ x17 => State.phaseStep_good x17) _ g11
  clear_value t13
  exact State.when_good g14 (fun _ => State.sweepDisturb_good g14)

theorem State.clipCount_good {q} {s} {a1} {a2} (h : Good q s) : Good q (State.clipCount s a1 a2) := by
  unfold State.clipCount
  extract_lets +onlyGivenNames v1
  clear_value v1
  extract_lets +onlyGivenNames v2
  clear_value v2
  exact State.when_good h (fun _ => good_onSw h)

theorem State.sensePort_good {q} {s} {a1} {a2} (h : Good q s) : Good q (State.sensePort s a1 a2) := by
  unfold State.sensePort
  exact good_onFab h (by (intro hx; refine ⟨by simpa using hx.1, by simpa using hx.2.1, ?_⟩; intro x hm; obtain ⟨i, hi, rfl⟩ := List.mem_mapIdx.1 hm; have := hx.2.2 _ (List.getElem_mem hi); (try dsimp only); (repeat' split); all_goals (first | exact this | exact phaseOk_freed this | exact ⟨fun h => by simp at h, Nat.zero_le _⟩)))

theorem State.sampleThrough_good {q} {s} {a1} {a2} (h : Good q s) : Good q (State.sampleThrough s a1 a2).1 := by
  unfold State.sampleThrough
  extract_lets +onlyGivenNames l
  have hl : l.length ≤ 8 := by
    unfold l
    rw [List.getD_eq_getElem?_getD]
    rcases hi : s.qs.sampleQ[portIdx a1]? with _ | y
    · simp
    · exact h.2.2.2.1.2.2.2.1 _ (List.mem_of_getElem? hi)
  clear_value l
  extract_lets +onlyGivenNames full t1
  have g1 : Good q t1 := State.when_good h (fun _ => State.failNote_good (State.drop_good h))
  split
  next x r hr =>
    refine good_onQs g1 fun hq => ⟨hq.1, hq.2.1, hq.2.2.1, ?_, hq.2.2.2.2⟩
    intro k hk
    rcases List.mem_or_eq_of_mem_set hk with hk | rfl
    · exact hq.2.2.2.1 _ hk
    · have := congrArg List.length hr
      unfold full at this
      split at this <;> simp at this <;> simp_all <;> omega
  next => exact g1

theorem State.pathLoop_good {q} {s} {a1} {a2} (h : Good q s) : Good q (State.pathLoop s a1 a2) := by
  unfold State.pathLoop
  extract_lets +onlyGivenNames v1
  clear_value v1
  refine good_ite (fun _ => ?_) (fun _ => ?_)
  · refine good_onFab (State.sensePort_good h) fun hx => ⟨by simpa using hx.1, hx.2.1, ?_⟩
    intro x hm
    obtain ⟨i, hi, rfl⟩ := List.mem_mapIdx.1 hm
    have := hx.2.2 _ (List.getElem_mem hi)
    split
    · exact Phase.ramp_ok this
    · exact this
  · extract_lets +onlyGivenNames l
    clear_value l
    extract_lets +onlyGivenNames fell
    clear_value fell
    extract_lets +onlyGivenNames t0
    have g0 : Good q t0 := State.sensePort_good h
    clear_value t0
    extract_lets +onlyGivenNames k0
    clear_value k0
    extract_lets +onlyGivenNames k
    clear_value k
    extract_lets +onlyGivenNames t1
    have g1 : Good q t1 := by
      refine good_ite (fun _ => g0) (fun _ => ?_)
      split
      extract_lets
      exact good_onCc g0 (by (intro hx; simpa [ccOk] using hx))
    clear_value t1
    extract_lets +onlyGivenNames t2
    have g2 : Good q t2 := State.stagesStep_good (State.clipCount_good g1)
    clear_value t2
    exact State.when_good g2 (fun _ => State.checkerFail_good g2)

theorem State.pathPeriod_good {q} {s} {a1} {a2} (h : Good q s) : Good q (State.pathPeriod s a1 a2) := by
  unfold State.pathPeriod
  exact good_ite (fun _ => State.pathLoop_good (State.sampleThrough_good h)) (fun _ => State.pathLoop_good h)

theorem State.periodStep_good {q} {s} {a1} (h : Good q s) : Good q (State.periodStep s a1) := by
  unfold State.periodStep
  extract_lets +onlyGivenNames t1
  clear_value t1
  extract_lets +onlyGivenNames t2
  clear_value t2
  extract_lets +onlyGivenNames t3
  clear_value t3
  extract_lets +onlyGivenNames t4
  clear_value t4
  extract_lets +onlyGivenNames t5
  clear_value t5
  extract_lets +onlyGivenNames t6
  clear_value t6
  extract_lets +onlyGivenNames t7
  clear_value t7
  extract_lets +onlyGivenNames t8
  clear_value t8
  extract_lets +onlyGivenNames t9
  have g10 : Good q t9 := good_onCc h (fun h => h)
  clear_value t9
  exact State.when_good g10 (fun _ => good_foldl (fun _ _ x14 => State.reAngle_good x14) _ (State.onPhases_good g10 (fun x h => h)))

theorem State.sendRef_good {q} {s} (h : Good q s) : Good q (State.sendRef s) := by
  unfold State.sendRef
  exact good_ite (fun _ => good_onStk h) (fun _ => good_ite (fun _ => (by extract_lets +onlyGivenNames t4; clear_value t4; extract_lets +onlyGivenNames t5; clear_value t5; extract_lets +onlyGivenNames t6; clear_value t6; exact good_onStk h)) (fun _ => h))

theorem State.injSample_good {q} {s} (h : Good q s) : Good q (State.injSample s) := by
  unfold State.injSample
  exact good_ite (fun _ => (by split; exacts [State.injectedCheck_good h, h])) (fun _ => h)

theorem execSwitchingPeriod_good {q} {a0} {a1} {a2} {s} (h : Good q s) : GoodO q (execSwitchingPeriod a0 a1 a2 s) := by
  unfold execSwitchingPeriod
  refine goodO_ite (fun _ => goodO_next (good_onCc h (fun h => h))) fun _ => ?_
  extract_lets +onlyGivenNames t1
  have g1 : Good q t1 := State.pathPeriod_good (State.pathPeriod_good (State.pathPeriod_good h))
  clear_value t1
  extract_lets +onlyGivenNames v2
  clear_value v2
  extract_lets +onlyGivenNames t3
  have g3 : Good q t3 := good_onCc g1 (fun h => h)
  clear_value t3
  extract_lets +onlyGivenNames t4
  have g4 : Good q t4 := good_onCc g3 (fun h => h)
  clear_value t4
  exact settle_good (State.injSample_good (State.useFree_good (State.sendRef_good (State.periodStep_good g4)))) h

theorem execOclHold_good {q} {a0} {s} (h : Good q s) : GoodO q (execOclHold a0 s) := by
  unfold execOclHold
  exact goodO_next (State.when_good h (fun _ => State.raise_good h))

theorem execPhaseShort_good {q} {a0} {a1} {s} (h : Good q s) : GoodO q (execPhaseShort a0 a1 s) := by
  unfold execPhaseShort
  exact settle_good (State.when_good h (fun _ => State.checkerFail_good h)) h

theorem execQuadOvertemp_good {q} {a0} {a1} {s} (h : Good q s) : GoodO q (execQuadOvertemp a0 a1 s) := by
  unfold execQuadOvertemp
  extract_lets +onlyGivenNames t1
  have g2 : Good q t1 := good_onMs h
  clear_value t1
  exact settle_good (State.when_good g2 (fun _ => State.checkerFail_good g2)) h

theorem execDiodeEmulationEnd_good {q} {a0} {s} (h : Good q s) : GoodO q (execDiodeEmulationEnd a0 s) := by
  unfold execDiodeEmulationEnd
  exact goodO_next (State.when_good h (fun _ => good_onCc h (by (intro hx; simpa [ccOk] using hx))))

theorem State.tuneEnd_good {q} {s} {a1} {a2} {a3} {a4} {a5} (h : Good q s) : Good q (State.tuneEnd s a1 a2 a3 a4 a5) := by
  unfold State.tuneEnd
  extract_lets +onlyGivenNames v1
  clear_value v1
  extract_lets +onlyGivenNames v2
  clear_value v2
  extract_lets +onlyGivenNames t3
  have g4 : Good q t3 := good_onCc h (fun h => h)
  clear_value t3
  extract_lets +onlyGivenNames t5
  have g6 : Good q t5 := State.when_good g4 (fun _ => good_onPp g4)
  clear_value t5
  extract_lets +onlyGivenNames v8
  clear_value v8
  extract_lets +onlyGivenNames v9
  clear_value v9
  extract_lets +onlyGivenNames t10
  have g11 : Good q t10 := good_ite (fun _ => State.raise_good g6) (fun _ => State.raise_good g6)
  clear_value t10
  exact State.tuneNext_good (State.finishO_good g11)

theorem execTuneMeasurementDone_good {q} {a0} {a1} {a2} {s} (h : Good q s) : GoodO q (execTuneMeasurementDone a0 a1 a2 s) := by
  unfold execTuneMeasurementDone
  split
  exacts [goodO_next h, goodO_ite (fun _ => goodO_next h) (fun _ => (by extract_lets +onlyGivenNames v1; clear_value v1; exact goodO_ite (fun _ => goodO_next (State.tuneEnd_good h)) (fun _ => goodO_next (good_onCc h (fun h => h)))))]

theorem State.fswTake_good {q} {s} (h : Good q s) : Good q (State.fswTake s) := by
  unfold State.fswTake
  exact good_ite (fun _ => (by extract_lets +onlyGivenNames t1; have g2 : Good q t1 := State.setReg_good (State.setReg_good h); clear_value t1; exact State.updShow_good (State.tuneNext_good (good_onCc g2 (fun h => h))))) (fun _ => h)

theorem execFswApply_good {q} {s} (h : Good q s) : GoodO q (execFswApply s) := by
  unfold execFswApply
  exact goodO_next (State.fswTake_good h)

theorem execSyncLock_good {q} {s} (h : Good q s) : GoodO q (execSyncLock s) := by
  unfold execSyncLock
  exact goodO_next (State.when_good h (fun _ => State.raise_good (good_onCc h (fun h => h))))

theorem execSyncLost_good {q} {a0} {s} (h : Good q s) : GoodO q (execSyncLost a0 s) := by
  unfold execSyncLost
  exact goodO_next (State.when_good h (fun _ => (by extract_lets +onlyGivenNames t1; have g2 : Good q t1 := good_onCc h (fun h => h); clear_value t1; exact State.raise_good g2)))

theorem execSyncReacquisition_good {q} {s} (h : Good q s) : GoodO q (execSyncReacquisition s) := by
  unfold execSyncReacquisition
  exact goodO_next (State.when_good h (fun _ => good_onCc h (fun h => h)))

theorem State.lfOffer_good {q} {s} {a1} (h : Good q s) : Good q (State.lfOffer s a1) := by
  unfold State.lfOffer
  split
  exacts [good_ite (fun _ => h) (fun _ => good_onFlt (State.nvmPush_good h (by simp_all [State.nvmRoom]) rfl) (by (intro hx; simp_all [fltOk]))), h]

theorem State.lfOffers_good {q} {s} (h : Good q s) : Good q (State.lfOffers s) := by
  unfold State.lfOffers
  exact good_ite (fun _ => State.lfOffer_good (State.lfOffer_good h)) (fun _ => h)

theorem execLastFaultOffer_good {q} {s} (h : Good q s) : GoodO q (execLastFaultOffer s) := by
  unfold execLastFaultOffer
  exact goodO_next (State.lfOffers_good h)
end Sys2Proof.Machine
end

