-- ==== Sys2Proof/Laws/KeepPower.lean ====
section
/-! SUPPORT. What each operation and each meaning of Machine/Power.lean keeps: the queue of waiting commands and the invariant of
Safety.lean; a meaning also answers a next state. -/
namespace Sys2Proof.Machine

set_option Elab.async false
open Sys2Proof.Safety

theorem execPcAttach_good {q} {a0} {a1} {s} (h : Good q s) : GoodO q (execPcAttach a0 a1 s) := by
  unfold execPcAttach
  extract_lets +onlyGivenNames t1
  have g2 : Good q t1 := good_onPp (State.limpFollow_good (State.batHw_good (State.seeNodes_good h)))
  clear_value t1
  exact settle_good (State.when_good g2 (fun _ => State.shipCancel_good (State.tuneNext_good (good_onCc (State.setPresent_good g2) (fun h => h))))) h

theorem State.pcGone_good {q} {s} (h : Good q s) : Good q (State.pcGone s) := by
  unfold State.pcGone
  extract_lets +onlyGivenNames t1
  have g2 : Good q t1 := good_foldl (fun _ _ x5 => State.finishO_good x5) _ h
  clear_value t1
  extract_lets +onlyGivenNames t6
  have g7 : Good q t6 := State.tuneNext_good (good_onCc (State.setPresent_good g2) (fun h => h))
  clear_value t6
  exact good_ite (fun _ => State.noSource_good h g7) (fun _ => State.sinkEnded_good h (State.endPath_good g7))

theorem execPcRemoval_good {q} {a0} {s} (h : Good q s) : GoodO q (execPcRemoval a0 s) := by
  unfold execPcRemoval
  extract_lets +onlyGivenNames t1
  have g2 : Good q t1 := good_onPp h
  clear_value t1
  exact settle_good (State.when_good g2 (fun _ => State.pcGone_good g2)) h

theorem execBatAttach_good {q} {s} (h : Good q s) : GoodO q (execBatAttach s) := by
  unfold execBatAttach
  exact settle_good (State.when_good h (fun _ => State.autoStart_good (State.raise_good (State.limpFollow_good (State.switchClose_good (good_onPp h)))))) h

theorem State.batGone_good {q} {s} (h : Good q s) : Good q (State.batGone s) := by
  unfold State.batGone
  extract_lets +onlyGivenNames t1
  have g2 : Good q t1 := State.raise_good (State.limpFollow_good (State.switchOff_good (good_onPp h)))
  clear_value t1
  extract_lets +onlyGivenNames t3
  have g4 : Good q t3 := State.suspendAnew_good (State.modelDrop_good (State.sweepAbort_good g2))
  clear_value t3
  exact State.when_good g4 (fun _ => State.srcRemove_good (State.srcRemove_good g4))

theorem execBatDetach_good {q} {s} (h : Good q s) : GoodO q (execBatDetach s) := by
  unfold execBatDetach
  exact settle_good (State.when_good h (fun _ => State.batGone_good h)) h

theorem execBatterySwitchReconnect_good {q} {a0} {s} (h : Good q s) : GoodO q (execBatterySwitchReconnect a0 s) := by
  unfold execBatterySwitchReconnect
  extract_lets +onlyGivenNames t1
  have g2 : Good q t1 := State.limpFollow_good (State.batHw_good (State.seeNodes_good h))
  clear_value t1
  exact settle_good (State.when_good g2 (fun _ => State.switchFull_good g2)) h

theorem execSupplement_good {q} {a0} {s} (h : Good q s) : GoodO q (execSupplement a0 s) := by
  unfold execSupplement
  extract_lets +onlyGivenNames t1
  have g2 : Good q t1 := State.limpFollow_good (State.batHw_good (State.seeNodes_good h))
  clear_value t1
  exact settle_good (State.when_good g2 (fun _ => State.switchFull_good g2)) h

theorem execBatterySwitchRelease_good {q} {s} (h : Good q s) : GoodO q (execBatterySwitchRelease s) := by
  unfold execBatterySwitchRelease
  exact settle_good (State.when_good h (fun _ => good_onPp h)) h

theorem execWeirLearn_good {q} {a0} {a1} {s} (h : Good q s) : GoodO q (execWeirLearn a0 a1 s) := by
  unfold execWeirLearn
  extract_lets +onlyGivenNames v1
  clear_value v1
  exact goodO_next (State.when_good h (fun _ => State.raise_good (State.setLearn_good h)))

theorem execWeirProbe_good {q} {a0} {s} (h : Good q s) : GoodO q (execWeirProbe a0 s) := by
  unfold execWeirProbe
  extract_lets +onlyGivenNames v1
  clear_value v1
  split
  exacts [goodO_next (State.when_good h (fun _ => State.setLearn_good h)), goodO_next h]

theorem State.scanBegin_good {q} {s} (h : Good q s) : Good q (State.scanBegin s) := by
  unfold State.scanBegin
  exact good_ite (fun _ => h) (fun _ => good_ite (fun _ => good_onPp h) (fun _ => good_onPp h))

theorem execTrackerInterval_good {q} {a0} {a1} {a2} {s} (h : Good q s) : GoodO q (execTrackerInterval a0 a1 a2 s) := by
  unfold execTrackerInterval
  exact goodO_ite (fun _ => goodO_next h) (fun _ => (by extract_lets +onlyGivenNames v1; clear_value v1; extract_lets +onlyGivenNames v2; clear_value v2; extract_lets +onlyGivenNames v3; clear_value v3; extract_lets +onlyGivenNames v4; clear_value v4; extract_lets +onlyGivenNames v5; clear_value v5; extract_lets +onlyGivenNames t6; have g7 : Good q t6 := good_onPp h; clear_value t6; exact goodO_next (State.when_good g7 (fun _ => State.scanBegin_good g7))))

theorem execMpptScanStart_good {q} {s} (h : Good q s) : GoodO q (execMpptScanStart s) := by
  unfold execMpptScanStart
  exact goodO_next (State.when_good h (fun _ => State.scanBegin_good h))

theorem State.scanStep_good {q} {s} {a1} {a2} {a3} (h : Good q s) : Good q (State.scanStep s a1 a2 a3) := by
  unfold State.scanStep
  exact good_ite (fun _ => good_onPp h) (fun _ => (by extract_lets +onlyGivenNames v1; clear_value v1; extract_lets +onlyGivenNames v2; clear_value v2; extract_lets +onlyGivenNames v3; clear_value v3; exact good_ite (fun _ => good_onPp h) (fun _ => State.raise_good (good_onPp h))))

theorem execMpptScanStep_good {q} {a0} {a1} {s} (h : Good q s) : GoodO q (execMpptScanStep a0 a1 s) := by
  unfold execMpptScanStep
  split
  exacts [goodO_next (State.when_good h (fun _ => good_ite (fun _ => State.scanStep_good h) (fun _ => good_onPp h))), goodO_next h]

theorem execHandover_good {q} {a0} {a1} {s} (h : Good q s) : GoodO q (execHandover a0 a1 s) := by
  unfold execHandover
  extract_lets +onlyGivenNames v1
  clear_value v1
  extract_lets +onlyGivenNames v2
  clear_value v2
  exact settle_good (State.when_good h (fun _ => State.raise_good (good_onPp h))) h

theorem execDwellEnd_good {q} {s} (h : Good q s) : GoodO q (execDwellEnd s) := by
  unfold execDwellEnd
  exact goodO_next (good_onPp h)

theorem execNobatCollapse_good {q} {s} (h : Good q s) : GoodO q (execNobatCollapse s) := by
  unfold execNobatCollapse
  exact goodO_next (State.when_good h (fun _ => State.downCause_good (good_onPp h)))

theorem execRevCutoff_good {q} {a0} {s} (h : Good q s) : GoodO q (execRevCutoff a0 s) := by
  unfold execRevCutoff
  extract_lets +onlyGivenNames v1
  clear_value v1
  exact settle_good (State.when_good h (fun _ => State.srcMustEnd_good (State.raise_good (State.onPath_good h)))) h
end Sys2Proof.Machine
end

