-- ==== Sys2Proof/Laws/KeepCharge.lean ====
section
/-! SUPPORT. What each operation and each meaning of Machine/Charge.lean keeps: the queue of waiting commands and the invariant of
Safety.lean; a meaning also answers a next state. -/
namespace Sys2Proof.Machine

set_option Elab.async false
open Sys2Proof.Safety

theorem State.modelTick_good {q} {s} (h : Good q s) : Good q (State.modelTick s) := by
  unfold State.modelTick
  extract_lets +onlyGivenNames v1
  clear_value v1
  extract_lets +onlyGivenNames t2
  have g3 : Good q t2 := good_onMs h
  clear_value t2
  exact good_ite (fun _ => good_onSw g3) (fun _ => (by extract_lets +onlyGivenNames v4; clear_value v4; split; exact State.useFree_good (good_onSw g3)))

theorem State.polarTick_good {q} {s} (h : Good q s) : Good q (State.polarTick s) := by
  unfold State.polarTick
  extract_lets +onlyGivenNames t1
  clear_value t1
  extract_lets +onlyGivenNames t2
  clear_value t2
  extract_lets +onlyGivenNames t3
  have g4 : Good q t3 := good_onSw h
  clear_value t3
  extract_lets +onlyGivenNames t5
  clear_value t5
  exact State.useFree_good (good_onSw g4)

theorem State.modelTake_good {q} {s} (h : Good q s) : Good q (State.modelTake s) := by
  unfold State.modelTake
  split
  exacts [State.modelTick_good h, (by extract_lets +onlyGivenNames v1; clear_value v1; extract_lets +onlyGivenNames v2; clear_value v2; extract_lets +onlyGivenNames v3; clear_value v3; extract_lets +onlyGivenNames t4; have g5 : Good q t4 := State.modelTick_good (good_onSw h); clear_value t4; exact State.raise_good (State.tierFix_good g5))]

theorem State.tgtTick_good {q} {s} (h : Good q s) : Good q (State.tgtTick s) := by
  unfold State.tgtTick
  split
  extract_lets +onlyGivenNames v1
  clear_value v1
  extract_lets +onlyGivenNames v2
  clear_value v2
  extract_lets +onlyGivenNames t3
  have g4 : Good q t3 := good_onChg h
  clear_value t3
  exact State.when_good g4 (fun _ => State.sweepDisturb_good g4)

theorem State.vrefTick_good {q} {s} (h : Good q s) : Good q (State.vrefTick s) := by
  unfold State.vrefTick
  extract_lets +onlyGivenNames v1
  clear_value v1
  extract_lets +onlyGivenNames v2
  clear_value v2
  extract_lets +onlyGivenNames v3
  clear_value v3
  exact good_onChg h

theorem State.switchTick_good {q} {s} (h : Good q s) : Good q (State.switchTick s) := by
  unfold State.switchTick
  exact good_ite (fun _ => h) (fun _ => good_ite (fun _ => State.when_good h (fun _ => State.switchIdle_good h)) (fun _ => good_ite (fun _ => h) (fun _ => (by extract_lets +onlyGivenNames t8; clear_value t8; split; exacts [good_onPp h, good_onPp h, good_onPp (State.switchFull_good h), good_onPp (State.switchFull_good h), h]))))

theorem State.tick1_good {q} {s} (h : Good q s) : Good q (State.tick1 s) := by
  unfold State.tick1
  extract_lets +onlyGivenNames t1
  clear_value t1
  extract_lets +onlyGivenNames t2
  have g3 : Good q t2 := good_onChg h
  clear_value t2
  exact good_ite (fun _ => State.when_good g3 (fun _ => State.chgOff_good g3)) (fun _ => (by extract_lets +onlyGivenNames t7; have g8 : Good q t7 := State.when_good g3 (fun _ => State.chargeStart_good g3); clear_value t7; extract_lets +onlyGivenNames t10; have g11 : Good q t10 := State.when_good g8 (fun _ => State.suspend_good g8); clear_value t10; extract_lets +onlyGivenNames t13; have g14 : Good q t13 := State.when_good g11 (fun _ => State.suspendAnew_good g11); clear_value t13; exact good_onChg (State.when_good g14 (fun _ => State.suspendAnew_good g14))))

theorem State.tick2_good {q} {s} (h : Good q s) : Good q (State.tick2 s) := by
  unfold State.tick2
  exact good_ite (fun _ => State.suspend_good h) (fun _ => State.clearReason_good h)

theorem State.tick3_good {q} {s} (h : Good q s) : Good q (State.tick3 s) := by
  unfold State.tick3
  extract_lets +onlyGivenNames t1
  clear_value t1
  extract_lets +onlyGivenNames t2
  have g3 : Good q t2 := State.when_good h (fun _ => State.suspendAnew_good h)
  clear_value t2
  extract_lets +onlyGivenNames t5
  have g6 : Good q t5 := State.when_good g3 (fun _ => State.autoStart_good g3)
  clear_value t5
  exact good_onChg g6

theorem State.tick4_good {q} {s} (h : Good q s) : Good q (State.tick4 s) := by
  unfold State.tick4
  exact State.when_good h (fun _ => State.suspend_good h)

theorem State.zoneTake_good {q} {s} {a1} (h : Good q s) : Good q (State.zoneTake s a1) := by
  unfold State.zoneTake
  extract_lets +onlyGivenNames t1
  have g2 : Good q t1 := State.raise_good (good_onChg h)
  clear_value t1
  extract_lets +onlyGivenNames t3
  have g4 : Good q t3 := good_ite (fun _ => State.suspend_good g2) (fun _ => State.clearReason_good g2)
  clear_value t3
  exact good_ite (fun _ => State.suspend_good g4) (fun _ => State.clearReason_good g4)

theorem State.zoneFind_good {q} {s} (h : Good q s) : Good q (State.zoneFind s) := by
  unfold State.zoneFind
  exact good_ite (fun _ => good_onChg h) (fun _ => (by extract_lets +onlyGivenNames t3; clear_value t3; exact good_onChg h))

theorem State.tick5_good {q} {s} (h : Good q s) : Good q (State.tick5 s) := by
  unfold State.tick5
  extract_lets +onlyGivenNames t1
  clear_value t1
  extract_lets +onlyGivenNames t2
  have g3 : Good q t2 := good_onChg (State.zoneFind_good h)
  clear_value t2
  extract_lets +onlyGivenNames t4
  have g5 : Good q t4 := State.when_good g3 (fun _ => State.suspend_good (good_onChg g3))
  clear_value t4
  extract_lets +onlyGivenNames t7
  have g8 : Good q t7 := State.when_good g5 (fun _ => State.clearReason_good (State.when_good g5 (fun _ => State.zoneTake_good g5)))
  clear_value t7
  exact good_ite (fun _ => g8) (fun _ => (by extract_lets +onlyGivenNames t13; have g14 : Good q t13 := good_ite (fun _ => State.suspend_good g8) (fun _ => State.clearReason_good g8); clear_value t13; exact good_ite (fun _ => State.suspend_good g14) (fun _ => State.clearReason_good g14)))

theorem State.tick6_good {q} {a0} {s} (h : Good q s) : Good q (State.tick6 a0 s) := by
  unfold State.tick6
  extract_lets +onlyGivenNames t1
  clear_value t1
  extract_lets +onlyGivenNames t2
  clear_value t2
  extract_lets +onlyGivenNames t3
  clear_value t3
  extract_lets +onlyGivenNames t4
  have g5 : Good q t4 := good_onChg h
  clear_value t4
  split
  exacts [State.when_good g5 (fun _ => good_onChg g5), State.when_good g5 (fun _ => good_onChg g5), State.when_good g5 (fun _ => good_onChg g5), State.when_good g5 (fun _ => State.chgDone_good g5), State.when_good g5 (fun _ => good_onChg g5), State.when_good g5 (fun _ => State.autoStart_good g5), g5, g5]

theorem State.tick7_good {q} {s} (h : Good q s) : Good q (State.tick7 s) := by
  unfold State.tick7
  exact good_ite (fun _ => good_onChg h) (fun _ => (by extract_lets +onlyGivenNames t3; clear_value t3; split; extract_lets +onlyGivenNames t4; clear_value t4; extract_lets +onlyGivenNames t5; clear_value t5; extract_lets +onlyGivenNames t6; clear_value t6; extract_lets +onlyGivenNames t7; clear_value t7; extract_lets +onlyGivenNames t8; have g9 : Good q t8 := good_onChg h; clear_value t8; exact good_ite (fun _ => State.suspend_good g9) (fun _ => good_ite (fun _ => State.chgDone_good g9) (fun _ => good_ite (fun _ => State.suspend_good g9) (fun _ => g9)))))

theorem State.tickSweep_good {q} {s} (h : Good q s) : Good q (State.tickSweep s) := by
  unfold State.tickSweep
  extract_lets +onlyGivenNames t1
  have g2 : Good q t1 := State.when_good h (fun _ => (by split; exacts [State.sweepAbort_good h, State.when_good h (fun _ => State.sweepStop_good h)]))
  clear_value t1
  exact good_ite (fun _ => (by extract_lets +onlyGivenNames t6; have g7 : Good q t6 := good_onSw g2; clear_value t6; exact good_ite (fun _ => g7) (fun _ => State.trigSweep_good g7))) (fun _ => good_ite (fun _ => g2) (fun _ => good_ite (fun _ => State.sweepBegin_good (good_onSw g2)) (fun _ => good_ite (fun _ => State.trigSweep_good (good_onSw g2)) (fun _ => g2))))

theorem State.tickKeep_good {q} {s} (h : Good q s) : Good q (State.tickKeep s) := by
  unfold State.tickKeep
  extract_lets +onlyGivenNames t1
  clear_value t1
  exact good_onChg h

theorem State.tickCharge_good {q} {s} (h : Good q s) : Good q (State.tickCharge s) := by
  unfold State.tickCharge
  exact good_ite (fun _ => h) (fun _ => (by extract_lets +onlyGivenNames t3; have g4 : Good q t3 := State.when_good h (fun _ => State.chargeTier1_good h); clear_value t3; extract_lets +onlyGivenNames t6; have g7 : Good q t6 := State.tick5_good (State.tick4_good (State.tick3_good (State.tick2_good (State.tick1_good g4)))); clear_value t6; extract_lets +onlyGivenNames t8; have g9 : Good q t8 := State.tickSweep_good (State.tick7_good (State.tick6_good g7)); clear_value t8; exact State.tickKeep_good (State.switchTick_good (State.vrefTick_good (State.tgtTick_good g9)))))

theorem State.tickEnd_good {q} {a0} {s} (h : Good q s) : Good q (State.tickEnd a0 s) := by
  unfold State.tickEnd
  extract_lets +onlyGivenNames t1
  have g2 : Good q t1 := good_onSw (good_onMs h)
  clear_value t1
  exact State.when_good g2 (fun _ => State.when_good (good_onSys g2 (fun h => h)) (fun _ => State.dormBegin_good (good_onSys g2 (fun h => h))))

theorem execTeaselTick_good {q} {a0} {s} (h : Good q s) : GoodO q (execTeaselTick a0 s) := by
  unfold execTeaselTick
  exact goodO_ite (fun _ => goodO_next h) (fun _ => (by extract_lets +onlyGivenNames t3; have g4 : Good q t3 := State.when_good (good_onChg (good_onSw h)) (fun _ => State.bleedStop_good (good_onChg (good_onSw h))); clear_value t3; exact settle_good (State.taskRan_good (State.tickEnd_good (State.tickCharge_good (State.polarTick_good (State.modelTake_good (State.applyHeld_good g4)))))) h))

theorem execPrechargeTimer_good {q} {s} (h : Good q s) : GoodO q (execPrechargeTimer s) := by
  unfold execPrechargeTimer
  exact settle_good (State.when_good h (fun _ => State.suspend_good (good_onChg h))) h

theorem execFastChargeTimer_good {q} {s} (h : Good q s) : GoodO q (execFastChargeTimer s) := by
  unfold execFastChargeTimer
  exact settle_good (State.when_good h (fun _ => State.suspend_good (good_onChg h))) h

theorem execTopoffTimer_good {q} {s} (h : Good q s) : GoodO q (execTopoffTimer s) := by
  unfold execTopoffTimer
  exact settle_good (State.when_good h (fun _ => State.chgDone_good (good_onChg h))) h

theorem execTimerSuspensionRestart_good {q} {a0} {s} (h : Good q s) : GoodO q (execTimerSuspensionRestart a0 s) := by
  unfold execTimerSuspensionRestart
  extract_lets +onlyGivenNames v1
  clear_value v1
  exact settle_good (State.when_good h (fun _ => State.autoStart_good h)) h

theorem execZone_good {q} {a0} {a1} {a2} {s} (h : Good q s) : GoodO q (execZone a0 a1 a2 s) := by
  unfold execZone
  extract_lets +onlyGivenNames t1
  clear_value t1
  exact settle_good (State.when_good h (fun _ => State.when_good (State.zoneTake_good h) (fun _ => State.sweepAbort_good (State.zoneTake_good h)))) h

theorem execNtcFault_good {q} {a0} {s} (h : Good q s) : GoodO q (execNtcFault a0 s) := by
  unfold execNtcFault
  exact settle_good (State.when_good h (fun _ => State.sweepAbort_good (State.suspend_good (good_onChg h)))) h

theorem State.chemWrite_good {q} {s} {a1} (h : Good q s) : Good q (State.chemWrite s a1) := by
  unfold State.chemWrite
  extract_lets +onlyGivenNames t1
  clear_value t1
  extract_lets +onlyGivenNames t2
  clear_value t2
  exact good_ite (fun _ => State.guardFail_good h) (fun _ => good_ite (fun _ => State.guardFail_good (good_onGrd h)) (fun _ => (by extract_lets +onlyGivenNames t7; clear_value t7; extract_lets +onlyGivenNames t8; have g9 : Good q t8 := good_onGrd h; clear_value t8; extract_lets +onlyGivenNames t10; have g11 : Good q t10 := State.setReg_good (State.setReg_good (State.setReg_good g9)); clear_value t10; extract_lets +onlyGivenNames t12; have g13 : Good q t12 := State.modelDrop_good (good_onChg g11); clear_value t12; exact State.when_good g13 (fun _ => State.chargeStart_good g13))))

theorem execChemCfg_good {q} {a0} {a1} {s} (h : Good q s) : GoodO q (execChemCfg a0 a1 s) := by
  unfold execChemCfg
  exact settle_good (State.guardPair_good h (fun _ _ g1 => State.chemWrite_good g1)) h

theorem execChgQuery_good {q} {a0} {s} (h : Good q s) : GoodO q (execChgQuery a0 s) := by
  unfold execChgQuery
  exact goodO_next (State.query_good h)

theorem execChgStart_good {q} {a0} {s} (h : Good q s) : GoodO q (execChgStart a0 s) := by
  unfold execChgStart
  exact settle_good (State.carry_good h (fun _ g1 => good_ite (fun _ => State.finish_good g1) (fun _ => State.finish_good (State.chargeStart_good g1)))) h

theorem execChgStop_good {q} {a0} {s} (h : Good q s) : GoodO q (execChgStop a0 s) := by
  unfold execChgStop
  exact goodO_next (State.carry_good h (fun _ g1 => State.finish_good (good_onChg g1)))

theorem execZoneSet_good {q} {a0} {s} (h : Good q s) : GoodO q (execZoneSet a0 s) := by
  unfold execZoneSet
  exact goodO_next (State.carry_good h (fun _ g1 => State.finish_good (good_onChg g1)))

theorem execZoneGet_good {q} {a0} {s} (h : Good q s) : GoodO q (execZoneGet a0 s) := by
  unfold execZoneGet
  exact goodO_next (State.query_good h)

theorem execSafeSetCmd_good {q} {a0} {s} (h : Good q s) : GoodO q (execSafeSetCmd a0 s) := by
  unfold execSafeSetCmd
  exact goodO_next (State.carry_good h (fun _ g1 => State.finish_good (good_onChg g1)))

theorem execSafeGet_good {q} {a0} {s} (h : Good q s) : GoodO q (execSafeGet a0 s) := by
  unfold execSafeGet
  exact goodO_next (State.query_good h)
end Sys2Proof.Machine
end

