-- ==== Sys2Proof/Laws/KeepMeasure.lean ====
section
/-! SUPPORT. What each operation and each meaning of Machine/Measure.lean keeps: the queue of waiting commands and the invariant of
Safety.lean; a meaning also answers a next state. -/
namespace Sys2Proof.Machine

set_option Elab.async false
open Sys2Proof.Safety

theorem State.ccAdd_good {q} {s} {a1} (h : Good q s) : Good q (State.ccAdd s a1) := by
  unfold State.ccAdd
  extract_lets +onlyGivenNames v1
  clear_value v1
  extract_lets +onlyGivenNames v2
  clear_value v2
  extract_lets +onlyGivenNames v3
  clear_value v3
  exact good_ite (fun _ => h) (fun _ => good_ite (fun _ => good_onMs h) (fun _ => State.raise_good (good_onMs h)))

theorem State.sampleTake_good {q} {s} {a1} (h : Good q s) : Good q (State.sampleTake s a1) := by
  unfold State.sampleTake
  exact good_ite (fun _ => State.yarrow_good (good_onQs h (by (intro hx; simp_all [qsOk, mbOk, nvmOk, fltOk, sysOk, ccOk, fabOk, phaseOk, cfgOk]; done)))) (fun _ => State.drop_good h)

theorem execSampleSet_good {q} {a0} {s} (h : Good q s) : GoodO q (execSampleSet a0 s) := by
  unfold execSampleSet
  exact goodO_ite (fun _ => goodO_next h) (fun _ => (by extract_lets +onlyGivenNames t3; have g4 : Good q t3 := good_onMs (State.ccAdd_good h); clear_value t3; exact settle_good (State.sampleTake_good g4) h))

theorem execReportedCellVoltage_good {q} {a0} {a1} {a2} {s} (h : Good q s) : GoodO q (execReportedCellVoltage a0 a1 a2 s) := by
  unfold execReportedCellVoltage
  extract_lets +onlyGivenNames t1
  clear_value t1
  exact settle_good (State.when_good h (fun _ => (by extract_lets +onlyGivenNames t3; have g4 : Good q t3 := good_onMs h; clear_value t3; exact State.when_good g4 (fun _ => good_onPp g4)))) h

theorem execAutoZero_good {q} {s} (h : Good q s) : GoodO q (execAutoZero s) := by
  unfold execAutoZero
  exact goodO_next (State.when_good h (fun _ => good_onMs h))

theorem execMirrorUpdate_good {q} {a0} {s} (h : Good q s) : GoodO q (execMirrorUpdate a0 s) := by
  unfold execMirrorUpdate
  exact goodO_next (State.when_good h (fun _ => State.useFree_good (good_onMs h)))

theorem execBalancingFrame_good {q} {s} (h : Good q s) : GoodO q (execBalancingFrame s) := by
  unfold execBalancingFrame
  exact goodO_ite (fun _ => goodO_next h) (fun _ => (by extract_lets +onlyGivenNames t3; have g4 : Good q t3 := good_onMs h; clear_value t3; extract_lets +onlyGivenNames t5; clear_value t5; extract_lets +onlyGivenNames t6; have g7 : Good q t6 := good_onMs (State.bleedStop_good g4); clear_value t6; extract_lets +onlyGivenNames t8; clear_value t8; exact goodO_ite (fun _ => goodO_next (State.raise_good g7)) (fun _ => goodO_ite (fun _ => goodO_next (State.raise_good g7)) (fun _ => goodO_next g7))))

theorem execBalanceOffTime_good {q} {a0} {s} (h : Good q s) : GoodO q (execBalanceOffTime a0 s) := by
  unfold execBalanceOffTime
  exact goodO_ite (fun _ => goodO_next h) (fun _ => (by extract_lets +onlyGivenNames t1; have g2 : Good q t1 := State.when_good h (fun _ => State.balCount_good (good_onMs h)); clear_value t1; exact goodO_next (good_onMs g2)))

theorem execQuickSweepInterval_good {q} {s} (h : Good q s) : GoodO q (execQuickSweepInterval s) := by
  unfold execQuickSweepInterval
  exact goodO_next (State.when_good h (fun _ => State.sweepSchedule_good h))

theorem execSweepRefusalRetry_good {q} {s} (h : Good q s) : GoodO q (execSweepRefusalRetry s) := by
  unfold execSweepRefusalRetry
  exact goodO_ite (fun _ => goodO_next h) (fun _ => (by split; exacts [goodO_next h, (by extract_lets +onlyGivenNames t3; have g4 : Good q t3 := good_onSw h; clear_value t3; exact goodO_next (State.when_good g4 (fun _ => State.trigSweep_good g4)))]))

theorem State.pointBegin_good {q} {s} (h : Good q s) : Good q (State.pointBegin s) := by
  unfold State.pointBegin
  exact good_onSw h

theorem execSweepBaselineEnd_good {q} {a0} {s} (h : Good q s) : GoodO q (execSweepBaselineEnd a0 s) := by
  unfold execSweepBaselineEnd
  exact goodO_next (State.when_good h (fun _ => good_onSw h))

theorem execSweepPoint_good {q} {a0} {s} (h : Good q s) : GoodO q (execSweepPoint a0 s) := by
  unfold execSweepPoint
  exact goodO_ite (fun _ => goodO_next h) (fun _ => (by extract_lets +onlyGivenNames t3; clear_value t3; extract_lets +onlyGivenNames t4; have g5 : Good q t4 := State.useFree_good (good_onSw h); clear_value t4; exact goodO_ite (fun _ => goodO_next (State.sweepAbort_good g5)) (fun _ => goodO_ite (fun _ => goodO_next (State.pointBegin_good (good_onSw g5))) (fun _ => goodO_next (State.pointBegin_good (good_onSw g5))))))

theorem execSweepFit_good {q} {a0} {s} (h : Good q s) : GoodO q (execSweepFit a0 s) := by
  unfold execSweepFit
  exact goodO_ite (fun _ => goodO_next h) (fun _ => (by extract_lets +onlyGivenNames t3; clear_value t3; extract_lets +onlyGivenNames t4; clear_value t4; extract_lets +onlyGivenNames t5; clear_value t5; extract_lets +onlyGivenNames t6; clear_value t6; extract_lets +onlyGivenNames t7; clear_value t7; extract_lets +onlyGivenNames t8; clear_value t8; extract_lets +onlyGivenNames t9; clear_value t9; extract_lets +onlyGivenNames t10; clear_value t10; extract_lets +onlyGivenNames t11; clear_value t11; extract_lets +onlyGivenNames t12; clear_value t12; extract_lets +onlyGivenNames t13; have g14 : Good q t13 := good_ite (fun _ => good_onSw h) (fun _ => State.sweepClose_good h); clear_value t13; extract_lets +onlyGivenNames t17; have g18 : Good q t17 := State.useFree_good (good_onSw g14); clear_value t17; exact goodO_ite (fun _ => goodO_ite (fun _ => goodO_next (State.sweepAnswer_good g18)) (fun _ => goodO_next (State.sweepAnswer_good (State.raise_good (good_onSw g18))))) (fun _ => (by extract_lets +onlyGivenNames t23; have g24 : Good q t23 := good_onSw g18; clear_value t23; exact goodO_next (State.sweepAnswer_good (State.raise_good g24))))))

theorem execSweepAborted_good {q} {a0} {s} (h : Good q s) : GoodO q (execSweepAborted a0 s) := by
  unfold execSweepAborted
  exact goodO_next (State.when_good h (fun _ => State.sweepAbort_good h))

theorem execRestCorrection_good {q} {s} (h : Good q s) : GoodO q (execRestCorrection s) := by
  unfold execRestCorrection
  exact goodO_next (State.when_good h (fun _ => good_onMs (State.socSeed_good h)))

theorem State.setGrade_good {q} {s} {a1} {a2} (h : Good q s) : Good q (State.setGrade s a1 a2) := by
  unfold State.setGrade
  exact good_onSw h

theorem execGradeDecay_good {q} {a0} {s} (h : Good q s) : GoodO q (execGradeDecay a0 s) := by
  unfold execGradeDecay
  exact goodO_next (State.when_good h (fun _ => State.setGrade_good h))

theorem execModelMismatch_good {q} {a0} {a1} {a2} {s} (h : Good q s) : GoodO q (execModelMismatch a0 a1 a2 s) := by
  unfold execModelMismatch
  extract_lets +onlyGivenNames t1
  clear_value t1
  exact goodO_next (State.when_good h (fun _ => State.useFree_good (State.raise_good (good_onSw (State.setGrade_good h)))))

theorem execMeasQuery_good {q} {a0} {s} (h : Good q s) : GoodO q (execMeasQuery a0 s) := by
  unfold execMeasQuery
  exact goodO_next (State.query_good h)

theorem execCcGet_good {q} {a0} {s} (h : Good q s) : GoodO q (execCcGet a0 s) := by
  unfold execCcGet
  exact goodO_next (State.query_good h)

theorem State.ccPreset_good {q} {s} {a1} (h : Good q s) : Good q (State.ccPreset s a1) := by
  unfold State.ccPreset
  extract_lets +onlyGivenNames v1
  clear_value v1
  exact good_onChg (good_onMs h)

theorem execCcSet_good {q} {a0} {s} (h : Good q s) : GoodO q (execCcSet a0 s) := by
  unfold execCcSet
  extract_lets +onlyGivenNames v1
  clear_value v1
  extract_lets +onlyGivenNames v2
  clear_value v2
  exact goodO_next (State.carry_good h (fun _ g3 => (by extract_lets +onlyGivenNames t4; have g5 : Good q t4 := State.when_good g3 (fun _ => State.ccPreset_good g3); clear_value t4; extract_lets +onlyGivenNames t6; have g7 : Good q t6 := State.when_good g5 (fun _ => good_onMs g5); clear_value t6; exact State.finish_good g7)))

theorem execSweep_good {q} {a0} {a1} {s} (h : Good q s) : GoodO q (execSweep a0 a1 s) := by
  unfold execSweep
  extract_lets +onlyGivenNames v1
  clear_value v1
  exact goodO_next (State.carry_good h (fun _ g2 => (by extract_lets +onlyGivenNames v3; clear_value v3; extract_lets +onlyGivenNames v4; clear_value v4; split; exacts [State.finish_good (State.sweepRefuse_good g2), State.finish_good (State.sweepRefuse_good g2), State.sweepBegin_good (State.accept_good g2)])))

theorem execSweepStop_good {q} {a0} {s} (h : Good q s) : GoodO q (execSweepStop a0 s) := by
  unfold execSweepStop
  exact goodO_next (State.carry_good h (fun _ x2 => State.finish_good (State.sweepStop_good x2)))

theorem execPointsGet_good {q} {a0} {s} (h : Good q s) : GoodO q (execPointsGet a0 s) := by
  unfold execPointsGet
  extract_lets +onlyGivenNames v1
  clear_value v1
  extract_lets +onlyGivenNames v2
  clear_value v2
  extract_lets +onlyGivenNames v3
  clear_value v3
  exact goodO_next (State.carry_good h (fun _ g4 => (by extract_lets +onlyGivenNames v5; clear_value v5; extract_lets +onlyGivenNames v6; clear_value v6; exact State.finish_good g4)))

theorem execModelGet_good {q} {a0} {s} (h : Good q s) : GoodO q (execModelGet a0 s) := by
  unfold execModelGet
  extract_lets +onlyGivenNames v1
  clear_value v1
  extract_lets +onlyGivenNames v2
  clear_value v2
  exact goodO_next (State.carry_good h (fun _ g3 => (by extract_lets +onlyGivenNames v4; clear_value v4; extract_lets +onlyGivenNames v5; clear_value v5; exact State.useFree_good (State.finish_good g3))))

theorem execChemSet_good {q} {a0} {s} (h : Good q s) : GoodO q (execChemSet a0 s) := by
  unfold execChemSet
  extract_lets +onlyGivenNames v1
  clear_value v1
  extract_lets +onlyGivenNames v2
  clear_value v2
  exact goodO_next (State.carry_good h (fun _ g3 => State.finish_good (good_onSw g3)))

theorem execChemGet_good {q} {a0} {s} (h : Good q s) : GoodO q (execChemGet a0 s) := by
  unfold execChemGet
  extract_lets +onlyGivenNames v1
  clear_value v1
  extract_lets +onlyGivenNames v2
  clear_value v2
  extract_lets +onlyGivenNames v3
  clear_value v3
  exact goodO_next (State.carry_good h (fun _ g4 => (by extract_lets +onlyGivenNames t5; have g6 : Good q t5 := good_onSw g4; clear_value t5; exact State.finish_good g4)))
end Sys2Proof.Machine
end

