-- ==== Sys2Proof/Laws/KeepBus.lean ====
section
/-! SUPPORT. What each operation and each meaning of Machine/Bus.lean keeps: the queue of waiting commands and the invariant of
Safety.lean; a meaning also answers a next state. -/
namespace Sys2Proof.Machine

set_option Elab.async false
open Sys2Proof.Safety

theorem State.driven_good {q} {s} {a1} {a2} (h : Good q s) : Good q (State.driven s a1 a2) := by
  unfold State.driven
  exact State.onPort_good h

theorem execAddressMatchDormant_good {q} {a0} {s} (h : Good q s) : GoodO q (execAddressMatchDormant a0 s) := by
  unfold execAddressMatchDormant
  exact goodO_ite (fun _ => goodO_next h) (fun _ => (by exact settle_good (State.wakeFrom_good (State.onPort_good h)) h))

theorem execPointerSet_good {q} {a0} {a1} {s} (h : Good q s) : GoodO q (execPointerSet a0 a1 s) := by
  unfold execPointerSet
  exact goodO_next (State.when_good h (fun _ => State.onPort_good h))

theorem execBusTimeout_good {q} {a0} {s} (h : Good q s) : GoodO q (execBusTimeout a0 s) := by
  unfold execBusTimeout
  exact goodO_next (State.when_good h (fun _ => State.busFlag_good (State.onPort_good h)))

theorem execFilterApply_good {q} {a0} {s} (h : Good q s) : GoodO q (execFilterApply a0 s) := by
  unfold execFilterApply
  exact goodO_next (State.when_good h (fun _ => State.onPort_good h))

theorem State.readLine_good {q} {s} {a1} (h : Good q s) : Good q (State.readLine s a1) := by
  unfold State.readLine
  extract_lets +onlyGivenNames t1
  clear_value t1
  exact good_ite (fun _ => State.busFlag_good (State.driven_good h)) (fun _ => good_ite (fun _ => State.driven_good h) (fun _ => (by split; exacts [good_ite (fun _ => State.driven_good h) (fun _ => State.onPort_good h), State.onPort_good h])))

theorem execLineSupplied_good {q} {a0} {s} (h : Good q s) : GoodO q (execLineSupplied a0 s) := by
  unfold execLineSupplied
  split
  exacts [goodO_ite (fun _ => goodO_next h) (fun _ => (by extract_lets +onlyGivenNames v1; clear_value v1; exact goodO_next (State.driven_good (State.onPort_good h)))), goodO_next h]

theorem execStretchLimit_good {q} {a0} {s} (h : Good q s) : GoodO q (execStretchLimit a0 s) := by
  unfold execStretchLimit
  exact goodO_next (State.when_good h (fun _ => State.driven_good (State.busFlag_good (State.onPort_good h))))

theorem State.readRc_good {q} {s} {a1} (h : Good q s) : Good q (State.readRc s a1) := by
  unfold State.readRc
  extract_lets +onlyGivenNames t1
  clear_value t1
  extract_lets +onlyGivenNames t2
  clear_value t2
  extract_lets +onlyGivenNames t3
  have g4 : Good q t3 := State.driven_good h
  clear_value t3
  exact good_ite (fun _ => State.onPort_good g4) (fun _ => good_ite (fun _ => good_onQs g4 (fun h => h)) (fun _ => g4))

theorem State.readGts_good {q} {s} {a1} (h : Good q s) : Good q (State.readGts s a1) := by
  unfold State.readGts
  exact State.driven_good (State.onPort_good h)

theorem State.readMir_good {q} {s} {a1} (h : Good q s) : Good q (State.readMir s a1) := by
  unfold State.readMir
  extract_lets +onlyGivenNames t1
  clear_value t1
  extract_lets +onlyGivenNames t2
  clear_value t2
  exact State.driven_good (State.onPort_good h)

theorem State.readByte_good {q} {s} {a1} (h : Good q s) : Good q (State.readByte s a1) := by
  unfold State.readByte
  extract_lets +onlyGivenNames t1
  clear_value t1
  exact good_ite (fun _ => State.readRc_good h) (fun _ => good_ite (fun _ => State.readGts_good h) (fun _ => good_ite (fun _ => State.readMir_good h) (fun _ => good_ite (fun _ => State.readLine_good h) (fun _ => State.driven_good h))))

theorem execControlLineRead_good {q} {a0} {s} (h : Good q s) : GoodO q (execControlLineRead a0 s) := by
  unfold execControlLineRead
  exact goodO_next (State.when_good h (fun _ => State.readByte_good (State.when_good h (fun _ => State.onPort_good h))))

theorem execClearOnRead_good {q} {a0} {a1} {s} (h : Good q s) : GoodO q (execClearOnRead a0 a1 s) := by
  unfold execClearOnRead
  exact goodO_next (State.when_good h (fun _ => State.readRc_good h))

theorem execGtsLatch_good {q} {a0} {s} (h : Good q s) : GoodO q (execGtsLatch a0 s) := by
  unfold execGtsLatch
  exact goodO_next (State.when_good h (fun _ => State.driven_good (State.onPort_good h)))

theorem execMirStat_good {q} {a0} {s} (h : Good q s) : GoodO q (execMirStat a0 s) := by
  unfold execMirStat
  exact goodO_next (State.when_good h (fun _ => State.readMir_good h))

theorem State.bufferWrite_good {q} {s} {a1} {a2} (h : Good q s) : Good q (State.bufferWrite s a1 a2) := by
  unfold State.bufferWrite
  split
  exacts [h, State.updShow_good (good_onBus h (by (intro hx; (try dsimp only); (repeat' split); all_goals exact hx)))]

theorem State.hostWrite_good {q} {s} {a1} {a2} (h : Good q s) : Good q (State.hostWrite s a1 a2) := by
  unfold State.hostWrite
  exact good_ite (fun _ => good_onBus h (fun h => h)) (fun _ => good_ite (fun _ => State.onPort_good h) (fun _ => good_ite (fun _ => State.onPort_good h) (fun _ => good_ite (fun _ => good_ite (fun _ => h) (fun _ => State.guardFail_good h)) (fun _ => good_ite (fun _ => good_ite (fun _ => State.busFlag_good h) (fun _ => State.bufferWrite_good h)) (fun _ => good_ite (fun _ => good_ite (fun _ => h) (fun _ => good_onMb h (by (intro hx; simp_all [qsOk, mbOk, nvmOk, fltOk, sysOk, ccOk, fabOk, phaseOk, cfgOk]; done)))) (fun _ => h))))))

theorem execRegisterWrite_good {q} {a0} {a1} {a2} {s} (h : Good q s) : GoodO q (execRegisterWrite a0 a1 a2 s) := by
  unfold execRegisterWrite
  extract_lets +onlyGivenNames t1
  clear_value t1
  exact goodO_ite (fun _ => goodO_next h) (fun _ => (by extract_lets +onlyGivenNames t4; clear_value t4; extract_lets +onlyGivenNames t5; have g6 : Good q t5 := good_ite (fun _ => State.onPort_good h) (fun _ => State.wrote_good h); clear_value t5; split; exacts [goodO_ite (fun _ => goodO_next g6) (fun _ => goodO_next (State.busFlag_good (good_ite (fun _ => State.wrote_good g6) (fun _ => g6)))), goodO_ite (fun _ => settle_good (State.doorbell_good g6) h) (fun _ => goodO_next (State.hostWrite_good g6))]))

theorem execGuardedValue_good {q} {a0} {a1} {a2} {a3} {s} (h : Good q s) : GoodO q (execGuardedValue a0 a1 a2 a3 s) := by
  unfold execGuardedValue
  extract_lets +onlyGivenNames v1
  clear_value v1
  exact goodO_ite (fun _ => goodO_next h) (fun _ => (by extract_lets +onlyGivenNames t2; have g3 : Good q t2 := State.wrote_good h; clear_value t2; exact goodO_ite (fun _ => goodO_next (State.busFlag_good g3)) (fun _ => goodO_ite (fun _ => goodO_next (State.guardFail_good g3)) (fun _ => goodO_next (State.onPort_good g3)))))

theorem State.attnTry_good {q} {s} {a1} (h : Good q s) : Good q (State.attnTry s a1) := by
  unfold State.attnTry
  split
  exacts [good_onBus h (fun h => h), good_onBus h (fun h => h), good_ite (fun _ => good_onBus h (fun h => h)) (fun _ => State.busFlag_good (good_onBus h (fun h => h))), good_ite (fun _ => good_onBus h (fun h => h)) (fun _ => State.busFlag_good (good_onBus h (fun h => h))), good_ite (fun _ => good_onBus h (fun h => h)) (fun _ => State.busFlag_good (good_onBus h (fun h => h)))]

theorem execAttentionWrite_good {q} {a0} {s} (h : Good q s) : GoodO q (execAttentionWrite a0 s) := by
  unfold execAttentionWrite
  exact goodO_next (State.when_good h (fun _ => State.attnTry_good (good_onBus h (fun h => h))))

theorem execAttentionRetry_good {q} {a0} {s} (h : Good q s) : GoodO q (execAttentionRetry a0 s) := by
  unfold execAttentionRetry
  exact goodO_next (State.when_good h (fun _ => State.attnTry_good h))

theorem execAttentionRepeat_good {q} {a0} {s} (h : Good q s) : GoodO q (execAttentionRepeat a0 s) := by
  unfold execAttentionRepeat
  exact goodO_next (State.when_good h (fun _ => State.attnTry_good (good_onBus h (fun h => h))))

theorem State.applyConv_good {q} {s} {a1} {a2} (h : Good q s) (hs2 : Good q a2) : Good q (State.applyConv s a1 a2) := by
  unfold State.applyConv
  extract_lets +onlyGivenNames t1
  have g2 : Good q t1 := State.clampReg_good h
  clear_value t1
  extract_lets +onlyGivenNames v3
  clear_value v3
  extract_lets +onlyGivenNames v4
  clear_value v4
  extract_lets +onlyGivenNames t5
  have g6 : Good q t5 := State.when_good g2 (fun _ => good_onCc g2 (fun h => h))
  clear_value t5
  extract_lets +onlyGivenNames t7
  have g8 : Good q t7 := State.when_good g6 (fun _ => good_onCc g6 (fun h => h))
  clear_value t7
  exact State.when_good g8 (fun _ => State.fswTake_good (good_onCc g8 (fun h => h)))

theorem State.applyPath_good {q} {s} {a1} {a2} (h : Good q s) (hs2 : Good q a2) : Good q (State.applyPath s a1 a2) := by
  unfold State.applyPath
  extract_lets +onlyGivenNames t1
  clear_value t1
  extract_lets +onlyGivenNames t2
  have g3 : Good q t2 := good_ite (fun _ => good_onPp (State.setReg_good h)) (fun _ => State.when_good h (fun _ => good_onPp h))
  clear_value t2
  extract_lets +onlyGivenNames t7
  have g8 : Good q t7 := State.clampReg_good (State.clampReg_good (State.clampPair_good g3))
  clear_value t7
  extract_lets +onlyGivenNames t9
  clear_value t9
  extract_lets +onlyGivenNames t10
  have g11 : Good q t10 := State.when_good g8 (fun _ => State.setReg_good g8)
  clear_value t10
  extract_lets +onlyGivenNames t13
  have g14 : Good q t13 := State.when_good g11 (fun _ => good_onPp g11)
  clear_value t13
  extract_lets +onlyGivenNames t16
  have g17 : Good q t16 := good_foldl (fun _ _ g => (by exact State.when_good g (fun _ => State.sinkEnded_good g (State.endPath_good g)))) _ g14
  clear_value t16
  extract_lets +onlyGivenNames t18
  have g19 : Good q t18 := by
    refine good_foldl (fun u c g => ?_) _ g17
    refine State.when_good g fun _ => good_ite (fun _ => State.sendCaps_good (State.txClear_good g)) fun _ => ?_
    exact State.when_good g fun _ => State.negotiate_good (State.txClear_good g)
  clear_value t18
  exact State.when_good g19 (fun _ => State.batGone_good g19)

theorem State.applyMeas_good {q} {s} {a1} (h : Good q s) (hs1 : Good q a1) : Good q (State.applyMeas s a1) := by
  unfold State.applyMeas
  extract_lets +onlyGivenNames t1
  have g2 : Good q t1 := State.clampReg_good (State.clampReg_good (State.clampReg_good (State.clampReg_good (State.clampReg_good h))))
  clear_value t1
  extract_lets +onlyGivenNames t3
  clear_value t3
  extract_lets +onlyGivenNames t4
  have g5 : Good q t4 := State.clampReg_good (State.clampReg_good g2)
  clear_value t4
  extract_lets +onlyGivenNames t6
  have g7 : Good q t6 := State.when_good g5 (fun _ => State.setReg_good g5)
  clear_value t6
  extract_lets +onlyGivenNames t9
  have g10 : Good q t9 := State.when_good g7 (fun _ => State.bleedStop_good g7)
  clear_value t9
  exact State.when_good g10 (fun _ => State.withdrawQueued_good (State.sweepStop_good g10))

theorem State.applyTc_good {q} {a0} {s} (h : Good q s) : Good q (State.applyTc a0 s) := by
  unfold State.applyTc
  extract_lets +onlyGivenNames v1
  clear_value v1
  extract_lets +onlyGivenNames v2
  clear_value v2
  extract_lets +onlyGivenNames t3
  have g4 : Good q t3 := State.when_good h (fun _ => State.setReg_good h)
  clear_value t3
  extract_lets +onlyGivenNames t5
  have g6 : Good q t5 := State.clampReg_good g4
  clear_value t5
  extract_lets +onlyGivenNames t7
  have g8 : Good q t7 := State.clampReg_good (State.clampReg_good (State.clampReg_good g6))
  clear_value t7
  extract_lets +onlyGivenNames t9
  have g10 : Good q t9 := State.when_good g8 (fun _ => State.vconnOn_good g8)
  clear_value t9
  exact State.frsEval_good (State.tcReeval_good g10)

theorem State.applySeq_good {q} {s} {a1} {a2} {a3} (h : Good q s) (hs3 : Good q a3) : Good q (State.applySeq s a1 a2 a3) := by
  unfold State.applySeq
  extract_lets +onlyGivenNames t1
  have g2 : Good q t1 := State.clampReg_good (State.clampReg_good (State.clampReg_good h))
  clear_value t1
  extract_lets +onlyGivenNames t3
  have g4 : Good q t3 := good_foldl (fun _ _ x7 => State.clampReg_good x7) _ g2
  clear_value t3
  extract_lets +onlyGivenNames t8
  have g9 : Good q t8 := State.when_good g4 (fun _ => good_onSeq g4)
  clear_value t8
  extract_lets +onlyGivenNames t11
  have g12 : Good q t11 := State.when_good g9 (fun _ => good_ite (fun _ => State.tableApply_good g9) (fun _ => good_onSeq g9))
  clear_value t11
  extract_lets +onlyGivenNames t16
  have g17 : Good q t16 := State.when_good g12 (fun _ => good_onSeq g12)
  clear_value t16
  extract_lets +onlyGivenNames t19
  have g20 : Good q t19 := State.when_good g17 (fun _ => State.nrstJudge_good g17)
  clear_value t19
  exact State.when_good g20 (fun _ => State.withdrawQueued_good (State.seqDisable_good g20))

theorem State.applyBlock_good {q} {s} {a1} {a2} {a3} (h : Good q s) : Good q (State.applyBlock s a1 a2 a3) := by
  unfold State.applyBlock
  extract_lets +onlyGivenNames t1
  clear_value t1
  exact good_ite (fun _ => h) (fun _ => good_ite (fun _ => good_onChg h) (fun _ => (by extract_lets +onlyGivenNames t6; have g7 : Good q t6 := State.takeShadows_good h; clear_value t6; extract_lets +onlyGivenNames t8; clear_value t8; extract_lets +onlyGivenNames t9; have g10 : Good q t9 := (by dsimp only [t9]; split; exacts [State.applyConv_good g7 h, State.applyPath_good g7 h, State.applyChg_good g7, State.applyMeas_good g7 h, State.applyTc_good (State.applyTc_good g7), State.applySeq_good g7 h, State.clampPair_good g7, State.clampReg_good g7]); clear_value t9; exact State.updShow_good g10)))

theorem execUpdate_good {q} {a0} {a1} {s} (h : Good q s) : GoodO q (execUpdate a0 a1 s) := by
  unfold execUpdate
  exact goodO_ite (fun _ => goodO_next h) (fun _ => (by extract_lets +onlyGivenNames t1; have g2 : Good q t1 := State.wrote_good h; clear_value t1; exact goodO_ite (fun _ => goodO_next (State.busFlag_good g2)) (fun _ => goodO_ite (fun _ => goodO_next g2) (fun _ => goodO_ite (fun _ => goodO_next (good_onBus g2 (fun h => h))) (fun _ => goodO_next (good_onBus g2 (fun h => h)))))))

theorem execUpdateApply_good {q} {s} (h : Good q s) : GoodO q (execUpdateApply s) := by
  unfold execUpdateApply
  exact goodO_ite (fun _ => goodO_next h) (fun _ => (by extract_lets +onlyGivenNames t1; have g2 : Good q t1 := good_onBus h (fun h => h); clear_value t1; exact settle_good (good_foldl (fun _ _ g3 => State.applyBlock_good g3) _ g2) h))

theorem execImm_good {q} {a0} {a1} {s} (h : Good q s) : GoodO q (execImm a0 a1 s) := by
  unfold execImm
  exact goodO_ite (fun _ => goodO_next h) (fun _ => (by extract_lets +onlyGivenNames t1; have g2 : Good q t1 := State.wrote_good h; clear_value t1; exact goodO_ite (fun _ => goodO_next (State.busFlag_good g2)) (fun _ => goodO_next (good_onBus g2 (fun h => h)))))

theorem State.immWrite_good {q} {s} {a1} (h : Good q s) : Good q (State.immWrite s a1) := by
  unfold State.immWrite
  extract_lets +onlyGivenNames t1
  have g2 : Good q t1 := good_onBus h (fun h => h)
  clear_value t1
  split
  exacts [h, good_ite (fun _ => State.updShow_good g2) (fun _ => State.applyBlock_good g2)]

theorem execImmWriteApply_good {q} {s} (h : Good q s) : GoodO q (execImmWriteApply s) := by
  unfold execImmWriteApply
  exact goodO_ite (fun _ => goodO_next h) (fun _ => (by extract_lets +onlyGivenNames t3; have g4 : Good q t3 := good_onBus h (fun h => h); clear_value t3; extract_lets +onlyGivenNames t5; have g6 : Good q t5 := good_foldl (fun _ _ x9 => State.applyBlock_good x9) _ g4; clear_value t5; exact settle_good (good_foldl (fun _ _ x12 => State.immWrite_good x12) _ g6) h))

theorem execStkUpdEdge_good {q} {s} (h : Good q s) : GoodO q (execStkUpdEdge s) := by
  unfold execStkUpdEdge
  extract_lets +onlyGivenNames t1
  have g2 : Good q t1 := good_onBus h (fun h => h)
  clear_value t1
  exact settle_good (State.when_good g2 (fun _ => State.wakeFrom_good g2)) h

theorem execStkUpdApply_good {q} {s} (h : Good q s) : GoodO q (execStkUpdApply s) := by
  unfold execStkUpdApply
  exact goodO_ite (fun _ => goodO_next h) (fun _ => (by extract_lets +onlyGivenNames v1; clear_value v1; extract_lets +onlyGivenNames t2; have g3 : Good q t2 := good_onBus h (fun h => h); clear_value t2; exact settle_good (good_foldl (fun _ _ g4 => State.applyBlock_good g4) _ g3) h))
end Sys2Proof.Machine
end

