-- ==== Sys2Proof/Laws/KeepMailbox.lean ====
section
/-! SUPPORT. What each operation and each meaning of Machine/Mailbox.lean keeps: the queue of waiting commands and the invariant of
Safety.lean; a meaning also answers a next state. -/
namespace Sys2Proof.Machine

set_option Elab.async false
open Sys2Proof.Safety

theorem execMailboxRing_good {q} {a0} {s} (h : Good q s) : GoodO q (execMailboxRing a0 s) := by
  unfold execMailboxRing
  exact settle_good (State.when_good h (fun _ => State.doorbell_good (State.wrote_good h))) h

theorem execMailboxDone_good {q} {a0} {s} (h : Good q s) : GoodO q (execMailboxDone a0 s) := by
  unfold execMailboxDone
  exact settle_good (State.when_good h (fun _ => State.doorbell_good (State.wrote_good h))) h

theorem State.postFinal_good {q} {s} {a1} (h : Good q s) : Good q (State.postFinal s a1) := by
  unfold State.postFinal
  extract_lets +onlyGivenNames v1
  clear_value v1
  split
  exacts [State.onBox_good (State.postFrame_good h), h]

theorem execCommandCompletion_good {q} {a0} {s} (h : Good q s) : GoodO q (execCommandCompletion a0 s) := by
  unfold execCommandCompletion
  exact goodO_next (State.postFinal_good (State.tuneLate_good h))

theorem execMailboxAutoRelease_good {q} {a0} {s} (h : Good q s) : GoodO q (execMailboxAutoRelease a0 s) := by
  unfold execMailboxAutoRelease
  exact settle_good (State.when_good h (fun _ => State.release_good h)) h

theorem execSysStatus_good {q} {a0} {s} (h : Good q s) : GoodO q (execSysStatus a0 s) := by
  unfold execSysStatus
  exact goodO_next (State.query_good h)

theorem execEventRead_good {q} {a0} {s} (h : Good q s) : GoodO q (execEventRead a0 s) := by
  unfold execEventRead
  extract_lets +onlyGivenNames v1
  clear_value v1
  exact goodO_next (State.carry_good h (fun _ g2 => (by extract_lets +onlyGivenNames v3; extract_lets +onlyGivenNames v4; exact State.finish_good (good_onQs g2 (fun hq => ⟨Nat.le_trans (drop_len _ _) hq.1, hq.2⟩)))))

theorem execQueueStat_good {q} {a0} {s} (h : Good q s) : GoodO q (execQueueStat a0 s) := by
  unfold execQueueStat
  exact goodO_next (State.query_good h)

theorem execQueueClear_good {q} {a0} {s} (h : Good q s) : GoodO q (execQueueClear a0 s) := by
  unfold execQueueClear
  extract_lets +onlyGivenNames v1
  clear_value v1
  exact goodO_next (State.carry_good h (fun _ g2 => State.finish_good (good_onQs g2 (fun hq => ⟨hq.1, hq.2.1, hq.2.2.1, hq.2.2.2.1, hq.2.2.2.2.1, by simpa using hq.2.2.2.2.2.1, drops_clear hq.2.2.2.2.2.2⟩))))

theorem execDormantCfg_good {q} {a0} {s} (h : Good q s) : GoodO q (execDormantCfg a0 s) := by
  unfold execDormantCfg
  extract_lets +onlyGivenNames v1
  clear_value v1
  extract_lets +onlyGivenNames v2
  clear_value v2
  exact goodO_next (State.carry_good h (fun _ g3 => State.finish_good (good_onSys g3 (fun h => h))))

theorem State.dormAsk_good {q} {s} {a1} {a2} (h : Good q s) : Good q (State.dormAsk s a1 a2) := by
  unfold State.dormAsk
  extract_lets +onlyGivenNames t1
  have g2 : Good q t1 := State.accept_good h
  clear_value t1
  exact good_ite (fun _ => State.finish_good g2) (fun _ => (by extract_lets +onlyGivenNames t3; have g4 : Good q t3 := good_onSys g2 (fun h => h); clear_value t3; exact good_ite (fun _ => State.dormBegin_good g4) (fun _ => g4)))

theorem execDormantEnter_good {q} {a0} {a1} {s} (h : Good q s) : GoodO q (execDormantEnter a0 a1 s) := by
  unfold execDormantEnter
  exact goodO_next (State.carry_good h (fun _ g1 => State.dormAsk_good g1))

theorem execMbxReset_good {q} {a0} {s} (h : Good q s) : GoodO q (execMbxReset a0 s) := by
  unfold execMbxReset
  exact goodO_next (State.carry_good h (fun _ g1 => State.finishAct_good g1))

theorem State.withdrawUp_good {q} {s} {a1} (h : Good q s) : Good q (State.withdrawUp s a1) := by
  unfold State.withdrawUp
  exact good_ite (fun _ => State.seqStop_good (State.finishL_good (good_onSeq h))) (fun _ => (by extract_lets +onlyGivenNames v1; clear_value v1; exact State.finish_good (good_onSeq h)))

theorem State.withdrawDown_good {q} {s} {a1} (h : Good q s) : Good q (State.withdrawDown s a1) := by
  unfold State.withdrawDown
  exact good_ite (fun _ => State.seqStop_good (State.finishL_good (good_onSeq h))) (fun _ => (by extract_lets +onlyGivenNames v1; clear_value v1; exact State.finish_good (good_onSeq h)))

theorem State.withdrawWork_good {q} {s} {a1} (h : Good q s) : Good q (State.withdrawWork s a1).1 := by
  unfold State.withdrawWork
  extract_lets +onlyGivenNames v1
  clear_value v1
  split
  exacts [State.dormCancel_good h, (by split; exacts [State.sweepStop_good (State.finish_good (good_onSw h)), (by split; exacts [State.withdrawUp_good h, (by split; exacts [State.withdrawDown_good h, (by split; exacts [State.finish_good (good_onCc h (fun h => h)), (by split; exacts [State.tuneNext_good (State.finish_good (good_onCc h (fun h => h))), (by split; exacts [State.shipCheck_good (State.finish_good (good_onNvm h (fun hx => ⟨Nat.le_trans (List.length_filter_le _ _) hx.1, hx.2.1, hx.2.2.1, hx.2.2.2.1, hx.2.2.2.2.1, hx.2.2.2.2.2.1, fun r hr => hx.2.2.2.2.2.2.1 r (List.mem_of_mem_filter hr), hx.2.2.2.2.2.2.2⟩))), (by split; exacts [State.finish_good (good_onQs (good_onStk h) (fun hq => ⟨hq.1, by split <;> first | exact stkErase hq.2.1 | exact hq.2.1, hq.2.2⟩)), h])])])])])])])]

theorem State.withdrawBox_good {q} {s} {a1} (h : Good q s) : Good q (State.withdrawBox s a1).1 := by
  unfold State.withdrawBox
  extract_lets +onlyGivenNames v1
  clear_value v1
  split
  exacts [good_onMb (State.finish_good h) (fun h => h), (by split; exacts [h, State.withdrawWork_good h]), (by split; exacts [h, State.withdrawWork_good h]), h, h]

theorem execWithdraw_good {q} {a0} {s} (h : Good q s) : GoodO q (execWithdraw a0 s) := by
  unfold execWithdraw
  exact settle_good (State.carry_good h (fun _ g1 => (by extract_lets +onlyGivenNames v2; clear_value v2; split; exacts [(by extract_lets +onlyGivenNames v3; have g4 : Good q v3.1 := State.withdrawBox_good g1; clear_value v3; exact State.finish_good g4), State.finish_good g1]))) h
end Sys2Proof.Machine
end

