-- ==== Sys2Proof/Laws/KeepRoute.lean ====
section
/-! SUPPORT. What each operation and each meaning of Machine/Route.lean keeps: the queue of waiting commands and the invariant of
Safety.lean; a meaning also answers a next state. -/
namespace Sys2Proof.Machine

set_option Elab.async false
open Sys2Proof.Safety

theorem execPlaceQuery_good {q} {a0} {s} (h : Good q s) : GoodO q (execPlaceQuery a0 s) := by
  unfold execPlaceQuery
  exact goodO_next (State.query_good h)

theorem execBasinQuery_good {q} {a0} {s} (h : Good q s) : GoodO q (execBasinQuery a0 s) := by
  unfold execBasinQuery
  exact goodO_next (State.query_good h)

theorem execPathQuery_good {q} {a0} {s} (h : Good q s) : GoodO q (execPathQuery a0 s) := by
  unfold execPathQuery
  exact goodO_next (State.carry_good h (fun _ g1 => State.finish_good g1))

theorem execPathSet_good {q} {a0} {s} (h : Good q s) : GoodO q (execPathSet a0 s) := by
  unfold execPathSet
  extract_lets +onlyGivenNames t1
  clear_value t1
  extract_lets +onlyGivenNames t2
  clear_value t2
  extract_lets +onlyGivenNames t3
  clear_value t3
  exact goodO_next (State.carry_good h (fun _ x5 => (by extract_lets +onlyGivenNames t6; have g7 : Good q t6 := State.onPath_good x5; clear_value t6; exact State.finish_good (by split; exacts [State.eprTry_good g7, g7]))))

theorem execHostCap_good {q} {a0} {s} (h : Good q s) : GoodO q (execHostCap a0 s) := by
  unfold execHostCap
  extract_lets +onlyGivenNames v1
  clear_value v1
  exact goodO_next (State.carry_good h (fun _ g2 => State.finish_good (good_onFab g2 (fun h => h))))

theorem execCoefSet_good {q} {a0} {s} (h : Good q s) : GoodO q (execCoefSet a0 s) := by
  unfold execCoefSet
  extract_lets +onlyGivenNames v1
  clear_value v1
  exact goodO_next (State.carry_good h (fun _ g2 => State.finish_good (good_onCc g2 (fun h => h))))

theorem execCoefGet_good {q} {a0} {s} (h : Good q s) : GoodO q (execCoefGet a0 s) := by
  unfold execCoefGet
  extract_lets +onlyGivenNames v1
  clear_value v1
  exact goodO_next (State.carry_good h (fun _ g2 => State.finish_good g2))

theorem State.tuneCmd_good {q} {s} {a1} {a2} (h : Good q s) : Good q (State.tuneCmd s a1 a2) := by
  unfold State.tuneCmd
  extract_lets +onlyGivenNames v1
  clear_value v1
  extract_lets +onlyGivenNames v2
  clear_value v2
  exact good_ite (fun _ => State.finish_good h) (fun _ => good_ite (fun _ => State.finish_good h) (fun _ => State.tuneNext_good (good_onCc (State.accept_good h) (fun h => h))))

theorem execTune_good {q} {a0} {s} (h : Good q s) : GoodO q (execTune a0 s) := by
  unfold execTune
  exact goodO_next (State.carry_good h (fun _ g1 => State.tuneCmd_good g1))
end Sys2Proof.Machine
end

