-- ==== Sys2Proof/Laws/KeepFaultCmd.lean ====
section
/-! SUPPORT. What each operation and each meaning of Machine/FaultCmd.lean keeps: the queue of waiting commands and the invariant of
Safety.lean; a meaning also answers a next state. -/
namespace Sys2Proof.Machine

set_option Elab.async false
open Sys2Proof.Safety

theorem execFaultQuery_good {q} {a0} {s} (h : Good q s) : GoodO q (execFaultQuery a0 s) := by
  unfold execFaultQuery
  exact goodO_next (State.query_good h)

theorem execRecGet_good {q} {a0} {s} (h : Good q s) : GoodO q (execRecGet a0 s) := by
  unfold execRecGet
  extract_lets +onlyGivenNames v1
  clear_value v1
  extract_lets +onlyGivenNames v2
  clear_value v2
  exact goodO_next (State.carry_good h (fun _ g3 => (by extract_lets +onlyGivenNames v4; clear_value v4; exact State.finish_good g3)))

theorem execLfGet_good {q} {a0} {s} (h : Good q s) : GoodO q (execLfGet a0 s) := by
  unfold execLfGet
  extract_lets +onlyGivenNames v1
  clear_value v1
  extract_lets +onlyGivenNames v2
  clear_value v2
  exact goodO_next (State.carry_good h (fun _ g3 => State.finish_good g3))

theorem execFaultClear_good {q} {a0} {s} (h : Good q s) : GoodO q (execFaultClear a0 s) := by
  unfold execFaultClear
  exact goodO_next (State.carry_good h (fun _ g1 => good_ite (fun _ => State.finish_good g1) (fun _ => State.finish_good (good_onFlt g1 (by (intro hx; simp_all [fltOk]))))))

theorem execRelease_good {q} {a0} {a1} {s} (h : Good q s) : GoodO q (execRelease a0 a1 s) := by
  unfold execRelease
  exact settle_good (State.carry_good h (fun _ g1 => (by extract_lets +onlyGivenNames v2; have g3 : Good q v2.1 := State.holdRelease_good g1; clear_value v2; exact State.finish_good g3))) h

theorem execUnfence_good {q} {a0} {s} (h : Good q s) : GoodO q (execUnfence a0 s) := by
  unfold execUnfence
  extract_lets +onlyGivenNames v1
  clear_value v1
  exact settle_good (State.carry_good h (fun _ g2 => State.finish_good (good_ite (fun _ => good_foldl (fun _ _ g3 => State.liftFence_good g3) _ g2) (fun _ => State.liftFence_good g2)))) h

theorem execFcntClear_good {q} {a0} {s} (h : Good q s) : GoodO q (execFcntClear a0 s) := by
  unfold execFcntClear
  extract_lets +onlyGivenNames v1
  clear_value v1
  exact goodO_next (State.carry_good h (fun _ g2 => State.finish_good (good_onFlt g2 (fun h => h))))

theorem execFecGet_good {q} {a0} {s} (h : Good q s) : GoodO q (execFecGet a0 s) := by
  unfold execFecGet
  extract_lets +onlyGivenNames v1
  clear_value v1
  exact goodO_next (State.carry_good h (fun _ g2 => (by split; exacts [State.finish_good (State.when_good g2 (fun _ => good_onFlt g2 (fun h => h))), State.finish_good (State.useFree_good g2)])))

theorem execWdgQuery_good {q} {a0} {s} (h : Good q s) : GoodO q (execWdgQuery a0 s) := by
  unfold execWdgQuery
  exact goodO_next (State.query_good h)

theorem execEvidGet_good {q} {a0} {s} (h : Good q s) : GoodO q (execEvidGet a0 s) := by
  unfold execEvidGet
  exact goodO_next (State.useFree_good (State.query_good h))

theorem execWcntClear_good {q} {a0} {s} (h : Good q s) : GoodO q (execWcntClear a0 s) := by
  unfold execWcntClear
  extract_lets +onlyGivenNames v1
  clear_value v1
  exact goodO_next (State.carry_good h (fun _ g2 => State.finish_good (good_onWd g2)))
end Sys2Proof.Machine
end

