-- ==== Sys2Proof/Laws/KeepNvm.lean ====
section
/-! SUPPORT. What each operation and each meaning of Machine/Nvm.lean keeps: the queue of waiting commands and the invariant of
Safety.lean; a meaning also answers a next state. -/
namespace Sys2Proof.Machine

set_option Elab.async false
open Sys2Proof.Safety

theorem State.storeCmd_good {q} {s} {a1} {a2} (h : Good q s) : Good q (State.storeCmd s a1 a2) := by
  unfold State.storeCmd
  extract_lets +onlyGivenNames v1
  clear_value v1
  refine good_ite (fun _ => State.finish_good h) (fun _ => good_ite (fun _ => State.finish_good h) (fun _ => good_ite (fun _ => State.finish_good (State.drop_good h)) (fun _ => State.nvmPush_good (State.accept_good h) ?_ rfl)))
  rename_i hr
  have : s.nvm.q.length < 8 := by simpa [State.nvmRoom] using hr
  exact this

theorem execNvmStore_good {q} {a0} {s} (h : Good q s) : GoodO q (execNvmStore a0 s) := by
  unfold execNvmStore
  extract_lets +onlyGivenNames v1
  clear_value v1
  exact goodO_next (State.carry_good h (fun _ g2 => State.storeCmd_good g2))

theorem execNvmStat_good {q} {a0} {s} (h : Good q s) : GoodO q (execNvmStat a0 s) := by
  unfold execNvmStat
  exact goodO_next (State.query_good h)

theorem execImageLoad_good {q} {a0} {s} (h : Good q s) : GoodO q (execImageLoad a0 s) := by
  unfold execImageLoad
  extract_lets +onlyGivenNames v1
  clear_value v1
  extract_lets +onlyGivenNames v2
  clear_value v2
  exact goodO_next (State.carry_good h (fun _ g3 => good_ite (fun _ => State.finish_good g3) (fun _ => State.finish_good (good_onNvm g3 (by (intro hx; simp_all [nvmOk]))))))

theorem execImageAct_good {q} {a0} {s} (h : Good q s) : GoodO q (execImageAct a0 s) := by
  unfold execImageAct
  extract_lets +onlyGivenNames v1
  clear_value v1
  exact goodO_next (State.carry_good h (fun _ g2 => good_ite (fun _ => State.finishAct_good g2) (fun _ => State.finish_good g2)))

theorem execAddrSet_good {q} {a0} {s} (h : Good q s) : GoodO q (execAddrSet a0 s) := by
  unfold execAddrSet
  extract_lets +onlyGivenNames v1
  clear_value v1
  extract_lets +onlyGivenNames v2
  clear_value v2
  exact goodO_next (State.carry_good h (fun _ g3 => State.finish_good (good_onBus g3 (fun h => h))))

theorem execIdGet_good {q} {a0} {s} (h : Good q s) : GoodO q (execIdGet a0 s) := by
  unfold execIdGet
  exact goodO_next (State.query_good h)

theorem execCertGet_good {q} {a0} {s} (h : Good q s) : GoodO q (execCertGet a0 s) := by
  unfold execCertGet
  extract_lets +onlyGivenNames v1
  clear_value v1
  extract_lets +onlyGivenNames v2
  clear_value v2
  exact goodO_next (State.carry_good h (fun _ g3 => (by extract_lets +onlyGivenNames v4; clear_value v4; exact State.finish_good g3)))

theorem execLogSign_good {q} {a0} {s} (h : Good q s) : GoodO q (execLogSign a0 s) := by
  unfold execLogSign
  exact goodO_next (State.carry_good h (fun _ g1 => State.finish_good (State.useFree_good (State.accept_good g1))))

theorem State.rollbackRise_good {q} {s} (h : Good q s) : Good q (State.rollbackRise s) := by
  unfold State.rollbackRise
  exact good_ite (fun _ => good_ite (fun _ => good_onNvm h (fun h => h)) (fun _ => State.when_good h (fun _ => State.raise_good (good_onNvm h (fun h => h))))) (fun _ => h)

theorem good_onNvm' {q} {s : State} {f : NvmS → NvmS} (h : Good q s) (hq : (f s.nvm).q = s.nvm.q := by rfl) (hc : (f s.nvm).cfg = s.nvm.cfg := by rfl)
    (hp : (f s.nvm).prog = s.nvm.prog := by rfl) (ha : Memory.wf blankByte (f s.nvm).imgA = true) (hb : Memory.wf blankByte (f s.nvm).imgB = true)
    (hs : Memory.wf zeroByte (f s.nvm).stage = true) : Good q (s.onNvm f) := by
  refine good_onNvm h fun hx => ?_
  obtain ⟨h1, h2, h3, h4, h5, h6, h7, h8⟩ := hx
  exact ⟨hq ▸ h1, hc ▸ h2, ha, hb, hs, hc ▸ h6, hq ▸ h7, hp ▸ h8⟩

theorem State.imgBegin_good {q} {s} {a1} (h : Good q s) : Good q (State.imgBegin s a1) := by
  unfold State.imgBegin
  exact State.eraseBegin_good (good_onNvm h (fun h => h))

theorem bankSet {l : List (Option Bank)} {i : Nat} {o : Option Bank} (h : ∀ b, some b ∈ l → cfgOk b.cfg) (ho : ∀ b, o = some b → cfgOk b.cfg) :
    ∀ b, some b ∈ l.set i o → cfgOk b.cfg := by
  intro b hb
  rcases List.mem_or_eq_of_mem_set hb with hb | hb
  · exact h _ hb
  · exact ho _ hb.symm

theorem cfgStored_ok {q} {s : State} (h : Good q s) : cfgOk s.cfgStored := by
  have g1 : Good q (s.when s.seq.tblPend State.tableBack) := State.when_good h fun _ => State.tableBack_good h
  have g2 := State.when_good (c := s.cc.fswPend)
    (f := fun x => (x.setReg 0x0140 (BitVec.ofNat 8 s.cc.fsw)).setReg 0x0141 (BitVec.ofNat 8 (s.cc.fsw / 256))) g1
    fun _ => State.setReg_good (State.setReg_good g1)
  exact g2.2.2.2.2.2.2.2.2

theorem State.cfgBegin_good {q} {s} {a1} (h : Good q s) : Good q (State.cfgBegin s a1) := by
  have hc := cfgStored_ok h
  have hr := State.rollbackRise_good h
  unfold State.cfgBegin
  dsimp only
  generalize s.rollbackRise = t at hr ⊢
  generalize s.cfgStored = c at hc ⊢
  have g := good_onNvm (f := fun x => { x with prog := some { a1 with cfg := c, bank := s.bankFree, rb := decide (s.nvm.rollback.length < t.nvm.rollback.length), left := bankSectors s.bankFree } }) hr fun hx => by
    obtain ⟨h1, h2, h3, h4, h5, h6, h7, h8⟩ := hx
    exact ⟨h1, h2, h3, h4, h5, h6, h7, fun r hr => by cases hr; exact hc⟩
  exact good_ite (fun _ => g) fun _ => State.eraseBegin_good g

theorem State.eraseRest_good {q} {s} {a1} (h : Good q s) : Good q (State.eraseRest s a1) := by
  unfold State.eraseRest
  split
  exacts [State.eraseSectors_good h, State.eraseSectors_good h, State.eraseSectors_good h, h, h]

theorem State.reqGone_good {q} {s} {a1} {a2} {a3} (h : Good q s) : Good q (State.reqGone s a1 a2 a3) := by
  unfold State.reqGone
  split
  exacts [State.finishO_good h, State.finishO_good h, State.finishO_good h, State.lfUnqueue_good h, State.when_good h (fun _ => State.drop_good h)]

theorem execNvmRequestStart_good {q} {a0} {s} (h : Good q s) : GoodO q (execNvmRequestStart a0 s) := by
  have hx := h.2.2.2.2.2.1
  unfold execNvmRequestStart
  split
  · rename_i r rest hq hp
    have hr : Good q (s.onNvm fun x => { x with q := rest }) := good_onNvm h fun _ => by
      obtain ⟨h1, h2, h3, h4, h5, h6, h7, h8⟩ := hx
      rw [hq] at h1 h7
      exact ⟨by simp at h1; show rest.length ≤ 8; omega, h2, h3, h4, h5, h6, fun r' hr' => h7 _ (List.mem_cons_of_mem _ hr'), h8⟩
    have ha : Good q (s.aheadEnd false) := State.aheadEnd_good h
    have hq2 : (s.aheadEnd false).nvm.q = r :: rest := by
      rw [← hq]; unfold State.aheadEnd; split <;> rfl
    generalize s.aheadEnd false = t at ha hq2 ⊢
    have hr2 : Good q (t.onNvm fun x => { x with q := rest, prog := some r }) := good_onNvm ha fun hx => by
      obtain ⟨h1, h2, h3, h4, h5, h6, h7, h8⟩ := hx
      rw [hq2] at h1 h7
      exact ⟨by simp at h1; show rest.length ≤ 8; omega, h2, h3, h4, h5, h6, fun r' hr' => h7 _ (List.mem_cons_of_mem _ hr'), fun r' hr' => by cases hr'; exact h7 _ List.mem_cons_self⟩
    exact goodO_ite (fun _ => goodO_next h) (fun _ => goodO_ite (fun _ => (by exact settle_good (State.shipCheck_good (State.reqGone_good hr)) h)) (fun _ => goodO_ite (fun _ => goodO_next h) (fun _ => (by extract_lets +onlyGivenNames t1; have g2 : Good q t1 := hr2; clear_value t1; extract_lets +onlyGivenNames t3; have g4 : Good q t3 := (by unfold t3; split; exacts [State.onBox_good g2, g2]); clear_value t3; exact goodO_next (by split; exacts [State.cfgBegin_good g4, State.imgBegin_good g4, State.imgBegin_good g4, g4, g4])))))
  · exact goodO_next h

theorem State.lfFree_good {q} {s} {a1} (h : Good q s) : Good q (State.lfFree s a1) := by
  unfold State.lfFree
  have h1 : Good q (s.onFlt fun f => { f with lfSlot := f.lfSlot.eraseIdx a1 }) :=
    good_onFlt h fun hf => ⟨hf.1, Nat.le_trans (List.length_eraseIdx_le ..) hf.2⟩
  refine good_onNvm h1 fun hx => ?_
  obtain ⟨h1, h2, h3, h4, h5, h6, h7, h8⟩ := hx
  refine ⟨by simpa using h1, h2, h3, h4, h5, h6, ?_, h8⟩
  intro r hr
  obtain ⟨y, hy, rfl⟩ := List.mem_map.1 hr
  have : cfgOk y.cfg := h7 _ hy
  split <;> exact this

theorem blank_zero (a : Nat) : ((0 : Byte) != blankByte a) = true := by unfold blankByte; decide

theorem staged_ordered {n : Nat} : ∀ {a l} (lo), lo ≤ a → memOrdered blankByte lo (stagedCells n a l) = true := by
  induction n with
  | zero => intro a l lo _; unfold stagedCells; rfl
  | succ n ih =>
    intro a l lo hlo
    rcases l with _ | ⟨⟨k, v⟩, r⟩
    · simp only [stagedCells, memOrdered, Bool.and_eq_true, decide_eq_true_eq]
      exact ⟨⟨hlo, blank_zero a⟩, ih _ (Nat.le_refl _)⟩
    · simp only [stagedCells]
      split
      · split
        · exact ih _ (by omega)
        · rename_i hv
          simp only [memOrdered, Bool.and_eq_true, decide_eq_true_eq]
          exact ⟨⟨hlo, by simpa [blankByte] using hv⟩, ih _ (Nat.le_refl _)⟩
      · simp only [memOrdered, Bool.and_eq_true, decide_eq_true_eq]
        exact ⟨⟨hlo, blank_zero a⟩, ih _ (Nat.le_refl _)⟩

theorem staged_wf {n a : Nat} {l : List Host.Cell} : Memory.wf blankByte (stagedCells n a l) = true := staged_ordered _ (Nat.zero_le _)

theorem State.writeDone_good {q} {s} {r} (h : Good q s) (hc : cfgOk r.cfg) : Good q (State.writeDone s r) := by
  have h1 : Good q (s.onNvm fun x => { x with prog := none }) := good_onNvm h fun hx => by
    obtain ⟨h1, h2, h3, h4, h5, h6, h7, h8⟩ := hx
    exact ⟨h1, h2, h3, h4, h5, h6, h7, by simp⟩
  have h0 := State.eraseRest_good (a1 := r) h1
  unfold State.writeDone
  dsimp only
  generalize (s.onNvm (fun x => { x with prog := none })).eraseRest r = t at h0 ⊢
  have hx := h0.2.2.2.2.2.1
  split
  · refine State.finishO_good (State.useFree_good (good_onNvm h0 fun hx => ?_))
    obtain ⟨h1, h2, h3, h4, h5, h6, h7, h8⟩ := hx
    exact ⟨h1, by simpa using h2, h3, h4, h5, bankSet h6 (by rintro b ⟨⟩; exact hc), h7, h8⟩
  · exact State.finishO_good (good_onNvm' h0 rfl rfl rfl staged_wf hx.2.2.2.1 hx.2.2.2.2.1)
  · exact State.finishO_good (good_onNvm' h0 rfl rfl rfl hx.2.2.1 staged_wf hx.2.2.2.2.1)
  · exact State.lfAhead_good (State.lfFree_good (State.lfPut_good h0))
  · exact State.ringAhead_good (State.ringPut_good h0)

theorem State.writeFailed_good {q} {s} {a1} (h : Good q s) : Good q (State.writeFailed s a1) := by
  unfold State.writeFailed
  extract_lets +onlyGivenNames t1
  have g2 : Good q t1 := State.raise_good h
  clear_value t1
  split
  exacts [State.finishO_good (State.eraseRest_good (good_onNvm g2 (by (intro hx; simp_all [qsOk, mbOk, nvmOk, fltOk, sysOk, ccOk, fabOk, phaseOk, cfgOk]; done)))), State.finishO_good (State.eraseRest_good (good_onNvm g2 (by (intro hx; simp_all [qsOk, mbOk, nvmOk, fltOk, sysOk, ccOk, fabOk, phaseOk, cfgOk]; done)))), State.finishO_good (State.eraseRest_good (good_onNvm g2 (by (intro hx; simp_all [qsOk, mbOk, nvmOk, fltOk, sysOk, ccOk, fabOk, phaseOk, cfgOk]; done)))), State.lfAhead_good (State.lfPut_good g2), State.ringAhead_good (State.ringPut_good g2)]

theorem execNvmProgramDone_good {q} {a0} {a1} {s} (h : Good q s) : GoodO q (execNvmProgramDone a0 a1 s) := by
  have hx := h.2.2.2.2.2.1
  unfold execNvmProgramDone
  split
  · have := hx.2.2.2.2.2.2.2 _ ‹_›
    exact settle_good (State.shipCheck_good (State.lfOffers_good (good_ite (fun _ => State.writeDone_good h (by assumption)) (fun _ => State.writeFailed_good h)))) h
  · exact goodO_next (State.aheadEnd_good h)

theorem execNvmEnergyWaitExpiry_good {q} {s} (h : Good q s) : GoodO q (execNvmEnergyWaitExpiry s) := by
  have hx := h.2.2.2.2.2.1
  unfold execNvmEnergyWaitExpiry
  split
  · rename_i r rest hq hp
    have hr : Good q (s.onNvm fun x => { x with q := rest }) := good_onNvm h fun _ => by
      obtain ⟨h1, h2, h3, h4, h5, h6, h7, h8⟩ := hx
      rw [hq] at h1 h7
      exact ⟨by simp at h1; show rest.length ≤ 8; omega, h2, h3, h4, h5, h6, fun r' hr' => h7 _ (List.mem_cons_of_mem _ hr'), h8⟩
    exact settle_good (State.shipCheck_good (State.reqGone_good hr)) h
  · exact goodO_next h

theorem execNvmCut_good {q} {s} (h : Good q s) : GoodO q (execNvmCut s) := by
  unfold execNvmCut
  split
  exacts [settle_good (State.shipCheck_good (State.snapsDrop_good (State.finishO_good (State.cutProg_good h)))) h, settle_good (good_ite (fun _ => State.shipCheck_good (State.snapsDrop_good (State.aheadEnd_good h))) (fun _ => h)) h]

theorem State.fuseWrite_good {q} {s} {a1} {a2} (h : Good q s) : Good q (State.fuseWrite s a1 a2) := by
  unfold State.fuseWrite
  extract_lets +onlyGivenNames v1
  clear_value v1
  exact good_ite (fun _ => State.guardFail_good h) (fun _ => good_ite (fun _ => h) (fun _ => good_ite (fun _ => good_onGrd (State.guardFail_good h)) (fun _ => good_onGrd h)))

theorem execFuse_good {q} {a0} {a1} {a2} {s} (h : Good q s) : GoodO q (execFuse a0 a1 a2 s) := by
  unfold execFuse
  exact goodO_next (State.guardPair_good h (fun _ _ g1 => State.fuseWrite_good g1))

/-- What is blown stays blown (R472). -/
theorem fuse_keep {a b v : BitVec 5} (h : a &&& b = a) : a &&& (b ||| v) = a := by
  rw [BitVec.and_or_distrib_left, h]; ext i; simp_all

theorem execFuseBlowDone_good {q} {a0} {s} (h : Good q s) : GoodO q (execFuseBlowDone a0 s) := by
  unfold execFuseBlowDone
  exact goodO_ite (fun _ => goodO_next h) (fun _ => (by extract_lets +onlyGivenNames v1; clear_value v1; extract_lets +onlyGivenNames v2; clear_value v2; extract_lets +onlyGivenNames t3; have g4 : Good q t3 := good_onGrd h (fun hf => fuse_keep hf); clear_value t3; exact goodO_next (State.when_good g4 (fun _ => State.raise_good g4))))
end Sys2Proof.Machine
end

