-- ==== Sys2Proof/Laws/KeepStkOps.lean ====
section
/-! SUPPORT. What each operation and each meaning of Machine/StkOps.lean keeps: the queue of waiting commands and the invariant of
Safety.lean; a meaning also answers a next state. -/
namespace Sys2Proof.Machine

set_option Elab.async false
open Sys2Proof.Safety

theorem State.sendFrame_good {q} {s} {a1} {a2} {a3} (h : Good q s) : Good q (State.sendFrame s a1 a2 a3) := by
  unfold State.sendFrame
  exact good_onStk h

theorem State.queueScmd_good {q} {s} {a1} {a2} (h : Good q s) : Good q (State.queueScmd s a1 a2) := by
  unfold State.queueScmd
  exact good_ite (fun _ => good_onStk (good_onQs h (by (intro hx; simp_all [qsOk]; omega)))) (fun _ => State.drop_good h)

theorem State.feedJoin_good {q} {s} (h : Good q s) : Good q (State.feedJoin s) := by
  unfold State.feedJoin
  split
  exacts [good_ite (fun _ => State.queueScmd_good (good_onStk h)) (fun _ => h), h]

theorem State.nextScmd_good {q} {s} (h : Good q s) : Good q (State.nextScmd s).1 := by
  unfold State.nextScmd
  dsimp only
  split
  exacts [good_onStk (State.feedJoin_good h), (by split; exacts [good_onQs (good_onStk (good_onStk (State.feedJoin_good h))) (fun hq => ⟨hq.1, stkErase hq.2.1, hq.2.2⟩), good_onStk (State.feedJoin_good h)])]

theorem State.timeStep_good {q} {s} {a1} (h : Good q s) : Good q (State.timeStep s a1) := by
  unfold State.timeStep
  exact good_ite (fun _ => h) (fun _ => (by extract_lets +onlyGivenNames t3; have g4 : Good q t3 := State.gtsAdd_good (good_foldl (fun _ _ x7 => State.gtsAdd_good x7) _ h); clear_value t3; exact State.raise_good g4))

theorem State.lagStep_good {q} {s} {a1} (h : Good q s) : Good q (State.lagStep s a1) := by
  unfold State.lagStep
  extract_lets +onlyGivenNames v1
  clear_value v1
  extract_lets +onlyGivenNames t2
  have g3 : Good q t2 := State.gtsAdd_good (good_onClk h)
  clear_value t2
  exact State.raise_good g3

theorem State.nextCyc_good {q} {s} (h : Good q s) : Good q (State.nextCyc s) := by
  unfold State.nextCyc
  extract_lets +onlyGivenNames t1
  clear_value t1
  exact good_onStk h

theorem State.alignStep_good {q} {s} (h : Good q s) : Good q (State.alignStep s) := by
  unfold State.alignStep
  extract_lets +onlyGivenNames t1
  clear_value t1
  exact good_ite (fun _ => State.timeStep_good (good_onStk h)) (fun _ => good_onStk h)

theorem State.stkLift_good {q} {s} {a1} (h : Good q s) : Good q (State.stkLift s a1) := by
  unfold State.stkLift
  exact good_ite (fun _ => State.modeFix_good (State.raise_good (good_onFlt h (fun h => h)))) (fun _ => h)

theorem State.memberLift_good {q} {s} {a1} (h : Good q s) : Good q (State.memberLift s a1) := by
  unfold State.memberLift
  exact good_ite (fun _ => State.useFree_good (State.modeFix_good (State.raise_good (good_onStk h)))) (fun _ => h)

theorem State.syncIgnore_good {q} {s} (h : Good q s) : Good q (State.syncIgnore s) := by
  unfold State.syncIgnore
  exact good_onCc h (fun h => h)

theorem State.cascGatesOff_good {q} {s} (h : Good q s) : Good q (State.cascGatesOff s) := by
  unfold State.cascGatesOff
  exact good_foldl (fun _ _ g1 => (by extract_lets +onlyGivenNames v2; clear_value v2; exact good_ite (fun _ => State.place_good (State.onPhase_good g1 (fun x h => phaseOk_freed h))) (fun _ => g1))) _ h

theorem State.pcRestart_good {q} {s} (h : Good q s) : Good q (State.pcRestart s) := by
  unfold State.pcRestart
  exact good_onCc h (by (intro hx; simpa [ccOk] using hx))

theorem State.followNew_good {q} {s} (h : Good q s) : Good q (State.followNew s) := by
  unfold State.followNew
  extract_lets +onlyGivenNames t1
  have g2 : Good q t1 := good_onCc (good_onStk h) (by (intro hx; simpa [ccOk] using hx))
  clear_value t1
  extract_lets +onlyGivenNames t3
  have g4 : Good q t3 := good_onPp g2
  clear_value t3
  exact State.when_good g4 (fun _ => State.chgOff_good g4)

theorem State.refForgive_good {q} {s} (h : Good q s) : Good q (State.refForgive s) := by
  unfold State.refForgive
  split
  exacts [State.when_good h (fun _ => State.stkLift_good (good_onStk h)), h]

theorem State.masterNew_good {q} {s} {a1} (h : Good q s) : Good q (State.masterNew s a1) := by
  unfold State.masterNew
  exact good_onStk h

theorem State.groupCompute_good {q} {s} (h : Good q s) : Good q (State.groupCompute s) := by
  unfold State.groupCompute
  exact good_ite (fun _ => h) (fun _ => (by extract_lets +onlyGivenNames t3; have g4 : Good q t3 := State.refForgive_good h; clear_value t3; extract_lets +onlyGivenNames t5; clear_value t5; extract_lets +onlyGivenNames t6; clear_value t6; extract_lets +onlyGivenNames t7; clear_value t7; extract_lets +onlyGivenNames t8; clear_value t8; extract_lets +onlyGivenNames t9; clear_value t9; extract_lets +onlyGivenNames t10; clear_value t10; extract_lets +onlyGivenNames t11; clear_value t11; extract_lets +onlyGivenNames t12; clear_value t12; extract_lets +onlyGivenNames t13; have g14 : Good q t13 := good_onStk g4; clear_value t13; extract_lets +onlyGivenNames t15; have g16 : Good q t15 := State.when_good g14 (fun _ => State.raise_good g14); clear_value t15; extract_lets +onlyGivenNames t18; have g19 : Good q t18 := State.when_good g16 (fun _ => (by split; exacts [State.raise_good g16, g16])); clear_value t18; extract_lets +onlyGivenNames t21; have g22 : Good q t21 := State.when_good g19 (fun _ => State.stkLift_good (good_onStk g19)); clear_value t21; extract_lets +onlyGivenNames t24; clear_value t24; extract_lets +onlyGivenNames t25; clear_value t25; extract_lets +onlyGivenNames t26; have g27 : Good q t26 := State.when_good g22 (fun _ => State.followNew_good g22); clear_value t26; extract_lets +onlyGivenNames t29; have g30 : Good q t29 := State.when_good g27 (fun _ => State.pcRestart_good g27); clear_value t29; extract_lets +onlyGivenNames t32; have g33 : Good q t32 := State.when_good g30 (fun _ => State.srcRemove_good (State.srcRemove_good (State.frsDisarm_good (State.frsDisarm_good g30)))); clear_value t32; extract_lets +onlyGivenNames t35; have g36 : Good q t35 := State.when_good g33 (fun _ => State.masterNew_good g33); clear_value t35; extract_lets +onlyGivenNames t38; have g39 : Good q t38 := good_ite (fun _ => State.groupAngle_good g36) (fun _ => State.when_good g36 (fun _ => State.reAngle_good g36)); clear_value t38; exact State.when_good g39 (fun _ => (by split; exacts [good_onPp g39, g39]))))

theorem State.basinStep_good {q} {s} {a1} (h : Good q s) : Good q (State.basinStep s a1).1 := by
  unfold State.basinStep
  extract_lets +onlyGivenNames v1
  clear_value v1
  extract_lets +onlyGivenNames v2
  clear_value v2
  extract_lets +onlyGivenNames v3
  clear_value v3
  extract_lets +onlyGivenNames v4
  clear_value v4
  extract_lets +onlyGivenNames v5
  clear_value v5
  extract_lets +onlyGivenNames v6
  clear_value v6
  exact good_onStk h

theorem State.foldMembers_good {q} {s} {a1} {a2} (h : Good q s) : Good q (State.foldMembers s a1 a2) := by
  unfold State.foldMembers
  exact good_foldl (fun _ _ g1 => State.onRec_good (State.recAdd_good g1)) _ h

theorem State.fenceWatch_good {q} {s} (h : Good q s) : Good q (State.fenceWatch s) := by
  unfold State.fenceWatch
  extract_lets +onlyGivenNames t1
  clear_value t1
  extract_lets +onlyGivenNames t2
  clear_value t2
  exact good_onStk h

theorem State.electClose_good {q} {s} {a1} (h : Good q s) : Good q (State.electClose s a1) := by
  unfold State.electClose
  split
  exacts [h, (by extract_lets +onlyGivenNames t1; have g2 : Good q t1 := good_onStk h; clear_value t1; extract_lets +onlyGivenNames t3; clear_value t3; exact good_ite (fun _ => (by split; exacts [State.foldMembers_good g2, g2])) (fun _ => (by extract_lets +onlyGivenNames t6; have g7 : Good q t6 := State.openRec_good g2; clear_value t6; exact good_ite (fun _ => g7) (fun _ => State.foldMembers_good g7))))]
end Sys2Proof.Machine
end

