-- ==== Sys2Proof/Laws/KeepStack.lean ====
section
/-! SUPPORT. What each operation and each meaning of Machine/Stack.lean keeps: the queue of waiting commands and the invariant of
Safety.lean; a meaning also answers a next state. -/
namespace Sys2Proof.Machine

set_option Elab.async false
open Sys2Proof.Safety

theorem execStackStat_good {q} {a0} {s} (h : Good q s) : GoodO q (execStackStat a0 s) := by
  unfold execStackStat
  exact goodO_next (State.query_good h)

theorem execStackSet_good {q} {a0} {s} (h : Good q s) : GoodO q (execStackSet a0 s) := by
  unfold execStackSet
  extract_lets +onlyGivenNames v1
  clear_value v1
  extract_lets +onlyGivenNames v2
  clear_value v2
  exact goodO_next (State.carry_good h (fun _ g3 => good_ite (fun _ => State.finish_good (good_onStk g3)) (fun _ => State.finish_good g3)))

theorem execStackSeq_good {q} {a0} {s} (h : Good q s) : GoodO q (execStackSeq a0 s) := by
  unfold execStackSeq
  extract_lets +onlyGivenNames v1
  clear_value v1
  extract_lets +onlyGivenNames v2
  clear_value v2
  exact goodO_next (State.carry_good h (fun _ g3 => good_ite (fun _ => State.finish_good g3) (fun _ => good_ite (fun _ => State.finish_good g3) (fun _ => State.queueScmd_good (State.queueScmd_good (State.queueScmd_good (good_onStk (State.accept_good g3))))))))

theorem execStackDormant_good {q} {a0} {s} (h : Good q s) : GoodO q (execStackDormant a0 s) := by
  unfold execStackDormant
  exact goodO_next (State.carry_good h (fun _ g1 => good_ite (fun _ => State.finish_good g1) (fun _ => good_ite (fun _ => State.finish_good g1) (fun _ => good_onStk (State.accept_good g1)))))

theorem State.seqGoAct_good {q} {s} {a1} (h : Good q s) : Good q (State.seqGoAct s a1) := by
  unfold State.seqGoAct
  extract_lets +onlyGivenNames t1
  have g2 : Good q t1 := good_onStk h
  clear_value t1
  exact good_ite (fun _ => g2) (fun _ => good_ite (fun _ => good_ite (fun _ => good_onStk (State.upRequest_good g2)) (fun _ => good_onStk (State.upRequest_good g2))) (fun _ => good_ite (fun _ => good_onStk (State.downRequest_good g2)) (fun _ => g2)))

theorem State.dormAct_good {q} {s} {a1} {a2} (h : Good q s) : Good q (State.dormAct s a1 a2) := by
  unfold State.dormAct
  exact good_ite (fun _ => h) (fun _ => good_ite (fun _ => State.dormBegin_good (good_onStk (good_onSys h (fun h => h)))) (fun _ => good_onStk h))

theorem State.cycleDue_good {q} {s} {a1} (h : Good q s) : Good q (State.cycleDue s a1) := by
  unfold State.cycleDue
  extract_lets +onlyGivenNames t1
  have g2 : Good q t1 := good_ite (fun _ => State.alignStep_good h) (fun _ => State.timeStep_good h)
  clear_value t1
  extract_lets +onlyGivenNames t5
  have g6 : Good q t5 := good_onStk (State.when_good g2 (fun _ => State.nextCyc_good g2))
  clear_value t5
  extract_lets +onlyGivenNames t8
  have g9 : Good q t8 := (by dsimp only [t8]; split; exacts [State.seqGoAct_good g6, g6])
  clear_value t8
  split
  exacts [State.when_good g9 (fun _ => State.dormAct_good g9), g9]

theorem State.grantDecay_good {q} {s} (h : Good q s) : Good q (State.grantDecay s) := by
  unfold State.grantDecay
  extract_lets +onlyGivenNames v1
  clear_value v1
  extract_lets +onlyGivenNames v2
  clear_value v2
  exact good_onStk h

theorem State.seqWatch_good {q} {s} (h : Good q s) : Good q (State.seqWatch s) := by
  unfold State.seqWatch
  exact good_ite (fun _ => h) (fun _ => (by extract_lets +onlyGivenNames v1; clear_value v1; extract_lets +onlyGivenNames v2; clear_value v2; extract_lets +onlyGivenNames v3; clear_value v3; extract_lets +onlyGivenNames v4; clear_value v4; extract_lets +onlyGivenNames v5; clear_value v5; extract_lets +onlyGivenNames v6; clear_value v6; extract_lets +onlyGivenNames t7; have g8 : Good q t7 := good_onStk h; clear_value t7; exact good_ite (fun _ => State.finishO_good (good_onStk g8)) (fun _ => g8)))

theorem State.dormWatch_good {q} {s} {a1} (h : Good q s) : Good q (State.dormWatch s a1) := by
  unfold State.dormWatch
  split
  exacts [(by extract_lets +onlyGivenNames v1; clear_value v1; extract_lets +onlyGivenNames v2; clear_value v2; extract_lets +onlyGivenNames t3; have g4 : Good q t3 := good_onStk h; clear_value t3; exact good_ite (fun _ => g4) (fun _ => (by extract_lets +onlyGivenNames t5; have g6 : Good q t5 := State.queueScmd_good g4; clear_value t5; exact good_ite (fun _ => good_onStk g6) (fun _ => g6)))), good_onStk h, (by extract_lets +onlyGivenNames v7; clear_value v7; exact good_ite (fun _ => (by split; exacts [State.finishAct_good (good_onStk h), good_onStk h])) (fun _ => (by extract_lets +onlyGivenNames v8; clear_value v8; exact good_onBus (good_onStk (State.finishO_good h)) (fun h => h)))), h]

theorem State.scmdSent_good {q} {s} {a1} {a2} (h : Good q s) : Good q (State.scmdSent s a1 a2) := by
  unfold State.scmdSent
  exact good_onStk h

theorem State.managerCycle_good {q} {s} {a1} (h : Good q s) : Good q (State.managerCycle s a1) := by
  unfold State.managerCycle
  extract_lets +onlyGivenNames v1
  clear_value v1
  extract_lets +onlyGivenNames t2
  have g3 : Good q t2 := State.when_good h (fun _ => State.syncIgnore_good h)
  clear_value t2
  extract_lets +onlyGivenNames t4
  have g5 : Good q t4 := good_onStk g3
  clear_value t4
  extract_lets +onlyGivenNames t6
  have g7 : Good q t6 := State.dormWatch_good (State.seqWatch_good g5)
  clear_value t6
  split
  split
  exact State.scmdSent_good (State.sendFrame_good (fst_good ‹_› (State.nextScmd_good (fst_good ‹_› (State.basinStep_good g7)))))

theorem State.cycleStart_good {q} {s} {a1} (h : Good q s) : Good q (State.cycleStart s a1) := by
  unfold State.cycleStart
  extract_lets +onlyGivenNames t1
  have g2 : Good q t1 := State.cycleDue_good h
  clear_value t1
  extract_lets +onlyGivenNames t3
  have g4 : Good q t3 := State.when_good g2 (fun _ => State.grantDecay_good g2)
  clear_value t3
  extract_lets +onlyGivenNames t6
  have g7 : Good q t6 := State.groupCompute_good g4
  clear_value t6
  extract_lets +onlyGivenNames t8
  have g9 : Good q t8 := State.when_good g7 (fun _ => good_onStk (State.managerCycle_good g7))
  clear_value t8
  exact State.useFree_good (good_onStk g9)

theorem execStackCycleStart_good {q} {a0} {s} (h : Good q s) : GoodO q (execStackCycleStart a0 s) := by
  unfold execStackCycleStart
  exact settle_good (State.when_good h (fun _ => State.cycleStart_good h)) h

theorem State.joinFrame_good {q} {s} (h : Good q s) : Good q (State.joinFrame s) := by
  unfold State.joinFrame
  extract_lets +onlyGivenNames v1
  clear_value v1
  extract_lets +onlyGivenNames v2
  clear_value v2
  extract_lets +onlyGivenNames t3
  have g4 : Good q t3 := good_onStk h
  clear_value t3
  exact good_ite (fun _ => State.sendFrame_good g4) (fun _ => good_ite (fun _ => good_onStk h) (fun _ => (by extract_lets +onlyGivenNames v5; clear_value v5; extract_lets +onlyGivenNames t6; have g7 : Good q t6 := good_onStk g4; clear_value t6; exact State.useFree_good (State.sendFrame_good g7))))

theorem State.reportFrame_good {q} {s} {a1} (h : Good q s) : Good q (State.reportFrame s a1) := by
  unfold State.reportFrame
  extract_lets +onlyGivenNames t1
  have g2 : Good q t1 := good_onStk (State.sendFrame_good h)
  clear_value t1
  split
  exacts [good_onQs (good_onStk g2) (fun hq => ⟨hq.1, stkErase hq.2.1, hq.2.2⟩), g2]

theorem State.requestFrame_good {q} {s} (h : Good q s) : Good q (State.requestFrame s) := by
  unfold State.requestFrame
  exact State.sendFrame_good h

theorem State.realignFrame_good {q} {s} (h : Good q s) : Good q (State.realignFrame s) := by
  unfold State.realignFrame
  exact good_onStk (State.requestFrame_good h)

theorem execSlotStart_good {q} {a0} {s} (h : Good q s) : GoodO q (execSlotStart a0 s) := by
  unfold execSlotStart
  exact goodO_next (State.when_good h (fun _ => (by split; exacts [State.when_good h (fun _ => good_ite (fun _ => State.realignFrame_good h) (fun _ => State.useFree_good (State.reportFrame_good h))), State.requestFrame_good h, State.joinFrame_good h, h, h])))

theorem State.notMember_good {q} {s} (h : Good q s) : Good q (State.notMember s) := by
  unfold State.notMember
  exact good_onStk h

theorem State.takeGrant_good {q} {s} {a1} (h : Good q s) : Good q (State.takeGrant s a1) := by
  unfold State.takeGrant
  exact good_ite (fun _ => State.notMember_good h) (fun _ => good_ite (fun _ => good_onStk h) (fun _ => (by extract_lets +onlyGivenNames t1; have g2 : Good q t1 := good_onStk h; clear_value t1; exact good_ite (fun _ => g2) (fun _ => good_onStk g2))))

theorem State.alignFrame_good {q} {s} {a1} (h : Good q s) : Good q (State.alignFrame s a1) := by
  unfold State.alignFrame
  exact good_ite (fun _ => good_onStk (State.lagStep_good h)) (fun _ => (by extract_lets +onlyGivenNames v1; clear_value v1; exact good_onStk h))

theorem State.slot0Frame_good {q} {s} {a1} (h : Good q s) : Good q (State.slot0Frame s a1) := by
  unfold State.slot0Frame
  extract_lets +onlyGivenNames v1
  clear_value v1
  extract_lets +onlyGivenNames v2
  clear_value v2
  extract_lets +onlyGivenNames v3
  clear_value v3
  extract_lets +onlyGivenNames v4
  clear_value v4
  extract_lets +onlyGivenNames t5
  have g6 : Good q t5 := good_onStk h
  clear_value t5
  extract_lets +onlyGivenNames t7
  have g8 : Good q t7 := State.takeGrant_good g6
  clear_value t7
  exact State.when_good g8 (fun _ => State.alignFrame_good g8)

theorem State.yieldStart_good {q} {s} {a1} (h : Good q s) : Good q (State.yieldStart s a1) := by
  unfold State.yieldStart
  exact State.when_good h (fun _ => good_onStk h)

theorem execManagerFrame_good {q} {a0} {s} (h : Good q s) : GoodO q (execManagerFrame a0 s) := by
  unfold execManagerFrame
  exact goodO_next (State.when_good h (fun _ => (by extract_lets +onlyGivenNames t1; have g2 : Good q t1 := State.yieldStart_good h; clear_value t1; exact good_ite (fun _ => g2) (fun _ => good_ite (fun _ => State.injectedCheck_good g2) (fun _ => State.when_good g2 (fun _ => State.slot0Frame_good g2))))))

theorem State.delayMeas_good {q} {s} {a1} {a2} (h : Good q s) : Good q (State.delayMeas s a1 a2) := by
  unfold State.delayMeas
  extract_lets +onlyGivenNames v1
  clear_value v1
  extract_lets +onlyGivenNames v2
  clear_value v2
  extract_lets +onlyGivenNames v3
  clear_value v3
  exact State.when_good h (fun _ => State.queueScmd_good (good_onStk h))

theorem State.keepReport_good {q} {s} {a1} (h : Good q s) : Good q (State.keepReport s a1) := by
  unfold State.keepReport
  exact good_onStk h

theorem State.reportTake_good {q} {s} {a1} {a2} {a3} (h : Good q s) : Good q (State.reportTake s a1 a2 a3) := by
  unfold State.reportTake
  extract_lets +onlyGivenNames t1
  have g2 : Good q t1 := State.delayMeas_good h
  clear_value t1
  extract_lets +onlyGivenNames t3
  have g4 : Good q t3 := State.when_good g2 (fun _ => State.memberFence_good g2)
  clear_value t3
  split
  exacts [State.electJoin_good g4, g4]

theorem execMemberReport_good {q} {a0} {a1} {a2} {s} (h : Good q s) : GoodO q (execMemberReport a0 a1 a2 s) := by
  unfold execMemberReport
  exact goodO_next (State.when_good h (fun _ => State.useFree_good (State.when_good (State.keepReport_good h) (fun _ => State.reportTake_good (State.keepReport_good h)))))

theorem State.joinServe_good {q} {s} {a1} {a2} {a3} (h : Good q s) : Good q (State.joinServe s a1 a2 a3) := by
  unfold State.joinServe
  extract_lets +onlyGivenNames t1
  clear_value t1
  extract_lets +onlyGivenNames t2
  clear_value t2
  extract_lets +onlyGivenNames t3
  clear_value t3
  exact State.useFree_good (State.queueScmd_good (good_onStk h))

theorem State.alignWorker_good {q} {s} {a1} {a2} {a3} (h : Good q s) : Good q (State.alignWorker s a1 a2 a3) := by
  unfold State.alignWorker
  exact State.when_good (State.delayMeas_good (good_onStk h)) (fun _ => State.queueScmd_good (State.delayMeas_good (good_onStk h)))

theorem State.joinAsk_good {q} {s} {a1} {a2} (h : Good q s) : Good q (State.joinAsk s a1 a2) := by
  unfold State.joinAsk
  exact good_ite (fun _ => h) (fun _ => good_ite (fun _ => State.alignWorker_good (good_onStk h)) (fun _ => (by extract_lets +onlyGivenNames t5; have g6 : Good q t5 := good_onStk h; clear_value t5; exact good_ite (fun _ => g6) (fun _ => (by split; exacts [State.joinServe_good g6, g6])))))

theorem execJoinRequest_good {q} {a0} {a1} {s} (h : Good q s) : GoodO q (execJoinRequest a0 a1 s) := by
  unfold execJoinRequest
  exact goodO_next (State.when_good h (fun _ => (by extract_lets +onlyGivenNames t2; have g3 : Good q t2 := good_onStk h; clear_value t2; exact State.when_good g3 (fun _ => State.joinAsk_good g3))))

theorem execJoinCertificate_good {q} {a0} {a1} {a2} {s} (h : Good q s) : GoodO q (execJoinCertificate a0 a1 a2 s) := by
  unfold execJoinCertificate
  exact goodO_next (State.when_good h (fun _ => good_onStk h))

theorem State.joinEnd_good {q} {s} {a1} {a2} (h : Good q s) : Good q (State.joinEnd s a1 a2) := by
  unfold State.joinEnd
  extract_lets +onlyGivenNames t1
  clear_value t1
  extract_lets +onlyGivenNames t2
  clear_value t2
  extract_lets +onlyGivenNames t3
  have g4 : Good q t3 := State.queueScmd_good (good_onStk h)
  clear_value t3
  extract_lets +onlyGivenNames t5
  have g6 : Good q t5 := State.when_good g4 (fun _ => State.alignWorker_good (good_onStk (State.memberLift_good g4)))
  clear_value t5
  exact State.raise_good g6

theorem execJoinSignature_good {q} {a0} {a1} {a2} {s} (h : Good q s) : GoodO q (execJoinSignature a0 a1 a2 s) := by
  unfold execJoinSignature
  exact goodO_next (State.when_good h (fun _ => good_ite (fun _ => good_onStk h) (fun _ => good_ite (fun _ => (by extract_lets +onlyGivenNames t1; have g2 : Good q t1 := good_onStk h; clear_value t1; exact State.joinEnd_good g2)) (fun _ => h))))

theorem execScmdNone_good {q} {a0} {s} (h : Good q s) : GoodO q (execScmdNone a0 s) := by
  unfold execScmdNone
  exact goodO_next h

theorem execTime1_good {q} {a0} {s} (h : Good q s) : GoodO q (execTime1 a0 s) := by
  unfold execTime1
  exact goodO_next (State.when_good h (fun _ => good_onStk h))

theorem execTime2_good {q} {a0} {s} (h : Good q s) : GoodO q (execTime2 a0 s) := by
  unfold execTime2
  exact goodO_next (State.when_good h (fun _ => good_onStk h))

theorem execScap_good {q} {a0} {s} (h : Good q s) : GoodO q (execScap a0 s) := by
  unfold execScap
  exact goodO_next (State.when_good h (fun _ => good_onStk h))

theorem execSafeg_good {q} {a0} {s} (h : Good q s) : GoodO q (execSafeg a0 s) := by
  unfold execSafeg
  exact goodO_next (State.when_good h (fun _ => good_onStk h))

theorem execExpectLo_good {q} {a0} {s} (h : Good q s) : GoodO q (execExpectLo a0 s) := by
  unfold execExpectLo
  exact goodO_next (State.when_good h (fun _ => good_onStk h))

theorem execExpectHi_good {q} {a0} {s} (h : Good q s) : GoodO q (execExpectHi a0 s) := by
  unfold execExpectHi
  exact goodO_next (State.when_good h (fun _ => good_onStk h))

theorem execDelay_good {q} {a0} {s} (h : Good q s) : GoodO q (execDelay a0 s) := by
  unfold execDelay
  exact goodO_next (State.when_good h (fun _ => good_onStk h))

theorem execTstep_good {q} {a0} {s} (h : Good q s) : GoodO q (execTstep a0 s) := by
  unfold execTstep
  exact goodO_next (State.when_good h (fun _ => good_onStk h))

theorem execSeqLo_good {q} {a0} {s} (h : Good q s) : GoodO q (execSeqLo a0 s) := by
  unfold execSeqLo
  exact goodO_next (State.when_good h (fun _ => good_onStk h))

theorem execSeqHi_good {q} {a0} {s} (h : Good q s) : GoodO q (execSeqHi a0 s) := by
  unfold execSeqHi
  exact goodO_next (State.when_good h (fun _ => good_onStk h))

theorem execSeqGo_good {q} {a0} {s} (h : Good q s) : GoodO q (execSeqGo a0 s) := by
  unfold execSeqGo
  exact goodO_next (State.when_good h (fun _ => good_onStk h))

theorem execDormant_good {q} {a0} {s} (h : Good q s) : GoodO q (execDormant a0 s) := by
  unfold execDormant
  exact goodO_next (State.when_good h (fun _ => good_onStk h))

theorem execJstart_good {q} {a0} {s} (h : Good q s) : GoodO q (execJstart a0 s) := by
  unfold execJstart
  exact goodO_next (State.when_good h (fun _ => good_onStk h))

theorem execJdata_good {q} {a0} {s} (h : Good q s) : GoodO q (execJdata a0 s) := by
  unfold execJdata
  exact goodO_next (State.when_good h (fun _ => good_onStk h))

theorem State.joinRefused_good {q} {s} {a1} (h : Good q s) : Good q (State.joinRefused s a1) := by
  unfold State.joinRefused
  exact State.raise_good (good_onStk h)

theorem State.joinDone_good {q} {s} (h : Good q s) : Good q (State.joinDone s) := by
  unfold State.joinDone
  extract_lets +onlyGivenNames t1
  have g2 : Good q t1 := State.raise_good (good_onStk (State.syncIgnore_good h))
  clear_value t1
  exact State.stkLift_good (State.stkLift_good g2)

theorem execJresult_good {q} {a0} {s} (h : Good q s) : GoodO q (execJresult a0 s) := by
  unfold execJresult
  extract_lets +onlyGivenNames v1
  clear_value v1
  exact goodO_next (State.when_good h (fun _ => good_ite (fun _ => State.joinDone_good h) (fun _ => State.joinRefused_good h)))

theorem execSlotListenEnd_good {q} {a0} {s} (h : Good q s) : GoodO q (execSlotListenEnd a0 s) := by
  unfold execSlotListenEnd
  exact goodO_next (State.when_good h (fun _ => good_ite (fun _ => State.raise_good h) (fun _ => State.useFree_good (good_onStk h))))

theorem execJoinTimeout_good {q} {s} (h : Good q s) : GoodO q (execJoinTimeout s) := by
  unfold execJoinTimeout
  exact goodO_next (State.when_good h (fun _ => good_ite (fun _ => (by split; exacts [State.joinEnd_good h, h])) (fun _ => State.when_good h (fun _ => State.joinRefused_good h))))

theorem execJoinRetry_good {q} {s} (h : Good q s) : GoodO q (execJoinRetry s) := by
  unfold execJoinRetry
  exact goodO_next (State.when_good h (fun _ => good_onStk h))

theorem execMgrSilent_good {q} {s} (h : Good q s) : GoodO q (execMgrSilent s) := by
  unfold execMgrSilent
  exact goodO_next (State.when_good h (fun _ => (by extract_lets +onlyGivenNames t1; have g2 : Good q t1 := good_onStk h; clear_value t1; exact State.when_good g2 (fun _ => State.raise_good g2))))

theorem execSlotFail_good {q} {a0} {s} (h : Good q s) : GoodO q (execSlotFail a0 s) := by
  unfold execSlotFail
  exact settle_good (State.when_good h (fun _ => State.failNote_good h)) h

theorem execSlot0Collision_good {q} {a0} {s} (h : Good q s) : GoodO q (execSlot0Collision a0 s) := by
  unfold execSlot0Collision
  exact settle_good (State.when_good h (fun _ => State.failNote_good h)) h

theorem execAlignLost_good {q} {s} (h : Good q s) : GoodO q (execAlignLost s) := by
  unfold execAlignLost
  exact settle_good (State.when_good h (fun _ => State.failNote_good h)) h

theorem execAlignLostLift_good {q} {s} (h : Good q s) : GoodO q (execAlignLostLift s) := by
  unfold execAlignLostLift
  exact settle_good (State.when_good h (fun _ => State.stkLift_good h)) h

theorem execFrameCrc_good {q} {s} (h : Good q s) : GoodO q (execFrameCrc s) := by
  unfold execFrameCrc
  exact settle_good (State.when_good h (fun _ => State.failNote_good h)) h

theorem execStackFenceLift_good {q} {a0} {s} (h : Good q s) : GoodO q (execStackFenceLift a0 s) := by
  unfold execStackFenceLift
  exact goodO_next (State.when_good h (fun _ => State.memberLift_good h))

theorem State.refMiss_good {q} {s} (h : Good q s) : Good q (State.refMiss s) := by
  unfold State.refMiss
  exact good_onStk (State.cascGatesOff_good h)

theorem State.refTake_good {q} {s} {a1} {a2} {a3} (h : Good q s) : Good q (State.refTake s a1 a2 a3) := by
  unfold State.refTake
  extract_lets +onlyGivenNames t1
  clear_value t1
  extract_lets +onlyGivenNames t2
  clear_value t2
  extract_lets +onlyGivenNames t3
  clear_value t3
  extract_lets +onlyGivenNames t4
  have g5 : Good q t4 := good_onStk h
  clear_value t4
  extract_lets +onlyGivenNames t6
  have g7 : Good q t6 := good_onCc g5 (by (intro hx; simpa [ccOk] using hx))
  clear_value t6
  extract_lets +onlyGivenNames t8
  have g9 : Good q t8 := good_ite (fun _ => g7) (fun _ => good_ite (fun _ => good_onPp (State.switchFull_good g7)) (fun _ => good_onPp g7))
  clear_value t8
  exact State.when_good g9 (fun _ => State.cascGatesOff_good g9)

theorem execReferenceFrame_good {q} {a0} {a1} {a2} {a3} {s} (h : Good q s) : GoodO q (execReferenceFrame a0 a1 a2 a3 s) := by
  unfold execReferenceFrame
  exact settle_good (State.when_good h (fun _ => good_ite (fun _ => State.when_good h (fun _ => State.refTake_good h)) (fun _ => State.refMiss_good h))) h

theorem execCascRefLost_good {q} {s} (h : Good q s) : GoodO q (execCascRefLost s) := by
  unfold execCascRefLost
  exact settle_good (State.when_good h (fun _ => State.failNote_good (State.refMiss_good h))) h

theorem execCascRefLostLift_good {q} {s} (h : Good q s) : GoodO q (execCascRefLostLift s) := by
  unfold execCascRefLostLift
  exact settle_good (State.when_good h (fun _ => State.stkLift_good (good_onStk h))) h

theorem execStackElectionClose_good {q} {s} (h : Good q s) : GoodO q (execStackElectionClose s) := by
  unfold execStackElectionClose
  split
  exacts [goodO_next (State.when_good h (fun _ => State.electClose_good (good_onStk h))), goodO_next h]

theorem execStkTakeover_good {q} {s} (h : Good q s) : GoodO q (execStkTakeover s) := by
  unfold execStkTakeover
  exact goodO_next (State.when_good h (fun _ => State.modeFix_good (State.raise_good (good_onStk h))))

theorem execManagerReclaim_good {q} {s} (h : Good q s) : GoodO q (execManagerReclaim s) := by
  unfold execManagerReclaim
  exact goodO_next (State.when_good h (fun _ => good_onStk h))

theorem execStackDormantTimeout_good {q} {s} (h : Good q s) : GoodO q (execStackDormantTimeout s) := by
  unfold execStackDormantTimeout
  exact goodO_next (State.when_good h (fun _ => good_onStk (State.finishO_good h)))
end Sys2Proof.Machine
end

