-- ==== Sys2Proof/Laws/KeepWatchdog.lean ====
section
/-! SUPPORT. What each operation and each meaning of Machine/Watchdog.lean keeps: the queue of waiting commands and the invariant of
Safety.lean; a meaning also answers a next state. -/
namespace Sys2Proof.Machine

set_option Elab.async false
open Sys2Proof.Safety

theorem execWdgBootPeriodEnd_good {q} {s} (h : Good q s) : GoodO q (execWdgBootPeriodEnd s) := by
  unfold execWdgBootPeriodEnd
  exact goodO_ite (fun _ => (by exact settle_good (State.wdgExpire_good h) h)) (fun _ => goodO_next h)

theorem dropBeat_len : ∀ l : List InboxItem, (dropBeat l).length ≤ l.length
  | [] => Nat.le_refl _
  | x :: r => by
    have := dropBeat_len r
    cases x <;> simp [dropBeat] <;> omega

theorem inbox_getD {l : List (List InboxItem)} {i : Nat} (h : ∀ x ∈ l, x.length ≤ 16) : (l.getD i []).length ≤ 16 := by
  rw [List.getD_eq_getElem?_getD]
  rcases hg : l[i]? with _ | y
  · simp
  · exact h _ (List.mem_of_getElem? hg)

theorem execWdgCheckinCall_good {q s t} (h : Good q s) : GoodO q (execWdgCheckinCall t s) := by
  unfold execWdgCheckinCall
  extract_lets +onlyGivenNames v1
  clear_value v1
  exact goodO_ite (fun _ => goodO_next h) (fun _ => goodO_ite (fun _ => goodO_next (State.wdgDup_good h)) (fun _ => (by extract_lets +onlyGivenNames t2; have g3 : Good q t2 := good_onQs (good_onFlt (good_onWd h) (fun h => h)) (fun hq => ⟨hq.1, hq.2.1, hq.2.2.1, hq.2.2.2.1, inbox_set hq.2.2.2.2.1 (Nat.le_trans (dropBeat_len _) (inbox_getD hq.2.2.2.2.1)), hq.2.2.2.2.2⟩); clear_value t2; exact goodO_ite (fun _ => goodO_next (good_onWd g3)) (fun _ => (by exact settle_good (State.wdgWrite_good g3) h)))))

theorem execWdgWindowOpen_good {q} {s} (h : Good q s) : GoodO q (execWdgWindowOpen s) := by
  unfold execWdgWindowOpen
  exact goodO_ite (fun _ => (by extract_lets +onlyGivenNames t1; have g2 : Good q t1 := good_onWd h; clear_value t1; exact settle_good (State.wdgWrite_good g2) h)) (fun _ => goodO_next h)

theorem execWdgCheckinWrite_good {q} {a0} {a1} {s} (h : Good q s) : GoodO q (execWdgCheckinWrite a0 a1 s) := by
  unfold execWdgCheckinWrite
  split
  exacts [settle_good (good_ite (fun _ => State.when_good h (fun _ => State.wdgDup_good h)) (fun _ => State.wdgWrite_good h)) h, settle_good (State.when_good h (fun _ => State.taskFail_good h)) h]

theorem execWdgLate_good {q} {s} (h : Good q s) : GoodO q (execWdgLate s) := by
  unfold execWdgLate
  exact goodO_ite (fun _ => (by exact settle_good (State.wdgExpire_good h) h)) (fun _ => goodO_next h)

theorem execWdoPulseEnd_good {q} {s} (h : Good q s) : GoodO q (execWdoPulseEnd s) := by
  unfold execWdoPulseEnd
  exact goodO_next (good_onWd h)

theorem execWdgCfg_good {q} {a0} {a1} {s} (h : Good q s) : GoodO q (execWdgCfg a0 a1 s) := by
  unfold execWdgCfg
  exact goodO_next (State.guardPair_good h (fun _ _ g1 => good_onGrd g1))

theorem execWdgPer_good {q} {a0} {a1} {s} (h : Good q s) : GoodO q (execWdgPer a0 a1 s) := by
  unfold execWdgPer
  exact goodO_next (State.guardPair_good h (fun _ _ g1 => (by extract_lets +onlyGivenNames v2; clear_value v2; exact good_ite (fun _ => good_onGrd g1) (fun _ => State.guardFail_good g1))))

theorem execHcwKick_good {q} {a0} {a1} {s} (h : Good q s) : GoodO q (execHcwKick a0 a1 s) := by
  unfold execHcwKick
  exact goodO_next (State.when_good h (fun _ => State.hcwKick_good (State.wrote_good h)))

theorem execHcwExpiry_good {q} {s} (h : Good q s) : GoodO q (execHcwExpiry s) := by
  unfold execHcwExpiry
  exact goodO_next (State.when_good h (fun _ => State.hcwExpire_good h))

theorem State.fwResume_good {q} {s} (h : Good q s) : Good q (State.fwResume s) := by
  unfold State.fwResume
  extract_lets +onlyGivenNames t1
  have g2 : Good q t1 := State.snapTake_good (State.yarrow_good (State.doorbellHeld_good h))
  clear_value t1
  extract_lets +onlyGivenNames t3
  have g4 : Good q t3 := good_onWd (good_foldl (fun _ _ x7 => State.hcwServe_good x7) _ g2)
  clear_value t3
  exact State.when_good g4 (fun _ => State.holdSources_good (good_onSys g4 (fun h => h)))

theorem execDebugHalt_good {q} {a0} {s} (h : Good q s) : GoodO q (execDebugHalt a0 s) := by
  unfold execDebugHalt
  exact goodO_ite (fun _ => goodO_next h) (fun _ => (by extract_lets +onlyGivenNames t3; have g4 : Good q t3 := good_onSys h (fun h => h); clear_value t3; exact settle_good (good_ite (fun _ => State.logCut_good g4) (fun _ => State.when_good g4 (fun _ => State.fwResume_good g4))) h))
end Sys2Proof.Machine
end

