-- ==== Sys2Proof/Laws/OnlyStkOps.lean ====
section
/-! SUPPORT. Which parts of the state each operation of Machine/StkOps.lean may change. -/
namespace Sys2Proof.Machine

set_option Elab.async false
open Sys2Proof.Safety

theorem State.queueScmd_only {s : State} {code arg : Nat} : changesOnly [.qs, .stk] s (State.queueScmd s code arg) := by
  unfold State.queueScmd; refine ite_only (fun _ => ?_) (fun _ => ?_); refine onStk_only.after ?_; refine onQs_only.after ?_
  exact changesOnly_refl; refine State.drop_only.after ?_; exact changesOnly_refl

theorem State.timeStep_only {s : State} {n : Nat} : changesOnly [.clk, .qs] s (State.timeStep s n) := by
  unfold State.timeStep; refine ite_only (fun _ => ?_) (fun _ => ?_); exact changesOnly_refl; dsimp only
  refine State.raise_only.after ?_; refine State.gtsAdd_only.after ?_; refine foldl_only ?_ (fun _ _ => ?_)
  exact changesOnly_refl; refine State.gtsAdd_only.after ?_; exact changesOnly_refl

theorem State.alignStep_only {s : State} : changesOnly [.clk, .qs, .stk] s (State.alignStep s) := by
  unfold State.alignStep; dsimp only; refine ite_only (fun _ => ?_) (fun _ => ?_); refine State.timeStep_only.after ?_
  refine onStk_only.after ?_; exact changesOnly_refl; refine onStk_only.after ?_; exact changesOnly_refl

theorem State.nextCyc_only {s : State} : changesOnly [.stk] s (State.nextCyc s) := by
  unfold State.nextCyc; dsimp only; refine onStk_only.after ?_; exact changesOnly_refl

theorem State.followNew_only {s : State} : changesOnly [.cc, .pp, .chg, .stk] s (State.followNew s) := by
  unfold State.followNew; dsimp only; refine when_only ?_ (fun _ => ?_); refine onPp_only.after ?_; refine onCc_only.after ?_
  refine onStk_only.after ?_; exact changesOnly_refl; refine State.chgOff_only.after ?_; exact changesOnly_refl

theorem State.masterNew_only {s : State} {lm : Bool} : changesOnly [.stk] s (State.masterNew s lm) := by
  unfold State.masterNew; refine onStk_only.after ?_; exact changesOnly_refl

theorem State.pcRestart_only {s : State} : changesOnly [.cc] s (State.pcRestart s) := by
  unfold State.pcRestart; refine onCc_only.after ?_; exact changesOnly_refl

theorem State.stkLift_only {s : State} {k : Nat} : changesOnly [.sys, .qs, .flt] s (State.stkLift s k) := by
  unfold State.stkLift; refine ite_only (fun _ => ?_) (fun _ => ?_); refine State.modeFix_only.after ?_
  refine State.raise_only.after ?_; refine onFlt_only.after ?_; exact changesOnly_refl; exact changesOnly_refl

theorem State.refForgive_only {s : State} : changesOnly [.sys, .qs, .flt, .stk] s (State.refForgive s) := by
  unfold State.refForgive; split; refine when_only ?_ (fun _ => ?_); exact changesOnly_refl; refine State.stkLift_only.after ?_
  refine onStk_only.after ?_; exact changesOnly_refl; exact changesOnly_refl

theorem State.groupCompute_only {s0 : State} :
    changesOnly [.sys, .qs, .fab, .cc, .pp, .chg, .sw, .flt, .mb, .stk, .tca, .tcb] s0 (State.groupCompute s0) := by
  unfold State.groupCompute; refine ite_only (fun _ => ?_) (fun _ => ?_); exact changesOnly_refl; dsimp only
  refine when_only ?_ (fun _ => ?_); refine ite_only (fun _ => ?_) (fun _ => ?_); refine State.groupAngle_only.after ?_
  refine when_only ?_ (fun _ => ?_); refine when_only ?_ (fun _ => ?_); refine when_only ?_ (fun _ => ?_)
  refine when_only ?_ (fun _ => ?_); refine when_only ?_ (fun _ => ?_); refine when_only ?_ (fun _ => ?_)
  refine when_only ?_ (fun _ => ?_); refine onStk_only.after ?_; refine State.refForgive_only.after ?_; exact changesOnly_refl
  refine State.raise_only.after ?_; exact changesOnly_refl; split; refine State.raise_only.after ?_; exact changesOnly_refl
  exact changesOnly_refl; refine State.stkLift_only.after ?_; refine onStk_only.after ?_; exact changesOnly_refl
  refine State.followNew_only.after ?_; exact changesOnly_refl; refine State.pcRestart_only.after ?_; exact changesOnly_refl
  refine State.srcRemove_only.after ?_; refine State.srcRemove_only.after ?_; refine State.frsDisarm_only.after ?_
  refine State.frsDisarm_only.after ?_; exact changesOnly_refl; refine State.masterNew_only.after ?_; exact changesOnly_refl
  refine when_only ?_ (fun _ => ?_); refine when_only ?_ (fun _ => ?_); refine when_only ?_ (fun _ => ?_)
  refine when_only ?_ (fun _ => ?_); refine when_only ?_ (fun _ => ?_); refine when_only ?_ (fun _ => ?_)
  refine when_only ?_ (fun _ => ?_); refine when_only ?_ (fun _ => ?_); refine onStk_only.after ?_
  refine State.refForgive_only.after ?_; exact changesOnly_refl; refine State.raise_only.after ?_; exact changesOnly_refl; split
  refine State.raise_only.after ?_; exact changesOnly_refl; exact changesOnly_refl; refine State.stkLift_only.after ?_
  refine onStk_only.after ?_; exact changesOnly_refl; refine State.followNew_only.after ?_; exact changesOnly_refl
  refine State.pcRestart_only.after ?_; exact changesOnly_refl; refine State.srcRemove_only.after ?_
  refine State.srcRemove_only.after ?_; refine State.frsDisarm_only.after ?_; refine State.frsDisarm_only.after ?_
  exact changesOnly_refl; refine State.masterNew_only.after ?_; exact changesOnly_refl; refine State.reAngle_only.after ?_
  exact changesOnly_refl; split; refine onPp_only.after ?_; exact changesOnly_refl; exact changesOnly_refl

theorem State.basinStep_only {s : State} {c : CycIn} : changesOnly [.stk] s (State.basinStep s c).1 := by
  unfold State.basinStep; dsimp only; refine onStk_only.after ?_; exact changesOnly_refl

theorem State.fenceWatch_only {s : State} : changesOnly [.stk] s (State.fenceWatch s) := by
  unfold State.fenceWatch; dsimp only; refine onStk_only.after ?_; exact changesOnly_refl

theorem State.feedJoin_only {s : State} : changesOnly [.qs, .stk] s (State.feedJoin s) := by
  unfold State.feedJoin; split; refine ite_only (fun _ => ?_) (fun _ => ?_); refine State.queueScmd_only.after ?_
  refine onStk_only.after ?_; exact changesOnly_refl; exact changesOnly_refl; exact changesOnly_refl

theorem State.nextScmd_only {s : State} : changesOnly [.qs, .stk] s (State.nextScmd s).1 := by
  unfold State.nextScmd; dsimp only; split; dsimp only; refine onStk_only.after ?_; refine State.feedJoin_only.after ?_
  exact changesOnly_refl; split; dsimp only; refine onQs_only.after ?_; refine onStk_only.after ?_; refine onStk_only.after ?_
  refine State.feedJoin_only.after ?_; exact changesOnly_refl; dsimp only; refine onStk_only.after ?_
  refine State.feedJoin_only.after ?_; exact changesOnly_refl

theorem State.sendFrame_only {s : State} {type arg : Nat} {payload : List Byte} :
    changesOnly [.stk] s (State.sendFrame s type arg payload) := by
  unfold State.sendFrame; refine onStk_only.after ?_; exact changesOnly_refl

theorem State.syncIgnore_only {s : State} : changesOnly [.cc] s (State.syncIgnore s) := by
  unfold State.syncIgnore; refine onCc_only.after ?_; exact changesOnly_refl

theorem State.lagStep_only {s : State} {ticks : Nat} : changesOnly [.clk, .qs] s (State.lagStep s ticks) := by
  unfold State.lagStep; dsimp only; refine State.raise_only.after ?_; refine State.gtsAdd_only.after ?_
  refine onClk_only.after ?_; exact changesOnly_refl

theorem State.memberLift_only {s : State} {k : Nat} : changesOnly [.sys, .qs, .flt, .stk, .free] s (State.memberLift s k) := by
  unfold State.memberLift; refine ite_only (fun _ => ?_) (fun _ => ?_); refine useFree_only.after ?_
  refine State.modeFix_only.after ?_; refine State.raise_only.after ?_; refine onStk_only.after ?_; exact changesOnly_refl
  exact changesOnly_refl

theorem State.cascGatesOff_only {s : State} : changesOnly [.qs, .fab, .sw] s (State.cascGatesOff s) := by
  unfold State.cascGatesOff; refine foldl_only ?_ (fun _ _ => ?_); exact changesOnly_refl; dsimp only
  refine ite_only (fun _ => ?_) (fun _ => ?_); refine State.place_only.after ?_; refine State.onPhase_only.after ?_
  exact changesOnly_refl; exact changesOnly_refl

theorem State.foldMembers_only {s : State} {no : Nat} {l : List FaultRep} :
    changesOnly [.qs, .flt] s (State.foldMembers s no l) := by
  unfold State.foldMembers; refine foldl_only ?_ (fun _ _ => ?_); exact changesOnly_refl; refine State.onRec_only.after ?_
  refine State.recAdd_only.after ?_; exact changesOnly_refl

theorem State.electClose_only {s0 : State} {e : Election} :
    changesOnly [.qs, .seq, .flt, .stk, .nvm] s0 (State.electClose s0 e) := by
  unfold State.electClose; split; exact changesOnly_refl; dsimp only; refine ite_only (fun _ => ?_) (fun _ => ?_); split
  refine State.foldMembers_only.after ?_; refine onStk_only.after ?_; exact changesOnly_refl; refine onStk_only.after ?_
  exact changesOnly_refl; refine ite_only (fun _ => ?_) (fun _ => ?_); refine State.openRec_only.after ?_
  refine onStk_only.after ?_; exact changesOnly_refl; refine State.foldMembers_only.after ?_; refine State.openRec_only.after ?_
  refine onStk_only.after ?_; exact changesOnly_refl

end Sys2Proof.Machine
end

