-- ==== Sys2Proof/Laws/OnlyWatchdog.lean ====
section
/-! SUPPORT. Which parts of the state each operation of Machine/Watchdog.lean may change. -/
namespace Sys2Proof.Machine

set_option Elab.async false
open Sys2Proof.Safety

theorem State.fwResume_only {s : State} :
    changesOnly [.clk, .sys, .qs, .bus, .grd, .fab, .cc, .pp, .chg, .ms, .sw, .seq, .flt, .wd, .mb, .stk, .nvm, .tca, .tcb, .free]
      s (State.fwResume s) := by
  unfold State.fwResume; dsimp only; refine when_only ?_ (fun _ => ?_); refine onWd_only.after ?_
  refine foldl_only ?_ (fun _ _ => ?_); refine State.snapTake_only.after ?_; refine State.yarrow_only.after ?_
  refine State.doorbellHeld_only.after ?_; exact changesOnly_refl; refine State.hcwServe_only.after ?_; exact changesOnly_refl
  refine State.holdSources_only.after ?_; refine onSys_only.after ?_; exact changesOnly_refl

end Sys2Proof.Machine
end

