-- ==== Sys2Proof/Laws/OnlyStack.lean ====
section
/-! SUPPORT. Which parts of the state each operation of Machine/Stack.lean may change. -/
namespace Sys2Proof.Machine

set_option Elab.async false
open Sys2Proof.Safety

theorem State.dormAct_only {s : State} {iv load : Nat} :
    changesOnly [.sys, .qs, .bus, .pp, .seq, .mb, .stk, .nvm, .tca, .tcb] s (State.dormAct s iv load) := by
  unfold State.dormAct; refine ite_only (fun _ => ?_) (fun _ => ?_); exact changesOnly_refl
  refine ite_only (fun _ => ?_) (fun _ => ?_); refine State.dormBegin_only.after ?_; refine onStk_only.after ?_
  refine onSys_only.after ?_; exact changesOnly_refl; refine onStk_only.after ?_; exact changesOnly_refl

theorem State.seqGoAct_only {s : State} {a : Nat} :
    changesOnly [.sys, .qs, .bus, .pp, .seq, .mb, .stk, .nvm] s (State.seqGoAct s a) := by
  unfold State.seqGoAct; dsimp only; refine ite_only (fun _ => ?_) (fun _ => ?_); refine onStk_only.after ?_
  exact changesOnly_refl; refine ite_only (fun _ => ?_) (fun _ => ?_); refine ite_only (fun _ => ?_) (fun _ => ?_)
  refine onStk_only.after ?_; refine State.upRequest_only.after ?_; refine onStk_only.after ?_; exact changesOnly_refl
  refine onStk_only.after ?_; refine State.upRequest_only.after ?_; refine onStk_only.after ?_; exact changesOnly_refl
  refine ite_only (fun _ => ?_) (fun _ => ?_); refine onStk_only.after ?_; refine State.downRequest_only.after ?_
  refine onStk_only.after ?_; exact changesOnly_refl; refine onStk_only.after ?_; exact changesOnly_refl

theorem State.cycleDue_only {s : State} {c : CycIn} :
    changesOnly [.clk, .sys, .qs, .bus, .pp, .seq, .mb, .stk, .nvm, .tca, .tcb] s (State.cycleDue s c) := by
  unfold State.cycleDue; dsimp only; split; refine when_only ?_ (fun _ => ?_); split; refine State.seqGoAct_only.after ?_
  refine onStk_only.after ?_; refine when_only ?_ (fun _ => ?_); refine ite_only (fun _ => ?_) (fun _ => ?_)
  refine State.alignStep_only.after ?_; exact changesOnly_refl; refine State.timeStep_only.after ?_; exact changesOnly_refl
  refine State.nextCyc_only.after ?_; exact changesOnly_refl; refine onStk_only.after ?_; refine when_only ?_ (fun _ => ?_)
  refine ite_only (fun _ => ?_) (fun _ => ?_); refine State.alignStep_only.after ?_; exact changesOnly_refl
  refine State.timeStep_only.after ?_; exact changesOnly_refl; refine State.nextCyc_only.after ?_; exact changesOnly_refl
  refine State.dormAct_only.after ?_; exact changesOnly_refl; split; refine State.seqGoAct_only.after ?_
  refine onStk_only.after ?_; refine when_only ?_ (fun _ => ?_); refine ite_only (fun _ => ?_) (fun _ => ?_)
  refine State.alignStep_only.after ?_; exact changesOnly_refl; refine State.timeStep_only.after ?_; exact changesOnly_refl
  refine State.nextCyc_only.after ?_; exact changesOnly_refl; refine onStk_only.after ?_; refine when_only ?_ (fun _ => ?_)
  refine ite_only (fun _ => ?_) (fun _ => ?_); refine State.alignStep_only.after ?_; exact changesOnly_refl
  refine State.timeStep_only.after ?_; exact changesOnly_refl; refine State.nextCyc_only.after ?_; exact changesOnly_refl

theorem State.grantDecay_only {s : State} : changesOnly [.stk] s (State.grantDecay s) := by
  unfold State.grantDecay; dsimp only; refine onStk_only.after ?_; exact changesOnly_refl

theorem State.dormWatch_only {s : State} {c : CycIn} : changesOnly [.qs, .bus, .mb, .stk] s (State.dormWatch s c) := by
  unfold State.dormWatch; split; dsimp only; refine ite_only (fun _ => ?_) (fun _ => ?_); refine onStk_only.after ?_
  exact changesOnly_refl; refine ite_only (fun _ => ?_) (fun _ => ?_); refine onStk_only.after ?_
  refine State.queueScmd_only.after ?_; refine onStk_only.after ?_; exact changesOnly_refl; refine State.queueScmd_only.after ?_
  refine onStk_only.after ?_; exact changesOnly_refl; refine onStk_only.after ?_; exact changesOnly_refl; dsimp only
  refine ite_only (fun _ => ?_) (fun _ => ?_); split; refine State.finishAct_only.after ?_; refine onStk_only.after ?_
  exact changesOnly_refl; refine onStk_only.after ?_; exact changesOnly_refl; refine onBus_only.after ?_
  refine onStk_only.after ?_; refine State.finishO_only.after ?_; exact changesOnly_refl; exact changesOnly_refl

theorem State.scmdSent_only {s : State} {code arg : Nat} : changesOnly [.stk] s (State.scmdSent s code arg) := by
  unfold State.scmdSent; refine onStk_only.after ?_; exact changesOnly_refl

theorem State.seqWatch_only {s : State} : changesOnly [.mb, .stk] s (State.seqWatch s) := by
  unfold State.seqWatch; refine ite_only (fun _ => ?_) (fun _ => ?_); exact changesOnly_refl; dsimp only
  refine ite_only (fun _ => ?_) (fun _ => ?_); refine State.finishO_only.after ?_; refine onStk_only.after ?_
  refine onStk_only.after ?_; exact changesOnly_refl; refine onStk_only.after ?_; exact changesOnly_refl

theorem State.managerCycle_only {s : State} {c : CycIn} : changesOnly [.qs, .bus, .cc, .mb, .stk] s (State.managerCycle s c) := by
  unfold State.managerCycle; dsimp only; refine State.scmdSent_only.after ?_; refine State.sendFrame_only.after ?_
  refine State.nextScmd_only.after ?_; refine State.basinStep_only.after ?_; refine State.dormWatch_only.after ?_
  refine State.seqWatch_only.after ?_; refine State.fenceWatch_only.after ?_; refine onStk_only.after ?_
  refine when_only ?_ (fun _ => ?_); exact changesOnly_refl; refine State.syncIgnore_only.after ?_; exact changesOnly_refl

theorem State.cycleStart_only {s : State} {c : CycIn} :
    changesOnly [.clk, .sys, .qs, .bus, .fab, .cc, .pp, .chg, .sw, .seq, .flt, .mb, .stk, .nvm, .tca, .tcb, .free]
      s (State.cycleStart s c) := by
  unfold State.cycleStart; dsimp only; refine useFree_only.after ?_; refine onStk_only.after ?_
  refine when_only ?_ (fun _ => ?_); refine State.groupCompute_only.after ?_; refine when_only ?_ (fun _ => ?_)
  refine State.cycleDue_only.after ?_; exact changesOnly_refl; refine State.grantDecay_only.after ?_; exact changesOnly_refl
  refine onStk_only.after ?_; refine State.managerCycle_only.after ?_; exact changesOnly_refl

theorem State.joinFrame_only {s : State} : changesOnly [.stk, .free] s (State.joinFrame s) := by
  unfold State.joinFrame; dsimp only; refine ite_only (fun _ => ?_) (fun _ => ?_); refine State.sendFrame_only.after ?_
  refine onStk_only.after ?_; exact changesOnly_refl; refine ite_only (fun _ => ?_) (fun _ => ?_); refine onStk_only.after ?_
  exact changesOnly_refl; refine useFree_only.after ?_; refine State.sendFrame_only.after ?_; refine onStk_only.after ?_
  refine onStk_only.after ?_; exact changesOnly_refl

theorem State.requestFrame_only {s : State} : changesOnly [.stk] s (State.requestFrame s) := by
  unfold State.requestFrame; refine State.sendFrame_only.after ?_; exact changesOnly_refl

theorem State.realignFrame_only {s : State} : changesOnly [.stk] s (State.realignFrame s) := by
  unfold State.realignFrame; refine onStk_only.after ?_; refine State.requestFrame_only.after ?_; exact changesOnly_refl

theorem State.reportFrame_only {s : State} {c : CycIn} : changesOnly [.qs, .stk] s (State.reportFrame s c) := by
  unfold State.reportFrame; dsimp only; split; refine onQs_only.after ?_; refine onStk_only.after ?_; refine onStk_only.after ?_
  refine State.sendFrame_only.after ?_; exact changesOnly_refl; refine onStk_only.after ?_; refine State.sendFrame_only.after ?_
  exact changesOnly_refl

theorem State.alignFrame_only {s : State} {e : Int} : changesOnly [.clk, .qs, .stk] s (State.alignFrame s e) := by
  unfold State.alignFrame; refine ite_only (fun _ => ?_) (fun _ => ?_); refine onStk_only.after ?_
  refine State.lagStep_only.after ?_; exact changesOnly_refl; dsimp only; refine onStk_only.after ?_; exact changesOnly_refl

theorem State.notMember_only {s : State} : changesOnly [.stk] s (State.notMember s) := by
  unfold State.notMember; refine onStk_only.after ?_; exact changesOnly_refl

theorem State.takeGrant_only {s : State} {b : Byte} : changesOnly [.stk] s (State.takeGrant s b) := by
  unfold State.takeGrant; refine ite_only (fun _ => ?_) (fun _ => ?_); refine State.notMember_only.after ?_
  exact changesOnly_refl; refine ite_only (fun _ => ?_) (fun _ => ?_); refine onStk_only.after ?_; exact changesOnly_refl
  dsimp only; refine ite_only (fun _ => ?_) (fun _ => ?_); refine onStk_only.after ?_; exact changesOnly_refl
  refine onStk_only.after ?_; refine onStk_only.after ?_; exact changesOnly_refl

theorem State.slot0Frame_only {s : State} {f : MgrFrame} : changesOnly [.clk, .qs, .stk] s (State.slot0Frame s f) := by
  unfold State.slot0Frame; dsimp only; refine when_only ?_ (fun _ => ?_); refine State.takeGrant_only.after ?_
  refine onStk_only.after ?_; exact changesOnly_refl; refine State.alignFrame_only.after ?_; exact changesOnly_refl

theorem State.yieldStart_only {s : State} {f : MgrFrame} : changesOnly [.stk] s (State.yieldStart s f) := by
  unfold State.yieldStart; refine when_only ?_ (fun _ => ?_); exact changesOnly_refl; refine onStk_only.after ?_
  exact changesOnly_refl

theorem State.keepReport_only {s : State} {r : MemberRep} : changesOnly [.stk] s (State.keepReport s r) := by
  unfold State.keepReport; refine onStk_only.after ?_; exact changesOnly_refl

theorem State.delayMeas_only {s : State} {k late : Nat} : changesOnly [.qs, .stk] s (State.delayMeas s k late) := by
  unfold State.delayMeas; dsimp only; refine when_only ?_ (fun _ => ?_); exact changesOnly_refl
  refine State.queueScmd_only.after ?_; refine onStk_only.after ?_; exact changesOnly_refl

theorem State.reportTake_only {s : State} {r : MemberRep} {fr : Option FaultRep} {late : Nat} :
    changesOnly [.sys, .qs, .flt, .stk] s (State.reportTake s r fr late) := by
  unfold State.reportTake; dsimp only; split; refine State.electJoin_only.after ?_; refine when_only ?_ (fun _ => ?_)
  refine State.delayMeas_only.after ?_; exact changesOnly_refl; refine State.memberFence_only.after ?_; exact changesOnly_refl
  refine when_only ?_ (fun _ => ?_); refine State.delayMeas_only.after ?_; exact changesOnly_refl
  refine State.memberFence_only.after ?_; exact changesOnly_refl

theorem State.alignWorker_only {s : State} {k late : Nat} {lead : Int} :
    changesOnly [.qs, .stk] s (State.alignWorker s k late lead) := by
  unfold State.alignWorker; refine when_only ?_ (fun _ => ?_); refine State.delayMeas_only.after ?_; refine onStk_only.after ?_
  exact changesOnly_refl; refine State.queueScmd_only.after ?_; exact changesOnly_refl

theorem State.joinServe_only {s : State} {k : Fin 32} {r : JoinReq} {lead : Int} :
    changesOnly [.qs, .stk, .free] s (State.joinServe s k r lead) := by
  unfold State.joinServe; dsimp only; refine useFree_only.after ?_; refine State.queueScmd_only.after ?_
  refine onStk_only.after ?_; exact changesOnly_refl

theorem State.joinAsk_only {s : State} {k : Fin 32} {r : JoinReq} : changesOnly [.qs, .stk, .free] s (State.joinAsk s k r) := by
  unfold State.joinAsk; refine ite_only (fun _ => ?_) (fun _ => ?_); exact changesOnly_refl
  refine ite_only (fun _ => ?_) (fun _ => ?_); refine State.alignWorker_only.after ?_; refine onStk_only.after ?_
  exact changesOnly_refl; dsimp only; refine ite_only (fun _ => ?_) (fun _ => ?_); refine onStk_only.after ?_
  exact changesOnly_refl; split; refine State.joinServe_only.after ?_; refine onStk_only.after ?_; exact changesOnly_refl
  refine onStk_only.after ?_; exact changesOnly_refl

theorem State.joinEnd_only {s : State} {k : Fin 32} {code : Nat} :
    changesOnly [.sys, .qs, .flt, .stk, .free] s (State.joinEnd s k code) := by
  unfold State.joinEnd; dsimp only; refine State.raise_only.after ?_; refine when_only ?_ (fun _ => ?_)
  refine State.queueScmd_only.after ?_; refine onStk_only.after ?_; exact changesOnly_refl
  refine State.alignWorker_only.after ?_; refine onStk_only.after ?_; refine State.memberLift_only.after ?_
  exact changesOnly_refl

theorem State.joinDone_only {s : State} : changesOnly [.sys, .qs, .cc, .flt, .stk] s (State.joinDone s) := by
  unfold State.joinDone; dsimp only; refine State.stkLift_only.after ?_; refine State.stkLift_only.after ?_
  refine State.raise_only.after ?_; refine onStk_only.after ?_; refine State.syncIgnore_only.after ?_; exact changesOnly_refl

theorem State.joinRefused_only {s : State} {code : Nat} : changesOnly [.qs, .stk] s (State.joinRefused s code) := by
  unfold State.joinRefused; refine State.raise_only.after ?_; refine onStk_only.after ?_; exact changesOnly_refl

theorem State.refMiss_only {s : State} : changesOnly [.qs, .fab, .sw, .stk] s (State.refMiss s) := by
  unfold State.refMiss; refine onStk_only.after ?_; refine State.cascGatesOff_only.after ?_; exact changesOnly_refl

theorem State.refTake_only {s : State} {iunit : BitVec 11} {bsw stop : Bool} :
    changesOnly [.qs, .fab, .cc, .pp, .sw, .stk] s (State.refTake s iunit bsw stop) := by
  unfold State.refTake; dsimp only; refine when_only ?_ (fun _ => ?_); refine ite_only (fun _ => ?_) (fun _ => ?_)
  refine onCc_only.after ?_; refine onStk_only.after ?_; exact changesOnly_refl; refine ite_only (fun _ => ?_) (fun _ => ?_)
  refine onPp_only.after ?_; refine State.switchFull_only.after ?_; refine onCc_only.after ?_; refine onStk_only.after ?_
  exact changesOnly_refl; refine onPp_only.after ?_; refine onCc_only.after ?_; refine onStk_only.after ?_
  exact changesOnly_refl; refine State.cascGatesOff_only.after ?_; exact changesOnly_refl

end Sys2Proof.Machine
end

