-- ==== Sys2Proof/WellFormed.lean ====
section
/-! DEFINITION. Which commands are well formed: lists, identifiers and arguments within the sizes the spec gives them. -/
namespace Sys2Proof

/-- Node voltages within 16 bits of mV. -/
def Nodes.sized (n : Nodes) : Bool :=
  n.pa < 65536 && n.pb < 65536 && n.pc < 65536 && n.vsys < 65536 && n.bat < 65536

/-- Whether a command is well formed: frames of 32 data bytes (R426, R430), 31 grants (R427), at most ten cells (R231), eight phases (R102),
object positions of USB Power Delivery (R270) and stack arguments within R428. -/
def Instr.wf (i : Instr) : Bool :=
  match i with
  | .tier0Ready n => Nodes.sized n
  | .limpSourceChange n => Nodes.sized n
  | .controlTick m => m.ip.length == 8 && m.vaux.length ≤ 4 && m.iaux.length ≤ 4 && Nodes.sized m.nodes
  | .switchingPeriod a b c => a.v < 65536 && b.v < 65536 && c.path.v < 65536 && c.sync.f < 4294967296
  | .tuneMeasurementDone c esr _ => c < 65536 && esr < 65536
  | .pcAttach n _ => Nodes.sized n
  | .batterySwitchReconnect n => Nodes.sized n
  | .supplement n => Nodes.sized n
  | .sampleSet x => x.cell.length ≤ 10 && x.ntc.length == 6
  | .mirrorUpdate m => m.vsys != [] && m.ipa != [] && m.ipb != [] && m.ipc != []
  | .balanceOffTime ups => ups.length ≤ 10
  | .sweepPoint ups => ups.length ≤ 20
  | .sourceCapabilities _ epr _ objs => objs.length ≤ (if epr then 11 else 7)
  | .pdRequest _ pos _ _ => 1 ≤ pos && pos ≤ 11
  | .securityRequest _ _ slot body => slot ≤ 7 && body.length ≤ 256
  | .securityResponse _ _ root => root.length == 32
  | .managerFrame f => f.grants.length == 31
  | .memberReport r _ _ => r.id < 32 && r.req < 65536 && r.used < 65536 && r.localb < 65536 && r.prio < 8
  | .joinRequest _ r => r.nonce.length == 16
  | .joinCertificate _ off data => off.toNat < 64 && data.length == 32
  | .joinSignature _ part data => part.toNat ≤ 1 && data.length == 32
  | .scmdNone arg => arg == 0
  | .scap arg => 2 ≤ arg.toNat && arg.toNat ≤ 64000
  | .safeg arg => arg.toNat ≤ 8000
  | .tstep arg => 1 ≤ arg.toNat
  | .seqGo arg => arg == 1 || arg == 2
  | .dormant arg => arg.toNat ≤ 3600
  | .jstart arg => arg.toNat < 32
  | .jresult arg => arg.toNat % 2048 ≤ 4
  | .aonPowerOn _ | .moscStart | .clockLoss | .aoscFreq _ | .gtsCalibration _ | .gtsWrap | .pllLock | .dllCal
  | .domainSwitchRequest _ _ | .domainPowerUpDone _ | .domainSwitchOffDone _ | .taskDeadline _ | .taskMpu _ | .softConnectComplete
  | .softConnect | .softConnectRetry | .imageVerification | .configurationLoad | .takeover _ | .takeoverDeferralExpiry _
  | .dormantIdleExpiry _ | .dormantEntry _ _ | .dormantWake _ | .wakeTimer | .wakeRunReached | .shipEnt _ _ | .shipDelayEnd
  | .shipForceOpen | .shipExit _ | .pbtnShipExit | .pbtnPress | .pbtnRelease _ | .pbtnForceOff | .batteryCut | .batteryCutEnd
  | .peakTimeout | .peakRecoveryEnd | .phaseRemove _ | .drainComplete _ | .selectorSettle _ | .softStartComplete _
  | .selectorStuck _ | .selectorOverlap _ | .quadPowerOff | .fastSwapSignal _ | .fplace0 _ _ | .fplace1 _ _ | .fpenSet _ _
  | .fpenClear _ _ | .replacementTick _ | .oclHold _ | .phaseShort _ _ | .quadOvertemp _ _ | .fswApply | .syncLock | .syncLost _
  | .syncReacquisition | .diodeEmulationEnd _ | .lastFaultOffer | .pcRemoval _ | .batAttach | .batDetach | .batterySwitchRelease
  | .weirLearn _ _ | .weirProbe _ | .trackerInterval _ _ _ | .mpptScanStart | .mpptScanStep _ _ | .handover _ _ | .dwellEnd
  | .nobatCollapse | .revCutoff _ | .chemCfg _ _ | .teaselTick _ | .prechargeTimer | .fastChargeTimer | .topoffTimer
  | .timerSuspensionRestart _ | .zone _ _ _ | .ntcFault _ | .cellOv _ | .reportedCellVoltage _ _ _ | .autoZero | .balancingFrame
  | .quickSweepInterval | .sweepRefusalRetry | .sweepBaselineEnd _ | .sweepFit _ | .sweepAborted _ | .restCorrection
  | .gradeDecay _ | .modelMismatch _ _ _ | .ccAttach _ _ | .attachDebounceEnd _ _ _ _ | .detach _ | .portDischargeDone _
  | .pdAccept _ | .psRdy _ | .pdWait _ | .waitRetry _ | .pdReject _ | .fallbackRerequest _ | .ppsRerequest _ | .eprMode _ _
  | .eprKeepalive _ | .cableDiscovery _ _ | .vconnOc _ | .sourceCapabilitiesUpdate _ | .sinkCapabilities _ _ _ | .prSwapReceived _
  | .drSwapReceived _ | .vconnSwapReceived _ | .hardResetReceived _ | .sourceCapabilitiesTimeout _ | .hardResetSourceRestore _
  | .getSourceCap _ | .getSinkCap _ | .getSourceCapExtended _ | .getStatus _ | .getRevision _ | .getManufacturerInfo _
  | .getBatteryCap _ | .getBatteryStatus _ | .alert _ _ | .softReset _ | .discoverIdentity _ | .unsupportedVdm _ | .bist _ _ _
  | .onDelayExpiry | .railGood _ | .upTimeout | .nobatSupplyReturn | .railFault _ | .tpfwExpiry | .railFallDone _ | .fallTimeout
  | .offDelayExpiry | .aux2MoveDone _ | .nrstoRelease | .nrstoPulseEnd | .gateSupply _ | .quadSensor _ | .sampleFault _ _
  | .vbusSwitch _ | .portOv _ _ | .pcReverse _ | .batswOc _ | .lockstep | .nvmEcc | .sramEcc1 | .sramEcc2 | .retParity _
  | .secondEvaluation _ _ _ | .quietPeriodEnd _ | .holdRel _ _ _ _ | .fecCapture _ _ _ _ | .finj _ _ | .testWordRead
  | .wdgBootPeriodEnd | .wdgCheckinCall _ | .wdgWindowOpen | .wdgCheckinWrite _ _ | .wdgLate | .wdoPulseEnd | .wdgCfg _ _
  | .wdgPer _ _ | .hcwKick _ _ | .hcwExpiry | .addressMatchDormant _ | .pointerSet _ _ | .registerWrite _ _ _ | .controlLineRead _
  | .lineSupplied _ | .stretchLimit _ | .clearOnRead _ _ | .gtsLatch _ | .mirStat _ | .busTimeout _ | .filterApply _
  | .attentionWrite _ | .attentionRetry _ | .attentionRepeat _ | .guardedValue _ _ _ _ | .update _ _ | .updateApply | .imm _ _
  | .immWriteApply | .stkUpdEdge | .stkUpdApply | .mailboxRing _ | .mailboxDone _ | .commandCompletion _ | .mailboxAutoRelease _
  | .sysStatus _ | .eventRead _ | .queueStat _ | .queueClear _ | .dormantCfg _ | .dormantEnter _ _ | .mbxReset _ | .withdraw _
  | .chgQuery _ | .chgStart _ | .chgStop _ | .zoneSet _ | .zoneGet _ | .safeSetCmd _ | .safeGet _ | .placeQuery _ | .basinQuery _
  | .pathQuery _ | .pathSet _ | .hostCap _ | .coefSet _ | .coefGet _ | .tune _ | .measQuery _ | .ccGet _ | .ccSet _ | .sweep _ _
  | .sweepStop _ | .pointsGet _ | .modelGet _ | .chemSet _ | .chemGet _ | .portQuery _ | .prSwap _ | .drSwap _ | .auth _
  | .rootSet _ | .seqUp _ | .seqDown _ | .nrstPulse _ | .logRead _ | .faultQuery _ | .recGet _ | .lfGet _ | .faultClear _
  | .release _ _ | .unfence _ | .fcntClear _ | .fecGet _ | .nvmStore _ | .nvmStat _ | .imageLoad _ | .imageAct _ | .addrSet _
  | .idGet _ | .certGet _ | .logSign _ | .stackStat _ | .stackSet _ | .stackSeq _ | .stackDormant _ | .wdgQuery _ | .evidGet _
  | .wcntClear _ | .stackCycleStart _ | .slotStart _ | .time1 _ | .time2 _ | .expectLo _ | .expectHi _ | .delay _ | .seqLo _
  | .seqHi _ | .jdata _ | .slotListenEnd _ | .joinTimeout | .joinRetry | .mgrSilent | .slotFail _ | .slot0Collision _ | .alignLost
  | .alignLostLift | .frameCrc | .referenceFrame _ _ _ _ | .cascRefLost | .cascRefLostLift | .stackFenceLift _
  | .stackElectionClose | .stkTakeover | .managerReclaim | .stackDormantTimeout | .nvmRequestStart _ | .nvmProgramDone _ _
  | .nvmEnergyWaitExpiry | .nvmCut | .fuse _ _ _ | .fuseBlowDone _ | .aonPowerLoss | .rpAdvertisementChange _ _ | .vsafe5vReturn _
  | .prSwapNoAnswer _ | .debugHalt _ => true

end Sys2Proof
end

