-- ==== Sys2Proof/Tests/Slice0.lean ====
section
/-! SUPPORT. Tests: ill-formed commands are refused, small steps whose results the rules give, and for every statement with hypotheses a
state and operands that meet them together. -/

open Sys2Proof Sys2Proof.Machine Sys2Proof.Safety

/-- A module in RUN at tier 2 with firmware, every domain on and four cells of a chemistry configured. -/
def live : State :=
  { State.reset with
    sys := { mode := .run, tier := 2, fwRun := true, fwUp := true, tier0 := true, dom := 0x3FFF, loader := .done }
    clk := { moscEn := true, moscRun := true }
    grd := { fuseLive := 2, chem := 1, cells := 4 } }

/-- A joined worker of identifier 1. -/
def worker : State :=
  (live.onSys fun y => { y with straps := { id := 1, role := 1 } }).onStk fun k => { k with joined := true, aligned := true, everJoined := true }

/-- The manager of a stack with itself and member 1. -/
def manager : State :=
  (live.onSys fun y => { y with straps := { role := 1 } }).onStk fun k => { k with joined := true, members := 3 }

/-- `s` with a frame of OPCODE `op` and `len` payload bytes `pl`, zeros behind, taken in mailbox 0. -/
def Sys2Proof.Machine.State.frameIn (s : State) (op len : Nat) (pl : List Byte) : State :=
  (s.onMb fun m => { m with ring := [0], inb := memPuts zeroByte m.inb 4 ([BitVec.ofNat 8 len, 0, 0, 0] ++ pl) }).onBox 0 fun b =>
    { b with st := .taken, op := BitVec.ofNat 16 op }

/-- The state a command leads to, from states in which it answers one. -/
def afterCmd (c : Instr) (s : State) : State :=
  match exec c s with
  | .next t => t
  | _ => s

theorem inv_reset : Safety.Inv State.reset := by
  refine ⟨⟨rfl, rfl, ?_⟩, rfl, ⟨by decide, by decide, by decide, by decide, by decide, rfl, by decide⟩, ⟨rfl, rfl, rfl⟩, ⟨by decide, rfl, rfl, rfl, rfl, ?_, ?_, ?_⟩, ⟨by decide, by decide⟩, ?_, rfl⟩
  · intro x hx; simp [State.reset] at hx; subst hx; simp [phaseOk]
  · simp [State.reset]
  · simp [State.reset]
  · simp [State.reset]
  · intro v hv; simp [State.reset] at hv

theorem inv_live (f : PortBus → PortBus) : Safety.Inv (live.onPort .host f) :=
  ⟨inv_reset.1, inv_reset.2.1, inv_reset.2.2.1, inv_reset.2.2.2.1, inv_reset.2.2.2.2.1, inv_reset.2.2.2.2.2.1, fun _ h => by simp [State.onPort, State.onBus, State.onBox, State.onMb, live] at h, inv_reset.2.2.2.2.2.2.2⟩

theorem inv_live_box (f : Box → Box) : Safety.Inv (live.onBox 0 f) :=
  ⟨inv_reset.1, inv_reset.2.1, inv_reset.2.2.1, ⟨rfl, rfl, rfl⟩, inv_reset.2.2.2.2.1, inv_reset.2.2.2.2.2.1, fun _ h => by simp [State.onPort, State.onBus, State.onBox, State.onMb, live] at h, inv_reset.2.2.2.2.2.2.2⟩

/-- `n` events in the queue. -/
theorem queue_of (n : Nat) (h : n ≤ 256) :
    qsOk (live.onQs fun q => { q with events := List.replicate n {} }).qs ∧ (live.onQs fun q => { q with events := List.replicate n {} }).qs.events.length = n := by
  simp [qsOk, State.onQs, live, State.reset, h]

/-! ## Ill-formed commands -/

/-- Every check of `Instr.wf` refuses a command that breaks it. -/
theorem test_wf_nodes : Instr.wf (.tier0Ready { pa := 65536 }) = false ∧ Instr.wf (.tier0Ready { pb := 65536 }) = false ∧ Instr.wf (.tier0Ready { pc := 65536 }) = false ∧ Instr.wf (.tier0Ready { vsys := 65536 }) = false ∧ Instr.wf (.tier0Ready { bat := 65536 }) = false ∧ Instr.wf (.limpSourceChange { pa := 65536 }) = false ∧ Instr.wf (.pcAttach { pc := 65536 } false) = false ∧ Instr.wf (.batterySwitchReconnect { vsys := 65536 }) = false ∧ Instr.wf (.supplement { bat := 65536 }) = false := by decide
theorem test_wf_controlTick : Instr.wf (.controlTick { ip := [] }) = false ∧ Instr.wf (.controlTick { ip := List.replicate 8 0, nodes := { pa := 65536 } }) = false := by decide
theorem test_wf_switchingPeriod : Instr.wf (.switchingPeriod { v := 65536 } {} {}) = false ∧ Instr.wf (.switchingPeriod {} { v := 65536 } {}) = false ∧ Instr.wf (.switchingPeriod {} {} { path := { v := 65536 } }) = false ∧ Instr.wf (.switchingPeriod {} {} { sync := { f := 4294967296 } }) = false := by decide
theorem test_wf_tuneMeasurementDone : Instr.wf (.tuneMeasurementDone 65536 0 0) = false ∧ Instr.wf (.tuneMeasurementDone 0 65536 0) = false := by decide
theorem test_wf_sampleSet : Instr.wf (.sampleSet { cell := List.replicate 11 0, ntc := List.replicate 6 900 }) = false ∧ Instr.wf (.sampleSet { ntc := [] }) = false := by decide
theorem test_wf_cells : Instr.wf (.balanceOffTime (List.replicate 11 false)) = false ∧ Instr.wf (.sweepPoint (List.replicate 21 false)) = false := by decide
theorem test_wf_sourceCapabilities : Instr.wf (.sourceCapabilities .a true false (List.replicate 12 {})) = false ∧ Instr.wf (.sourceCapabilities .a false false (List.replicate 8 {})) = false := by decide
theorem test_wf_pdRequest : Instr.wf (.pdRequest .a 0 0 0) = false ∧ Instr.wf (.pdRequest .a 12 0 0) = false := by decide
theorem test_wf_security : Instr.wf (.securityRequest .a 0 8 []) = false ∧ Instr.wf (.securityResponse .a true []) = false := by decide
theorem test_wf_securityBody (l : List Byte) (h : l.length = 257) : Instr.wf (.securityRequest .a 0 0 l) = false := by simp [Instr.wf, h]
theorem test_wf_frames : Instr.wf (.managerFrame {}) = false ∧ Instr.wf (.memberReport { id := 32 } none 0) = false ∧ Instr.wf (.memberReport { req := 65536 } none 0) = false ∧ Instr.wf (.memberReport { used := 65536 } none 0) = false ∧ Instr.wf (.memberReport { localb := 65536 } none 0) = false ∧ Instr.wf (.memberReport { prio := 8 } none 0) = false := by decide
theorem test_wf_joining : Instr.wf (.joinRequest 1 {}) = false ∧ Instr.wf (.joinCertificate 1 64 (List.replicate 32 0)) = false ∧ Instr.wf (.joinCertificate 1 0 []) = false ∧ Instr.wf (.joinSignature 1 2 (List.replicate 32 0)) = false ∧ Instr.wf (.joinSignature 1 0 []) = false := by decide
theorem test_wf_stackArguments : Instr.wf (.scmdNone 1) = false ∧ Instr.wf (.scap 1) = false ∧ Instr.wf (.scap 64001) = false ∧ Instr.wf (.safeg 8001) = false ∧ Instr.wf (.tstep 0) = false ∧ Instr.wf (.seqGo 0) = false ∧ Instr.wf (.seqGo 3) = false ∧ Instr.wf (.dormant 3601) = false ∧ Instr.wf (.jstart 32) = false ∧ Instr.wf (.jresult 5) = false := by decide

/-! ## Witnesses -/

/-- The hypotheses of `StepIdle` can be met. -/
theorem test_witness_StepIdle :
    ∃ s : State, s.pending = [] :=
  ⟨State.reset, rfl⟩

/-- The hypotheses of `InvStep` can be met. -/
theorem test_witness_InvStep :
    ∃ s t : State, Safety.Inv s ∧ step s = .next t :=
  ⟨State.reset, _, inv_reset, rfl⟩

/-- The hypotheses of `FusesStayBlown` can be met. -/
theorem test_witness_FusesStayBlown :
    ∃ s t : State, Safety.Inv s ∧ step s = .next t :=
  ⟨State.reset, _, inv_reset, rfl⟩

/-- The hypotheses of `EveryCommandAnswers` can be met. -/
theorem test_witness_EveryCommandAnswers :
    ∃ s : State, Safety.Inv s :=
  ⟨State.reset, inv_reset⟩

/-- The hypotheses of `IdleAdvancesTime` can be met. -/
theorem test_witness_IdleAdvancesTime :
    (∃ s : State, s.clk.moscRun = true ∧ s.stk.joined = false ∧ s.sys.mode ≠ .unpowered ∧ s.sys.mode ≠ .ship ∧ s.sys.cut = false ∧ s.clk.fine = 0)
    ∧ (∃ s : State, s.clk.moscRun = false ∧ s.sys.mode ≠ .unpowered ∧ s.sys.mode ≠ .ship ∧ s.sys.cut = false) :=
  ⟨⟨live, by decide⟩,
    ⟨State.reset, by decide⟩⟩

/-- The hypotheses of `WrapStampsEvents` can be met. -/
theorem test_witness_WrapStampsEvents :
    (∃ s : State, s.clk.gts.toNat = 2 ^ 48 - 1)
    ∧ (∃ s : State, s.counts = true ∧ s.clk.gts = 0xFFFFFFFFFFFF ∧ s.qs.events.length < 222 ∧ s.clk.epoch = 255) :=
  ⟨⟨live.onClk fun c => { c with gts := 0xFFFFFFFFFFFF }, by decide⟩,
    ⟨live.onClk fun c => { c with gts := 0xFFFFFFFFFFFF, epoch := 255 }, by decide⟩⟩

/-- The hypotheses of `EventReserve` can be met. -/
theorem test_witness_EventReserve :
    (∃ s : State, qsOk s.qs ∧ s.qs.events.length = 223)
    ∧ (∃ s : State, qsOk s.qs ∧ s.qs.events.length = 224)
    ∧ (∃ s : State, qsOk s.qs ∧ s.qs.events.length = 255)
    ∧ (∃ s : State, qsOk s.qs ∧ s.qs.events.length = 256) :=
  ⟨⟨_, queue_of 223 (by decide)⟩,
    ⟨_, queue_of 224 (by decide)⟩,
    ⟨_, queue_of 255 (by decide)⟩,
    ⟨_, queue_of 256 (by decide)⟩⟩

/-- The hypotheses of `StackQueueReserve` can be met. -/
theorem test_witness_StackQueueReserve :
    (∃ s : State, s.stk.joined = true ∧ s.isWorker = true ∧ s.qs.stkTx.length = 11)
    ∧ (∃ s : State, s.stk.joined = true ∧ s.isWorker = true ∧ s.qs.stkTx.length = 12)
    ∧ (∃ s : State, s.stk.joined = true ∧ s.isWorker = true ∧ s.qs.stkTx.length = 15)
    ∧ (∃ s : State, s.stk.joined = true ∧ s.isWorker = true ∧ s.qs.stkTx.length = 16) :=
  ⟨⟨(worker.onQs fun q => { q with stkTx := List.replicate 11 0 }), by decide⟩,
    ⟨(worker.onQs fun q => { q with stkTx := List.replicate 12 0 }), by decide⟩,
    ⟨(worker.onQs fun q => { q with stkTx := List.replicate 15 0 }), by decide⟩,
    ⟨(worker.onQs fun q => { q with stkTx := List.replicate 16 0 }), by decide⟩⟩

/-- The hypotheses of `DropCounts` can be met. -/
theorem test_witness_DropCounts :
    (∃ s : State, qsOk s.qs ∧ s.qs.events.length < 224 ∧ s.qs.drops.getD 12 0 = 0)
    ∧ (∃ s : State, qsOk s.qs ∧ s.qs.events.length < 224 ∧ s.qs.drops.getD 12 0 = 65533)
    ∧ (∃ s : State, qsOk s.qs ∧ s.qs.events.length < 224 ∧ s.qs.drops.getD 12 0 = 65534)
    ∧ (∃ s : State, qsOk s.qs ∧ s.qs.events.length < 224 ∧ s.qs.drops.getD 12 0 = 65535)
    ∧ (∃ (s : State) (n : Fin 4) (m : Nat), ready s n 0x0104 2 ∧ s.fld n.val 0 2 = m ∧ m < 8192 ∧ m.testBit 12 = true) :=
  ⟨⟨live.onQs fun q => { q with drops := q.drops.set 12 0 }, ⟨by decide, by decide, by decide, by decide, by decide, by decide, by decide⟩, by decide, by decide⟩,
    ⟨live.onQs fun q => { q with drops := q.drops.set 12 65533 }, ⟨by decide, by decide, by decide, by decide, by decide, by decide, by decide⟩, by decide, by decide⟩,
    ⟨live.onQs fun q => { q with drops := q.drops.set 12 65534 }, ⟨by decide, by decide, by decide, by decide, by decide, by decide, by decide⟩, by decide, by decide⟩,
    ⟨live.onQs fun q => { q with drops := q.drops.set 12 65535 }, ⟨by decide, by decide, by decide, by decide, by decide, by decide, by decide⟩, by decide, by decide⟩,
    ⟨live.frameIn 0x0104 2 [0, 0x10], 0, 4096, ⟨by decide, by decide⟩, by decide, by decide, by decide⟩⟩

/-- The hypotheses of `BufferReadsBack` can be met. -/
theorem test_witness_BufferReadsBack :
    ∃ m : List Host.Cell, Memory.wf regDefault m = true :=
  ⟨[], by decide⟩

/-- The hypotheses of `MailboxBytes` can be met. -/
theorem test_witness_MailboxBytes :
    (∃ s : State, Safety.Inv s ∧ s.busUp .host = true ∧ s.bus.hp.ptr = 0x0800)
    ∧ (∃ s : State, Safety.Inv s ∧ s.busUp .host = true ∧ s.bus.hp.ptr = 0x0BFF)
    ∧ (∃ s : State, s.bus.hp.ptr = 0x0C00)
    ∧ (∃ s : State, s.bus.hp.ptr = 0x0FFF)
    ∧ (∃ s : State, s.mb.outrdy.getLsbD ((0x0C00 - 0x0C00) / 256) = false ∧ s.mb.outrdy.getLsbD ((0x0FFF - 0x0C00) / 256) = false) :=
  ⟨⟨(live.onPort .host fun p => { p with ptr := 0x0800 }), inv_live _, by decide, by decide⟩,
    ⟨(live.onPort .host fun p => { p with ptr := 0x0BFF }), inv_live _, by decide, by decide⟩,
    ⟨(live.onPort .host fun p => { p with ptr := 0x0C00 }), by decide⟩,
    ⟨(live.onPort .host fun p => { p with ptr := 0x0FFF }), by decide⟩,
    ⟨live, by decide⟩⟩

/-- The hypotheses of `AnswerFrame` can be met. -/
theorem test_witness_AnswerFrame :
    ∃ (s : State) (data : List Byte), Safety.Inv s ∧ data.length ≤ 240 ∧ (s.box 0).st = .taken :=
  ⟨live.onBox 0 fun b => { b with st := .taken }, List.replicate 240 0, inv_live_box _, by rw [List.length_replicate], by decide⟩

/-- The hypotheses of `GuardedPairFails` can be met. -/
theorem test_witness_GuardedPairFails :
    (∃ (s : State) (c : Byte) (single : Bool), s.busUp .host = true ∧ single = false ∧ pairBad s .host 0x40 c single)
    ∧ (∃ (s : State) (c : Byte), s.busUp .host = true ∧ (s.port .host).pend = none ∧ pairBad s .host 0x54 c true)
    ∧ (∃ (s : State) (p : GuardPend), s.busUp .host = true ∧ (s.port .host).pend = some p ∧ p.addr ≠ 0x51 ∧ pairBad s .host 0x51 (~~~p.val) true)
    ∧ (∃ (s : State) (p : GuardPend) (c : Byte), s.busUp .host = true ∧ (s.port .host).pend = some p ∧ c ≠ ~~~p.val ∧ pairBad s .host 0x44 c true)
    ∧ (∃ (s : State) (p : GuardPend), s.busUp .host = true ∧ (s.port .host).pend = some p ∧ p.since + 1001 = s.now ∧ pairBad s .host 0x4C (~~~p.val) true)
    ∧ (∃ (s : State) (c : Byte), s.busUp .safety = true ∧ pairBad s .safety 0x4E c true)
    ∧ (∃ (s : State) (c v : Byte), pairOk s .host 0x40 c true v ∧ v.toNat % 64 = 0)
    ∧ (∃ (s : State) (c v : Byte), pairOk s .host 0x40 c true v ∧ v.toNat % 64 = 61)
    ∧ (∃ (s : State) (c v : Byte), pairOk s .host 0x44 c true v ∧ v.toNat % 4 = 0)
    ∧ (∃ (s : State) (c v : Byte), pairOk s .host 0x44 c true v ∧ v.toNat / 4 % 16 = 1)
    ∧ (∃ (s : State) (c v : Byte), pairOk s .host 0x44 c true v ∧ v.toNat / 4 % 16 = 11)
    ∧ (∃ (s : State) (c v : Byte), pairOk s .host 0x51 c true v ∧ v.toNat % 128 = 4)
    ∧ (∃ (s : State) (c v : Byte), pairOk s .host 0x51 c true v ∧ v.toNat % 128 = 101)
    ∧ (∃ (s : State) (c v : Byte), pairOk s .host 0x44 c true v ∧ v.toNat % 4 ≠ 0 ∧ v.toNat / 4 % 16 = 2 ∧ s.chg.phase.charging = true)
    ∧ (∃ (s : State) (c v : Byte), pairOk s .host 0x44 c true v ∧ v.toNat % 4 ≠ 0 ∧ v.toNat / 4 % 16 = 10 ∧ s.chg.phase.charging = true)
    ∧ (∃ (s : State) (c v : Byte), pairOk s .host 0x4A c true v ∧ v.getLsbD 0 = true ∧ s.fpenBar = true)
    ∧ (∃ (s : State) (c v : Byte), pairOk s .host 0x4C c true v ∧ v.getLsbD 7 = true ∧ s.finjBar (v.toNat % 16) (v.toNat / 16 % 8) = true)
    ∧ (∃ (s : State) (c v : Byte), pairOk s .host 0x54 c true v ∧ v.setWidth 5 &&& ~~~s.grd.fuse ≠ 0 ∧ s.grd.fbusy = false ∧ s.fuseBar (v.setWidth 5 &&& ~~~s.grd.fuse) {} = true)
    ∧ (∃ (s : State) (c v : Byte), pairOk s .safety 0x4E c true v ∧ v.getLsbD 0 = true ∧ s.sys.mode ≠ .hold)
    ∧ (∃ (s : State) (c v : Byte), pairOk s .host 0x4E c true v ∧ v.getLsbD 0 = true ∧ s.grd.fuseLive.getLsbD 2 = true) :=
  ⟨⟨live, 0, false, by decide, rfl, Or.inl rfl⟩,
    ⟨live, 0, by decide, rfl, Or.inr (Or.inl rfl)⟩,
    ⟨(live.onPort .host fun p => { p with pend := some { addr := 0x50, val := 5, since := 0 } }), _, by decide, rfl, by decide, Or.inr (Or.inr ⟨_, rfl, Or.inl (by decide)⟩)⟩,
    ⟨(live.onPort .host fun p => { p with pend := some { addr := 0x44, val := 5, since := 0 } }), _, 5, by decide, rfl, by decide, Or.inr (Or.inr ⟨_, rfl, Or.inr (Or.inl (by decide))⟩)⟩,
    ⟨(live.onPort .host fun p => { p with pend := some { addr := 0x4C, val := 5, since := 0 } }).onClk fun c => { c with gts := 1001 }, _, by decide, rfl, by decide, Or.inr (Or.inr ⟨_, rfl, Or.inr (Or.inr (by decide))⟩)⟩,
    ⟨live, 0, by decide, Or.inr (Or.inl rfl)⟩,
    ⟨(live.onPort .host fun p => { p with pend := some { addr := 0x40, val := 0, since := 0 } }), ~~~(0 : Byte), 0, ⟨rfl, rfl, rfl, 0, rfl, by decide⟩, by decide⟩,
    ⟨(live.onPort .host fun p => { p with pend := some { addr := 0x40, val := 61, since := 0 } }), ~~~(61 : Byte), 61, ⟨rfl, rfl, rfl, 0, rfl, by decide⟩, by decide⟩,
    ⟨(live.onPort .host fun p => { p with pend := some { addr := 0x44, val := 12, since := 0 } }), ~~~(12 : Byte), 12, ⟨rfl, rfl, rfl, 0, rfl, by decide⟩, by decide⟩,
    ⟨(live.onPort .host fun p => { p with pend := some { addr := 0x44, val := 5, since := 0 } }), ~~~(5 : Byte), 5, ⟨rfl, rfl, rfl, 0, rfl, by decide⟩, by decide⟩,
    ⟨(live.onPort .host fun p => { p with pend := some { addr := 0x44, val := 45, since := 0 } }), ~~~(45 : Byte), 45, ⟨rfl, rfl, rfl, 0, rfl, by decide⟩, by decide⟩,
    ⟨(live.onPort .host fun p => { p with pend := some { addr := 0x51, val := 4, since := 0 } }), ~~~(4 : Byte), 4, ⟨rfl, rfl, rfl, 0, rfl, by decide⟩, by decide⟩,
    ⟨(live.onPort .host fun p => { p with pend := some { addr := 0x51, val := 101, since := 0 } }), ~~~(101 : Byte), 101, ⟨rfl, rfl, rfl, 0, rfl, by decide⟩, by decide⟩,
    ⟨((live.onChg fun c => { c with phase := .shaped }).onPort .host fun p => { p with pend := some { addr := 0x44, val := 9, since := 0 } }), ~~~(9 : Byte), 9, ⟨rfl, rfl, rfl, 0, rfl, by decide⟩, by decide⟩,
    ⟨((live.onChg fun c => { c with phase := .shaped }).onPort .host fun p => { p with pend := some { addr := 0x44, val := 43, since := 0 } }), ~~~(43 : Byte), 43, ⟨rfl, rfl, rfl, 0, rfl, by decide⟩, by decide⟩,
    ⟨((live.onSys fun y => { y with mode := .hold }).onPort .host fun p => { p with pend := some { addr := 0x4A, val := 1, since := 0 } }), ~~~(1 : Byte), 1, ⟨rfl, rfl, rfl, 0, rfl, by decide⟩, by decide⟩,
    ⟨(live.onPort .host fun p => { p with pend := some { addr := 0x4C, val := 0x80, since := 0 } }), ~~~(0x80 : Byte), 0x80, ⟨rfl, rfl, rfl, 0, rfl, by decide⟩, by decide⟩,
    ⟨((live.onGrd fun g => { g with fuse := 2 }).onPort .host fun p => { p with pend := some { addr := 0x54, val := 1, since := 0 } }), ~~~(1 : Byte), 1, ⟨rfl, rfl, rfl, 0, rfl, by decide⟩, by decide⟩,
    ⟨(live.onPort .safety fun p => { p with pend := some { addr := 0x4E, val := 1, since := 0 } }), ~~~(1 : Byte), 1, ⟨rfl, rfl, rfl, 0, rfl, by decide⟩, by decide⟩,
    ⟨((live.onGrd fun g => { g with fuseLive := 4 }).onPort .host fun p => { p with pend := some { addr := 0x4E, val := 1, since := 0 } }), ~~~(1 : Byte), 1, ⟨rfl, rfl, rfl, 0, rfl, by decide⟩, by decide⟩⟩

/-- The hypotheses of `GtsLatchRead` can be met. -/
theorem test_witness_GtsLatchRead :
    (∃ s : State, s.busUp .host = true ∧ s.busUp .safety = true)
    ∧ (∃ t u : State, u.port .host = t.port .host ∧ u.port .safety = t.port .safety ∧ u.clk ≠ t.clk) :=
  ⟨⟨live, by decide⟩,
    ⟨live, live.onClk fun c => { c with gts := 1 }, by decide⟩⟩

/-- The hypotheses of `LatchesApart` can be met. -/
theorem test_witness_LatchesApart :
    (∃ (s : State) (bp q : BusPort), q ≠ bp ∧ s.busUp bp = true)
    ∧ (∃ (s : State) (bp q : BusPort), q ≠ bp ∧ s.busUp bp = true) :=
  ⟨⟨live, .host, .safety, by decide⟩,
    ⟨live, .safety, .host, by decide⟩⟩

/-- The hypotheses of `BusTimeoutEnds` can be met. -/
theorem test_witness_BusTimeoutEnds :
    ∃ s : State, s.busUp .host = true ∧ s.busUp .safety = true :=
  ⟨live, by decide⟩

/-- The hypotheses of `SafetyPortDenied` can be met. -/
theorem test_witness_SafetyPortDenied :
    (∃ s : State, s.busUp .safety = true ∧ s.bus.sp.ptr = 0x0000 ∧ s.bus.sp.ptr ≠ 0x0024 ∧ s.bus.sp.ptr ≠ 0x004E ∧ s.bus.sp.ptr ≠ 0x00CE ∧ s.bus.sp.ptr ≠ 0x00EE)
    ∧ (∃ s : State, s.busUp .safety = true ∧ s.bus.sp.ptr = 0x0023 ∧ s.bus.sp.ptr ≠ 0x0024 ∧ s.bus.sp.ptr ≠ 0x004E ∧ s.bus.sp.ptr ≠ 0x00CE ∧ s.bus.sp.ptr ≠ 0x00EE)
    ∧ (∃ s : State, s.busUp .safety = true ∧ s.bus.sp.ptr = 0x0025 ∧ s.bus.sp.ptr ≠ 0x0024 ∧ s.bus.sp.ptr ≠ 0x004E ∧ s.bus.sp.ptr ≠ 0x00CE ∧ s.bus.sp.ptr ≠ 0x00EE)
    ∧ (∃ s : State, s.busUp .safety = true ∧ s.bus.sp.ptr = 0x004D ∧ s.bus.sp.ptr ≠ 0x0024 ∧ s.bus.sp.ptr ≠ 0x004E ∧ s.bus.sp.ptr ≠ 0x00CE ∧ s.bus.sp.ptr ≠ 0x00EE)
    ∧ (∃ s : State, s.busUp .safety = true ∧ s.bus.sp.ptr = 0x004F ∧ s.bus.sp.ptr ≠ 0x0024 ∧ s.bus.sp.ptr ≠ 0x004E ∧ s.bus.sp.ptr ≠ 0x00CE ∧ s.bus.sp.ptr ≠ 0x00EE)
    ∧ (∃ s : State, s.busUp .safety = true ∧ s.bus.sp.ptr = 0x00CD ∧ s.bus.sp.ptr ≠ 0x0024 ∧ s.bus.sp.ptr ≠ 0x004E ∧ s.bus.sp.ptr ≠ 0x00CE ∧ s.bus.sp.ptr ≠ 0x00EE)
    ∧ (∃ s : State, s.busUp .safety = true ∧ s.bus.sp.ptr = 0x00CF ∧ s.bus.sp.ptr ≠ 0x0024 ∧ s.bus.sp.ptr ≠ 0x004E ∧ s.bus.sp.ptr ≠ 0x00CE ∧ s.bus.sp.ptr ≠ 0x00EE)
    ∧ (∃ s : State, s.busUp .safety = true ∧ s.bus.sp.ptr = 0x00ED ∧ s.bus.sp.ptr ≠ 0x0024 ∧ s.bus.sp.ptr ≠ 0x004E ∧ s.bus.sp.ptr ≠ 0x00CE ∧ s.bus.sp.ptr ≠ 0x00EE)
    ∧ (∃ s : State, s.busUp .safety = true ∧ s.bus.sp.ptr = 0x00EF ∧ s.bus.sp.ptr ≠ 0x0024 ∧ s.bus.sp.ptr ≠ 0x004E ∧ s.bus.sp.ptr ≠ 0x00CE ∧ s.bus.sp.ptr ≠ 0x00EE)
    ∧ (∃ s : State, s.busUp .safety = true ∧ s.bus.sp.ptr = 0x0FFF ∧ s.bus.sp.ptr ≠ 0x0024 ∧ s.bus.sp.ptr ≠ 0x004E ∧ s.bus.sp.ptr ≠ 0x00CE ∧ s.bus.sp.ptr ≠ 0x00EE)
    ∧ (∃ (s : State) (g : Byte), s.busUp .safety = true ∧ g.toNat = 0x40 ∧ g ≠ 0x4E)
    ∧ (∃ (s : State) (g : Byte), s.busUp .safety = true ∧ g.toNat = 0x5F ∧ g ≠ 0x4E)
    ∧ (∃ s : State, s.busUp .safety = true ∧ s.bus.sp.ptr = 0x0004)
    ∧ (∃ s : State, s.busUp .safety = true ∧ s.bus.sp.ptr = 0x0007)
    ∧ (∃ s : State, s.busUp .safety = true ∧ s.bus.sp.ptr = 0x0026) :=
  ⟨⟨(live.onPort .safety fun p => { p with ptr := 0x0000 }), by decide⟩,
    ⟨(live.onPort .safety fun p => { p with ptr := 0x0023 }), by decide⟩,
    ⟨(live.onPort .safety fun p => { p with ptr := 0x0025 }), by decide⟩,
    ⟨(live.onPort .safety fun p => { p with ptr := 0x004D }), by decide⟩,
    ⟨(live.onPort .safety fun p => { p with ptr := 0x004F }), by decide⟩,
    ⟨(live.onPort .safety fun p => { p with ptr := 0x00CD }), by decide⟩,
    ⟨(live.onPort .safety fun p => { p with ptr := 0x00CF }), by decide⟩,
    ⟨(live.onPort .safety fun p => { p with ptr := 0x00ED }), by decide⟩,
    ⟨(live.onPort .safety fun p => { p with ptr := 0x00EF }), by decide⟩,
    ⟨(live.onPort .safety fun p => { p with ptr := 0x0FFF }), by decide⟩,
    ⟨live, 0x40, by decide⟩,
    ⟨live, 0x5F, by decide⟩,
    ⟨(live.onPort .safety fun p => { p with ptr := 0x0004 }), by decide⟩,
    ⟨(live.onPort .safety fun p => { p with ptr := 0x0007 }), by decide⟩,
    ⟨(live.onPort .safety fun p => { p with ptr := 0x0026 }), by decide⟩⟩

/-- The hypotheses of `HostClearOnRead` can be met. -/
theorem test_witness_HostClearOnRead :
    (∃ s : State, s.busUp .host = true ∧ s.bus.hp.ptr = 0x0004)
    ∧ (∃ s : State, s.busUp .host = true ∧ s.bus.hp.ptr = 0x0007)
    ∧ (∃ s : State, s.busUp .host = true ∧ s.bus.hp.ptr = 0x0026) :=
  ⟨⟨(live.onPort .host fun p => { p with ptr := 0x0004 }), by decide⟩,
    ⟨(live.onPort .host fun p => { p with ptr := 0x0007 }), by decide⟩,
    ⟨(live.onPort .host fun p => { p with ptr := 0x0026 }), by decide⟩⟩

/-- The hypotheses of `SelectorChecks` can be met. -/
theorem test_witness_SelectorChecks :
    ∃ s : State, fresh s Cause.selectorStuck :=
  ⟨live, rfl, rfl⟩

/-- The hypotheses of `CheckIns` can be met. -/
theorem test_witness_CheckIns :
    (∃ (s : State) (m : BitVec 6), s.wd.run = .normal ∧ s.sys.halted = false ∧ m ≠ 0 ∧ 500 * s.wd.per ≤ s.wd.tick ∧ s.wd.tick < 1000 * s.wd.per ∧ s.wd.tick = 5000 ∧ s.wd.landed ||| m ≠ 0x3F)
    ∧ (∃ (s : State) (m : BitVec 6), s.wd.run = .normal ∧ s.sys.halted = false ∧ m ≠ 0 ∧ 500 * s.wd.per ≤ s.wd.tick ∧ s.wd.tick < 1000 * s.wd.per ∧ s.wd.tick = 5000 ∧ s.wd.landed ||| m = 0x3F)
    ∧ (∃ (s : State) (m : BitVec 6), s.wd.run = .normal ∧ s.sys.halted = false ∧ m ≠ 0 ∧ 500 * s.wd.per ≤ s.wd.tick ∧ s.wd.tick < 1000 * s.wd.per ∧ s.wd.tick = 9999 ∧ s.wd.landed ||| m ≠ 0x3F)
    ∧ (∃ (s : State) (m : BitVec 6), s.wd.run = .normal ∧ s.sys.halted = false ∧ m ≠ 0 ∧ 500 * s.wd.per ≤ s.wd.tick ∧ s.wd.tick < 1000 * s.wd.per ∧ s.wd.tick = 9999 ∧ s.wd.landed ||| m = 0x3F)
    ∧ (∃ s : State, s.sys.fwRun = true ∧ s.flt.taskOnce = 0 ∧ fresh s Cause.taskMpu) :=
  ⟨⟨(live.onWd fun w => { w with run := .normal, per := 10, tick := 5000, landed := 0 }), 1, by decide⟩,
    ⟨(live.onWd fun w => { w with run := .normal, per := 10, tick := 5000, landed := 0 }), 63, by decide⟩,
    ⟨(live.onWd fun w => { w with run := .normal, per := 10, tick := 9999, landed := 0 }), 1, by decide⟩,
    ⟨(live.onWd fun w => { w with run := .normal, per := 10, tick := 9999, landed := 0 }), 63, by decide⟩,
    ⟨live, by decide, by decide, rfl, rfl⟩⟩

/-- The hypotheses of `ShipDelay` can be met. -/
theorem test_witness_ShipDelay :
    (∃ (s : State) (c v : Byte), pairOk s .host 0x40 c true v ∧ v.toNat % 64 = 1 ∧ s.runs = true ∧ s.anyPresent = false ∧ s.isWorker = false)
    ∧ (∃ (s : State) (c v : Byte), pairOk s .host 0x40 c true v ∧ v.toNat % 64 = 60 ∧ s.runs = true ∧ s.anyPresent = false ∧ s.isWorker = false)
    ∧ (∃ (s : State) (c v : Byte), pairOk s .host 0x40 c true v ∧ v.toNat % 64 = 10 ∧ s.runs = true ∧ s.anyPresent = false ∧ s.isWorker = false)
    ∧ (∃ (s : State) (c v : Byte), pairOk s .host 0x40 c true v ∧ v.toNat % 64 = 0)
    ∧ (∃ (s : State) (c v : Byte), pairOk s .host 0x40 c true v ∧ v.toNat % 64 = 61)
    ∧ (∃ (s : State) (c v : Byte), pairOk s .host 0x40 c true v ∧ v.toNat % 64 = 1 ∧ s.runs = false)
    ∧ (∃ (s : State) (c v : Byte), pairOk s .host 0x40 c true v ∧ v.toNat % 64 = 1 ∧ s.anyPresent = true)
    ∧ (∃ (s : State) (c v : Byte), pairOk s .host 0x40 c true v ∧ v.toNat % 64 = 1 ∧ s.isWorker = true) :=
  ⟨⟨(live.onPort .host fun p => { p with pend := some { addr := 0x40, val := 1, since := 0 } }), ~~~(1 : Byte), 1, ⟨rfl, rfl, rfl, 0, rfl, by decide⟩, by decide⟩,
    ⟨(live.onPort .host fun p => { p with pend := some { addr := 0x40, val := 60, since := 0 } }), ~~~(60 : Byte), 60, ⟨rfl, rfl, rfl, 0, rfl, by decide⟩, by decide⟩,
    ⟨(live.onPort .host fun p => { p with pend := some { addr := 0x40, val := 74, since := 0 } }), ~~~(74 : Byte), 74, ⟨rfl, rfl, rfl, 0, rfl, by decide⟩, by decide⟩,
    ⟨(live.onPort .host fun p => { p with pend := some { addr := 0x40, val := 0, since := 0 } }), ~~~(0 : Byte), 0, ⟨rfl, rfl, rfl, 0, rfl, by decide⟩, by decide⟩,
    ⟨(live.onPort .host fun p => { p with pend := some { addr := 0x40, val := 61, since := 0 } }), ~~~(61 : Byte), 61, ⟨rfl, rfl, rfl, 0, rfl, by decide⟩, by decide⟩,
    ⟨((live.onSys fun y => { y with mode := .hold }).onPort .host fun p => { p with pend := some { addr := 0x40, val := 1, since := 0 } }), ~~~(1 : Byte), 1, ⟨rfl, rfl, rfl, 0, rfl, by decide⟩, by decide⟩,
    ⟨((live.onPp fun x => { x with presA := true }).onPort .host fun p => { p with pend := some { addr := 0x40, val := 1, since := 0 } }), ~~~(1 : Byte), 1, ⟨rfl, rfl, rfl, 0, rfl, by decide⟩, by decide⟩,
    ⟨(worker.onPort .host fun p => { p with pend := some { addr := 0x40, val := 1, since := 0 } }), ~~~(1 : Byte), 1, ⟨rfl, rfl, rfl, 0, rfl, by decide⟩, by decide⟩⟩

/-- The hypotheses of `ButtonCounts` can be met. -/
theorem test_witness_ButtonCounts :
    (∃ s : State, s.sys.btnDown = true ∧ s.sys.btnCounts = false)
    ∧ (∃ s : State, s.sys.mode ≠ .ship ∧ s.sys.mode ≠ .unpowered ∧ s.sys.cut = false) :=
  ⟨⟨live.onSys fun y => { y with btnDown := true }, by decide⟩,
    ⟨live, by decide⟩⟩

/-- The hypotheses of `DoorbellMisuse` can be met. -/
theorem test_witness_DoorbellMisuse :
    (∃ (s : State) (n : Fin 4), s.busUp .host = true ∧ s.bus.hp.pend = none ∧ (s.sys.fwRun = false ∨ ∀ k ∈ s.mb.ring, (s.box k.val).st ≠ .free) ∧ s.mb.lock.getLsbD n.val = true ∧ s.mb.doneHeld.getLsbD n.val = false ∧ s.qs.events.length < 224)
    ∧ (∃ (s : State) (n : Fin 4), s.busUp .host = true ∧ s.bus.hp.pend = none ∧ (s.sys.fwRun = false ∨ ∀ k ∈ s.mb.ring, (s.box k.val).st ≠ .free) ∧ s.mb.inuse.getLsbD n.val = true ∧ s.mb.doneHeld.getLsbD n.val = false ∧ s.qs.events.length < 224)
    ∧ (∃ (s : State) (n : Fin 4), s.busUp .host = true ∧ s.bus.hp.pend = none ∧ (s.sys.fwRun = false ∨ ∀ k ∈ s.mb.ring, (s.box k.val).st ≠ .free) ∧ s.mb.inuse.getLsbD n.val = true ∧ s.mb.doneHeld.getLsbD n.val = true ∧ (s.box n.val).st ≠ .final ∧ s.qs.events.length < 224)
    ∧ (∃ (s : State) (n : Fin 4), s.busUp .host = true ∧ s.bus.hp.pend = none ∧ (s.sys.fwRun = false ∨ ∀ k ∈ s.mb.ring, (s.box k.val).st ≠ .free) ∧ s.mb.lock.getLsbD n.val = true ∧ s.sys.fwRun = false ∧ s.mb.doneHeld.getLsbD n.val = false ∧ s.qs.events.length < 224)
    ∧ (∃ (s : State) (n : Fin 4), s.busUp .host = true ∧ s.bus.hp.pend = none ∧ (s.sys.fwRun = false ∨ ∀ k ∈ s.mb.ring, (s.box k.val).st ≠ .free) ∧ s.mb.ring = [3] ∧ s.mb.outrdy.getLsbD n.val = false) :=
  ⟨⟨live.onMb fun m => { m with lock := 8 }, 3, by decide⟩,
    ⟨live.onMb fun m => { m with inuse := 8 }, 3, by decide⟩,
    ⟨live.onMb fun m => { m with inuse := 8, doneHeld := 8 }, 3, by decide⟩,
    ⟨(live.onMb fun m => { m with lock := 8 }).onSys fun y => { y with fwRun := false }, 3, by decide⟩,
    ⟨live.onMb fun m => { m with ring := [3], box := m.box.set 3 { st := .taken } }, 3, by decide⟩⟩

/-- The hypotheses of `ControlWriteShadow` can be met. -/
theorem test_witness_ControlWriteShadow :
    (∃ (s : State) (k : Nat), s.busUp .host = true ∧ s.sys.fwRun = true ∧ s.bus.hp.line = none ∧ s.bus.hp.allFF = false ∧ 0x0100 ≤ s.bus.hp.ptr ∧ s.bus.hp.ptr < 0x0400 ∧ blockOf (decodeLine s.bus.hp.ptr) = some k ∧ (s.bus.shadow.map (·.1)).Pairwise (· < ·) ∧ s.bus.hp.ptr = 0x0140 ∧ s.bus.imm.getLsbD k = false)
    ∧ (∃ (s : State) (k : Nat), s.busUp .host = true ∧ s.sys.fwRun = true ∧ s.bus.hp.line = none ∧ s.bus.hp.allFF = false ∧ 0x0100 ≤ s.bus.hp.ptr ∧ s.bus.hp.ptr < 0x0400 ∧ blockOf (decodeLine s.bus.hp.ptr) = some k ∧ (s.bus.shadow.map (·.1)).Pairwise (· < ·) ∧ s.bus.hp.ptr = 0x0140 ∧ s.bus.imm.getLsbD k = true)
    ∧ (∃ (s : State) (k : Nat), s.busUp .host = true ∧ s.sys.fwRun = true ∧ s.bus.hp.line = none ∧ s.bus.hp.allFF = false ∧ 0x0100 ≤ s.bus.hp.ptr ∧ s.bus.hp.ptr < 0x0400 ∧ blockOf (decodeLine s.bus.hp.ptr) = some k ∧ (s.bus.shadow.map (·.1)).Pairwise (· < ·) ∧ s.bus.hp.ptr = 0x014C ∧ s.bus.imm.getLsbD k = false)
    ∧ (∃ (s : State) (k : Nat), s.busUp .host = true ∧ s.sys.fwRun = true ∧ s.bus.hp.line = none ∧ s.bus.hp.allFF = false ∧ 0x0100 ≤ s.bus.hp.ptr ∧ s.bus.hp.ptr < 0x0400 ∧ blockOf (decodeLine s.bus.hp.ptr) = some k ∧ (s.bus.shadow.map (·.1)).Pairwise (· < ·) ∧ s.bus.hp.ptr = 0x014C ∧ s.bus.imm.getLsbD k = true)
    ∧ (∃ (s : State) (k : Nat), s.busUp .host = true ∧ s.sys.fwRun = true ∧ s.bus.hp.line = none ∧ s.bus.hp.allFF = false ∧ 0x0100 ≤ s.bus.hp.ptr ∧ s.bus.hp.ptr < 0x0400 ∧ blockOf (decodeLine s.bus.hp.ptr) = some k ∧ (s.bus.shadow.map (·.1)).Pairwise (· < ·) ∧ s.bus.hp.ptr = 0x0151 ∧ s.bus.imm.getLsbD k = false)
    ∧ (∃ (s : State) (k : Nat), s.busUp .host = true ∧ s.sys.fwRun = true ∧ s.bus.hp.line = none ∧ s.bus.hp.allFF = false ∧ 0x0100 ≤ s.bus.hp.ptr ∧ s.bus.hp.ptr < 0x0400 ∧ blockOf (decodeLine s.bus.hp.ptr) = some k ∧ (s.bus.shadow.map (·.1)).Pairwise (· < ·) ∧ s.bus.hp.ptr = 0x0151 ∧ s.bus.imm.getLsbD k = true)
    ∧ (∃ (s : State) (k : Nat), s.busUp .host = true ∧ s.sys.fwRun = true ∧ s.bus.hp.line = none ∧ s.bus.hp.allFF = false ∧ 0x0100 ≤ s.bus.hp.ptr ∧ s.bus.hp.ptr < 0x0400 ∧ blockOf (decodeLine s.bus.hp.ptr) = some k ∧ (s.bus.shadow.map (·.1)).Pairwise (· < ·) ∧ s.bus.hp.ptr = 0x0161 ∧ s.bus.imm.getLsbD k = false)
    ∧ (∃ (s : State) (k : Nat), s.busUp .host = true ∧ s.sys.fwRun = true ∧ s.bus.hp.line = none ∧ s.bus.hp.allFF = false ∧ 0x0100 ≤ s.bus.hp.ptr ∧ s.bus.hp.ptr < 0x0400 ∧ blockOf (decodeLine s.bus.hp.ptr) = some k ∧ (s.bus.shadow.map (·.1)).Pairwise (· < ·) ∧ s.bus.hp.ptr = 0x0161 ∧ s.bus.imm.getLsbD k = true)
    ∧ (∃ (s : State) (k : Nat), s.busUp .host = true ∧ s.sys.fwRun = true ∧ s.bus.hp.line = none ∧ s.bus.hp.allFF = false ∧ 0x0100 ≤ s.bus.hp.ptr ∧ s.bus.hp.ptr < 0x0400 ∧ blockOf (decodeLine s.bus.hp.ptr) = some k ∧ (s.bus.shadow.map (·.1)).Pairwise (· < ·) ∧ s.bus.hp.ptr = 0x0187 ∧ s.bus.imm.getLsbD k = false)
    ∧ (∃ (s : State) (k : Nat), s.busUp .host = true ∧ s.sys.fwRun = true ∧ s.bus.hp.line = none ∧ s.bus.hp.allFF = false ∧ 0x0100 ≤ s.bus.hp.ptr ∧ s.bus.hp.ptr < 0x0400 ∧ blockOf (decodeLine s.bus.hp.ptr) = some k ∧ (s.bus.shadow.map (·.1)).Pairwise (· < ·) ∧ s.bus.hp.ptr = 0x0187 ∧ s.bus.imm.getLsbD k = true)
    ∧ (∃ (s : State) (k : Nat), s.busUp .host = true ∧ s.sys.fwRun = true ∧ s.bus.hp.line = none ∧ s.bus.hp.allFF = false ∧ 0x0100 ≤ s.bus.hp.ptr ∧ s.bus.hp.ptr < 0x0400 ∧ blockOf (decodeLine s.bus.hp.ptr) = some k ∧ (s.bus.shadow.map (·.1)).Pairwise (· < ·) ∧ s.bus.hp.ptr = 0x01AD ∧ s.bus.imm.getLsbD k = false)
    ∧ (∃ (s : State) (k : Nat), s.busUp .host = true ∧ s.sys.fwRun = true ∧ s.bus.hp.line = none ∧ s.bus.hp.allFF = false ∧ 0x0100 ≤ s.bus.hp.ptr ∧ s.bus.hp.ptr < 0x0400 ∧ blockOf (decodeLine s.bus.hp.ptr) = some k ∧ (s.bus.shadow.map (·.1)).Pairwise (· < ·) ∧ s.bus.hp.ptr = 0x01AD ∧ s.bus.imm.getLsbD k = true)
    ∧ (∃ (s : State) (k : Nat), s.busUp .host = true ∧ s.sys.fwRun = true ∧ s.bus.hp.line = none ∧ s.bus.hp.allFF = false ∧ 0x0100 ≤ s.bus.hp.ptr ∧ s.bus.hp.ptr < 0x0400 ∧ blockOf (decodeLine s.bus.hp.ptr) = some k ∧ (s.bus.shadow.map (·.1)).Pairwise (· < ·) ∧ s.bus.hp.ptr = 0x01C0 ∧ s.bus.imm.getLsbD k = false)
    ∧ (∃ (s : State) (k : Nat), s.busUp .host = true ∧ s.sys.fwRun = true ∧ s.bus.hp.line = none ∧ s.bus.hp.allFF = false ∧ 0x0100 ≤ s.bus.hp.ptr ∧ s.bus.hp.ptr < 0x0400 ∧ blockOf (decodeLine s.bus.hp.ptr) = some k ∧ (s.bus.shadow.map (·.1)).Pairwise (· < ·) ∧ s.bus.hp.ptr = 0x01C0 ∧ s.bus.imm.getLsbD k = true)
    ∧ (∃ (s : State) (k : Nat), s.busUp .host = true ∧ s.sys.fwRun = true ∧ s.bus.hp.line = none ∧ s.bus.hp.allFF = false ∧ 0x0100 ≤ s.bus.hp.ptr ∧ s.bus.hp.ptr < 0x0400 ∧ blockOf (decodeLine s.bus.hp.ptr) = some k ∧ (s.bus.shadow.map (·.1)).Pairwise (· < ·) ∧ s.bus.hp.ptr = 0x0202 ∧ s.bus.imm.getLsbD k = false)
    ∧ (∃ (s : State) (k : Nat), s.busUp .host = true ∧ s.sys.fwRun = true ∧ s.bus.hp.line = none ∧ s.bus.hp.allFF = false ∧ 0x0100 ≤ s.bus.hp.ptr ∧ s.bus.hp.ptr < 0x0400 ∧ blockOf (decodeLine s.bus.hp.ptr) = some k ∧ (s.bus.shadow.map (·.1)).Pairwise (· < ·) ∧ s.bus.hp.ptr = 0x0202 ∧ s.bus.imm.getLsbD k = true)
    ∧ (∃ (s : State) (k : Nat), s.busUp .host = true ∧ s.sys.fwRun = true ∧ s.bus.hp.line = none ∧ s.bus.hp.allFF = false ∧ 0x0100 ≤ s.bus.hp.ptr ∧ s.bus.hp.ptr < 0x0400 ∧ blockOf (decodeLine s.bus.hp.ptr) = some k ∧ (s.bus.shadow.map (·.1)).Pairwise (· < ·) ∧ s.bus.hp.ptr = 0x0228 ∧ s.bus.imm.getLsbD k = false)
    ∧ (∃ (s : State) (k : Nat), s.busUp .host = true ∧ s.sys.fwRun = true ∧ s.bus.hp.line = none ∧ s.bus.hp.allFF = false ∧ 0x0100 ≤ s.bus.hp.ptr ∧ s.bus.hp.ptr < 0x0400 ∧ blockOf (decodeLine s.bus.hp.ptr) = some k ∧ (s.bus.shadow.map (·.1)).Pairwise (· < ·) ∧ s.bus.hp.ptr = 0x0228 ∧ s.bus.imm.getLsbD k = true)
    ∧ (∃ s : State, s.busUp .host = true ∧ s.sys.fwRun = false ∧ s.bus.hp.ptr = 0x0100)
    ∧ (∃ s : State, s.busUp .host = true ∧ s.sys.fwRun = false ∧ s.bus.hp.ptr = 0x03FF) :=
  ⟨⟨(live.onPort .host fun p => { p with ptr := 0x0140 }), 0, by decide⟩,
    ⟨((live.onBus fun b => { b with imm := 0xFF }).onPort .host fun p => { p with ptr := 0x0140 }), 0, by decide⟩,
    ⟨(live.onPort .host fun p => { p with ptr := 0x014C }), 0, by decide⟩,
    ⟨((live.onBus fun b => { b with imm := 0xFF }).onPort .host fun p => { p with ptr := 0x014C }), 0, by decide⟩,
    ⟨(live.onPort .host fun p => { p with ptr := 0x0151 }), 1, by decide⟩,
    ⟨((live.onBus fun b => { b with imm := 0xFF }).onPort .host fun p => { p with ptr := 0x0151 }), 1, by decide⟩,
    ⟨(live.onPort .host fun p => { p with ptr := 0x0161 }), 2, by decide⟩,
    ⟨((live.onBus fun b => { b with imm := 0xFF }).onPort .host fun p => { p with ptr := 0x0161 }), 2, by decide⟩,
    ⟨(live.onPort .host fun p => { p with ptr := 0x0187 }), 3, by decide⟩,
    ⟨((live.onBus fun b => { b with imm := 0xFF }).onPort .host fun p => { p with ptr := 0x0187 }), 3, by decide⟩,
    ⟨(live.onPort .host fun p => { p with ptr := 0x01AD }), 4, by decide⟩,
    ⟨((live.onBus fun b => { b with imm := 0xFF }).onPort .host fun p => { p with ptr := 0x01AD }), 4, by decide⟩,
    ⟨(live.onPort .host fun p => { p with ptr := 0x01C0 }), 5, by decide⟩,
    ⟨((live.onBus fun b => { b with imm := 0xFF }).onPort .host fun p => { p with ptr := 0x01C0 }), 5, by decide⟩,
    ⟨(live.onPort .host fun p => { p with ptr := 0x0202 }), 6, by decide⟩,
    ⟨((live.onBus fun b => { b with imm := 0xFF }).onPort .host fun p => { p with ptr := 0x0202 }), 6, by decide⟩,
    ⟨(live.onPort .host fun p => { p with ptr := 0x0228 }), 7, by decide⟩,
    ⟨((live.onBus fun b => { b with imm := 0xFF }).onPort .host fun p => { p with ptr := 0x0228 }), 7, by decide⟩,
    ⟨((live.onSys fun y => { y with fwRun := false }).onPort .host fun p => { p with ptr := 0x0100 }), by decide⟩,
    ⟨((live.onSys fun y => { y with fwRun := false }).onPort .host fun p => { p with ptr := 0x03FF }), by decide⟩⟩

/-- The hypotheses of `ClocksComplete` can be met. -/
theorem test_witness_ClocksComplete :
    (∃ (s : State), s.clk.moscEn = true ∧ s.clk.moscRun = false)
    ∧ (∃ (s : State), s.clk.moscEn = true)
    ∧ (∃ (ps : Nat) (s : State), s.clk.moscRun = true ∧ aoscOff ps = true ∧ fresh s Cause.aoscFreq)
    ∧ (∃ (s : State), s.clk.moscRun = true)
    ∧ (∃ (s : State), s.counts = true ∧ s.clk.gts = 0xFFFFFFFFFFFF) :=
  ⟨⟨((live.onClk fun x => { x with moscEn := true }).onClk fun x => { x with moscRun := false }), by decide⟩,
    ⟨(live.onClk fun x => { x with moscEn := true }), by decide⟩,
    ⟨40000000, (live.onClk fun x => { x with moscRun := true }), by decide, by decide, ⟨rfl, rfl⟩⟩,
    ⟨(live.onClk fun x => { x with moscRun := true }), by decide⟩,
    ⟨(live.onClk fun x => { x with gts := 0xFFFFFFFFFFFF }), by decide⟩⟩

/-- The hypotheses of `DomainsComplete` can be met. -/
theorem test_witness_DomainsComplete :
    (∃ (q : Nat) (s : State), s.busyQuad = some q)
    ∧ (∃ (d : Fin 14) (s : State), d ≠ 0)
    ∧ (∃ (d : Fin 14) (s : State), (domNeeds d.val).2 = false ∧ s.domFenced d.val = false)
    ∧ (∃ (d : Fin 14) (s : State), s.sys.domBusy = some { dom := d, on := true } ∧ s.domMissing d.val = [] ∧ ((domNeeds d.val).2 = false ∨ s.clk.moscRun = true))
    ∧ (∃ (d : Fin 14) (s : State), s.sys.domBusy = some { dom := d, on := false })
    ∧ (∃ (k : FwTask) (s : State), s.sys.fwRun = true ∧ s.flt.taskOnce.getLsbD (taskIdx k) = false ∧ fresh s Cause.taskDeadline)
    ∧ (∃ (k : FwTask) (s : State), s.sys.fwRun = true ∧ s.flt.taskOnce.getLsbD (taskIdx k) = false ∧ fresh s Cause.taskMpu) :=
  ⟨⟨0, (live.onPhase 0 fun x => { x with st := .active }), by decide⟩,
    ⟨1, live, by decide⟩,
    ⟨1, live, by decide⟩,
    ⟨1, (live.onSys fun x => { x with domBusy := some { dom := (1), on := true } }), by decide⟩,
    ⟨1, (live.onSys fun x => { x with domBusy := some { dom := (1), on := false } }), by decide⟩,
    ⟨.cowslip, ((live.onSys fun x => { x with fwRun := true }).onFlt fun x => { x with taskOnce := setBit x.taskOnce (taskIdx (.cowslip)) false }), by decide, by decide, ⟨rfl, rfl⟩⟩,
    ⟨.cowslip, ((live.onSys fun x => { x with fwRun := true }).onFlt fun x => { x with taskOnce := setBit x.taskOnce (taskIdx (.cowslip)) false }), by decide, by decide, ⟨rfl, rfl⟩⟩⟩

/-- The hypotheses of `StartCompletes` can be met. -/
theorem test_witness_StartCompletes :
    (∃ (s : State), s.sys.mode = .unpowered ∧ s.sys.cut = false)
    ∧ (∃ (n : Nodes) (s : State), s.sys.mode = .waking ∧ s.sys.tier0 = false ∧ s.sys.fwUp = false ∧ 2600 ≤ n.bat)
    ∧ (∃ (n : Nodes) (p : PortId) (s : State), s.sys.limpSrc = some p ∧ s.sys.limp = true ∧ nodeV n p < (uvlo p).2)
    ∧ (∃ (s : State), s.pp.soft = .running)
    ∧ (∃ (s : State), s.pp.soft = .waiting)
    ∧ (∃ (s : State), s.sys.mode = .waking ∧ (s.sys.loader = .first ∨ s.sys.loader = .second))
    ∧ (∃ (s : State), s.sys.mode = .waking ∧ s.sys.loader = .done ∧ s.sys.boot ≠ 0x09 ∧ s.clk.moscRun = true ∧ s.sys.fwUp = false)
    ∧ (∃ (p : PortId) (s : State), s.limping p = true ∧ s.tuningV = false ∧ (p == .pc && s.tuningPc) = false)
    ∧ (∃ (p : PortId) (s : State), s.limping p = true ∧ s.tuningV = true ∧ s.switchOn = true ∧ (p == .pc && s.tuningPc) = false) :=
  ⟨⟨((live.onSys fun x => { x with mode := .unpowered }).onSys fun x => { x with cut := false }), by decide⟩,
    ⟨{ bat := 7000 }, (((live.onSys fun x => { x with mode := .waking }).onSys fun x => { x with tier0 := false }).onSys fun x => { x with fwUp := false }), by decide⟩,
    ⟨{}, .pa, ((live.onSys fun x => { x with limpSrc := some (.pa) }).onSys fun x => { x with limp := true }), by decide⟩,
    ⟨(live.onPp fun x => { x with soft := .running }), by decide⟩,
    ⟨(live.onPp fun x => { x with soft := .waiting }), by decide⟩,
    ⟨(live.onSys fun x => { x with mode := .waking, loader := .first }), by decide⟩,
    ⟨((((live.onSys fun x => { x with mode := .waking }).onSys fun x => { x with loader := .done }).onClk fun x => { x with moscRun := true }).onSys fun x => { x with fwUp := false }), by decide⟩,
    ⟨.pa, ((live.onSys fun x => { x with limp := true, limpSrc := some .pa }).onPhase 0 fun x => { x with st := .limp }), by decide⟩,
    ⟨.pa, ((((live.onSys fun x => { x with limp := true, limpSrc := some .pa }).onPhase 0 fun x => { x with st := .limp }).onCc fun c => { c with tune := some { wait := true } }).onPp fun x => { x with batSw := .full }), by decide⟩⟩

/-- The hypotheses of `DormantShipComplete` can be met. -/
theorem test_witness_DormantShipComplete :
    (∃ (load : Nat) (s : State), s.sys.idleS ≠ 0 ∧ s.sys.dorm = .none ∧ s.dormCond load none false = true)
    ∧ (∃ (s : State), s.runs = true)
    ∧ (∃ (s : State), s.sys.mode = .dormant ∧ s.sys.wakeNow ≠ 0)
    ∧ (∃ (s : State), s.sys.mode = .waking ∧ s.sys.loader = .done ∧ s.sys.boot = 0x09 ∧ s.clk.moscRun = true ∧ s.sys.fwUp = false)
    ∧ (∃ (c : Byte) (v : Byte) (single : Bool) (s : State), pairOk s .host 0x40 c single v)
    ∧ (∃ (s : State), s.sys.shipAt.isSome = true ∧ s.sys.shipShut = false ∧ s.runs = true)
    ∧ (∃ (s : State), s.sys.shipShut = true ∧ s.runs = true)
    ∧ (∃ (mask : BitVec 16) (s : State), s.sys.mode = .ship ∧ mask &&& 0x000E ≠ 0)
    ∧ (∃ (s : State), s.sys.mode = .ship ∧ s.sys.btnDown = true ∧ s.sys.btnCounts = true)
    ∧ (∃ (s : State), s.sys.shipAt = none)
    ∧ (∃ (s : State), s.sys.btnDown = true ∧ s.sys.btnCounts = true)
    ∧ (∃ (s : State), s.sys.btnDown = true ∧ s.sys.btnCounts = true ∧ s.sys.mode = .run)
    ∧ (∃ (s : State), s.sys.btnDown = true ∧ s.sys.btnCounts = true ∧ s.sys.mode ≠ .unpowered)
    ∧ (∃ (s : State), s.sys.cut = true) :=
  ⟨⟨0, (live.onSys fun x => { x with dorm := .none }), by decide⟩,
    ⟨live, by decide⟩,
    ⟨(live.onSys fun x => { x with mode := .dormant }), by decide⟩,
    ⟨(((((live.onSys fun x => { x with mode := .waking }).onSys fun x => { x with loader := .done }).onSys fun x => { x with boot := 0x09 }).onClk fun x => { x with moscRun := true }).onSys fun x => { x with fwUp := false }), by decide⟩,
    ⟨(~~~(0 : Byte)), 0, true, (live.onPort .host fun p => { p with pend := some { addr := 0x40, val := 0, since := 0 } }), ⟨rfl, rfl, rfl, 0, rfl, by decide⟩⟩,
    ⟨((live.onSys fun x => { x with shipShut := false }).onSys fun x => { x with shipAt := some 7 }), by decide⟩,
    ⟨(live.onSys fun x => { x with shipShut := true }), by decide⟩,
    ⟨0x0002, (live.onSys fun x => { x with mode := .ship }), by decide⟩,
    ⟨(((live.onSys fun x => { x with mode := .ship }).onSys fun x => { x with btnDown := true }).onSys fun x => { x with btnCounts := true }), by decide⟩,
    ⟨(live.onSys fun x => { x with shipAt := none }), by decide⟩,
    ⟨((live.onSys fun x => { x with btnDown := true }).onSys fun x => { x with btnCounts := true }), by decide⟩,
    ⟨(((live.onSys fun x => { x with btnDown := true }).onSys fun x => { x with btnCounts := true }).onSys fun x => { x with mode := .run }), by decide⟩,
    ⟨((live.onSys fun x => { x with btnDown := true }).onSys fun x => { x with btnCounts := true }), by decide⟩,
    ⟨(live.onSys fun x => { x with cut := true }), by decide⟩⟩

/-- The hypotheses of `FabricCompletes` can be met. -/
theorem test_witness_FabricCompletes :
    (∃ (m : TickIn) (s : State), s.sys.fwRun = true ∧ (((s.tickMeasure m).limpFollow).tickThermal).runs = true)
    ∧ (∃ (s : State), s.sys.fwRun = true ∧ s.fab.peak = .episode)
    ∧ (∃ (s : State), s.sys.fwRun = true ∧ s.fab.peak = .recovery)
    ∧ (∃ (i : Fin 8) (s : State), (s.phase i.val).st = .draining)
    ∧ (∃ (i : Fin 8) (p : PortId) (s : State), (s.phase i.val).st = .switching ∧ (s.phase i.val).next = some p)
    ∧ (∃ (i : Fin 8) (s : State), (s.phase i.val).st = .starting)
    ∧ (∃ (s : State), s.sys.fwRun = true ∧ fresh s Cause.selectorStuck)
    ∧ (∃ (s : State), s.fab.q1Timer = true ∧ s.quadNeeded 1 = false)
    ∧ (∃ (t : TcId) (s : State), s.tcLive t = true ∧ ((s.txClear t).tc t).frsArm = true ∧ s.runs = true)
    ∧ (∃ (c : Byte) (v : Byte) (single : Bool) (s : State), pairOk s .host 0x48 c single v)
    ∧ (∃ (c : Byte) (v : Byte) (single : Bool) (s : State), pairOk s .host 0x49 c single v)
    ∧ (∃ (c : Byte) (v : Byte) (single : Bool) (s : State), pairOk s .host 0x4A c single v)
    ∧ (∃ (s : State), s.runs = true ∧ s.grd.fpen = false) :=
  ⟨⟨{}, (live.onSys fun x => { x with fwRun := true }), by decide⟩,
    ⟨((live.onSys fun x => { x with fwRun := true }).onFab fun x => { x with peak := .episode }), by decide⟩,
    ⟨((live.onSys fun x => { x with fwRun := true }).onFab fun x => { x with peak := .recovery }), by decide⟩,
    ⟨0, (live.onPhase 0 fun x => { x with st := .draining }), by decide⟩,
    ⟨0, .pa, ((live.onPhase 0 fun x => { x with st := .switching }).onPhase 0 fun x => { x with next := some (.pa) }), by decide⟩,
    ⟨0, (live.onPhase 0 fun x => { x with st := .starting }), by decide⟩,
    ⟨(live.onSys fun x => { x with fwRun := true }), by decide, ⟨rfl, rfl⟩⟩,
    ⟨(live.onFab fun x => { x with q1Timer := true }), by decide⟩,
    ⟨.a, (live.onTc .a fun x => { x with frsArm := true }), by decide⟩,
    ⟨(~~~(0 : Byte)), 0, true, (live.onPort .host fun p => { p with pend := some { addr := 0x48, val := 0, since := 0 } }), ⟨rfl, rfl, rfl, 0, rfl, by decide⟩⟩,
    ⟨(~~~(0 : Byte)), 0, true, (live.onPort .host fun p => { p with pend := some { addr := 0x49, val := 0, since := 0 } }), ⟨rfl, rfl, rfl, 0, rfl, by decide⟩⟩,
    ⟨(~~~(0 : Byte)), 0, true, (live.onPort .host fun p => { p with pend := some { addr := 0x4A, val := 0, since := 0 } }), ⟨rfl, rfl, rfl, 0, rfl, by decide⟩⟩,
    ⟨(live.onGrd fun x => { x with fpen := false }), by decide⟩⟩

/-- The hypotheses of `ConversionCompletes` can be met. -/
theorem test_witness_ConversionCompletes :
    (∃ (s : State), s.clk.moscRun = true ∧ s.measOn = true)
    ∧ (∃ (i : Fin 8) (s : State), (s.phase i.val).st.gatesOn = true)
    ∧ (∃ (ma : Nat) (s : State), 24000 ≤ ma)
    ∧ (∃ (t : Int) (s : State), 1150 ≤ t)
    ∧ (∃ (c : Nat) (spread : Nat) (r : TuneRun) (s : State), s.cc.tune = some r ∧ s.runs = true ∧ r.pc = true ∧ spread ≤ 100 ∧ 30 ≤ c ∧ c ≤ 600)
    ∧ (∃ (s : State), s.cc.fswPend = true)
    ∧ (∃ (s : State), s.regBit 0x0142 0 = true ∧ s.stk.joined = false ∧ s.cc.sync = .acquiring ∧ s.cc.edgeOk = 64)
    ∧ (∃ (s : State), s.regBit 0x0142 0 = true ∧ s.stk.joined = false ∧ (s.cc.sync = .acquiring ∨ s.cc.sync = .locked))
    ∧ (∃ (s : State), s.regBit 0x0142 0 = true ∧ s.stk.joined = false ∧ s.cc.sync = .lost)
    ∧ (∃ (p : PortId) (s : State), s.controlled p = true ∧ (s.cc.comp.getD (portIdx p) {}).vsRef = 1000 * s.vTarget p ∧ 32 ≤ (s.cc.comp.getD (portIdx p) {}).above)
    ∧ (∃ (s : State), s.stk.joined = true)
    ∧ (∃ (c : Nat) (spread : Nat) (r : TuneRun) (s : State), s.cc.tune = some r ∧ s.runs = true ∧ r.pc = true ∧ r.again = false ∧ (100 < spread ∨ c < 30 ∨ 600 < c))
    ∧ (∃ (c : Nat) (spread : Nat) (r : TuneRun) (s : State), s.cc.tune = some r ∧ s.runs = true ∧ s.switchOn = false ∧ r.pc = false ∧ r.again = false ∧ (100 < spread ∨ c < 150 ∨ 4200 < c))
    ∧ (∃ (c : Nat) (spread : Nat) (r : TuneRun) (s : State), s.cc.tune = some r ∧ s.runs = true ∧ s.switchOn = false ∧ r.pc = false ∧ spread ≤ 100 ∧ 150 ≤ c ∧ c ≤ 4200) :=
  ⟨⟨(live.onClk fun x => { x with moscRun := true }), by decide⟩,
    ⟨0, (live.onPhase 0 fun x => { x with st := .active }), by decide⟩,
    ⟨24000, live, by decide⟩,
    ⟨1150, live, by decide⟩,
    ⟨30, 0, { pc := true }, (live.onCc fun x => { x with tune := some ({ pc := true }) }), by decide⟩,
    ⟨(live.onCc fun x => { x with fswPend := true }), by decide⟩,
    ⟨((((live.onBus fun x => { x with page := memPut regDefault x.page 0x0142 (setBit (memGet regDefault x.page 0x0142) 0 true) }).onStk fun x => { x with joined := false }).onCc fun x => { x with sync := .acquiring }).onCc fun x => { x with edgeOk := 64 }), by decide⟩,
    ⟨(((live.onBus fun x => { x with page := memPut regDefault x.page 0x0142 (setBit (memGet regDefault x.page 0x0142) 0 true) }).onStk fun x => { x with joined := false }).onCc fun x => { x with sync := .acquiring }), by decide⟩,
    ⟨(((live.onBus fun x => { x with page := memPut regDefault x.page 0x0142 (setBit (memGet regDefault x.page 0x0142) 0 true) }).onStk fun x => { x with joined := false }).onCc fun x => { x with sync := .lost }), by decide⟩,
    ⟨.pa, ((live.onFab fun f => { f with path := f.path.modify 0 fun x => { x with dir := .sink } }).onCc fun c => { c with comp := [{ vsRef := 7150000, above := 32 }, {}, {}] }), by decide⟩,
    ⟨(live.onStk fun x => { x with joined := true }), by decide⟩,
    ⟨0, 0, { pc := true }, (live.onCc fun x => { x with tune := some ({ pc := true }) }), by decide⟩,
    ⟨0, 0, {}, (live.onCc fun x => { x with tune := some ({}) }), by decide⟩,
    ⟨150, 0, {}, (live.onCc fun x => { x with tune := some ({}) }), by decide⟩⟩

/-- The hypotheses of `PowerPathCompletes` can be met. -/
theorem test_witness_PowerPathCompletes :
    (∃ (nd : Nodes) (dc : Bool) (s : State), s.sys.fwRun = true ∧ s.pp.presC = false ∧ (uvlo .pc).1 < nd.pc ∧ ((((s.seeNodes nd).batHw).limpFollow).onPp fun x => { x with dcdetLow := dc }).dcdetOk = true ∧ s.portFenced .pc = false)
    ∧ (∃ (s : State), s.sys.fwRun = true ∧ s.pp.presC = true)
    ∧ (∃ (s : State), s.sys.fwRun = true ∧ s.follower = false ∧ s.pp.batPres = false ∧ s.batFound s.voltTest = true)
    ∧ (∃ (s : State), s.sys.fwRun = true ∧ s.follower = false ∧ s.pp.batPres = true ∧ s.batFound s.voltTest = false)
    ∧ (∃ (nd : Nodes) (s : State), (((s.seeNodes nd).batHw).limpFollow).pp.batSw = .diode ∧ s.follower = false ∧ nd.vsys + 20 < nd.bat)
    ∧ (∃ (nd : Nodes) (s : State), s.follower = false ∧ nd.vsys + 150 ≤ (((s.seeNodes nd).batHw).limpFollow).vsysRef ∧ ((((s.seeNodes nd).batHw).limpFollow).pp.batSw = .diode ∨ ((((s.seeNodes nd).batHw).limpFollow).pp.batSw = .linear ∧ (((s.seeNodes nd).batHw).limpFollow).pp.soft = .no)))
    ∧ (∃ (s : State), s.pp.batSw = .full ∧ s.follower = false ∧ s.chg.phase.charging = false)
    ∧ (∃ (t : TcId) (s : State), s.runs = true ∧ s.sinking (tcPort t) = true ∧ s.controlled (tcPort t) = true)
    ∧ (∃ (t : TcId) (l : Nat) (s : State), s.learn (tcPort t) = some l ∧ s.runs = true)
    ∧ (∃ (s : State), s.runs = true ∧ s.track = true ∧ s.sinking .pc = true ∧ s.controlled .pc = true ∧ s.pp.scan = none ∧ s.pp.scanDue = false)
    ∧ (∃ (s : State), s.runs = true ∧ (s.pp.scanDue = true ∨ s.scanEvery = true))
    ∧ (∃ (k : Scan) (s : State), s.pp.scan = some k ∧ s.runs = true ∧ s.track = true ∧ s.sinking .pc = true)
    ∧ (∃ (s : State), s.pp.handover = true ∧ s.switchOn = true ∧ s.anySink = false ∧ (phaseNos.all fun i => !((s.phase i).st.gatesOn && (s.phase i).dir == .sink)) = true)
    ∧ (∃ (s : State), s.sys.fwRun = true ∧ s.pp.batPres = false)
    ∧ (∃ (t : TcId) (s : State), s.runs = true ∧ s.sourcing (tcPort t) = true ∧ s.ms.vbat ≤ s.grd.cells * s.vRcut ∧ (s.anySink = false ∨ s.pp.bat = .discharging ∨ s.pp.bat = .supplementing)) :=
  ⟨⟨{ pc := 8001 }, false, ((live.onSys fun x => { x with fwRun := true }).onPp fun x => { x with presC := false }), by decide⟩,
    ⟨((live.onSys fun x => { x with fwRun := true }).onPp fun x => { x with presC := true }), by decide⟩,
    ⟨(((live.onSys fun x => { x with fwRun := true }).onPp fun x => { x with batPres := false }).onPp fun x => { x with nodes := { bat := 7000 } }), by decide⟩,
    ⟨((live.onSys fun x => { x with fwRun := true }).onPp fun x => { x with batPres := true }), by decide⟩,
    ⟨{ vsys := 7000, bat := 7021 }, (live.onPp fun x => { x with batSw := .diode }), by decide⟩,
    ⟨{}, ((live.onPp fun x => { x with batSw := .diode }).onPp fun x => { x with vsysTgt := 7000 }), by decide⟩,
    ⟨(live.onPp fun x => { x with batSw := .full }), by decide⟩,
    ⟨.a, (live.onFab fun f => { f with path := f.path.modify 0 fun x => { x with dir := .sink } }), by decide⟩,
    ⟨.a, 0, (live.onPp fun x => { x with learnA := some 0 }), by decide⟩,
    ⟨(((live.onPp fun x => { x with scan := none }).onPp fun x => { x with scanDue := false }).onFab fun f => { f with path := f.path.modify 2 fun x => { x with dir := .sink } }), by decide⟩,
    ⟨(live.onPp fun x => { x with scanDue := true }), by decide⟩,
    ⟨{}, ((live.onPp fun x => { x with scan := some ({}) }).onFab fun f => { f with path := f.path.modify 2 fun x => { x with dir := .sink } }), by decide⟩,
    ⟨((live.onPp fun x => { x with handover := true }).onPp fun x => { x with batSw := .full }), by decide⟩,
    ⟨((live.onSys fun x => { x with fwRun := true }).onPp fun x => { x with batPres := false }), by decide⟩,
    ⟨.a, (live.onFab fun f => { f with path := f.path.modify 0 fun x => { x with dir := .source } }), by decide⟩⟩

/-- The hypotheses of `ChargingCompletes` can be met. -/
theorem test_witness_ChargingCompletes :
    (∃ (c : Byte) (v : Byte) (single : Bool) (s : State), pairOk s .host 0x44 c single v)
    ∧ (∃ (s : State), s.sys.fwRun = true)
    ∧ (∃ (s : State), s.sys.fwRun = true ∧ s.canCharge = true ∧ s.chg.phase = .precharge ∧ preLimit ≤ s.chg.tPre + 2)
    ∧ (∃ (s : State), s.sys.fwRun = true ∧ s.canCharge = true ∧ s.chg.phase.charging = true ∧ s.fastLimit ≤ s.chg.tFast + (if s.chg.half then 1 else 2))
    ∧ (∃ (s : State), s.sys.fwRun = true ∧ s.canCharge = true ∧ s.chg.phase = .topoff ∧ topLimit ≤ s.chg.tTop + 2)
    ∧ (∃ (v : Nat) (s : State), s.sys.fwRun = true ∧ s.chg.phase = .suspended ∧ (s.chg.shown.toNat = Rsn.timerPrecharge ∨ s.chg.shown.toNat = Rsn.timerExpired ∨ s.chg.shown.toNat = Rsn.timerUnderLimit) ∧ s.chg.suspGts + 1800000000 ≤ s.now ∧ v = quo (s.volSum 160000).1 (s.volSum 160000).2 ∧ s.v10sLow = true)
    ∧ (∃ (z : Zone) (tmin : Int) (tmax : Int) (s : State), s.sys.fwRun = true ∧ s.chg.zoneUnknown = false ∧ s.chg.zone ≠ z ∧ s.chg.zoneNext = z ∧ s.chg.zoneTicks = 100 ∧ tmin = s.tMin ∧ tmax = s.tMax)
    ∧ (∃ (k : Fin 6) (s : State), s.sys.fwRun = true ∧ (s.reg 0x016D).getLsbD k.val = true ∧ (s.ms.ntc.getD k.val .opened = .opened ∨ s.ms.ntc.getD k.val .opened = .shorted))
    ∧ (∃ (k : Fin 10) (s : State), s.sys.fwRun = true ∧ k.val < s.grd.cells ∧ 10 * (s.eVchg + 100) < s.ms.cell.getD k.val 0 ∧ (s.flt.fence.getLsbD 16 && s.flt.recs.any fun r => r.sFenced && r.cause == Cause.cellOv && r.source == s.source (Src.cs (k.val + 1))) = false ∧ fresh s Cause.cellOv) :=
  ⟨⟨(~~~(0 : Byte)), 0, true, (live.onPort .host fun p => { p with pend := some { addr := 0x44, val := 0, since := 0 } }), ⟨rfl, rfl, rfl, 0, rfl, by decide⟩⟩,
    ⟨(((live.onSys fun x => { x with fwRun := true }).onFab fun f => { f with path := f.path.modify 0 fun x => { x with dir := .sink } }).onChg fun c => { c with phase := .shaped }), by decide⟩,
    ⟨(((((live.onSys fun x => { x with fwRun := true }).onChg fun x => { x with phase := .precharge }).onFab fun f => { f with path := f.path.modify 0 fun x => { x with dir := .sink } }).onPhase 0 fun x => { x with st := .active, port := some .pa }).onChg fun c => { c with tPre := 719998 }), by decide⟩,
    ⟨((((live.onSys fun x => { x with fwRun := true }).onFab fun f => { f with path := f.path.modify 0 fun x => { x with dir := .sink } }).onPhase 0 fun x => { x with st := .active, port := some .pa }).onChg fun c => { c with phase := .shaped, tFast := 1000000000 }), by decide⟩,
    ⟨(((((live.onSys fun x => { x with fwRun := true }).onChg fun x => { x with phase := .topoff }).onFab fun f => { f with path := f.path.modify 0 fun x => { x with dir := .sink } }).onPhase 0 fun x => { x with st := .active, port := some .pa }).onChg fun c => { c with tTop := 359998 }), by decide⟩,
    ⟨0, ((((live.onSys fun x => { x with fwRun := true }).onChg fun x => { x with phase := .suspended }).onChg fun c => { c with shown := BitVec.ofNat 8 Rsn.timerPrecharge }).onClk fun c => { c with gts := 1800000000 }), by decide⟩,
    ⟨.normal, 250, 250, (live.onChg fun x => { x with zone := .warm, zoneNext := .normal, zoneTicks := 100, zoneUnknown := false }), by decide⟩,
    ⟨0, ((live.onSys fun x => { x with fwRun := true }).onMs fun x => { x with ntc := [.opened] }), by decide⟩,
    ⟨0, ((live.onSys fun x => { x with fwRun := true }).onMs fun x => { x with cell := [65535] }), by decide, by decide, by decide, by decide, ⟨rfl, rfl⟩⟩⟩

/-- The hypotheses of `MeasurementCompletes` can be met. -/
theorem test_witness_MeasurementCompletes :
    (∃ (s : State), s.measOn = true)
    ∧ (∃ (s : State), s.sys.fwRun = true ∧ s.measOn = true ∧ s.ms.accN ≠ 0)
    ∧ (∃ (s : State), s.measOn = true ∧ s.ms.mirEn = true)
    ∧ (∃ (s : State), s.sys.fwRun = true)
    ∧ (∃ (s : State), s.sys.fwRun = true ∧ s.autoSwp = true ∧ s.chg.phase = .shaped ∧ s.sw.run = .none ∧ s.sw.stage ≠ .fitting ∧ s.sw.lastKind ≠ .none ∧ stampAt s.sw.lastStamp + 600000000 ≤ s.now)
    ∧ (∃ (r : SweepWait) (s : State), s.sys.fwRun = true ∧ (s.sw.retry.find? fun x => decide (x.since + 10000000 ≤ s.now)) = some r ∧ (s.onSw fun w => { w with retry := w.retry.filter fun x => x.trig != r.trig }).trigHolds r.trig = true)
    ∧ (∃ (y : SampleSet) (ys : List SampleSet) (s : State), s.sys.fwRun = true ∧ s.sw.run ≠ .none ∧ s.sw.stage = .baseline ∧ s.sw.win = y :: ys)
    ∧ (∃ (s : State), s.sys.fwRun = true ∧ s.sw.run ≠ .none ∧ s.sw.stage = .points ∧ winSets s.pointFreq ≤ s.sw.win.length ∧ s.sw.stopping = false ∧ s.sw.disturbed = false)
    ∧ (∃ (s : State), s.sys.fwRun = true ∧ s.sw.stage = .fitting)
    ∧ (∃ (k : Fin 16) (s : State), s.sys.fwRun = true ∧ s.sw.run ≠ .none ∧ s.sweepFault k.val = true)
    ∧ (∃ (s : State), s.sys.fwRun = true ∧ s.pp.batPres = true ∧ s.profSet = true)
    ∧ (∃ (s : State), s.sys.fwRun = true ∧ s.sw.seeded = true ∧ s.chg.phase.charging = true)
    ∧ (∃ (k : Fin 10) (a : Nat) (s : State), s.sys.fwRun = true ∧ s.sw.seeded = true ∧ s.sw.offAt.getD k.val none = some a ∧ a + 60000000 ≤ s.now) :=
  ⟨⟨live, by decide⟩,
    ⟨((live.onSys fun x => { x with fwRun := true }).onMs fun x => { x with accN := 160 }), by decide⟩,
    ⟨(live.onMs fun x => { x with mirEn := true }), by decide⟩,
    ⟨(live.onSys fun x => { x with fwRun := true }), by decide⟩,
    ⟨(((((live.onSys fun x => { x with fwRun := true }).onChg fun x => { x with phase := .shaped }).onSw fun x => { x with run := .none }).onSw fun w => { w with lastKind := .quick }).onClk fun c => { c with gts := 600000000 }), by decide⟩,
    ⟨{ trig := .start }, (((((live.onSys fun x => { x with fwRun := true }).onSw fun w => { w with retry := [{ trig := .start }] }).onChg fun c => { c with phase := .shaped }).onClk fun c => { c with gts := 10000000 }).onBus fun x => { x with page := memPut regDefault x.page 0x0180 (memGet regDefault x.page 0x0180 ||| 0x07) }), by decide⟩,
    ⟨{}, [], ((((live.onSys fun x => { x with fwRun := true }).onSw fun x => { x with stage := .baseline }).onSw fun x => { x with win := ({}) :: ([]) }).onSw fun w => { w with run := .full, win := [{}] }), by decide⟩,
    ⟨(((((live.onSys fun x => { x with fwRun := true }).onSw fun x => { x with stage := .points }).onSw fun x => { x with stopping := false }).onSw fun x => { x with disturbed := false }).onSw fun w => { w with run := .full, freqs := [1000000], win := List.replicate 800 {} }), rfl, by decide, rfl, by show _ ≤ (List.replicate 800 _).length; rw [List.length_replicate]; decide, rfl, rfl⟩,
    ⟨((live.onSys fun x => { x with fwRun := true }).onSw fun x => { x with stage := .fitting }), by decide⟩,
    ⟨5, ((live.onSys fun x => { x with fwRun := true }).onSw fun w => { w with run := .full }), by decide⟩,
    ⟨((live.onSys fun x => { x with fwRun := true }).onPp fun x => { x with batPres := true }), by decide⟩,
    ⟨(((live.onSys fun x => { x with fwRun := true }).onSw fun x => { x with seeded := true }).onChg fun c => { c with phase := .shaped }), by decide⟩,
    ⟨0, 0, ((((live.onSys fun x => { x with fwRun := true }).onSw fun x => { x with seeded := true }).onSw fun w => { w with offAt := [some 0] }).onClk fun c => { c with gts := 60000000 }), by decide⟩⟩

/-- The hypotheses of `AttachCompletes` can be met. -/
theorem test_witness_AttachCompletes :
    (∃ (t : TcId) (s : State), (s.tc t).tcs = .unattached ∧ (s.tc t).discharging = false ∧ s.portFenced (tcPort t) = false ∧ s.sys.mode ≠ .unpowered ∧ s.sys.mode ≠ .ship)
    ∧ (∃ (t : TcId) (s : State), s.tcLive t = true ∧ (s.tc t).tcs = .attachWait ∧ (s.tc t).asSrc = false)
    ∧ (∃ (d : DetachIn) (s : State), (d.vbus = false ∨ (s.tc d.port).vbusDetach = true) ∧ (s.tc d.port).tcs = .attachWait)
    ∧ (∃ (d : DetachIn) (s : State), (d.vbus = false ∨ (s.tc d.port).vbusDetach = true) ∧ (s.tc d.port).tcs = .attachedSnk ∧ s.sys.limpSrc = none)
    ∧ (∃ (t : TcId) (s : State), (s.tc t).discharging = true ∧ (s.tc t).swap = .none ∧ (s.tc t).hrst = false)
    ∧ (∃ (t : TcId) (s : State), s.tcLive t = true ∧ (s.tc t).tcs = .attachedSnk ∧ (s.tc t).src = false ∧ (s.tc t).hrst = true)
    ∧ (∃ (s : State), s.sys.limpSrc = none)
    ∧ (∃ (t : TcId) (s : State), s.tcLive t = true ∧ (s.tc t).vconn = true ∧ fresh s Cause.vconnOc) :=
  ⟨⟨.a, ((live.onTc .a fun x => { x with tcs := .unattached }).onTc .a fun x => { x with discharging := false }), by decide⟩,
    ⟨.a, ((live.onTc .a fun x => { x with tcs := .attachWait }).onTc .a fun x => { x with asSrc := false }), by decide⟩,
    ⟨{}, (live.onTc .a fun x => { x with tcs := .attachWait }), by decide⟩,
    ⟨{}, ((live.onSys fun x => { x with limpSrc := none }).onTc .a fun x => { x with tcs := .attachedSnk }), by decide⟩,
    ⟨.a, (((live.onTc .a fun x => { x with discharging := true }).onTc .a fun x => { x with swap := .none }).onTc .a fun x => { x with hrst := false }), by decide⟩,
    ⟨.a, (((live.onTc .a fun x => { x with tcs := .attachedSnk }).onTc .a fun x => { x with src := false }).onTc .a fun x => { x with hrst := true }), by decide⟩,
    ⟨(live.onSys fun x => { x with limpSrc := none }), by decide⟩,
    ⟨.a, (live.onTc .a fun x => { x with vconn := true }), by decide, by decide, ⟨rfl, rfl⟩⟩⟩

/-- The hypotheses of `SinkPdCompletes` can be met. -/
theorem test_witness_SinkPdCompletes :
    (∃ (t : TcId) (s : State), s.tcLive t = true ∧ (s.tc t).tcs = .attachedSnk ∧ (s.tc t).src = false)
    ∧ (∃ (t : TcId) (o : Offer) (s : State), s.tcLive t = true ∧ (s.tc t).swap = .none ∧ (s.tc t).drWait = false ∧ (s.tc t).vcWait = false ∧ (s.tc t).req = some o)
    ∧ (∃ (t : TcId) (o : Offer) (s : State), s.tcLive t = true ∧ (s.tc t).swap = .none ∧ (s.tc t).trans = some o)
    ∧ (∃ (t : TcId) (s : State), s.tcLive t = true ∧ sentNow (s.tc t) = .request ∧ (s.tc t).retries < 5)
    ∧ (∃ (t : TcId) (o : Offer) (s : State), s.tcLive t = true ∧ (s.tc t).waitDue = true ∧ sentNow (s.tc t) = .request ∧ (s.tc t).req = some o)
    ∧ (∃ (t : TcId) (s : State), s.tcLive t = true ∧ sentNow (s.tc t) = .request)
    ∧ (∃ (t : TcId) (r : Offer) (s : State), s.tcLive t = true ∧ (s.tc t).refused = some r ∧ (s.tc t).reWait = true ∧ (s.tc t).req = none ∧ (s.tc t).trans = none)
    ∧ (∃ (t : TcId) (o : Offer) (s : State), s.tcLive t = true ∧ (s.tc t).contract = some o ∧ o.kind = 2 ∧ (s.tc t).src = false ∧ (s.tc t).req = none ∧ (s.tc t).trans = none)
    ∧ (∃ (t : TcId) (s : State), s.tcLive t = true ∧ (s.tc t).eprWait = true)
    ∧ (∃ (t : TcId) (s : State), s.tcLive t = true ∧ (s.tc t).epr = true ∧ (s.tc t).src = false)
    ∧ (∃ (t : TcId) (s : State), s.tcLive t = true ∧ (s.tc t).tcs = .attachedSnk ∧ (s.tc t).src = false ∧ (s.tc t).contract = none ∧ (s.tc t).offers = [] ∧ (s.tc t).nonPd = false ∧ (s.tc t).hrst = false ∧ (s.tc t).hrTries < 2) :=
  ⟨⟨.a, ((live.onTc .a fun x => { x with tcs := .attachedSnk }).onTc .a fun x => { x with src := false }), by decide⟩,
    ⟨.a, {}, ((((live.onTc .a fun x => { x with swap := .none }).onTc .a fun x => { x with drWait := false }).onTc .a fun x => { x with vcWait := false }).onTc .a fun x => { x with req := some ({}) }), by decide⟩,
    ⟨.a, {}, ((live.onTc .a fun x => { x with swap := .none }).onTc .a fun x => { x with trans := some ({}) }), by decide⟩,
    ⟨.a, (live.onTc .a fun x => { x with req := some {} }), by decide⟩,
    ⟨.a, {}, ((live.onTc .a fun x => { x with waitDue := true }).onTc .a fun x => { x with req := some ({}) }), by decide⟩,
    ⟨.a, (live.onTc .a fun x => { x with req := some {} }), by decide⟩,
    ⟨.a, {}, ((((live.onTc .a fun x => { x with refused := some ({}) }).onTc .a fun x => { x with reWait := true }).onTc .a fun x => { x with req := none }).onTc .a fun x => { x with trans := none }), by decide⟩,
    ⟨.a, { kind := 2 }, ((((live.onTc .a fun x => { x with contract := some ({ kind := 2 }) }).onTc .a fun x => { x with src := false }).onTc .a fun x => { x with req := none }).onTc .a fun x => { x with trans := none }), by decide⟩,
    ⟨.a, (live.onTc .a fun x => { x with eprWait := true }), by decide⟩,
    ⟨.a, ((live.onTc .a fun x => { x with epr := true }).onTc .a fun x => { x with src := false }), by decide⟩,
    ⟨.a, ((((((live.onTc .a fun x => { x with tcs := .attachedSnk }).onTc .a fun x => { x with src := false }).onTc .a fun x => { x with contract := none }).onTc .a fun x => { x with offers := [] }).onTc .a fun x => { x with nonPd := false }).onTc .a fun x => { x with hrst := false }), by decide⟩⟩

/-- The hypotheses of `SourcePdCompletes` can be met. -/
theorem test_witness_SourcePdCompletes :
    (∃ (t : TcId) (s : State), s.tcLive t = true ∧ (s.tc t).cableTry ≠ 0)
    ∧ (∃ (t : TcId) (s : State), s.tcLive t = true ∧ (s.txClear t).ownCaps t ≠ (s.tc t).srcOffered ∧ (s.tc t).srcOffered ≠ [] ∧ ((s.tc t).capsAt.any fun a => decide (s.now < a + 1000000)) = false)
    ∧ (∃ (t : TcId) (pos : Nat) (mv : Nat) (ma : Nat) (o : Offer) (s : State), s.tcLive t = true ∧ (s.tc t).src = true ∧ (s.txClear t).sourcing (tcPort t) = true ∧ (s.txClear t).askedFor t pos mv ma = some o)
    ∧ (∃ (t : TcId) (s : State), s.tcLive t = true ∧ s.attached t = true)
    ∧ (∃ (t : TcId) (s : State), s.tcLive t = true ∧ s.attached t = true ∧ (s.tc t).contract.isSome = true ∧ (s.tc t).swap = .none ∧ (s.txClear t).roleBit t 5 = true ∧ (s.tc t).src = true)
    ∧ (∃ (t : TcId) (s : State), s.tcLive t = true ∧ s.attached t = true ∧ (s.tc t).vconnSrc = false ∧ (s.tc t).src = true)
    ∧ (∃ (t : TcId) (s : State), s.tcLive t = true ∧ s.attached t = true ∧ (s.tc t).vconnSrc = false ∧ (s.tc t).src = false)
    ∧ (∃ (t : TcId) (s : State), s.tcLive t = true ∧ s.attached t = true ∧ (s.tc t).vconnSrc = true ∧ (s.tc t).src = false ∧ (s.tc t).epr = false)
    ∧ (∃ (t : TcId) (s : State), s.tcLive t = true ∧ (s.tc t).hrst = true ∧ (s.tc t).src = true ∧ (s.tc t).discharging = false ∧ s.flt.hold = false ∧ (s.txClear t).tcSourceOk t = false)
    ∧ (∃ (t : TcId) (s : State), s.tcLive t = true ∧ (s.tc t).hrst = true ∧ (s.tc t).src = true ∧ (s.tc t).discharging = false ∧ s.flt.hold = false ∧ (s.txClear t).tcSourceOk t = true)
    ∧ (∃ (t : TcId) (s : State), s.tcLive t = true ∧ (s.tc t).swap = .prSent ∧ (s.tc t).swapEnd = true)
    ∧ (∃ (t : TcId) (s : State), s.tcLive t = true ∧ (s.tc t).authBusy = true)
    ∧ (∃ (t : TcId) (s : State), s.tcLive t = true ∧ s.attached t = true ∧ ((s.tc t).contract = none ∨ (s.tc t).swap ≠ .none ∨ (s.txClear t).roleBit t 5 = false ∨ ((s.tc t).src = false ∧ (s.txClear t).tcSourceOk t = false)))
    ∧ (∃ (t : TcId) (s : State), s.tcLive t = true ∧ s.attached t = true ∧ (s.tc t).vconnSrc = true ∧ (s.tc t).epr = true)
    ∧ (∃ (t : TcId) (o : Offer) (s : State), s.tcLive t = true ∧ s.attached t = true ∧ (s.tc t).vconnSrc = true ∧ (s.tc t).src = true ∧ (s.tc t).contract = some o ∧ 3000 < o.curr)
    ∧ (∃ (t : TcId) (o : Offer) (s : State), s.tcLive t = true ∧ s.attached t = true ∧ (s.tc t).vconnSrc = true ∧ (s.tc t).src = true ∧ (s.tc t).epr = false ∧ (s.tc t).contract = some o ∧ o.curr ≤ 3000) :=
  ⟨⟨.a, (live.onTc .a fun x => { x with cableTry := 1 }), by decide⟩,
    ⟨.a, (live.onTc .a fun x => { x with srcOffered := [{}, {}] }), by decide⟩,
    ⟨.a, 1, 0, 1500, { pos := 1, kind := 1, volt := 5000, curr := 1500, power := 7500 }, (((live.onTc .a fun x => { x with src := true }).onFab fun f => { f with path := f.path.modify 0 fun x => { x with dir := .source } }).onTc .a fun x => { x with srcOffered := [{ pos := 1, vmin := 5000, vmax := 5000, imax := 3000 }] }), by decide⟩,
    ⟨.a, (live.onTc .a fun x => { x with tcs := .attachedSnk }), by decide⟩,
    ⟨.a, ((((live.onTc .a fun x => { x with swap := .none }).onTc .a fun x => { x with src := true }).onTc .a fun x => { x with tcs := .attachedSnk }).onTc .a fun x => { x with contract := some {} }), by decide⟩,
    ⟨.a, (((live.onTc .a fun x => { x with vconnSrc := false }).onTc .a fun x => { x with src := true }).onTc .a fun x => { x with tcs := .attachedSnk }), by decide⟩,
    ⟨.a, (((live.onTc .a fun x => { x with vconnSrc := false }).onTc .a fun x => { x with src := false }).onTc .a fun x => { x with tcs := .attachedSnk }), by decide⟩,
    ⟨.a, ((((live.onTc .a fun x => { x with vconnSrc := true }).onTc .a fun x => { x with src := false }).onTc .a fun x => { x with epr := false }).onTc .a fun x => { x with tcs := .attachedSnk }), by decide⟩,
    ⟨.a, ((((live.onTc .a fun x => { x with hrst := true }).onTc .a fun x => { x with src := true }).onTc .a fun x => { x with discharging := false }).onFlt fun x => { x with hold := false }), by decide⟩,
    ⟨.a, ((((((live.onTc .a fun x => { x with hrst := true }).onTc .a fun x => { x with src := true }).onTc .a fun x => { x with discharging := false }).onFlt fun x => { x with hold := false }).onFab fun f => { f with path := (f.path.modify 1 fun x => { x with dir := .sink }) }).onBus fun x => { x with page := memPut regDefault x.page 0x01A0 2 }), by decide⟩,
    ⟨.a, ((live.onTc .a fun x => { x with swap := .prSent }).onTc .a fun x => { x with swapEnd := true }), by decide⟩,
    ⟨.a, (live.onTc .a fun x => { x with authBusy := true }), by decide⟩,
    ⟨.a, ((live.onTc .a fun x => { x with contract := none }).onTc .a fun x => { x with tcs := .attachedSrc }), by decide⟩,
    ⟨.a, (((live.onTc .a fun x => { x with vconnSrc := true }).onTc .a fun x => { x with epr := true }).onTc .a fun x => { x with tcs := .attachedSrc }), by decide⟩,
    ⟨.a, { curr := 3001 }, ((((live.onTc .a fun x => { x with vconnSrc := true }).onTc .a fun x => { x with src := true }).onTc .a fun x => { x with contract := some ({ curr := 3001 }) }).onTc .a fun x => { x with tcs := .attachedSrc }), by decide⟩,
    ⟨.a, { curr := 3000 }, (((((live.onTc .a fun x => { x with vconnSrc := true }).onTc .a fun x => { x with src := true }).onTc .a fun x => { x with epr := false }).onTc .a fun x => { x with contract := some ({ curr := 3000 }) }).onTc .a fun x => { x with tcs := .attachedSrc }), by decide⟩⟩

/-- The hypotheses of `PdAnswersComplete` can be met. -/
theorem test_witness_PdAnswersComplete :
    (∃ (t : TcId) (s : State), s.tcLive t = true ∧ s.attached t = true ∧ (s.tc t).src = true)
    ∧ (∃ (t : TcId) (s : State), s.tcLive t = true ∧ s.attached t = true)
    ∧ (∃ (t : TcId) (s : State), s.tcLive t = true ∧ s.attached t = true ∧ (s.tc t).src = false)
    ∧ (∃ (t : TcId) (mv : Nat) (s : State), s.tcLive t = true ∧ s.attached t = true ∧ 4750 ≤ mv ∧ mv ≤ 5500) :=
  ⟨⟨.a, ((live.onTc .a fun x => { x with src := true }).onTc .a fun x => { x with tcs := .attachedSnk }), by decide⟩,
    ⟨.a, (live.onTc .a fun x => { x with tcs := .attachedSnk }), by decide⟩,
    ⟨.a, ((live.onTc .a fun x => { x with src := false }).onTc .a fun x => { x with tcs := .attachedSnk }), by decide⟩,
    ⟨.a, 4750, (live.onTc .a fun x => { x with tcs := .attachedSnk }), by decide⟩⟩

/-- The hypotheses of `SequencerCompletes` can be met. -/
theorem test_witness_SequencerCompletes :
    (∃ (r : Nat) (s : State), s.seq.st = .up ∧ s.seq.waitOn = true ∧ s.stepRail = some r ∧ s.seq.fenced.getLsbD r = false ∧ (s.seq.good.getLsbD r = false ∨ (r = 2 ∧ s.seq.aux2Moving = true) ∨ slotPgIgn s.seq.cur = true))
    ∧ (∃ (r : Nat) (s : State), s.seq.st = .up ∧ s.seq.waitOn = true ∧ s.stepRail = some r ∧ s.seq.fenced.getLsbD r = false ∧ s.seq.good.getLsbD r = true ∧ (r = 2 → s.seq.aux2Moving = false) ∧ slotPgIgn s.seq.cur = false)
    ∧ (∃ (r : Fin 8) (s : State), s.seq.on.getLsbD r.val = true ∧ r.val ≠ 2 ∧ s.seq.st = .up ∧ s.seq.waitGood = true ∧ s.slotIs r.val = true ∧ slotPgIgn s.seq.cur = false)
    ∧ (∃ (s : State), s.seq.st = .up ∧ s.seq.waitGood = true ∧ slotPgIgn s.seq.cur = true)
    ∧ (∃ (s : State), s.seq.st = .up ∧ s.seq.waitGood = true ∧ slotPgIgn s.seq.cur = false ∧ fresh s Cause.upTimeout)
    ∧ (∃ (s : State), s.seq.rsn = 5 ∧ s.seq.st = .off ∧ s.regBit 0x01E0 1 = true ∧ s.anySink = true)
    ∧ (∃ (r : Fin 8) (s : State), s.seq.on.getLsbD r.val = true ∧ s.seq.running.getLsbD r.val = true ∧ r.val ≠ 2 ∧ s.pgIgnored r.val = false)
    ∧ (∃ (s : State), s.seq.tpfwRun = true ∧ s.seq.st = .warning)
    ∧ (∃ (r : Fin 8) (s : State), r.val < 4 ∧ s.seq.on.getLsbD r.val = false ∧ s.seq.st = .down ∧ s.seq.waitFall = true ∧ s.slotIs r.val = true)
    ∧ (∃ (r : Nat) (s : State), s.seq.st = .down ∧ s.seq.waitFall = true ∧ s.stepRail = some r ∧ s.seq.outHigh.getLsbD r = false)
    ∧ (∃ (s : State), s.seq.st = .down ∧ s.seq.waitOff = true)
    ∧ (∃ (s : State), s.seq.aux2Moving = true)
    ∧ (∃ (s : State), s.seq.nrstDue = true)
    ∧ (∃ (n : Fin 4) (s : State), ready s n 0x0601 1 ∧ s.fld n.val 0 1 ≤ 1)
    ∧ (∃ (n : Fin 4) (s : State), ready s n 0x0602 0)
    ∧ (∃ (n : Fin 4) (s : State), ready s n 0x0603 0)
    ∧ (∃ (n : Fin 4) (s : State), ready s n 0x0604 5 ∧ 1 ≤ s.fld n.val 4 1 ∧ s.fld n.val 4 1 ≤ 3) :=
  ⟨⟨0, (((((live.onSeq fun x => { x with st := .up }).onSeq fun x => { x with waitOn := true }).onSeq fun x => { x with fenced := setBit x.fenced ((0)) false }).onSeq fun x => { x with good := setBit x.good ((0)) false }).onSeq fun q => { q with cur := { cfg := 1 } }), by decide⟩,
    ⟨0, (((((live.onSeq fun x => { x with st := .up }).onSeq fun x => { x with waitOn := true }).onSeq fun x => { x with fenced := setBit x.fenced ((0)) false }).onSeq fun x => { x with good := setBit x.good ((0)) true }).onSeq fun q => { q with cur := { cfg := 1 } }), by decide⟩,
    ⟨0, ((((live.onSeq fun x => { x with on := setBit x.on 0 true }).onSeq fun x => { x with st := .up }).onSeq fun x => { x with waitGood := true }).onSeq fun q => { q with cur := { cfg := 1 } }), by decide⟩,
    ⟨(((live.onSeq fun x => { x with st := .up }).onSeq fun x => { x with waitGood := true }).onSeq fun q => { q with cur := { cfg := 0x25 } }), by decide⟩,
    ⟨((live.onSeq fun x => { x with st := .up }).onSeq fun x => { x with waitGood := true }), by decide, by decide, by decide, ⟨rfl, rfl⟩⟩,
    ⟨((((live.onSeq fun x => { x with rsn := 5 }).onSeq fun x => { x with st := .off }).onBus fun x => { x with page := memPut regDefault x.page 0x01E0 (setBit (memGet regDefault x.page 0x01E0) 1 true) }).onFab fun f => { f with path := f.path.modify 0 fun x => { x with dir := .sink } }), by decide⟩,
    ⟨0, ((live.onSeq fun x => { x with on := setBit x.on 0 true }).onSeq fun x => { x with running := setBit x.running 0 true }), by decide⟩,
    ⟨((live.onSeq fun x => { x with tpfwRun := true }).onSeq fun x => { x with st := .warning }), by decide⟩,
    ⟨0, ((((live.onSeq fun x => { x with on := setBit x.on 0 false }).onSeq fun x => { x with st := .down }).onSeq fun x => { x with waitFall := true }).onSeq fun q => { q with cur := { cfg := 1 } }), by decide⟩,
    ⟨0, ((((live.onSeq fun x => { x with st := .down }).onSeq fun x => { x with waitFall := true }).onSeq fun x => { x with outHigh := setBit x.outHigh ((0)) false }).onSeq fun q => { q with cur := { cfg := 1 } }), by decide⟩,
    ⟨((live.onSeq fun x => { x with st := .down }).onSeq fun x => { x with waitOff := true }), by decide⟩,
    ⟨(live.onSeq fun x => { x with aux2Moving := true }), by decide⟩,
    ⟨(live.onSeq fun x => { x with nrstDue := true }), by decide⟩,
    ⟨0, (live.frameIn 0x0601 1 []), ⟨by decide, by decide⟩, by decide⟩,
    ⟨0, (live.frameIn 0x0602 0 []), ⟨by decide, by decide⟩⟩,
    ⟨0, (live.frameIn 0x0603 0 []), ⟨by decide, by decide⟩⟩,
    ⟨0, (live.frameIn 0x0604 5 [0, 0, 0, 0, 1]), ⟨by decide, by decide⟩, by decide, by decide⟩⟩

/-- The hypotheses of `CheckersComplete` can be met. -/
theorem test_witness_CheckersComplete :
    (∃ (q : Fin 2) (s : State), s.quadOn q.val = true)
    ∧ (∃ (q : Fin 2) (s : State), s.quadOn q.val = true ∧ fresh s Cause.quadSensor)
    ∧ (∃ (p : PortId) (s : State), s.portFenced p = false ∧ fresh s Cause.sampleFault)
    ∧ (∃ (t : TcId) (s : State), s.portFenced (tcPort t) = false ∧ fresh s Cause.vbusSwitch)
    ∧ (∃ (p : PortId) (mv : Nat) (s : State), s.portOver p mv = true)
    ∧ (∃ (ma : Nat) (s : State), 500 < ma)
    ∧ (∃ (ma : Nat) (s : State), 60000 < ma)
    ∧ (∃ (s : State), s.cpuOn = true ∧ fresh s Cause.lockstep)
    ∧ (∃ (s : State), s.cpuOn = true ∧ fresh s Cause.nvmEcc)
    ∧ (∃ (s : State), s.cpuOn = true ∧ fresh s Cause.sramEcc1)
    ∧ (∃ (s : State), s.cpuOn = true ∧ fresh s Cause.sramEcc2)
    ∧ (∃ (s : State), fresh s Cause.retParity) :=
  ⟨⟨0, live, by decide⟩,
    ⟨0, live, by decide, ⟨rfl, rfl⟩⟩,
    ⟨.pa, live, by decide, ⟨rfl, rfl⟩⟩,
    ⟨.a, live, by decide, ⟨rfl, rfl⟩⟩,
    ⟨.pa, 56000, live, by decide⟩,
    ⟨501, live, by decide⟩,
    ⟨60001, live, by decide⟩,
    ⟨live, by decide, ⟨rfl, rfl⟩⟩,
    ⟨live, by decide, ⟨rfl, rfl⟩⟩,
    ⟨live, by decide, ⟨rfl, rfl⟩⟩,
    ⟨live, by decide, ⟨rfl, rfl⟩⟩,
    ⟨live, ⟨rfl, rfl⟩⟩⟩

/-- The hypotheses of `FaultCommandsComplete` can be met. -/
theorem test_witness_FaultCommandsComplete :
    (∃ (source : BitVec 16) (cause : BitVec 16) (p : PendFail) (s : State), (s.flt.pend.find? fun y => y.source == source && y.cause == cause) = some p)
    ∧ (∃ (failing : List (Nat × Nat)) (s : State), s.flt.hold = true ∧ s.sys.fwRun = true ∧ s.autoOk = true ∧ s.flt.quietAt + 1000 * s.flt.quietLen ≤ s.now ∧ s.causesPass failing = true)
    ∧ (∃ (bp : BusPort) (c : Byte) (v : Byte) (single : Bool) (s : State), pairOk s bp 0x4E c single v ∧ v.getLsbD 0 = true)
    ∧ (∃ (s : State), s.cpuOn = true ∧ s.flt.fec = none)
    ∧ (∃ (c : Byte) (v : Byte) (single : Bool) (s : State), pairOk s .host 0x4C c single v)
    ∧ (∃ (s : State), s.sys.fwRun = true ∧ s.grd.injArm = true ∧ s.grd.injRemain ≠ 0 ∧ s.grd.injTarget ≤ 4)
    ∧ (∃ (n : Fin 4) (s : State), ready s n 0x0701 0)
    ∧ (∃ (n : Fin 4) (s : State), ready s n 0x0702 2 ∧ s.fld n.val 0 1 ≤ 23 ∧ 1 ≤ s.fld n.val 1 1 ∧ s.fld n.val 1 1 ≤ 7)
    ∧ (∃ (n : Fin 4) (s : State), ready s n 0x0703 2 ∧ s.fld n.val 0 1 < s.lfList.length ∧ s.fld n.val 1 1 ≤ 1)
    ∧ (∃ (n : Fin 4) (s : State), ready s n 0x0704 2 ∧ s.fld n.val 0 2 = inv16 0x0704 ∧ s.flt.hold = false)
    ∧ (∃ (n : Fin 4) (failing : List (Nat × Nat)) (s : State), ready s n 0x0705 0 ∧ s.sys.mode = .hold ∧ (begun s n).causesPass failing = true ∧ s.grd.fuseLive.getLsbD 2 = false)
    ∧ (∃ (n : Fin 4) (s : State), ready s n 0x0706 3 ∧ s.fld n.val 1 2 = inv16 0x0706 ∧ s.fld n.val 0 1 ≤ 25)
    ∧ (∃ (n : Fin 4) (s : State), ready s n 0x0706 3 ∧ s.fld n.val 1 2 = inv16 0x0706 ∧ s.fld n.val 0 1 = 0xFF)
    ∧ (∃ (n : Fin 4) (s : State), ready s n 0x0707 1 ∧ s.fld n.val 0 1 ≤ 7)
    ∧ (∃ (n : Fin 4) (f : FecRec) (s : State), ready s n 0x0708 1 ∧ s.fld n.val 0 1 = 1 ∧ s.flt.fec = some f) :=
  ⟨⟨0, 0, {}, (live.onFlt fun f => { f with pend := [{}] }), by decide⟩,
    ⟨[], (((live.onFlt fun x => { x with hold := true }).onSys fun x => { x with fwRun := true }).onClk fun c => { c with gts := 600000000 }), by decide⟩,
    ⟨.host, (~~~(1 : Byte)), 1, true, (live.onPort .host fun p => { p with pend := some { addr := 0x4E, val := 1, since := 0 } }), ⟨rfl, rfl, rfl, 0, rfl, by decide⟩, by decide⟩,
    ⟨(live.onFlt fun x => { x with fec := none }), by decide⟩,
    ⟨(~~~(0 : Byte)), 0, true, (live.onPort .host fun p => { p with pend := some { addr := 0x4C, val := 0, since := 0 } }), ⟨rfl, rfl, rfl, 0, rfl, by decide⟩⟩,
    ⟨(((live.onSys fun x => { x with fwRun := true }).onGrd fun x => { x with injArm := true }).onGrd fun g => { g with injRemain := 1 }), by decide⟩,
    ⟨0, (live.frameIn 0x0701 0 []), ⟨by decide, by decide⟩⟩,
    ⟨0, (live.frameIn 0x0702 2 [0, 1]), ⟨by decide, by decide⟩, by decide, by decide, by decide⟩,
    ⟨0, ((live.frameIn 0x0703 2 []).onNvm fun m => { m with lfRing := [{ bytes := [0x46, 0x4C, 1, 98, 18, 68, 205] }] }), ⟨by decide, by decide⟩, by decide +kernel, by decide⟩,
    ⟨0, ((live.frameIn 0x0704 2 [251, 248]).onFlt fun x => { x with hold := false }), ⟨by decide, by decide⟩, by decide, by decide⟩,
    ⟨0, [], (((live.frameIn 0x0705 0 []).onSys fun x => { x with mode := .hold }).onGrd fun x => { x with fuseLive := setBit x.fuseLive (2) false }), ⟨by decide, by decide⟩, by decide, by decide, by decide⟩,
    ⟨0, (live.frameIn 0x0706 3 [0, 249, 248]), ⟨by decide, by decide⟩, by decide, by decide⟩,
    ⟨0, (live.frameIn 0x0706 3 [255, 249, 248]), ⟨by decide, by decide⟩, by decide, by decide⟩,
    ⟨0, (live.frameIn 0x0707 1 []), ⟨by decide, by decide⟩, by decide⟩,
    ⟨0, {}, ((live.frameIn 0x0708 1 [1]).onFlt fun x => { x with fec := some ({}) }), ⟨by decide, by decide⟩, by decide, by decide⟩⟩

/-- The hypotheses of `WatchdogCompletes` can be met. -/
theorem test_witness_WatchdogCompletes :
    (∃ (s : State), s.wd.run = .boot ∧ s.sys.halted = false)
    ∧ (∃ (k : FwTask) (s : State), s.wd.run = .normal ∧ s.sys.fwRun = true ∧ (s.qs.inbox.getD (taskIdx k) []).contains .heartbeat = true ∧ s.wd.called.getLsbD (taskIdx k) = false ∧ s.wd.tick < s.wdgOpenAt)
    ∧ (∃ (s : State), s.wd.run = .normal ∧ s.sys.halted = false)
    ∧ (∃ (mask : BitVec 6) (s : State), s.wd.run = .normal ∧ mask ≠ 0 ∧ s.sys.halted = false ∧ s.wdgOpenAt ≤ s.wd.tick ∧ s.wd.tick < 1000 * s.wd.per ∧ s.wd.landed ||| mask ≠ 0x3F)
    ∧ (∃ (c : Byte) (v : Byte) (single : Bool) (s : State), pairOk s .host 0x50 c single v)
    ∧ (∃ (c : Byte) (v : Byte) (single : Bool) (s : State), pairOk s .host 0x51 c single v ∧ 5 ≤ v.toNat % 128 ∧ v.toNat % 128 ≤ 100)
    ∧ (∃ (bp : BusPort) (s : State), s.busUp bp = true)
    ∧ (∃ (s : State), s.sys.fwRun = true ∧ s.wd.hRun = true ∧ s.wd.hExp = false ∧ s.wd.hDead ≤ s.now)
    ∧ (∃ (s : State), s.grd.fuse.getLsbD 4 = false)
    ∧ (∃ (n : Fin 4) (s : State), ready s n 0x0A01 0)
    ∧ (∃ (n : Fin 4) (s : State), ready s n 0x0A02 0)
    ∧ (∃ (n : Fin 4) (s : State), ready s n 0x0A03 1 ∧ s.fld n.val 0 1 ≤ 3) :=
  ⟨⟨((live.onWd fun x => { x with run := .boot }).onSys fun x => { x with halted := false }), by decide⟩,
    ⟨.cowslip, ((((live.onWd fun x => { x with run := .normal }).onSys fun x => { x with fwRun := true }).onWd fun x => { x with called := setBit x.called (taskIdx (.cowslip)) false }).onQs fun q => { q with inbox := [[.heartbeat],[.heartbeat],[.heartbeat],[.heartbeat],[.heartbeat],[.heartbeat]] }), by decide⟩,
    ⟨((live.onWd fun x => { x with run := .normal }).onSys fun x => { x with halted := false }), by decide⟩,
    ⟨1, (((live.onWd fun x => { x with run := .normal }).onSys fun x => { x with halted := false }).onWd fun w => { w with tick := 5000 }), by decide⟩,
    ⟨(~~~(0 : Byte)), 0, true, (live.onPort .host fun p => { p with pend := some { addr := 0x50, val := 0, since := 0 } }), ⟨rfl, rfl, rfl, 0, rfl, by decide⟩⟩,
    ⟨(~~~(5 : Byte)), 5, true, (live.onPort .host fun p => { p with pend := some { addr := 0x51, val := 5, since := 0 } }), ⟨rfl, rfl, rfl, 0, rfl, by decide⟩, by decide, by decide⟩,
    ⟨.host, live, by decide⟩,
    ⟨(((live.onSys fun x => { x with fwRun := true }).onWd fun x => { x with hRun := true }).onWd fun x => { x with hExp := false }), by decide⟩,
    ⟨(live.onGrd fun x => { x with fuse := setBit x.fuse (4) false }), by decide⟩,
    ⟨0, (live.frameIn 0x0A01 0 []), ⟨by decide, by decide⟩⟩,
    ⟨0, (live.frameIn 0x0A02 0 []), ⟨by decide, by decide⟩⟩,
    ⟨0, (live.frameIn 0x0A03 1 []), ⟨by decide, by decide⟩, by decide⟩⟩

/-- The hypotheses of `BusCompletes` can be met. -/
theorem test_witness_BusCompletes :
    (∃ (s : State), s.bus.recog = true ∧ s.sys.dom.getLsbD 13 = false)
    ∧ (∃ (bp : BusPort) (s : State), s.busUp bp = true)
    ∧ (∃ (bp : BusPort) (s : State), s.busUp bp = true ∧ 0x0100 ≤ (s.port bp).ptr ∧ (s.port bp).ptr < 0x0400 ∧ s.sys.fwRun = true)
    ∧ (∃ (bp : BusPort) (l : Nat) (s : State), s.busUp bp = true ∧ s.sys.fwRun = true ∧ (s.port bp).stretch = some l)
    ∧ (∃ (bp : BusPort) (s : State), s.busUp bp = true ∧ (s.port bp).stretch.isSome = true)
    ∧ (∃ (bp : BusPort) (s : State), s.busUp bp = true ∧ (s.port bp).ptr = 0x0026)
    ∧ (∃ (bp : BusPort) (k : Nat) (s : State), s.busUp bp = true ∧ s.ms.mirAt = some k)
    ∧ (∃ (s : State), s.busUp .host = true ∧ 0x0800 ≤ (s.port .host).ptr ∧ (s.port .host).ptr < 0x0C00)
    ∧ (∃ (g : BitVec 8) (s : State), s.busUp .host = true ∧ 0x40 ≤ g.toNat ∧ g.toNat ≤ 0x5F)
    ∧ (∃ (s : State), s.attnHolds = true ∧ s.bus.attnCfg.getLsbD 1 = true)
    ∧ (∃ (s : State), s.sys.dom.getLsbD 13 = true ∧ s.bus.attnDue = true)
    ∧ (∃ (s : State), s.attnHolds = true ∧ s.bus.attnCfg.getLsbD 1 = true ∧ s.bus.attnCfg.toNat / 4 % 4 ≠ 0)
    ∧ (∃ (mask : BitVec 8) (s : State), s.busUp .host = true ∧ mask ≠ 0 ∧ s.stk.joined = false)
    ∧ (∃ (s : State), s.sys.fwRun = true)
    ∧ (∃ (s : State), s.busUp .host = true)
    ∧ (∃ (s : State), s.stk.dormant = false)
    ∧ (∃ (bp : BusPort) (l : Nat) (bytes : List (BitVec 8)) (s : State), s.busUp bp = true ∧ 0x0100 ≤ (s.port bp).ptr ∧ (s.port bp).ptr < 0x0400 ∧ s.sys.fwRun = true ∧ (s.port bp).allFF = false ∧ (s.port bp).line = some (l, bytes) ∧ l = (s.port bp).ptr / 16)
    ∧ (∃ (bp : BusPort) (s : State), s.busUp bp = true ∧ 0x0100 ≤ (s.port bp).ptr ∧ (s.port bp).ptr < 0x0400 ∧ s.sys.fwRun = true ∧ (s.port bp).allFF = true)
    ∧ (∃ (bp : BusPort) (s : State), s.busUp bp = true ∧ 0x0400 ≤ (s.port bp).ptr) :=
  ⟨⟨((live.onBus fun x => { x with recog := true }).onSys fun x => { x with dom := setBit x.dom (13) false }), by decide⟩,
    ⟨.host, live, by decide⟩,
    ⟨.host, ((live.onSys fun x => { x with fwRun := true }).onPort .host fun p => { p with ptr := 0x0100 }), by decide⟩,
    ⟨.host, 0, ((live.onSys fun x => { x with fwRun := true }).onPort .host fun x => { x with stretch := some (0) }), by decide⟩,
    ⟨.host, (live.onPort .host fun p => { p with stretch := some 0 }), by decide⟩,
    ⟨.host, (live.onPort .host fun x => { x with ptr := 0x0026 }), by decide⟩,
    ⟨.host, 0, (live.onMs fun x => { x with mirAt := some (0) }), by decide⟩,
    ⟨(live.onPort .host fun p => { p with ptr := 0x0800 }), by decide⟩,
    ⟨0x40, live, by decide⟩,
    ⟨((live.onBus fun x => { x with attnCfg := setBit x.attnCfg (1) true }).onFlt fun f => { f with hold := true }), by decide⟩,
    ⟨((live.onSys fun x => { x with dom := setBit x.dom (13) true }).onBus fun x => { x with attnDue := true }), by decide⟩,
    ⟨((live.onBus fun x => { x with attnCfg := setBit x.attnCfg (1) true }).onFlt fun f => { f with hold := true }), by decide⟩,
    ⟨1, (live.onStk fun x => { x with joined := false }), by decide⟩,
    ⟨(live.onSys fun x => { x with fwRun := true }), by decide⟩,
    ⟨live, by decide⟩,
    ⟨(live.onStk fun x => { x with dormant := false }), by decide⟩,
    ⟨.host, 0x10, [], (live.onPort .host fun p => { p with ptr := 0x0100, line := some (0x10, []) }), by decide⟩,
    ⟨.host, (((live.onSys fun x => { x with fwRun := true }).onPort .host fun x => { x with allFF := true }).onPort .host fun p => { p with ptr := 0x03FF }), by decide⟩,
    ⟨.host, (live.onPort .host fun p => { p with ptr := 0x0400 }), by decide⟩⟩

/-- The hypotheses of `MailboxCompletes` can be met. -/
theorem test_witness_MailboxCompletes :
    (∃ (s : State), s.busUp .host = true)
    ∧ (∃ (n : Fin 4) (f : Final) (s : State), s.cc.tune = none ∧ s.cc.tuneAsk = [] ∧ (s.box n.val).st = .working ∧ (s.box n.val).fin = some f)
    ∧ (∃ (n : Fin 4) (s : State), (s.box n.val).st = .final ∧ (s.box n.val).act = true ∧ (s.box n.val).postAt + 100000 ≤ s.now)
    ∧ (∃ (n : Fin 4) (s : State), ready s n 0x0101 0)
    ∧ (∃ (n : Fin 4) (s : State), ready s n 0x0102 1 ∧ 1 ≤ s.fld n.val 0 1 ∧ s.fld n.val 0 1 ≤ 9)
    ∧ (∃ (n : Fin 4) (s : State), ready s n 0x0103 0)
    ∧ (∃ (n : Fin 4) (s : State), ready s n 0x0104 2 ∧ s.fld n.val 0 2 < 8192)
    ∧ (∃ (n : Fin 4) (s : State), ready s n 0x0105 4 ∧ s.fld n.val 0 2 ≤ 600 ∧ s.fld n.val 2 2 ≤ 3600)
    ∧ (∃ (n : Fin 4) (load : Nat) (s : State), ready s n 0x0106 0 ∧ ((begun s n).accept n.val).dormCond load (some n) false = true ∧ s.sys.dorm = .none)
    ∧ (∃ (n : Fin 4) (s : State), ready s n 0x0107 2 ∧ s.fld n.val 0 2 = inv16 0x0107)
    ∧ (∃ (n : Fin 4) (k : Fin 4) (s : State), ready s n 0x0108 1 ∧ ((List.finRange 4).find? fun j => j != n && ((begun s n).box j.val).st != .free && ((begun s n).box j.val).tag == (begun s n).inByte n.val 8) = some k)
    ∧ (∃ (s : State), s.busUp .host = true ∧ (s.port .host).ptr = 0x22) :=
  ⟨⟨live, by decide⟩,
    ⟨0, { status := 0 }, ((((live.onCc fun x => { x with tune := none }).onCc fun x => { x with tuneAsk := [] }).onBox 0 fun x => { x with st := .working }).onBox 0 fun x => { x with fin := some ({ status := 0 }) }), by decide⟩,
    ⟨0, (((live.onBox 0 fun x => { x with st := .final }).onBox 0 fun x => { x with act := true }).onClk fun c => { c with gts := 600000000 }), by decide⟩,
    ⟨0, (live.frameIn 0x0101 0 []), ⟨by decide, by decide⟩⟩,
    ⟨0, (live.frameIn 0x0102 1 [1]), ⟨by decide, by decide⟩, by decide, by decide⟩,
    ⟨0, (live.frameIn 0x0103 0 []), ⟨by decide, by decide⟩⟩,
    ⟨0, (live.frameIn 0x0104 2 []), ⟨by decide, by decide⟩, by decide⟩,
    ⟨0, (live.frameIn 0x0105 4 []), ⟨by decide, by decide⟩, by decide, by decide⟩,
    ⟨0, 0, ((live.frameIn 0x0106 0 []).onSys fun x => { x with dorm := .none }), ⟨by decide, by decide⟩, by decide, by decide⟩,
    ⟨0, (live.frameIn 0x0107 2 [248, 254]), ⟨by decide, by decide⟩, by decide⟩,
    ⟨0, 1, ((live.frameIn 0x0108 1 []).onBox 1 fun x => { x with st := .taken, tag := 0 }), ⟨by decide, by decide⟩, by decide⟩,
    ⟨(live.onPort .host fun x => { x with ptr := 0x22 }), by decide⟩⟩

/-- The hypotheses of `ChargeCommandsComplete` can be met. -/
theorem test_witness_ChargeCommandsComplete :
    (∃ (n : Fin 4) (s : State), ready s n 0x0201 0)
    ∧ (∃ (n : Fin 4) (s : State), ready s n 0x0202 0 ∧ (begun s n).regBit 0x0160 0 = true ∧ (begun s n).follower = false ∧ (begun s n).startBlock = none)
    ∧ (∃ (n : Fin 4) (s : State), ready s n 0x0203 0)
    ∧ (∃ (n : Fin 4) (s : State), ready s n 0x0204 14 ∧ zoneOk (s.zoneFld n.val) = true)
    ∧ (∃ (n : Fin 4) (s : State), ready s n 0x0205 0)
    ∧ (∃ (n : Fin 4) (s : State), ready s n 0x0206 11 ∧ s.safeOk n.val = true)
    ∧ (∃ (n : Fin 4) (s : State), ready s n 0x0207 0)
    ∧ (∃ (n : Fin 4) (s : State), ready s n 0x0401 0)
    ∧ (∃ (n : Fin 4) (s : State), ready s n 0x0402 0)
    ∧ (∃ (n : Fin 4) (s : State), ready s n 0x0403 11 ∧ s.fld n.val 9 2 = inv16 0x0403 ∧ s.fld n.val 0 1 = 3)
    ∧ (∃ (n : Fin 4) (len : Nat) (s : State), ready s n 0x0404 len ∧ len = 3 + 4 * s.fld n.val 2 1 ∧ s.sweepRange n.val = true ∧ (begun s n).sweepBar ((begun s n).fld n.val 1 1 == 1) = none)
    ∧ (∃ (n : Fin 4) (s : State), ready s n 0x0405 0 ∧ s.sw.stage ≠ .fitting)
    ∧ (∃ (n : Fin 4) (p : PointRec) (l : List PointRec) (s : State), ready s n 0x0406 1 ∧ s.fld n.val 0 1 ≤ 23 ∧ s.fld n.val 0 1 < s.sw.lastPts.length ∧ s.sw.lastPts = p :: l)
    ∧ (∃ (n : Fin 4) (s : State), ready s n 0x0407 1 ∧ 1 ≤ s.fld n.val 0 1 ∧ s.fld n.val 0 1 ≤ 10 ∧ s.sw.seeded = false)
    ∧ (∃ (n : Fin 4) (s : State), ready s n 0x0408 24 ∧ 1 ≤ (s.chemFld n.val).chem ∧ (s.chemFld n.val).chem ≤ 3 ∧ (s.chemFld n.val).table = 0)
    ∧ (∃ (n : Fin 4) (s : State), ready s n 0x0409 2 ∧ 1 ≤ s.fld n.val 0 1 ∧ s.fld n.val 0 1 ≤ 3 ∧ s.fld n.val 1 1 ≤ 2) :=
  ⟨⟨0, (live.frameIn 0x0201 0 []), ⟨by decide, by decide⟩⟩,
    ⟨0, ((((live.frameIn 0x0202 0 []).onBus fun x => { x with page := memPut regDefault x.page 0x0160 (setBit (memGet regDefault x.page 0x0160) 0 true) }).onPp fun x => { x with batPres := true }).onFab fun f => { f with path := f.path.modify 0 fun x => { x with dir := .sink } }), ⟨by decide, by decide⟩, by decide, by decide, by decide⟩,
    ⟨0, (live.frameIn 0x0203 0 []), ⟨by decide, by decide⟩⟩,
    ⟨0, (live.frameIn 0x0204 14 [0, 0, 0, 0, 0, 0, 0, 0, 0, 0, 0, 0, 52, 13]), ⟨by decide, by decide⟩, by decide⟩,
    ⟨0, (live.frameIn 0x0205 0 []), ⟨by decide, by decide⟩⟩,
    ⟨0, (live.frameIn 0x0206 11 [10, 0, 160, 15, 10, 5, 1, 5, 5, 5]), ⟨by decide, by decide⟩, by decide⟩,
    ⟨0, (live.frameIn 0x0207 0 []), ⟨by decide, by decide⟩⟩,
    ⟨0, (live.frameIn 0x0401 0 []), ⟨by decide, by decide⟩⟩,
    ⟨0, (live.frameIn 0x0402 0 []), ⟨by decide, by decide⟩⟩,
    ⟨0, (live.frameIn 0x0403 11 [3, 0, 0, 0, 0, 0, 0, 0, 0, 252, 251]), ⟨by decide, by decide⟩, by decide, by decide⟩,
    ⟨0, 3, (((((live.frameIn 0x0404 3 [2]).onPp fun x => { x with batPres := true }).onChg fun c => { c with phase := .cv, zoneUnknown := false }).onMs fun x => { x with ibat := 200 }).onBus fun x => { x with page := memPut regDefault x.page 0x0180 1 }), ⟨by decide, by decide⟩, by decide, by decide, by decide⟩,
    ⟨0, (live.frameIn 0x0405 0 []), ⟨by decide, by decide⟩, by decide⟩,
    ⟨0, {}, [], ((live.frameIn 0x0406 1 []).onSw fun x => { x with lastPts := ({}) :: ([]) }), ⟨by decide, by decide⟩, by decide, by decide, by decide⟩,
    ⟨0, ((live.frameIn 0x0407 1 [1]).onSw fun x => { x with seeded := false }), ⟨by decide, by decide⟩, by decide, by decide, by decide⟩,
    ⟨0, (live.frameIn 0x0408 24 [1]), ⟨by decide, by decide⟩, by decide, by decide, by decide⟩,
    ⟨0, (live.frameIn 0x0409 2 [1]), ⟨by decide, by decide⟩, by decide, by decide, by decide⟩⟩

/-- The hypotheses of `FabricCommandsComplete` can be met. -/
theorem test_witness_FabricCommandsComplete :
    (∃ (n : Fin 4) (s : State), ready s n 0x0301 0)
    ∧ (∃ (n : Fin 4) (s : State), ready s n 0x0302 0)
    ∧ (∃ (n : Fin 4) (s : State), ready s n 0x0303 1 ∧ s.fld n.val 0 1 ≤ 2)
    ∧ (∃ (n : Fin 4) (s : State), ready s n 0x0304 4 ∧ s.fld n.val 0 1 ≤ 2 ∧ s.fld n.val 1 2 ≤ (if s.fld n.val 0 1 = 2 then 8000 else 2400) ∧ s.fld n.val 3 1 ≤ 7)
    ∧ (∃ (n : Fin 4) (s : State), ready s n 0x0305 2 ∧ 10 ≤ s.fld n.val 0 2 ∧ s.fld n.val 0 2 ≤ 8000)
    ∧ (∃ (n : Fin 4) (s : State), ready s n 0x0306 81 ∧ s.fld n.val 0 1 ≤ 4 ∧ coefOk (s.fld n.val 0 1) (s.coefWords n.val) = true)
    ∧ (∃ (n : Fin 4) (s : State), ready s n 0x0307 1 ∧ s.fld n.val 0 1 ≤ 4)
    ∧ (∃ (n : Fin 4) (s : State), ready s n 0x0308 1 ∧ s.fld n.val 0 1 ≤ 1 ∧ (begun s n).tuneBar (s.fld n.val 0 1 == 1) = false ∧ (begun s n).noWait n.val = false)
    ∧ (∃ (n : Fin 4) (s : State), ready s n 0x0501 1 ∧ s.fld n.val 0 1 ≤ 1)
    ∧ (∃ (n : Fin 4) (s : State), ready s n 0x0502 1 ∧ s.fld n.val 0 1 ≤ 1)
    ∧ (∃ (n : Fin 4) (s : State), ready s n 0x0503 1 ∧ s.fld n.val 0 1 ≤ 1)
    ∧ (∃ (n : Fin 4) (s : State), ready s n 0x0504 1 ∧ s.fld n.val 0 1 ≤ 1)
    ∧ (∃ (n : Fin 4) (s : State), ready s n 0x0505 33 ∧ s.fld n.val 0 1 ≤ 3) :=
  ⟨⟨0, (live.frameIn 0x0301 0 []), ⟨by decide, by decide⟩⟩,
    ⟨0, (live.frameIn 0x0302 0 []), ⟨by decide, by decide⟩⟩,
    ⟨0, (live.frameIn 0x0303 1 []), ⟨by decide, by decide⟩, by decide⟩,
    ⟨0, (live.frameIn 0x0304 4 []), ⟨by decide, by decide⟩, by decide, by decide, by decide⟩,
    ⟨0, (live.frameIn 0x0305 2 [10]), ⟨by decide, by decide⟩, by decide, by decide⟩,
    ⟨0, (live.frameIn 0x0306 81 []), ⟨by decide, by decide⟩, by decide, by decide⟩,
    ⟨0, (live.frameIn 0x0307 1 []), ⟨by decide, by decide⟩, by decide⟩,
    ⟨0, (live.frameIn 0x0308 1 []), ⟨by decide, by decide⟩, by decide, by decide, by decide⟩,
    ⟨0, (live.frameIn 0x0501 1 []), ⟨by decide, by decide⟩, by decide⟩,
    ⟨0, (live.frameIn 0x0502 1 []), ⟨by decide, by decide⟩, by decide⟩,
    ⟨0, (live.frameIn 0x0503 1 []), ⟨by decide, by decide⟩, by decide⟩,
    ⟨0, (live.frameIn 0x0504 1 []), ⟨by decide, by decide⟩, by decide⟩,
    ⟨0, (live.frameIn 0x0505 33 []), ⟨by decide, by decide⟩, by decide⟩⟩

/-- The hypotheses of `NvmCompletes` can be met. -/
theorem test_witness_NvmCompletes :
    (∃ (r : NvmReq) (l : List NvmReq) (s : State), s.nvm.q = r :: l ∧ s.nvm.prog = none ∧ s.sys.fwRun = true ∧ s.nvmFenced = false ∧ s.seq.pfw = false ∧ r.kind = .snapshot ∧ r.box = none)
    ∧ (∃ (r : NvmReq) (s : State), s.nvm.prog = some r)
    ∧ (∃ (r : NvmReq) (l : List NvmReq) (s : State), s.nvm.q = r :: l ∧ s.nvm.prog = none)
    ∧ (∃ (c : Byte) (v : Byte) (single : Bool) (s : State), pairOk s .host 0x54 c single v)
    ∧ (∃ (s : State), s.grd.fbusy = true)
    ∧ (∃ (n : Fin 4) (s : State), ready s n 0x0801 3 ∧ s.fld n.val 1 2 = inv16 0x0801 ∧ 1 ≤ s.fld n.val 0 1 ∧ s.fld n.val 0 1 ≤ 3)
    ∧ (∃ (n : Fin 4) (s : State), ready s n 0x0802 0)
    ∧ (∃ (n : Fin 4) (len : Nat) (s : State), ready s n 0x0803 len ∧ 5 ≤ len ∧ len ≤ 244 ∧ s.fld n.val 0 4 + (len - 4) ≤ 98304 ∧ (begun s n).imgStoring = false)
    ∧ (∃ (n : Fin 4) (s : State), ready s n 0x0804 3 ∧ s.fld n.val 1 2 = inv16 0x0804 ∧ 1 ≤ s.fld n.val 0 1 ∧ s.fld n.val 0 1 ≤ 2)
    ∧ (∃ (n : Fin 4) (s : State), ready s n 0x0805 2 ∧ 0x08 ≤ s.fld n.val 0 1 ∧ s.fld n.val 0 1 ≤ 0x77 ∧ 0x08 ≤ s.fld n.val 1 1 ∧ s.fld n.val 1 1 ≤ 0x77)
    ∧ (∃ (n : Fin 4) (s : State), ready s n 0x0806 0)
    ∧ (∃ (n : Fin 4) (s : State), ready s n 0x0807 3 ∧ s.fld n.val 0 1 ≤ 2)
    ∧ (∃ (n : Fin 4) (s : State), ready s n 0x0808 24 ∧ s.fld n.val 16 4 ≤ s.fld n.val 20 4) :=
  ⟨⟨{ kind := .snapshot }, [], ((((live.onNvm fun x => { x with q := ({ kind := .snapshot }) :: ([]) }).onNvm fun x => { x with prog := none }).onSys fun x => { x with fwRun := true }).onSeq fun x => { x with pfw := false }), by decide⟩,
    ⟨{}, (live.onNvm fun x => { x with prog := some ({}) }), by decide⟩,
    ⟨{}, [], ((live.onNvm fun x => { x with q := ({}) :: ([]) }).onNvm fun x => { x with prog := none }), by decide⟩,
    ⟨(~~~(0 : Byte)), 0, true, (live.onPort .host fun p => { p with pend := some { addr := 0x54, val := 0, since := 0 } }), ⟨rfl, rfl, rfl, 0, rfl, by decide⟩⟩,
    ⟨(live.onGrd fun x => { x with fbusy := true }), by decide⟩,
    ⟨0, (live.frameIn 0x0801 3 [1, 254, 247]), ⟨by decide, by decide⟩, by decide, by decide, by decide⟩,
    ⟨0, (live.frameIn 0x0802 0 []), ⟨by decide, by decide⟩⟩,
    ⟨0, 5, (live.frameIn 0x0803 5 []), ⟨by decide, by decide⟩, by decide, by decide, by decide, by decide⟩,
    ⟨0, (live.frameIn 0x0804 3 [1, 251, 247]), ⟨by decide, by decide⟩, by decide, by decide, by decide⟩,
    ⟨0, (live.frameIn 0x0805 2 [8, 8]), ⟨by decide, by decide⟩, by decide, by decide, by decide, by decide⟩,
    ⟨0, (live.frameIn 0x0806 0 []), ⟨by decide, by decide⟩⟩,
    ⟨0, (live.frameIn 0x0807 3 []), ⟨by decide, by decide⟩, by decide⟩,
    ⟨0, (live.frameIn 0x0808 24 []), ⟨by decide, by decide⟩, by decide⟩⟩

/-- The hypotheses of `StackCommandsComplete` can be met. -/
theorem test_witness_StackCommandsComplete :
    (∃ (n : Fin 4) (s : State), ready s n 0x0901 0)
    ∧ (∃ (n : Fin 4) (s : State), ready s n 0x0902 12 ∧ s.fld n.val 10 2 = inv16 0x0902 ∧ 10 ≤ s.fld n.val 4 4 ∧ s.fld n.val 4 4 ≤ 256000 ∧ s.fld n.val 8 2 ≤ 8000 ∧ s.stkCmdOk = true)
    ∧ (∃ (n : Fin 4) (s : State), ready s n 0x0903 5 ∧ s.fld n.val 4 1 = 1 ∧ s.stkCmdOk = true ∧ s.stk.seqBox = none ∧ s.qs.stkTx.length ≤ 9)
    ∧ (∃ (n : Fin 4) (s : State), ready s n 0x0904 0 ∧ s.stkCmdOk = true ∧ s.stk.dormPh = 0)
    ∧ (∃ (s : State), s.scmdOk = true)
    ∧ (∃ (s : State), s.scmdOk = true ∧ s.isBackup = true)
    ∧ (∃ (arg : BitVec 16) (s : State), s.scmdOk = true ∧ arg.toNat ≤ 8000)
    ∧ (∃ (arg : BitVec 16) (s : State), s.memberOk = true ∧ arg.toNat / 2048 = s.stkId)
    ∧ (∃ (s : State), s.memberOk = true)
    ∧ (∃ (arg : BitVec 16) (s : State), s.memberOk = true ∧ arg.toNat ≤ 3600)
    ∧ (∃ (arg : BitVec 16) (s : State), s.sys.fwRun = true ∧ s.isWorker = true ∧ s.stk.joinSt = .requested ∧ arg.toNat = s.stkId)
    ∧ (∃ (s : State), s.sys.fwRun = true ∧ s.isWorker = true ∧ s.stk.joinSt = .exchanging)
    ∧ (∃ (arg : BitVec 16) (s : State), s.sys.fwRun = true ∧ s.isWorker = true ∧ s.stk.joinSt = .exchanging ∧ arg.toNat / 2048 = s.stkId ∧ arg.toNat % 256 = 0) :=
  ⟨⟨0, (live.frameIn 0x0901 0 []), ⟨by decide, by decide⟩⟩,
    ⟨0, (manager.frameIn 0x0902 12 [0, 0, 0, 0, 10, 0, 0, 0, 0, 0, 253, 246]), ⟨by decide, by decide⟩, by decide, by decide, by decide, by decide, by decide⟩,
    ⟨0, ((manager.frameIn 0x0903 5 [0, 0, 0, 0, 1]).onStk fun x => { x with seqBox := none }), ⟨by decide, by decide⟩, by decide, by decide, by decide, by decide⟩,
    ⟨0, ((manager.frameIn 0x0904 0 []).onStk fun x => { x with dormPh := 0 }), ⟨by decide, by decide⟩, by decide, by decide⟩,
    ⟨worker, by decide⟩,
    ⟨(worker.onSys fun y => { y with straps := { id := 1, role := 2 } }), by decide⟩,
    ⟨0, worker, by decide⟩,
    ⟨0x0800, worker, by decide⟩,
    ⟨worker, by decide⟩,
    ⟨0, worker, by decide⟩,
    ⟨1, ((worker.onSys fun x => { x with fwRun := true }).onStk fun x => { x with joinSt := .requested }), by decide⟩,
    ⟨((worker.onSys fun x => { x with fwRun := true }).onStk fun x => { x with joinSt := .exchanging }), by decide⟩,
    ⟨0x0800, ((worker.onSys fun x => { x with fwRun := true }).onStk fun x => { x with joinSt := .exchanging }), by decide⟩⟩

/-- The hypotheses of `StackEventsComplete` can be met. -/
theorem test_witness_StackEventsComplete :
    (∃ (s : State), s.sys.fwRun = true ∧ s.inStack = true)
    ∧ (∃ (s : State), s.sys.fwRun = true ∧ s.isWorker = true ∧ s.stk.joinSt = .idle ∧ s.stk.everJoined = true ∧ (s.stk.realign && s.stk.wokeAt.isNone) = false)
    ∧ (∃ (s : State), s.sys.fwRun = true ∧ s.isWorker = true ∧ s.stk.joinSt = .requested)
    ∧ (∃ (f : MgrFrame) (s : State), s.sys.fwRun = true ∧ (s.yieldStart f).isWorker = true ∧ (s.yieldStart f).injFrame = false ∧ frameOk f = true ∧ (s.yieldStart f).flt.stkf.getLsbD 6 = false)
    ∧ (∃ (r : MemberRep) (s : State), s.sys.fwRun = true ∧ s.inStack = true ∧ r.id < 32 ∧ r.id ≠ s.stkId)
    ∧ (∃ (k : Fin 32) (s : State), s.sys.fwRun = true ∧ s.inStack = true ∧ k.val ≠ s.stkId ∧ ((s.isManager && s.stk.joined) = false ∨ s.stk.joiner = some k))
    ∧ (∃ (k : Fin 32) (s : State), s.sys.fwRun = true ∧ s.inStack = true ∧ k.val ≠ s.stkId ∧ s.isManager = true ∧ s.stk.joined = true ∧ s.stk.joiner = none ∧ s.stk.joinWait = [] ∧ (s.stk.wakeM.getLsbD k.val && s.stk.members.getLsbD k.val && !s.stk.fencedM.getLsbD k.val) = false)
    ∧ (∃ (k : Fin 32) (off : BitVec 16) (s : State), s.isManager = true ∧ s.stk.joiner = some k ∧ off.toNat < 64)
    ∧ (∃ (k : Fin 32) (s : State), s.isManager = true ∧ s.stk.joiner = some k)
    ∧ (∃ (s : State), s.sys.fwRun = true ∧ s.isWorker = true ∧ s.stk.joinSt = .listening)
    ∧ (∃ (k : Fin 32) (s : State), s.sys.fwRun = true ∧ s.isManager = true ∧ s.stk.joiner = some k)
    ∧ (∃ (s : State), s.sys.fwRun = true ∧ s.isWorker = true ∧ s.stk.joinSt = .refused)
    ∧ (∃ (s : State), s.sys.fwRun = true ∧ s.isWorker = true ∧ s.stk.joined = true)
    ∧ (∃ (k : Fin 32) (s : State), s.sys.fwRun = true ∧ s.isManager = true ∧ s.stk.members.getLsbD k.val = true ∧ k.val ≠ s.stkId ∧ s.stk.fencedM.getLsbD k.val = false ∧ s.slotCounts = true ∧ fresh s Cause.slotFail)
    ∧ (∃ (s : State), s.sys.fwRun = true ∧ s.isManager = true ∧ s.stk.joined = true ∧ fresh s Cause.slot0Collision)
    ∧ (∃ (s : State), s.sys.fwRun = true ∧ s.isWorker = true ∧ s.stk.joined = true ∧ s.flt.stkf.getLsbD 3 = false ∧ fresh s Cause.alignLost)
    ∧ (∃ (s : State), s.sys.fwRun = true ∧ s.stk.aligned = true)
    ∧ (∃ (s : State), s.sys.fwRun = true ∧ s.isWorker = true ∧ s.flt.stkf.getLsbD 6 = false ∧ fresh s Cause.frameCrc)
    ∧ (∃ (k : Fin 32) (s : State), s.sys.fwRun = true ∧ s.isManager = true ∧ (s.stk.fenceRun.any fun p => p.1 == k.val && decide (1000 ≤ p.2)) = true)
    ∧ (∃ (iunit : BitVec 11) (bsw : Bool) (stop : Bool) (parity : Bool) (s : State), s.sys.fwRun = true ∧ s.inGroup = true ∧ s.follower = true ∧ refParity iunit bsw stop parity = true)
    ∧ (∃ (s : State), s.sys.fwRun = true ∧ s.follower = true ∧ s.flt.stkf.getLsbD 4 = false ∧ s.refExcused = false)
    ∧ (∃ (s : State), s.sys.fwRun = true ∧ s.inGroup = true ∧ 64 ≤ s.stk.refGood)
    ∧ (∃ (e : Election) (l : List Election) (s : State), s.stk.elect = e :: l ∧ s.sys.fwRun = true ∧ s.isManager = true ∧ s.electDue e = true)
    ∧ (∃ (s : State), s.sys.fwRun = true ∧ s.isBackup = true ∧ s.stk.acting = false)
    ∧ (∃ (s : State), s.sys.fwRun = true ∧ s.stkId = 0 ∧ s.stk.worker0 = true)
    ∧ (∃ (s : State), s.stk.dormPh = 1)
    ∧ (∃ (k : Fin 32) (j : Fin 32) (s : State), s.sys.fwRun = true ∧ s.inStack = true ∧ k.val ≠ s.stkId ∧ s.isManager = true ∧ s.stk.joined = true ∧ s.stk.joiner = some j ∧ j ≠ k ∧ (s.stk.wakeM.getLsbD k.val && s.stk.members.getLsbD k.val && !s.stk.fencedM.getLsbD k.val) = false)
    ∧ (∃ (k : Fin 32) (r : JoinReq) (p : Fin 32 × JoinReq × Int) (s : State), s.sys.fwRun = true ∧ s.inStack = true ∧ k.val ≠ s.stkId ∧ s.isManager = true ∧ s.stk.joined = true ∧ s.stk.joiner = none ∧ joinFirst (s.joinQueue k r) = some p ∧ (s.stk.wakeM.getLsbD k.val && s.stk.members.getLsbD k.val && !s.stk.fencedM.getLsbD k.val) = false)
    ∧ (∃ (s : State), s.sys.fwRun = true ∧ s.isWorker = true ∧ s.stk.joinSt = .idle ∧ s.stk.everJoined = true ∧ s.stk.realign = true ∧ s.stk.wokeAt = none)
    ∧ (∃ (k : Fin 32) (s : State), s.sys.fwRun = true ∧ s.inStack = true ∧ k.val ≠ s.stkId ∧ s.isManager = true ∧ s.stk.joined = true ∧ s.stk.joiner = none ∧ s.stk.wakeM.getLsbD k.val = true ∧ s.stk.members.getLsbD k.val = true ∧ s.stk.fencedM.getLsbD k.val = false) :=
  ⟨⟨(worker.onSys fun x => { x with fwRun := true }), by decide⟩,
    ⟨(((worker.onSys fun x => { x with fwRun := true }).onStk fun x => { x with joinSt := .idle }).onStk fun x => { x with everJoined := true }), by decide⟩,
    ⟨((worker.onSys fun x => { x with fwRun := true }).onStk fun x => { x with joinSt := .requested }), by decide⟩,
    ⟨{}, (worker.onSys fun x => { x with fwRun := true }), by decide⟩,
    ⟨{ id := 2 }, (worker.onSys fun x => { x with fwRun := true }), by decide⟩,
    ⟨0, ((worker.onSys fun x => { x with fwRun := true }).onStk fun x => { x with joiner := some 2 }), by decide⟩,
    ⟨1, ((((manager.onSys fun x => { x with fwRun := true }).onStk fun x => { x with joined := true }).onStk fun x => { x with joiner := none }).onStk fun x => { x with joinWait := [] }), by decide⟩,
    ⟨0, 0, (manager.onStk fun x => { x with joiner := some (0) }), by decide⟩,
    ⟨0, (manager.onStk fun x => { x with joiner := some (0) }), by decide⟩,
    ⟨((worker.onSys fun x => { x with fwRun := true }).onStk fun x => { x with joinSt := .listening }), by decide⟩,
    ⟨0, ((manager.onSys fun x => { x with fwRun := true }).onStk fun x => { x with joiner := some (0) }), by decide⟩,
    ⟨((worker.onSys fun x => { x with fwRun := true }).onStk fun x => { x with joinSt := .refused }), by decide⟩,
    ⟨((worker.onSys fun x => { x with fwRun := true }).onStk fun x => { x with joined := true }), by decide⟩,
    ⟨1, (((manager.onSys fun x => { x with fwRun := true }).onStk fun x => { x with members := setBit x.members 1 true }).onStk fun x => { x with fencedM := setBit x.fencedM 1 false }), by decide, by decide, by decide, by decide, by decide, by decide, ⟨rfl, rfl⟩⟩,
    ⟨((manager.onSys fun x => { x with fwRun := true }).onStk fun x => { x with joined := true }), by decide, by decide, by decide, ⟨rfl, rfl⟩⟩,
    ⟨(((worker.onSys fun x => { x with fwRun := true }).onStk fun x => { x with joined := true }).onFlt fun x => { x with stkf := setBit x.stkf (3) false }), by decide, by decide, by decide, by decide, ⟨rfl, rfl⟩⟩,
    ⟨((live.onSys fun x => { x with fwRun := true }).onStk fun x => { x with aligned := true }), by decide⟩,
    ⟨((worker.onSys fun x => { x with fwRun := true }).onFlt fun x => { x with stkf := setBit x.stkf (6) false }), by decide, by decide, by decide, ⟨rfl, rfl⟩⟩,
    ⟨1, ((manager.onSys fun x => { x with fwRun := true }).onStk fun x => { x with fenceRun := [(1, 1000)] }), by decide⟩,
    ⟨0, false, false, true, (((live.onSys fun x => { x with fwRun := true }).onSys fun y => { y with straps := { id := 1, role := 3 } }).onStk fun x => { x with casc := true }), by decide⟩,
    ⟨((((((live.onSys fun x => { x with fwRun := true }).onFlt fun x => { x with stkf := setBit x.stkf (4) false }).onSys fun y => { y with straps := { id := 1, role := 3 } }).onStk fun x => { x with casc := true }).onCc fun c => { c with fsw := 1000 }).onClk fun c => { c with gts := 5 }), by decide⟩,
    ⟨(((live.onSys fun x => { x with fwRun := true }).onSys fun y => { y with straps := { id := 1, role := 3 } }).onStk fun x => { x with refGood := 64 }), by decide⟩,
    ⟨{}, [], ((manager.onStk fun x => { x with elect := ({}) :: ([]) }).onSys fun x => { x with fwRun := true }), by decide⟩,
    ⟨(((live.onSys fun x => { x with fwRun := true }).onStk fun x => { x with acting := false }).onSys fun y => { y with straps := { id := 1, role := 2 } }), by decide⟩,
    ⟨((live.onSys fun x => { x with fwRun := true }).onStk fun x => { x with worker0 := true }), by decide⟩,
    ⟨(live.onStk fun x => { x with dormPh := 1 }), by decide⟩,
    ⟨1, 2, ((manager.onSys fun x => { x with fwRun := true }).onStk fun x => { x with joined := true, joiner := some 2 }), by decide⟩,
    ⟨1, {}, (1, ({} : JoinReq), manager.joinLeadOf {}), (((manager.onSys fun x => { x with fwRun := true }).onStk fun x => { x with joined := true }).onStk fun x => { x with joiner := none }), by decide⟩,
    ⟨(((((worker.onSys fun x => { x with fwRun := true }).onStk fun x => { x with joinSt := .idle }).onStk fun x => { x with everJoined := true }).onStk fun x => { x with realign := true }).onStk fun x => { x with wokeAt := none }), by decide⟩,
    ⟨1, ((((((manager.onSys fun x => { x with fwRun := true }).onStk fun x => { x with joined := true }).onStk fun x => { x with joiner := none }).onStk fun x => { x with wakeM := setBit x.wakeM 1 true }).onStk fun x => { x with members := setBit x.members 1 true }).onStk fun x => { x with fencedM := setBit x.fencedM 1 false }), by decide⟩⟩

/-- The hypotheses of `FrameClockStart` can be met. -/
theorem test_witness_FrameClockStart :
    (∃ s t : State, exec (.imageVerification) s = .next t)
    ∧ (∃ s t : State, exec (.gtsWrap) s = .next t)
    ∧ (∃ s t : State, s.sys.mode ≠ .dormant ∧ exec (.pllLock) s = .next t) :=
  ⟨⟨live, _, rfl⟩,
    ⟨live, _, rfl⟩,
    ⟨live, _, by decide, rfl⟩⟩

/-- The hypotheses of `FrameFabric` can be met. -/
theorem test_witness_FrameFabric :
    (∃ s t : State, exec (.peakRecoveryEnd) s = .next t)
    ∧ (∃ s t : State, exec (.syncReacquisition) s = .next t)
    ∧ (∃ s t : State, s.sys.mode ≠ .dormant ∧ exec (.selectorOverlap 0) s = .next t) :=
  ⟨⟨live, _, rfl⟩,
    ⟨live, _, rfl⟩,
    ⟨live, _, by decide, rfl⟩⟩

/-- The hypotheses of `FrameChargeMeasure` can be met. -/
theorem test_witness_FrameChargeMeasure :
    (∃ s t : State, exec (.autoZero) s = .next t)
    ∧ (∃ s t : State, exec (.restCorrection) s = .next t) :=
  ⟨⟨live, _, rfl⟩,
    ⟨live, _, rfl⟩⟩

/-- The hypotheses of `FrameTypeC` can be met. -/
theorem test_witness_FrameTypeC :
    (∃ s t : State, exec (.portDischargeDone .a) s = .next t)
    ∧ (∃ s t : State, exec (.vconnOc .a) s = .next t) :=
  ⟨⟨live, _, rfl⟩,
    ⟨live, _, rfl⟩⟩

/-- The hypotheses of `FrameSequencer` can be met. -/
theorem test_witness_FrameSequencer :
    (∃ s t : State, exec (.nrstoRelease) s = .next t)
    ∧ (∃ s t : State, exec (.nrstoPulseEnd) s = .next t) :=
  ⟨⟨live, _, rfl⟩,
    ⟨live, _, rfl⟩⟩

/-- The hypotheses of `FrameFaults` can be met. -/
theorem test_witness_FrameFaults :
    (∃ s t : State, exec (.lockstep) s = .next t)
    ∧ (∃ s t : State, exec (.nvmEcc) s = .next t)
    ∧ (∃ s t : State, s.sys.mode ≠ .dormant ∧ exec (.batswOc 0) s = .next t) :=
  ⟨⟨live, _, rfl⟩,
    ⟨live, _, rfl⟩,
    ⟨live, _, by decide, rfl⟩⟩

/-- The hypotheses of `FrameBusMailbox` can be met. -/
theorem test_witness_FrameBusMailbox :
    (∃ s t : State, s.bus.hp.ptr ≠ 0x22 ∧ exec (.registerWrite .host 0 true) s = .next t)
    ∧ (∃ s t : State, exec (.stkUpdEdge) s = .next t)
    ∧ (∃ s t : State, exec (.updateApply) s = .next t) :=
  ⟨⟨live, _, by decide, rfl⟩,
    ⟨live, _, rfl⟩,
    ⟨live, _, rfl⟩⟩

/-- The hypotheses of `FrameStack` can be met. -/
theorem test_witness_FrameStack :
    (∃ s t : State, exec (.joinRetry) s = .next t)
    ∧ (∃ s t : State, exec (.managerReclaim) s = .next t) :=
  ⟨⟨live, _, rfl⟩,
    ⟨live, _, rfl⟩⟩

/-! ## Small steps (expected results worked out from the rules named) -/

/-- R16: 5 % above 30.517578125 us is 32.04345703 us. -/
theorem test_aosc_limit : aoscOff 32043457 = false ∧ aoscOff 32043458 = true ∧ aoscOff 28991700 = false ∧ aoscOff 28991699 = true := by decide

/-- R20, R19: one million MOSC cycles in 256 AOSC periods give the nominal increment 0x1E8480. -/
theorem test_gts_calibration : (afterCmd (.gtsCalibration 1000000) live).clk.incr = 0x1E8480 := by decide

/-- R23: the wrap of epoch 255 raises GTS_WRAP and EPOCH_WRAP. -/
theorem test_gts_wrap : (afterCmd .gtsWrap (live.onClk fun c => { c with gts := 0xFFFFFFFFFFFF, epoch := 255 })).clk.epoch = 0
    ∧ (afterCmd .gtsWrap (live.onClk fun c => { c with gts := 0xFFFFFFFFFFFF, epoch := 255 })).qs.events.length = 2 := by decide

/-- R25: byte 1 of GTS_LATCH after a latch of GTS 0x010203. -/
theorem test_gts_latch : (afterCmd (.gtsLatch .host) (live.onClk fun c => { c with gts := 0x010203 })).busRead .host 0x000B = 0x02 := by decide

/-- R183: 95 % of 2000 mA, and at least 100 mA. -/
theorem test_weir_learn :
    (afterCmd (.weirLearn .a 2000) (live.onFab fun f => { f with path := f.path.modify 0 fun x => { x with dir := .sink } })).pp.learnA = some 1900
    ∧ (afterCmd (.weirLearn .a 50) (live.onFab fun f => { f with path := f.path.modify 0 fun x => { x with dir := .sink } })).pp.learnA = some 100 := by decide

/-- R90: a delay of 2 s ends 2000000 us after the pair. -/
theorem test_ship_delay :
    (afterCmd (.shipEnt 0xFD true) (live.onPort .host fun p => { p with pend := some { addr := 0x40, val := 2, since := 0 } })).sys.shipAt = some 2000000 := by decide

/-- R388: a complement that is none fails the pair and sets GUARDF. -/
theorem test_guard_fail :
    (afterCmd (.fplace0 0x12 true) (live.onPort .host fun p => { p with pend := some { addr := 0x48, val := 0x12, since := 0 } })).grd.fplace0 = 0
    ∧ (afterCmd (.fplace0 0xED true) (live.onPort .host fun p => { p with pend := some { addr := 0x48, val := 0x12, since := 0 } })).grd.fplace0 = 0x12 := by decide

/-- R403, R408: SYS_STATUS answers OK, with OUTRDY of its mailbox. -/
theorem test_sys_status : (afterCmd (.sysStatus 0) (live.frameIn 0x0101 0 [])).mb.outrdy = 1
    ∧ (afterCmd (.sysStatus 0) (live.frameIn 0x0101 1 [])).mb.outrdy = 1 := by decide

/-- R173: PC attaches above 8.0 V, not at it. -/
theorem test_pc_attach : (afterCmd (.pcAttach { pc := 8000 } false) live).pp.presC = false
    ∧ (afterCmd (.pcAttach { pc := 8001 } false) live).pp.presC = true := by decide

/-- R108: after the recovery a peak is allowed again. -/
theorem test_peak : (afterCmd .peakRecoveryEnd (live.onFab fun f => { f with peak := .recovery })).fab.peak = .allowed := by decide
end

section
/-! PROOFS. The queues with reserved entries (R31, R33), what a dropped event leaves (R35), and the wrap of GTS (R23). -/
namespace Sys2Proof.Machine

open Sys2Proof.Safety

variable (s : State)

/-! ## What a rewriting of the queues, and an event, leaves of the reports -/

@[simp] theorem onQs_mkEvent (f : Queues → Queues) : (s.onQs f).mkEvent = s.mkEvent := rfl
@[simp] theorem onQs_fltSum (f : Queues → Queues) : (s.onQs f).fltSum = s.fltSum := rfl
@[simp] theorem onQs_fltClass (f : Queues → Queues) : (s.onQs f).fltClass = s.fltClass := rfl

@[simp] theorem raise_mkEvent (src : Nat) (code : BitVec 16) (d : List Byte) (c : Nat) : (s.raise src code d c).mkEvent = s.mkEvent := by
  rw [raise_frame, onQs_mkEvent]
@[simp] theorem raise_fltSum (src : Nat) (code : BitVec 16) (d : List Byte) (c : Nat) : (s.raise src code d c).fltSum = s.fltSum := by
  rw [raise_frame, onQs_fltSum]
@[simp] theorem raise_fltClass (src : Nat) (code : BitVec 16) (d : List Byte) (c : Nat) : (s.raise src code d c).fltClass = s.fltClass := by
  rw [raise_frame, onQs_fltClass]

/-! ## Room in the event queue (R31) -/

theorem eventFits_iff (c : Nat) : s.eventFits c = true ↔ if c = 0 then s.qs.events.length < 224 else s.qs.events.length < 256 := by
  unfold State.eventFits
  split <;> exact decide_eq_true_iff

/-- Class 0 has the least room: where an event of any class is dropped, one of class 0 is. -/
theorem not_eventFits_zero {s : State} {c : Nat} (h : ¬ s.eventFits c = true) : ¬ s.eventFits 0 = true := by
  rw [eventFits_iff] at h ⊢
  split at h
  · exact h
  · rw [if_pos rfl]; omega

theorem raise_events_of_fits {s : State} {src : Nat} {code : BitVec 16} {d : List Byte} {c : Nat} (h : s.eventFits c = true) :
    (s.raise src code d c).qs.events = eventPut s.qs.events (s.mkEvent src code c d) := by
  rw [raise_fits s src code d c h, onQs_qs]

theorem raise_of_not_fits {s : State} {src : Nat} {code : BitVec 16} {d : List Byte} {c : Nat} (h : ¬ s.eventFits c = true) :
    s.raise src code d c = s.drop 4 := if_neg h

/-! ## Drops counted (R35) -/

/-- A counter that stands at 0xFFFF counts no further. -/
theorem countDrop_saturated {s : State} {k : Nat} (h : ¬ s.qs.drops.getD k 0 < 0xFFFF) : s.countDrop k = (s, false) := if_neg h

@[simp] theorem countDrop_events (k : Nat) : (s.countDrop k).1.qs.events = s.qs.events := by
  unfold State.countDrop
  dsimp only
  split
  · split <;> rfl
  · rfl

@[simp] theorem countDrop_evt (k : Nat) : (s.countDrop k).1.qs.evt = s.qs.evt := by
  unfold State.countDrop
  dsimp only
  split
  · split <;> rfl
  · rfl

@[simp] theorem countDrop_eventFits (k c : Nat) : (s.countDrop k).1.eventFits c = s.eventFits c := by
  unfold State.eventFits
  rw [countDrop_events]

theorem countDrop_drops {s : State} {k : Nat} (h : s.qs.drops.getD k 0 ≤ 0xFFFF) :
    (s.countDrop k).1.qs.drops = s.qs.drops.set k (min 0xFFFF (s.qs.drops.getD k 0 + 1)) := by
  by_cases hlt : s.qs.drops.getD k 0 < 0xFFFF
  · rw [Nat.min_eq_right hlt]
    unfold State.countDrop
    dsimp only
    rw [if_pos hlt]
    split <;> rfl
  · have hv : s.qs.drops.getD k 0 = 0xFFFF := by omega
    rw [countDrop_saturated hlt, hv]
    have hk : k < s.qs.drops.length := by
      by_contra hk
      rw [List.getD_eq_default _ _ (by omega)] at hv
      omega
    have hset := List.set_getElem_self (as := s.qs.drops) hk
    rw [List.getElem_eq_getD 0, hv] at hset
    exact hset.symm

/-- The drop that sets the SAT flag leaves the counter at 0xFFFF. -/
theorem countDrop_hit {s : State} {k : Nat} (hk : k < s.qs.drops.length) (h : (s.countDrop k).2 = true) :
    (s.countDrop k).1.qs.drops.getD k 0 = 0xFFFF := by
  unfold State.countDrop at h ⊢
  dsimp only at h ⊢
  split at h
  · next hlt =>
    split at h
    · next hv => rw [if_pos hlt, if_pos hv]; simpa [hk] using hv
    · cases h
  · cases h

/-- A drop of the event queue itself is counted once: its QUEUE_SAT finds no room, and the counter that would count that loss has just
stopped. -/
theorem drop_four_of_not_fits {s : State} (hk : 4 < s.qs.drops.length) (h : ¬ s.eventFits 0 = true) : s.drop 4 = (s.countDrop 4).1 := by
  have hfit : ¬ (s.countDrop 4).1.eventFits 0 = true := by rwa [countDrop_eventFits]
  have hhit := countDrop_hit (s := s) hk
  unfold State.drop
  generalize s.countDrop 4 = p at hfit hhit ⊢
  obtain ⟨s1, hit⟩ := p
  cases hit
  case false => rfl
  case true =>
    have hstop : ¬ s1.qs.drops.getD 4 0 < 0xFFFF := by rw [hhit rfl]; omega
    dsimp only
    rw [if_neg (by decide), if_neg hfit, countDrop_saturated hstop]

/-- What a dropped event leaves of the queues (R31, R35). -/
theorem raise_not_fits {s : State} {src : Nat} {code : BitVec 16} {d : List Byte} {c : Nat} (hq : qsOk s.qs) (h : ¬ s.eventFits c = true) :
    s.raise src code d c = (s.countDrop 4).1 := by
  obtain ⟨-, -, -, -, -, hlen, -⟩ := hq
  rw [raise_of_not_fits h, drop_four_of_not_fits (by omega) (not_eventFits_zero h)]

/-- The drop counters are words of 16 bits (R35). -/
theorem drops_getD_le {q : Queues} (hq : qsOk q) (k : Nat) : q.drops.getD k 0 ≤ 0xFFFF := by
  obtain ⟨-, -, -, -, -, -, hle⟩ := hq
  by_cases hk : k < q.drops.length
  · rw [← List.getElem_eq_getD (h := hk) 0]; exact hle _ (List.getElem_mem hk)
  · rw [List.getD_eq_default _ _ (by omega)]; exact Nat.zero_le _

/-! ## GTS wraps (R23) -/

theorem gtsAdd_one_of_last (h : s.clk.gts.toNat = 2 ^ 48 - 1) : s.gtsAdd 1 = s.gtsWrap := by
  have hgts : s.gtsWrap.clk.gts = 0 := by rw [gtsWrap_clk]
  have hclk : { s.gtsWrap.clk with gts := 0 } = s.gtsWrap.clk := by rw [← hgts]
  unfold State.gtsAdd
  dsimp only
  rw [h, if_neg (by omega)]
  exact congrArg (fun c => { s.gtsWrap with clk := c }) hclk

/-- The events of a wrap are stamped after it. -/
theorem gtsWrap_mkEvent : s.gtsWrap.mkEvent = (s.onClk fun c => { c with gts := 0, epoch := c.epoch + 1 }).mkEvent := by
  unfold State.gtsWrap State.when
  dsimp only
  split <;> simp only [raise_mkEvent]

/-- With room for two events of class 0 a wrap puts GTS_WRAP, and EPOCH_WRAP behind the last epoch, into the queue. -/
theorem gtsWrap_events (h : s.qs.events.length < 223) :
    s.gtsWrap.qs.events = (if s.clk.epoch = 255 then fun l => eventPut l (s.gtsWrap.mkEvent Src.vetch Ev.epochWrap 0 []) else id)
      (eventPut s.qs.events (s.gtsWrap.mkEvent Src.vetch Ev.gtsWrap 0 [])) := by
  rw [gtsWrap_mkEvent]
  unfold State.gtsWrap State.when
  dsimp only
  generalize hu : (s.onClk fun c => { c with gts := 0, epoch := c.epoch + 1 }) = u
  have hev : u.qs.events = s.qs.events := by rw [← hu]; rfl
  have hfit1 : u.eventFits 0 = true := by rw [eventFits_iff, if_pos rfl, hev]; omega
  have hput := raise_events_of_fits (src := Src.vetch) (code := Ev.gtsWrap) (d := []) hfit1
  by_cases hep : s.clk.epoch = 255
  · have hfit2 : (u.raise Src.vetch Ev.gtsWrap).eventFits 0 = true := by
      rw [eventFits_iff, if_pos rfl, hput, eventPut_length, hev]; omega
    rw [if_pos (beq_iff_eq.2 hep), if_pos hep, raise_events_of_fits hfit2, raise_mkEvent, hput, hev]
  · rw [if_neg (mt beq_iff_eq.1 hep), if_neg hep, hput, hev]; rfl

theorem execGtsWrap_of_last (hc : s.counts = true) (hg : s.clk.gts = 0xFFFFFFFFFFFF) :
    execGtsWrap s = .next (s.onClk fun c => { c with fine := 0 }).gtsWrap := by
  unfold execGtsWrap State.when
  rw [hc, hg]; rfl

/-! ## The stack transmit queue (R33) -/

theorem queueScmd_of_room {s : State} (code arg : Nat) (h : s.qs.stkTx.length < 12) :
    s.queueScmd code arg = (s.onQs fun q => { q with stkTx := q.stkTx ++ [0] }).onStk fun k => { k with scmdQ := k.scmdQ ++ [(code, BitVec.ofNat 16 arg)] } :=
  if_pos h

theorem queueScmd_of_full {s : State} (code arg : Nat) (h : 12 ≤ s.qs.stkTx.length) : s.queueScmd code arg = s.drop 11 :=
  if_neg (by omega)

theorem frepSend_of_room {s : State} (r : FaultRec) (hw : s.isWorker = true) (h : s.qs.stkTx.length < 16) :
    s.frepSend r = (s.onQs fun q => { q with stkTx := q.stkTx ++ [1] }).onStk fun k => { k with
      frepQ := k.frepQ ++ [{ stamp := r.stamp, source := r.source, cause := r.cause, cls := classByte r, seq := BitVec.ofNat 8 r.recno }] } := by
  unfold State.frepSend
  rw [if_pos hw, if_pos h]

theorem frepSend_of_full {s : State} (r : FaultRec) (hw : s.isWorker = true) (h : 16 ≤ s.qs.stkTx.length) : s.frepSend r = s.drop 11 := by
  unfold State.frepSend
  rw [if_pos hw, if_neg (by omega)]

/-! ## The statements -/

/-- Settles O10: the rest of the wrap, stamps included, does not depend on whether its events found room; `gtsWrap_events` adds them. -/
theorem wrapStampsEvents : Obligations.WrapStampsEvents := by
  refine ⟨gtsAdd_one_of_last, fun s hc hg hl => ⟨_, execGtsWrap_of_last s hc hg, ?_⟩⟩
  have hev := gtsWrap_events (s.onClk fun c => { c with fine := 0 }) (Nat.lt_succ_of_lt hl)
  refine ⟨?_, ?_, ?_, ?_, hev⟩
  · rw [gtsWrap_clk]
  · rw [gtsWrap_clk]; rfl
  · rw [gtsWrap_clk]; rfl
  · unfold State.now; rw [gtsWrap_clk]; exact Nat.add_zero _

/-- Settles O11, by whether the event finds room. -/
theorem eventReserve : Obligations.EventReserve := by
  intro s src code d cls hq
  rw [← eventFits_iff]
  refine ⟨raise_fits s src code d cls, fun h => ?_⟩
  refine ⟨?_, ?_, ?_, raise_flt .., raise_fltSum .., raise_fltClass ..⟩
  · rw [raise_not_fits hq h, countDrop_events]
  · rw [raise_not_fits hq h, countDrop_evt]
  · rw [raise_not_fits hq h, countDrop_drops (drops_getD_le hq 4)]

/-- Settles O12, by whether the frame finds room. -/
theorem stackQueueReserve : Obligations.StackQueueReserve := by
  refine fun s => ⟨fun code arg => ⟨fun h => ?_, queueScmd_of_full code arg⟩, fun r _ hw => ⟨fun h => ?_, frepSend_of_full r hw⟩⟩
  · rw [queueScmd_of_room code arg h]; simp
  · rw [frepSend_of_room r hw h]; simp

end Sys2Proof.Machine
end

section
/-! PROOFS. The two-wire ports: what a rewriting of one port leaves of the other and of the buses' registers, the bus timeout (R369), reads of the
RC bytes (R385, R386), and what the safety port may not write (R366). -/
namespace Sys2Proof.Machine

open Sys2Proof.Safety

variable (s : State)

/-- A flag that is set reads as set. -/
@[simp] theorem getLsbD_setBit_true {w : Nat} (x : BitVec w) {i : Nat} (h : i < w) : (setBit x i true).getLsbD i = true := by
  simp [setBit, h]

/-! ## One port rewritten -/

@[simp] theorem onPort_port_same (bp : BusPort) (f : PortBus → PortBus) : (s.onPort bp f).port bp = f (s.port bp) := by cases bp <;> rfl

theorem onPort_port_of_ne {bp q : BusPort} (h : q ≠ bp) (f : PortBus → PortBus) : (s.onPort bp f).port q = s.port q := by
  cases bp with
  | host => cases q with
    | host => exact absurd rfl h
    | safety => rfl
  | safety => cases q with
    | host => rfl
    | safety => exact absurd rfl h

@[simp] theorem onPort_shadow (bp : BusPort) (f : PortBus → PortBus) : (s.onPort bp f).bus.shadow = s.bus.shadow := by cases bp <;> rfl
@[simp] theorem onPort_page (bp : BusPort) (f : PortBus → PortBus) : (s.onPort bp f).bus.page = s.bus.page := by cases bp <;> rfl

@[simp] theorem busFlag_port_same (bp : BusPort) (i : Nat) :
    (s.busFlag bp i).port bp = { s.port bp with stat := setBit (s.port bp).stat i true } := onPort_port_same ..

theorem busFlag_port_of_ne {bp q : BusPort} (h : q ≠ bp) (i : Nat) : (s.busFlag bp i).port q = s.port q := onPort_port_of_ne s h _

@[simp] theorem busFlag_shadow (bp : BusPort) (i : Nat) : (s.busFlag bp i).bus.shadow = s.bus.shadow := onPort_shadow ..
@[simp] theorem busFlag_page (bp : BusPort) (i : Nat) : (s.busFlag bp i).bus.page = s.bus.page := onPort_page ..

/-! ## The bus timeout (R369) -/

/-- The port with its lines released and no line supplied. -/
def PortBus.released (p : PortBus) : PortBus := { p with stretch := none, line := none, allFF := false, ackHold := false }

theorem execBusTimeout_of_up {s : State} {bp : BusPort} (h : s.busUp bp = true) :
    execBusTimeout bp s = .next ((s.onPort bp PortBus.released).busFlag bp 4) := by
  unfold execBusTimeout State.when
  rw [if_pos h]; rfl

/-! ## Reads of the RC bytes (R385, R386) -/

theorem execClearOnRead_unclocked (bp : BusPort) : execClearOnRead bp false s = .next s := by
  unfold execClearOnRead State.when
  rw [Bool.and_false, Bool.false_and, if_neg Bool.false_ne_true]

theorem execClearOnRead_of_rc {s : State} {bp : BusPort} (h : s.busUp bp = true) (hrc : rcAddr (s.port bp).ptr = true) :
    execClearOnRead bp true s = .next (s.readRc bp) := by
  unfold execClearOnRead State.when
  rw [h, hrc]; rfl

theorem execClearOnRead_of_not_rc {s : State} {bp : BusPort} (clocked : Bool) (hrc : ¬ rcAddr (s.port bp).ptr = true) :
    execClearOnRead bp clocked s = .next s := by
  unfold execClearOnRead State.when
  rw [Bool.eq_false_of_not_eq_true hrc, Bool.and_false, if_neg Bool.false_ne_true]

theorem rcAddr_iff (a : Nat) : rcAddr a = true ↔ (0x0004 ≤ a ∧ a ≤ 0x0007) ∨ a = 0x0026 := by simp [rcAddr]

theorem swiftByte_evt {s : State} {bp : BusPort} {a : Nat} (hlo : 0x0004 ≤ a) (hhi : a ≤ 0x0007) :
    s.swiftByte bp a = BitVec.ofNat 8 (s.qs.evt.toNat / 256 ^ (a - 4)) := if_pos ⟨hlo, hhi⟩

theorem swiftByte_stat (bp : BusPort) : s.swiftByte bp 0x0026 = (s.port bp).stat := rfl

/-- A read of BUS_STAT returns it and clears what it returned (R385). -/
theorem readRc_stat {s : State} {bp : BusPort} (h : (s.port bp).ptr = 0x0026) :
    s.readRc bp = (s.driven bp (s.port bp).stat).onPort bp fun p => { p with stat := p.stat &&& ~~~(s.port bp).stat } := by
  unfold State.readRc
  rw [h, if_pos rfl, swiftByte_stat]

/-- A safety-port read of an RC byte other than BUS_STAT returns it and clears nothing (R366). -/
theorem readRc_safety_of_ne {s : State} (h : s.bus.sp.ptr ≠ 0x0026) :
    s.readRc .safety = s.driven .safety (s.swiftByte .safety s.bus.sp.ptr) := if_neg h

/-- Whatever the safety port reads, EVT, the events and the host port stay (R366). -/
theorem readRc_safety_frame : (s.readRc .safety).qs = s.qs ∧ (s.readRc .safety).bus.hp = s.bus.hp := by
  by_cases h : s.bus.sp.ptr = 0x0026
  · rw [readRc_stat (bp := .safety) h]; exact ⟨rfl, rfl⟩
  · rw [readRc_safety_of_ne h]; exact ⟨rfl, rfl⟩

/-! ## Writes through the safety port (R366) -/

/-- From `s` to `t` at most what the safety port holds and the queues change. -/
def safetyPortOnly (s t : State) : Prop := changesOnly [.bus, .qs] s t ∧ t.bus = { s.bus with sp := t.bus.sp }

theorem safetyPortOnly.trans {s t u : State} (h : safetyPortOnly s t) (h' : safetyPortOnly t u) : safetyPortOnly s u := by
  obtain ⟨hc, hb⟩ := h
  obtain ⟨hc', hb'⟩ := h'
  exact ⟨changesOnly_trans hc hc' (List.Subset.refl _), hb'.trans (by rw [hb])⟩

theorem onPort_safetyPortOnly (f : PortBus → PortBus) : safetyPortOnly s (s.onPort .safety f) :=
  ⟨State.onPort_only.after changesOnly_refl, rfl⟩

theorem raise_safetyPortOnly (src : Nat) (code : BitVec 16) : safetyPortOnly s (s.raise src code) :=
  ⟨State.raise_only.after changesOnly_refl, by rw [raise_bus]⟩

theorem guardFail_safetyPortOnly : safetyPortOnly s (s.guardFail .safety) :=
  ((onPort_safetyPortOnly s _).trans (onPort_safetyPortOnly _ _)).trans (raise_safetyPortOnly _ _ _)

/-- The pair that a written byte breaks is the port's own (R387). -/
theorem wrote_safetyPortOnly (a : Nat) : safetyPortOnly s (s.wrote .safety a) := by
  have hptr := onPort_safetyPortOnly s fun p => { p with ptr := (a + 1) % 4096 }
  unfold State.wrote State.when
  split
  · exact hptr.trans (guardFail_safetyPortOnly _)
  · exact hptr

/-- What is left of a discarded safety-port write: DENIED, and nothing outside the port but a GUARD_FAIL (R366). -/
theorem denied_safetyPortOnly {s u : State} (h : safetyPortOnly s u) :
    (u.busFlag .safety 3).bus.sp.stat.getLsbD 3 = true ∧ safetyPortOnly s (u.busFlag .safety 3) :=
  ⟨getLsbD_setBit_true _ (by decide), h.trans (onPort_safetyPortOnly _ _)⟩

/-- Of the complement window the safety port may write the complement of HOLD_REL, at either of its two addresses (R364). -/
theorem not_safetyPermitted {a : Nat} (hkick : a ≠ 0x0024) (hrel : a ≠ 0x004E) (hcomp : a ≠ 0x00CE) (halias : a ≠ 0x00EE) :
    ¬ (a == 0x24 || a == 0x4E || ((0x00C0 ≤ a && a ≤ 0x00FF : Bool) && 0x40 + a % 32 == 0x4E)) = true := by
  simp only [Bool.or_eq_true, Bool.and_eq_true, beq_iff_eq, decide_eq_true_eq]
  omega

/-- A plain write of the safety port at an address that R364 does not permit: a complement byte in a transfer of its own moves the pointer
before it counts as written. -/
theorem execRegisterWrite_safety_denied {s : State} {v : Byte} {single : Bool} (hup : s.busUp .safety = true)
    (hkick : (s.port .safety).ptr ≠ 0x0024) (hrel : (s.port .safety).ptr ≠ 0x004E) (hcomp : (s.port .safety).ptr ≠ 0x00CE)
    (halias : (s.port .safety).ptr ≠ 0x00EE) :
    ∃ u, safetyPortOnly s u ∧ execRegisterWrite .safety v single s = .next (u.busFlag .safety 3) := by
  unfold execRegisterWrite
  rw [hup, if_neg (by decide)]
  dsimp only
  rw [if_neg (not_safetyPermitted hkick hrel hcomp halias)]
  refine ⟨_, ?_, rfl⟩
  split
  · exact (onPort_safetyPortOnly s _).trans (wrote_safetyPortOnly _ _)
  · exact wrote_safetyPortOnly s _

theorem execGuardedValue_safety_denied {s : State} {g v : Byte} {single : Bool} (hup : s.busUp .safety = true) (hlo : 0x40 ≤ g.toNat)
    (hhi : g.toNat ≤ 0x5F) (hg : g ≠ 0x4E) :
    execGuardedValue .safety g v single s = .next ((s.wrote .safety g.toNat).busFlag .safety 3) := by
  have hne : g.toNat ≠ 0x4E := fun h => hg (BitVec.eq_of_toNat_eq h)
  unfold execGuardedValue
  rw [if_neg (by simp [hup]; omega), if_pos (by simpa using hne)]

theorem execUpdate_safety_denied {s : State} {m : Byte} (hup : s.busUp .safety = true) :
    execUpdate .safety m s = .next ((s.wrote .safety 0x20).busFlag .safety 3) := by
  unfold execUpdate
  rw [hup, if_neg (by decide)]; rfl

theorem execImm_safety_denied {s : State} {m : Byte} (hup : s.busUp .safety = true) :
    execImm .safety m s = .next ((s.wrote .safety 0x21).busFlag .safety 3) := by
  unfold execImm
  rw [hup, if_neg (by decide)]; rfl

/-! ## The statements -/

/-- Settles O20: the timeout is one rewriting of its port and one flag of it, and an unclocked byte stops before the read. -/
theorem busTimeoutEnds : Obligations.BusTimeoutEnds := by
  refine fun s bp hup => ⟨⟨_, execBusTimeout_of_up hup, State.busFlag_only.after State.onPort_only, ?_⟩, execClearOnRead_unclocked s bp⟩
  rw [busFlag_port_same, onPort_port_same]
  refine ⟨getLsbD_setBit_true _ (by decide), rfl, rfl, rfl, rfl, rfl, fun q hq => ?_, ?_, ?_⟩
  · rw [busFlag_port_of_ne _ hq, onPort_port_of_ne _ hq]
  · rw [busFlag_shadow, onPort_shadow]
  · rw [busFlag_page, onPort_page]

/-- Settles O21: every denied write is a change of the safety port alone followed by DENIED; a read splits on the byte at the pointer. -/
theorem safetyPortDenied : Obligations.SafetyPortDenied := by
  refine ⟨fun s v single hup hkick hrel hcomp halias => ?_, fun s g v single hup hlo hhi hg => ?_, fun s m hup => ⟨?_, ?_⟩, fun s hup => ?_⟩
  · obtain ⟨u, hu, hexec⟩ := execRegisterWrite_safety_denied (v := v) (single := single) hup hkick hrel hcomp halias
    exact ⟨_, hexec, denied_safetyPortOnly hu⟩
  · exact ⟨_, execGuardedValue_safety_denied hup hlo hhi hg, denied_safetyPortOnly (wrote_safetyPortOnly s _)⟩
  · obtain ⟨hstat, -, hbus⟩ := denied_safetyPortOnly (wrote_safetyPortOnly s 0x20)
    exact ⟨_, execUpdate_safety_denied hup, hstat, hbus⟩
  · obtain ⟨hstat, -, hbus⟩ := denied_safetyPortOnly (wrote_safetyPortOnly s 0x21)
    exact ⟨_, execImm_safety_denied hup, hstat, hbus⟩
  · by_cases hrc : rcAddr s.bus.sp.ptr = true
    · obtain ⟨hqs, hhp⟩ := readRc_safety_frame s
      refine ⟨_, execClearOnRead_of_rc hup hrc, hqs, hhp, fun hptr => ?_, fun hlo hhi => ?_⟩
      · rw [readRc_stat (bp := .safety) hptr]
        exact ⟨rfl, BitVec.and_not_self _⟩
      · rw [readRc_safety_of_ne (by omega), swiftByte_evt hlo hhi]; rfl
    · have hptr := mt (rcAddr_iff _).2 hrc
      exact ⟨s, execClearOnRead_of_not_rc true hrc, rfl, rfl, fun h => absurd (.inr h) hptr, fun hlo hhi => absurd (.inl ⟨hlo, hhi⟩) hptr⟩

end Sys2Proof.Machine
end

section
/-! PROOFS. Reads that latch: what a read of GTS_LATCH or MIR_STAT through one port leaves of each port (R25, R381, R492). -/
namespace Sys2Proof.Machine

open Sys2Proof.Safety

variable (s : State)

/-! ## A byte driven, and the latching reads -/

@[simp] theorem driven_port_same (bp : BusPort) (v : Byte) :
    (s.driven bp v).port bp = { s.port bp with rd := v, ptr := ((s.port bp).ptr + 1) % 4096 } := onPort_port_same ..

theorem driven_port_of_ne {bp q : BusPort} (h : q ≠ bp) (v : Byte) : (s.driven bp v).port q = s.port q := onPort_port_of_ne s h _

theorem readGts_port_of_ne {bp q : BusPort} (h : q ≠ bp) : (s.readGts bp).port q = s.port q :=
  (driven_port_of_ne _ h _).trans (onPort_port_of_ne s h _)

theorem readMir_port_of_ne {bp q : BusPort} (h : q ≠ bp) : (s.readMir bp).port q = s.port q :=
  (driven_port_of_ne _ h _).trans (onPort_port_of_ne s h _)

/-- A read of MIR_STAT takes the mirrors into its own port's latch (R381). -/
theorem readMir_mirL (bp : BusPort) : ((s.readMir bp).port bp).mirL = s.ms.mir := by
  unfold State.readMir
  rw [driven_port_same, onPort_port_same]

theorem readMir_gtsL (bp : BusPort) : ((s.readMir bp).port bp).gtsL = (s.port bp).gtsL := by
  unfold State.readMir
  rw [driven_port_same, onPort_port_same]

/-- A guarded operation leaves what the operation itself leaves of a port. -/
theorem when_port {s : State} {q : BusPort} {f : State → State} (c : Bool) (h : (f s).port q = s.port q) :
    (s.when c f).port q = s.port q := by
  unfold State.when
  split
  · exact h
  · rfl

theorem execMirStat_of_up {s : State} {bp : BusPort} (h : s.busUp bp = true) : execMirStat bp s = .next (s.readMir bp) := by
  unfold execMirStat State.when
  rw [if_pos h]

/-! ## The statement -/

/-- Settles O19: each of the two reads rewrites its own port alone, and that of MIR_STAT writes no field of the GTS latch. -/
theorem latchesApart : Obligations.LatchesApart := by
  intro s bp q hq
  refine ⟨⟨_, rfl, ?_⟩, ⟨_, rfl, ?_⟩, fun hup => ⟨_, execMirStat_of_up hup, readMir_mirL s bp, readMir_gtsL s bp⟩⟩
  · exact when_port _ (readGts_port_of_ne s hq)
  · exact when_port _ (readMir_port_of_ne s hq)

end Sys2Proof.Machine
end

section
/-! PROOFS. What every command and every step keeps: the invariant of Safety.lean, the fuses blown (R472), and the queue of waiting
commands. -/
namespace Sys2Proof.Machine

set_option Elab.async false
open Sys2Proof.Safety

/-! ## Every command -/

/-- Every command answers a next state, and keeps the queue of waiting commands, the blown fuses and the invariant: each by the lemma of
its meaning. -/
theorem exec_good {q : List Instr × BitVec 5} {s : State} (h : Good q s) : (c : Instr) → GoodO q (exec c s)
  | .aonPowerOn _ => execAonPowerOn_good h
  | .tier0Ready _ => execTier0Ready_good h
  | .moscStart => execMoscStart_good h
  | .clockLoss => execClockLoss_good h
  | .aoscFreq _ => execAoscFreq_good h
  | .gtsCalibration _ => execGtsCalibration_good h
  | .gtsWrap => execGtsWrap_good h
  | .pllLock => execPllLock_good h
  | .dllCal => execDllCal_good h
  | .domainSwitchRequest _ _ => execDomainSwitchRequest_good h
  | .domainPowerUpDone _ => execDomainPowerUpDone_good h
  | .domainSwitchOffDone _ => execDomainSwitchOffDone_good h
  | .taskDeadline _ => execTaskDeadline_good h
  | .taskMpu _ => execTaskMpu_good h
  | .limpSourceChange _ => execLimpSourceChange_good h
  | .softConnectComplete => execSoftConnectComplete_good h
  | .softConnect => execSoftConnect_good h
  | .softConnectRetry => execSoftConnectRetry_good h
  | .imageVerification => execImageVerification_good h
  | .configurationLoad => execConfigurationLoad_good h
  | .takeover _ => execTakeover_good h
  | .takeoverDeferralExpiry _ => execTakeoverDeferralExpiry_good h
  | .dormantIdleExpiry _ => execDormantIdleExpiry_good h
  | .dormantEntry _ _ => execDormantEntry_good h
  | .dormantWake _ => execDormantWake_good h
  | .wakeTimer => execWakeTimer_good h
  | .wakeRunReached => execWakeRunReached_good h
  | .shipEnt _ _ => execShipEnt_good h
  | .shipDelayEnd => execShipDelayEnd_good h
  | .shipForceOpen => execShipForceOpen_good h
  | .shipExit _ => execShipExit_good h
  | .pbtnShipExit => execPbtnShipExit_good h
  | .pbtnPress => execPbtnPress_good h
  | .pbtnRelease _ => execPbtnRelease_good h
  | .pbtnForceOff => execPbtnForceOff_good h
  | .batteryCut => execBatteryCut_good h
  | .batteryCutEnd => execBatteryCutEnd_good h
  | .controlTick _ => execControlTick_good h
  | .peakTimeout => execPeakTimeout_good h
  | .peakRecoveryEnd => execPeakRecoveryEnd_good h
  | .phaseRemove _ => execPhaseRemove_good h
  | .drainComplete _ => execDrainComplete_good h
  | .selectorSettle _ => execSelectorSettle_good h
  | .softStartComplete _ => execSoftStartComplete_good h
  | .selectorStuck _ => execSelectorStuck_good h
  | .selectorOverlap _ => execSelectorOverlap_good h
  | .quadPowerOff => execQuadPowerOff_good h
  | .fastSwapSignal _ => execFastSwapSignal_good h
  | .fplace0 _ _ => execFplace0_good h
  | .fplace1 _ _ => execFplace1_good h
  | .fpenSet _ _ => execFpenSet_good h
  | .fpenClear _ _ => execFpenClear_good h
  | .replacementTick _ => execReplacementTick_good h
  | .switchingPeriod _ _ _ => execSwitchingPeriod_good h
  | .oclHold _ => execOclHold_good h
  | .phaseShort _ _ => execPhaseShort_good h
  | .quadOvertemp _ _ => execQuadOvertemp_good h
  | .tuneMeasurementDone _ _ _ => execTuneMeasurementDone_good h
  | .fswApply => execFswApply_good h
  | .syncLock => execSyncLock_good h
  | .syncLost _ => execSyncLost_good h
  | .syncReacquisition => execSyncReacquisition_good h
  | .diodeEmulationEnd _ => execDiodeEmulationEnd_good h
  | .lastFaultOffer => execLastFaultOffer_good h
  | .pcAttach _ _ => execPcAttach_good h
  | .pcRemoval _ => execPcRemoval_good h
  | .batAttach => execBatAttach_good h
  | .batDetach => execBatDetach_good h
  | .batterySwitchReconnect _ => execBatterySwitchReconnect_good h
  | .supplement _ => execSupplement_good h
  | .batterySwitchRelease => execBatterySwitchRelease_good h
  | .weirLearn _ _ => execWeirLearn_good h
  | .weirProbe _ => execWeirProbe_good h
  | .trackerInterval _ _ _ => execTrackerInterval_good h
  | .mpptScanStart => execMpptScanStart_good h
  | .mpptScanStep _ _ => execMpptScanStep_good h
  | .handover _ _ => execHandover_good h
  | .dwellEnd => execDwellEnd_good h
  | .nobatCollapse => execNobatCollapse_good h
  | .revCutoff _ => execRevCutoff_good h
  | .chemCfg _ _ => execChemCfg_good h
  | .teaselTick _ => execTeaselTick_good h
  | .prechargeTimer => execPrechargeTimer_good h
  | .fastChargeTimer => execFastChargeTimer_good h
  | .topoffTimer => execTopoffTimer_good h
  | .timerSuspensionRestart _ => execTimerSuspensionRestart_good h
  | .zone _ _ _ => execZone_good h
  | .ntcFault _ => execNtcFault_good h
  | .cellOv _ => execCellOv_good h
  | .sampleSet _ => execSampleSet_good h
  | .reportedCellVoltage _ _ _ => execReportedCellVoltage_good h
  | .autoZero => execAutoZero_good h
  | .mirrorUpdate _ => execMirrorUpdate_good h
  | .balancingFrame => execBalancingFrame_good h
  | .balanceOffTime _ => execBalanceOffTime_good h
  | .quickSweepInterval => execQuickSweepInterval_good h
  | .sweepRefusalRetry => execSweepRefusalRetry_good h
  | .sweepBaselineEnd _ => execSweepBaselineEnd_good h
  | .sweepPoint _ => execSweepPoint_good h
  | .sweepFit _ => execSweepFit_good h
  | .sweepAborted _ => execSweepAborted_good h
  | .restCorrection => execRestCorrection_good h
  | .gradeDecay _ => execGradeDecay_good h
  | .modelMismatch _ _ _ => execModelMismatch_good h
  | .ccAttach _ _ => execCcAttach_good h
  | .attachDebounceEnd _ _ _ _ => execAttachDebounceEnd_good h
  | .detach _ => execDetach_good h
  | .portDischargeDone _ => execPortDischargeDone_good h
  | .sourceCapabilities _ _ _ _ => execSourceCapabilities_good h
  | .pdRequest _ _ _ _ => execPdRequest_good h
  | .pdAccept _ => execPdAccept_good h
  | .psRdy _ => execPsRdy_good h
  | .pdWait _ => execPdWait_good h
  | .waitRetry _ => execWaitRetry_good h
  | .pdReject _ => execPdReject_good h
  | .fallbackRerequest _ => execFallbackRerequest_good h
  | .ppsRerequest _ => execPpsRerequest_good h
  | .eprMode _ _ => execEprMode_good h
  | .eprKeepalive _ => execEprKeepalive_good h
  | .cableDiscovery _ _ => execCableDiscovery_good h
  | .vconnOc _ => execVconnOc_good h
  | .sourceCapabilitiesUpdate _ => execSourceCapabilitiesUpdate_good h
  | .sinkCapabilities _ _ _ => execSinkCapabilities_good h
  | .prSwapReceived _ => execPrSwapReceived_good h
  | .drSwapReceived _ => execDrSwapReceived_good h
  | .vconnSwapReceived _ => execVconnSwapReceived_good h
  | .hardResetReceived _ => execHardResetReceived_good h
  | .sourceCapabilitiesTimeout _ => execSourceCapabilitiesTimeout_good h
  | .hardResetSourceRestore _ => execHardResetSourceRestore_good h
  | .securityRequest _ _ _ _ => execSecurityRequest_good h
  | .securityResponse _ _ _ => execSecurityResponse_good h
  | .getSourceCap _ => execGetSourceCap_good h
  | .getSinkCap _ => execGetSinkCap_good h
  | .getSourceCapExtended _ => execGetSourceCapExtended_good h
  | .getStatus _ => execGetStatus_good h
  | .getRevision _ => execGetRevision_good h
  | .getManufacturerInfo _ => execGetManufacturerInfo_good h
  | .getBatteryCap _ => execGetBatteryCap_good h
  | .getBatteryStatus _ => execGetBatteryStatus_good h
  | .alert _ _ => execAlert_good h
  | .softReset _ => execSoftReset_good h
  | .discoverIdentity _ => execDiscoverIdentity_good h
  | .unsupportedVdm _ => execUnsupportedVdm_good h
  | .bist _ _ _ => execBist_good h
  | .onDelayExpiry => execOnDelayExpiry_good h
  | .railGood _ => execRailGood_good h
  | .upTimeout => execUpTimeout_good h
  | .nobatSupplyReturn => execNobatSupplyReturn_good h
  | .railFault _ => execRailFault_good h
  | .tpfwExpiry => execTpfwExpiry_good h
  | .railFallDone _ => execRailFallDone_good h
  | .fallTimeout => execFallTimeout_good h
  | .offDelayExpiry => execOffDelayExpiry_good h
  | .aux2MoveDone _ => execAux2MoveDone_good h
  | .nrstoRelease => execNrstoRelease_good h
  | .nrstoPulseEnd => execNrstoPulseEnd_good h
  | .gateSupply _ => execGateSupply_good h
  | .quadSensor _ => execQuadSensor_good h
  | .sampleFault _ _ => execSampleFault_good h
  | .vbusSwitch _ => execVbusSwitch_good h
  | .portOv _ _ => execPortOv_good h
  | .pcReverse _ => execPcReverse_good h
  | .batswOc _ => execBatswOc_good h
  | .lockstep => execLockstep_good h
  | .nvmEcc => execNvmEcc_good h
  | .sramEcc1 => execSramEcc1_good h
  | .sramEcc2 => execSramEcc2_good h
  | .retParity _ => execRetParity_good h
  | .secondEvaluation _ _ _ => execSecondEvaluation_good h
  | .quietPeriodEnd _ => execQuietPeriodEnd_good h
  | .holdRel _ _ _ _ => execHoldRel_good h
  | .fecCapture _ _ _ _ => execFecCapture_good h
  | .finj _ _ => execFinj_good h
  | .testWordRead => execTestWordRead_good h
  | .wdgBootPeriodEnd => execWdgBootPeriodEnd_good h
  | .wdgCheckinCall _ => execWdgCheckinCall_good h
  | .wdgWindowOpen => execWdgWindowOpen_good h
  | .wdgCheckinWrite _ _ => execWdgCheckinWrite_good h
  | .wdgLate => execWdgLate_good h
  | .wdoPulseEnd => execWdoPulseEnd_good h
  | .wdgCfg _ _ => execWdgCfg_good h
  | .wdgPer _ _ => execWdgPer_good h
  | .hcwKick _ _ => execHcwKick_good h
  | .hcwExpiry => execHcwExpiry_good h
  | .addressMatchDormant _ => execAddressMatchDormant_good h
  | .pointerSet _ _ => execPointerSet_good h
  | .registerWrite _ _ _ => execRegisterWrite_good h
  | .controlLineRead _ => execControlLineRead_good h
  | .lineSupplied _ => execLineSupplied_good h
  | .stretchLimit _ => execStretchLimit_good h
  | .clearOnRead _ _ => execClearOnRead_good h
  | .gtsLatch _ => execGtsLatch_good h
  | .mirStat _ => execMirStat_good h
  | .busTimeout _ => execBusTimeout_good h
  | .filterApply _ => execFilterApply_good h
  | .attentionWrite _ => execAttentionWrite_good h
  | .attentionRetry _ => execAttentionRetry_good h
  | .attentionRepeat _ => execAttentionRepeat_good h
  | .guardedValue _ _ _ _ => execGuardedValue_good h
  | .update _ _ => execUpdate_good h
  | .updateApply => execUpdateApply_good h
  | .imm _ _ => execImm_good h
  | .immWriteApply => execImmWriteApply_good h
  | .stkUpdEdge => execStkUpdEdge_good h
  | .stkUpdApply => execStkUpdApply_good h
  | .mailboxRing _ => execMailboxRing_good h
  | .mailboxDone _ => execMailboxDone_good h
  | .commandCompletion _ => execCommandCompletion_good h
  | .mailboxAutoRelease _ => execMailboxAutoRelease_good h
  | .sysStatus _ => execSysStatus_good h
  | .eventRead _ => execEventRead_good h
  | .queueStat _ => execQueueStat_good h
  | .queueClear _ => execQueueClear_good h
  | .dormantCfg _ => execDormantCfg_good h
  | .dormantEnter _ _ => execDormantEnter_good h
  | .mbxReset _ => execMbxReset_good h
  | .withdraw _ => execWithdraw_good h
  | .chgQuery _ => execChgQuery_good h
  | .chgStart _ => execChgStart_good h
  | .chgStop _ => execChgStop_good h
  | .zoneSet _ => execZoneSet_good h
  | .zoneGet _ => execZoneGet_good h
  | .safeSetCmd _ => execSafeSetCmd_good h
  | .safeGet _ => execSafeGet_good h
  | .placeQuery _ => execPlaceQuery_good h
  | .basinQuery _ => execBasinQuery_good h
  | .pathQuery _ => execPathQuery_good h
  | .pathSet _ => execPathSet_good h
  | .hostCap _ => execHostCap_good h
  | .coefSet _ => execCoefSet_good h
  | .coefGet _ => execCoefGet_good h
  | .tune _ => execTune_good h
  | .measQuery _ => execMeasQuery_good h
  | .ccGet _ => execCcGet_good h
  | .ccSet _ => execCcSet_good h
  | .sweep _ m => execSweep_good (a1 := m) h
  | .sweepStop _ => execSweepStop_good h
  | .pointsGet _ => execPointsGet_good h
  | .modelGet _ => execModelGet_good h
  | .chemSet _ => execChemSet_good h
  | .chemGet _ => execChemGet_good h
  | .portQuery _ => execPortQuery_good h
  | .prSwap _ => execPrSwap_good h
  | .drSwap _ => execDrSwap_good h
  | .auth _ => execAuth_good h
  | .rootSet _ => execRootSet_good h
  | .seqUp _ => execSeqUp_good h
  | .seqDown _ => execSeqDown_good h
  | .nrstPulse _ => execNrstPulse_good h
  | .logRead _ => execLogRead_good h
  | .faultQuery _ => execFaultQuery_good h
  | .recGet _ => execRecGet_good h
  | .lfGet _ => execLfGet_good h
  | .faultClear _ => execFaultClear_good h
  | .release _ _ => execRelease_good h
  | .unfence _ => execUnfence_good h
  | .fcntClear _ => execFcntClear_good h
  | .fecGet _ => execFecGet_good h
  | .nvmStore _ => execNvmStore_good h
  | .nvmStat _ => execNvmStat_good h
  | .imageLoad _ => execImageLoad_good h
  | .imageAct _ => execImageAct_good h
  | .addrSet _ => execAddrSet_good h
  | .idGet _ => execIdGet_good h
  | .certGet _ => execCertGet_good h
  | .logSign _ => execLogSign_good h
  | .stackStat _ => execStackStat_good h
  | .stackSet _ => execStackSet_good h
  | .stackSeq _ => execStackSeq_good h
  | .stackDormant _ => execStackDormant_good h
  | .wdgQuery _ => execWdgQuery_good h
  | .evidGet _ => execEvidGet_good h
  | .wcntClear _ => execWcntClear_good h
  | .stackCycleStart _ => execStackCycleStart_good h
  | .slotStart _ => execSlotStart_good h
  | .managerFrame _ => execManagerFrame_good h
  | .memberReport _ _ _ => execMemberReport_good h
  | .joinRequest _ _ => execJoinRequest_good h
  | .joinCertificate _ _ _ => execJoinCertificate_good h
  | .joinSignature _ _ _ => execJoinSignature_good h
  | .scmdNone arg => execScmdNone_good (a0 := arg) h
  | .time1 _ => execTime1_good h
  | .time2 _ => execTime2_good h
  | .scap _ => execScap_good h
  | .safeg _ => execSafeg_good h
  | .expectLo _ => execExpectLo_good h
  | .expectHi _ => execExpectHi_good h
  | .delay _ => execDelay_good h
  | .tstep _ => execTstep_good h
  | .seqLo _ => execSeqLo_good h
  | .seqHi _ => execSeqHi_good h
  | .seqGo _ => execSeqGo_good h
  | .dormant _ => execDormant_good h
  | .jstart _ => execJstart_good h
  | .jdata _ => execJdata_good h
  | .jresult _ => execJresult_good h
  | .slotListenEnd _ => execSlotListenEnd_good h
  | .joinTimeout => execJoinTimeout_good h
  | .joinRetry => execJoinRetry_good h
  | .mgrSilent => execMgrSilent_good h
  | .slotFail _ => execSlotFail_good h
  | .slot0Collision _ => execSlot0Collision_good h
  | .alignLost => execAlignLost_good h
  | .alignLostLift => execAlignLostLift_good h
  | .frameCrc => execFrameCrc_good h
  | .referenceFrame _ _ _ _ => execReferenceFrame_good h
  | .cascRefLost => execCascRefLost_good h
  | .cascRefLostLift => execCascRefLostLift_good h
  | .stackFenceLift _ => execStackFenceLift_good h
  | .stackElectionClose => execStackElectionClose_good h
  | .stkTakeover => execStkTakeover_good h
  | .managerReclaim => execManagerReclaim_good h
  | .stackDormantTimeout => execStackDormantTimeout_good h
  | .nvmRequestStart _ => execNvmRequestStart_good h
  | .nvmProgramDone _ _ => execNvmProgramDone_good h
  | .nvmEnergyWaitExpiry => execNvmEnergyWaitExpiry_good h
  | .nvmCut => execNvmCut_good h
  | .fuse _ _ _ => execFuse_good h
  | .fuseBlowDone _ => execFuseBlowDone_good h
  | .aonPowerLoss => execAonPowerLoss_good h
  | .rpAdvertisementChange _ _ => execRpAdvertisementChange_good h
  | .vsafe5vReturn _ => execVsafe5vReturn_good h
  | .prSwapNoAnswer _ => execPrSwapNoAnswer_good h
  | .debugHalt _ => execDebugHalt_good h

/-! ## Every step -/

/-- The state itself meets what it starts from. -/
theorem good_self {s : State} (h : Inv s) : Good (s.pending, s.grd.fuse) s := ⟨⟨rfl, BitVec.and_self⟩, h⟩

/-- A step keeps the blown fuses and the invariant, and leaves in the queue what stood behind its front. -/
theorem step_good {s t : State} (h : Inv s) (hs : step s = .next t) : Good (s.pending.tail, s.grd.fuse) t := by
  unfold step at hs
  split at hs
  next hp =>
    obtain rfl := Host.Outcome.next.inj hs
    rw [hp, List.tail_nil, ← hp]
    exact State.idleTick_good (good_self h)
  next c rest hp =>
    obtain ⟨u, hu, hg⟩ := exec_good (q := (rest, s.grd.fuse)) (s := { s with pending := rest }) ⟨⟨rfl, BitVec.and_self⟩, h⟩ c
    obtain rfl := Host.Outcome.next.inj (hu.symm.trans hs)
    rw [hp, List.tail_cons]
    exact hg

/-! ## The statements -/

/-- Settles O6: the invariant is part of what a step keeps. -/
theorem invStep : Obligations.InvStep := fun _ _ h hs => (step_good h hs).2

/-- Settles O7: the blown fuses are part of what a step keeps. -/
theorem fusesStayBlown : Obligations.FusesStayBlown := fun _ _ h hs => (step_good h hs).1.2

/-- Settles O8: every command answers a state with the queue it started from. -/
theorem everyCommandAnswers : Obligations.EveryCommandAnswers := by
  intro c s h
  obtain ⟨t, ht, ⟨hp, -⟩, -⟩ := exec_good (good_self h) c
  exact ⟨t, ht, hp⟩

end Sys2Proof.Machine
end

section
/-! PROOFS. Frames of outcomes: what the state that a command answers leaves as it was (`frame` of Safety.lean), from the frames of the shared
operations that its meaning is made of. -/
namespace Sys2Proof.Machine

set_option Elab.async false
open Sys2Proof.Safety

/-- Where the outcome is a next state, at most the parts of `l` differ from `s`; `frame l c` says it of `exec c s` in every state. -/
def answersOnly (l : List Part) (s : State) (o : Out) : Prop := ∀ t, o = .next t → changesOnly l s t

variable {l : List Part} {s u : State}

theorem answersOnly_next (h : changesOnly l s u) : answersOnly l s (.next u) := by
  rintro _ ⟨⟩
  exact h

theorem answersOnly_ite {c : Prop} [Decidable c] {a b : Out} (ha : c → answersOnly l s a) (hb : ¬ c → answersOnly l s b) :
    answersOnly l s (if c then a else b) := by
  split
  · exact ha ‹_›
  · exact hb ‹_›

/-- A change of the path states is noted in the power path and raised (R200). -/
theorem answersOnly_settle {s0 : State} (h : changesOnly l s u) (hl : decide ([.qs, .pp] ⊆ l) = true := by decide) :
    answersOnly l s (settle s0 u) := answersOnly_next (State.pathNote_only.after h hl)

/-- A command of a Type-C port first clears what the port sent (R283). -/
theorem answersOnly_onPd {t : TcId} {f : State → State} (hf : ∀ u, changesOnly l u (f u))
    (hl : decide ([.flt, .tca, .tcb] ⊆ l) = true := by decide) (hl' : decide ([.qs, .pp] ⊆ l) = true := by decide) :
    answersOnly l s (s.onPd t f) :=
  answersOnly_settle (when_only changesOnly_refl fun _ => changesOnly_trans (State.txClear_only.after changesOnly_refl hl) (hf _) (List.Subset.refl _)) hl'

theorem answersOnly_tellData {t : TcId} {f : List Byte → PdMsg} : answersOnly [.qs, .pp, .flt, .tca, .tcb, .free] s (s.tellData t f) :=
  answersOnly_onPd fun _ => when_only changesOnly_refl fun _ => useFree_only.after (State.tx_only.after changesOnly_refl)

/-! ## Reports of class 4 outside DORMANT (R325) -/

/-- What a forced safe state may change outside DORMANT (R325). -/
abbrev forcedParts : List Part := [.sys, .qs, .bus, .grd, .fab, .cc, .pp, .chg, .sw, .seq, .flt, .mb, .stk, .nvm, .tca, .tcb, .free]

/-- A checker that reports where its trigger holds. -/
theorem when_checkerFail_forced {c : Bool} {src d : Nat} {cause : BitVec 16} (h : s.sys.mode ≠ .dormant) :
    changesOnly forcedParts s (s.when c fun t => t.checkerFail src cause d) := by
  unfold State.when
  split
  · exact (State.checkerFail_awake h).1
  · exact changesOnly_refl

/-- A fault of the PWM clock is reported by a quad with a busy phase (R17). -/
theorem pwmFault_forced {cause : BitVec 16} (h : s.sys.mode ≠ .dormant) : changesOnly forcedParts s (s.pwmFault cause) := by
  unfold State.pwmFault
  split
  · exact (State.checkerFail_awake h).1
  · exact changesOnly_refl

/-- The three paths take their period one after the other (R137). -/
theorem pathPeriods_forced {a b c : PathSample} (h : s.sys.mode ≠ .dormant) :
    changesOnly forcedParts s (((s.pathPeriod .pa a).pathPeriod .pb b).pathPeriod .pc c) := by
  obtain ⟨ha, hma⟩ := State.pathPeriod_awake (p := .pa) (m := a) h
  obtain ⟨hb, hmb⟩ := State.pathPeriod_awake (p := .pb) (m := b) hma
  exact (State.pathPeriod_awake hmb).1.after (hb.after ha)

end Sys2Proof.Machine
end

section
/-! PROOFS. What each of the clock, power-domain, start, DORMANT, SHIP and button commands leaves as it was, by the shared operations its meaning is made of. -/
namespace Sys2Proof.Machine

set_option Elab.async false
open Sys2Proof.Safety

variable {s : State}

/-! ## The commands -/

theorem execGtsCalibration_only {count : Nat} : answersOnly [.clk] s (execGtsCalibration count s) := by
  unfold execGtsCalibration
  exact answersOnly_next (when_only changesOnly_refl fun _ => onClk_only.after changesOnly_refl)

theorem execImageVerification_only : answersOnly [.sys] s (execImageVerification s) := by
  unfold execImageVerification
  exact answersOnly_next (when_only changesOnly_refl fun _ => State.imageNext_only.after changesOnly_refl)

theorem execAoscFreq_only {ps : Nat} : answersOnly [.qs, .flt] s (execAoscFreq ps s) := by
  unfold execAoscFreq
  exact answersOnly_next (when_only changesOnly_refl fun _ => State.failNote_only.after changesOnly_refl)

theorem execGtsWrap_only : answersOnly [.clk, .qs] s (execGtsWrap s) := by
  unfold execGtsWrap
  exact answersOnly_next (when_only changesOnly_refl fun _ => State.gtsWrap_only.after (onClk_only.after changesOnly_refl))

theorem execSoftConnectComplete_only : answersOnly [.qs, .pp] s (execSoftConnectComplete s) := by
  unfold execSoftConnectComplete
  exact answersOnly_settle (when_only changesOnly_refl fun _ => onPp_only.after changesOnly_refl)

theorem execSoftConnectRetry_only : answersOnly [.qs, .pp] s (execSoftConnectRetry s) := by
  unfold execSoftConnectRetry
  exact answersOnly_settle (when_only changesOnly_refl fun _ => State.switchClose_only.after (onPp_only.after changesOnly_refl))

theorem execPbtnPress_only : answersOnly [.sys, .qs] s (execPbtnPress s) := by
  unfold execPbtnPress
  exact answersOnly_next (State.shipCancel_only.after (onSys_only.after changesOnly_refl))

theorem execMoscStart_only : answersOnly [.clk, .sys, .qs] s (execMoscStart s) := by
  unfold execMoscStart
  exact answersOnly_ite (fun _ => answersOnly_next
    (State.domRequest_only.after (State.bringUp_only.after (State.gtsAdd_only.after (onClk_only.after changesOnly_refl)))))
    (fun _ => answersOnly_next changesOnly_refl)

theorem execSoftConnect_only : answersOnly [.qs, .pp, .flt] s (execSoftConnect s) := by
  unfold execSoftConnect
  exact answersOnly_settle (when_only changesOnly_refl fun _ => State.softFail_only.after changesOnly_refl)

theorem execShipEnt_only {c : BitVec 8} {single : Bool} : answersOnly [.sys, .qs, .bus] s (execShipEnt c single s) := by
  unfold execShipEnt
  exact answersOnly_next (State.guardPair_only changesOnly_refl fun _ _ => State.shipWrite_only.after changesOnly_refl)

theorem execPbtnForceOff_only : answersOnly [.qs, .seq, .nvm] s (execPbtnForceOff s) := by
  unfold execPbtnForceOff
  exact answersOnly_ite (fun _ => answersOnly_next (State.downCause_only.after (onSeq_only.after (State.raise_only.after changesOnly_refl))))
    (fun _ => answersOnly_next changesOnly_refl)

theorem execTakeover_only {p : PortId} : answersOnly [.sys, .qs, .fab, .cc, .pp, .sw] s (execTakeover p s) := by
  unfold execTakeover
  exact answersOnly_settle (when_only changesOnly_refl fun _ => State.takeOver_only.after changesOnly_refl)

theorem execTakeoverDeferralExpiry_only {p : PortId} : answersOnly [.sys, .qs, .fab, .cc, .pp, .sw] s (execTakeoverDeferralExpiry p s) := by
  unfold execTakeoverDeferralExpiry
  exact answersOnly_settle (when_only changesOnly_refl fun _ => State.takeOver_only.after changesOnly_refl)

theorem execTier0Ready_only {n : Nodes} : answersOnly [.clk, .sys, .qs, .fab, .pp, .sw, .nvm] s (execTier0Ready n s) := by
  unfold execTier0Ready
  exact answersOnly_ite (fun _ => answersOnly_settle
    (State.romStart_only.after (State.switchClose_only.after (State.placeChanges_only.after (State.limpOn_only.after (onSys_only.after (onPp_only.after (State.seeNodes_only.after changesOnly_refl)))))))) (fun _ => answersOnly_next changesOnly_refl)

theorem execDormantIdleExpiry_only {load : Nat} : answersOnly [.sys, .qs, .bus, .pp, .seq, .mb, .nvm, .tca, .tcb] s (execDormantIdleExpiry load s) :=
    by
  unfold execDormantIdleExpiry
  exact answersOnly_settle (when_only changesOnly_refl fun _ => State.dormBegin_only.after changesOnly_refl)

theorem execDomainSwitchRequest_only {d : Fin 14} {on : Bool} : answersOnly [.clk, .sys, .qs, .bus, .fab, .cc, .pp, .ms, .sw, .seq] s
    (execDomainSwitchRequest d on s) := by
  unfold execDomainSwitchRequest
  exact answersOnly_ite (fun _ => answersOnly_next changesOnly_refl) (fun _ => answersOnly_ite (fun _ => answersOnly_next
    (State.domRequest_only.after (foldl_only (when_only changesOnly_refl fun _ => onClk_only.after changesOnly_refl)
    fun _ _ => State.domRequest_only.after changesOnly_refl))) (fun _ => answersOnly_ite (fun _ => answersOnly_next changesOnly_refl)
    (fun _ => answersOnly_next (State.isolateServed_only.after (State.domRequest_only.after changesOnly_refl)))))

theorem execDomainPowerUpDone_only {d : Fin 14} : answersOnly [.sys, .qs, .bus, .fab, .cc, .pp, .ms, .sw, .seq, .flt] s (execDomainPowerUpDone d s)
    := by
  unfold execDomainPowerUpDone
  exact answersOnly_ite (fun _ => answersOnly_next (State.domDone_only.after changesOnly_refl)) (fun _ => answersOnly_next changesOnly_refl)

theorem execDomainSwitchOffDone_only {d : Fin 14} : answersOnly [.sys, .qs, .bus, .fab, .cc, .pp, .ms, .sw, .seq, .flt] s (execDomainSwitchOffDone d
    s) := by
  unfold execDomainSwitchOffDone
  exact answersOnly_ite (fun _ => answersOnly_next (State.domDone_only.after changesOnly_refl)) (fun _ => answersOnly_next changesOnly_refl)

theorem execLimpSourceChange_only {n : Nodes} : answersOnly [.sys, .qs, .fab, .cc, .pp, .sw, .seq, .mb, .nvm, .tca, .tcb] s (execLimpSourceChange n
    s) := by
  unfold execLimpSourceChange
  dsimp only
  split
  · exact answersOnly_ite (fun _ => answersOnly_settle
      (State.sinkEnded_only.after (State.limpMove_only.after (State.batHw_only.after (State.seeNodes_only.after changesOnly_refl)))))
      (fun _ => answersOnly_next changesOnly_refl)
  · exact answersOnly_ite (fun _ => answersOnly_settle
      (State.limpMove_only.after (State.batHw_only.after (State.seeNodes_only.after changesOnly_refl)))) (fun _ => answersOnly_next changesOnly_refl)

theorem execDormantWake_only {mask : BitVec 16} : answersOnly [.clk, .sys, .qs, .bus, .pp, .ms, .seq, .wd, .mb, .stk, .nvm, .tca, .tcb] s
    (execDormantWake mask s) := by
  unfold execDormantWake
  exact answersOnly_settle (State.wakeFrom_only.after changesOnly_refl)

theorem execWakeTimer_only : answersOnly [.clk, .sys, .qs, .bus, .pp, .ms, .seq, .wd, .mb, .stk, .nvm, .tca, .tcb] s (execWakeTimer s) := by
  unfold execWakeTimer
  exact answersOnly_settle (when_only changesOnly_refl fun _ => State.wakeFrom_only.after changesOnly_refl)

theorem execPbtnRelease_only {held : Nat} : answersOnly [.clk, .sys, .qs, .bus, .fab, .pp, .ms, .sw, .seq, .flt, .wd, .mb, .stk, .nvm, .tca, .tcb] s
    (execPbtnRelease held s) := by
  unfold execPbtnRelease
  exact answersOnly_settle (when_only (onSys_only.after changesOnly_refl) fun _ => State.pressEnd_only.after changesOnly_refl)

theorem execWakeRunReached_only : answersOnly [.sys, .qs, .bus, .grd, .fab, .cc, .pp, .chg, .ms, .sw, .seq, .flt, .wd, .mb, .stk, .nvm, .free] s
    (execWakeRunReached s) := by
  unfold execWakeRunReached
  exact answersOnly_settle (when_only changesOnly_refl fun _ => State.wakeRun_only.after changesOnly_refl)

/-! ## Commands that may report a failure of class 4 (R325) -/

theorem execPllLock_forced (h : s.sys.mode ≠ .dormant) : answersOnly forcedParts s (execPllLock s) :=
  answersOnly_settle (pwmFault_forced h)

theorem execDllCal_forced (h : s.sys.mode ≠ .dormant) : answersOnly forcedParts s (execDllCal s) :=
  answersOnly_settle (pwmFault_forced h)

/-! ## The statement -/

/-- Settles O53: the frame of each command. -/
theorem frameClockStart : Obligations.FrameClockStart :=
  ⟨fun _ _ => execGtsCalibration_only, fun _ => execImageVerification_only, fun _ _ => execAoscFreq_only, fun _ => execGtsWrap_only,
    fun _ => execSoftConnectComplete_only, fun _ => execSoftConnectRetry_only, fun _ => execPbtnPress_only, fun _ => execMoscStart_only,
    fun _ => execSoftConnect_only, fun _ _ _ => execShipEnt_only, fun _ => execPbtnForceOff_only, fun _ _ => execTakeover_only,
    fun _ _ => execTakeoverDeferralExpiry_only, fun _ _ => execTier0Ready_only, fun _ _ => execDormantIdleExpiry_only,
    fun _ _ _ => execDomainSwitchRequest_only, fun _ _ => execDomainPowerUpDone_only, fun _ _ => execDomainSwitchOffDone_only,
    fun _ _ => execLimpSourceChange_only, fun _ _ => execDormantWake_only, fun _ => execWakeTimer_only, fun _ _ => execPbtnRelease_only,
    fun _ => execWakeRunReached_only, fun _ _ h => execPllLock_forced h _, fun _ _ h => execDllCal_forced h _⟩

end Sys2Proof.Machine
end

section
/-! PROOFS. What each of the phase-fabric, conversion and power-path commands leaves as it was, by the shared operations its meaning is made of. -/
namespace Sys2Proof.Machine

set_option Elab.async false
open Sys2Proof.Safety

variable {s : State}

/-! ## The commands -/

theorem execPeakRecoveryEnd_only : answersOnly [.fab] s (execPeakRecoveryEnd s) := by
  unfold execPeakRecoveryEnd
  exact answersOnly_next (when_only changesOnly_refl fun _ => onFab_only.after changesOnly_refl)

theorem execSoftStartComplete_only {i : Fin 8} : answersOnly [.fab] s (execSoftStartComplete i s) := by
  unfold execSoftStartComplete
  exact answersOnly_next (State.startDone_only.after changesOnly_refl)

theorem execOclHold_only {i : Fin 8} : answersOnly [.qs] s (execOclHold i s) := by
  unfold execOclHold
  exact answersOnly_next (when_only changesOnly_refl fun _ => State.raise_only.after changesOnly_refl)

theorem execSyncReacquisition_only : answersOnly [.cc] s (execSyncReacquisition s) := by
  unfold execSyncReacquisition
  exact answersOnly_next (when_only changesOnly_refl fun _ => onCc_only.after changesOnly_refl)

theorem execDiodeEmulationEnd_only {p : PortId} : answersOnly [.cc] s (execDiodeEmulationEnd p s) := by
  unfold execDiodeEmulationEnd
  exact answersOnly_next (when_only changesOnly_refl fun _ => onCc_only.after changesOnly_refl)

theorem execWeirProbe_only {t : TcId} : answersOnly [.pp] s (execWeirProbe t s) := by
  unfold execWeirProbe
  dsimp only
  split
  · exact answersOnly_next (when_only changesOnly_refl fun _ => State.setLearn_only.after changesOnly_refl)
  · exact answersOnly_next changesOnly_refl

theorem execTrackerInterval_only {v : Nat} {i : Nat} {won : Bool} : answersOnly [.pp] s (execTrackerInterval v i won s) := by
  unfold execTrackerInterval
  exact answersOnly_ite (fun _ => answersOnly_next changesOnly_refl) (fun _ => answersOnly_next (when_only (onPp_only.after changesOnly_refl)
    fun _ => State.scanBegin_only.after changesOnly_refl))

theorem execMpptScanStart_only : answersOnly [.pp] s (execMpptScanStart s) := by
  unfold execMpptScanStart
  exact answersOnly_next (when_only changesOnly_refl fun _ => State.scanBegin_only.after changesOnly_refl)

theorem execDwellEnd_only : answersOnly [.pp] s (execDwellEnd s) := by
  unfold execDwellEnd
  exact answersOnly_next (onPp_only.after changesOnly_refl)

theorem execPeakTimeout_only : answersOnly [.qs, .fab] s (execPeakTimeout s) := by
  unfold execPeakTimeout
  exact answersOnly_next (when_only changesOnly_refl fun _ => State.peakEnd_only.after changesOnly_refl)

theorem execQuadPowerOff_only : answersOnly [.sys, .fab] s (execQuadPowerOff s) := by
  unfold execQuadPowerOff
  exact answersOnly_next (when_only changesOnly_refl fun _ => State.domRequest_only.after (onFab_only.after changesOnly_refl))

theorem execFswApply_only : answersOnly [.bus, .cc] s (execFswApply s) := by
  unfold execFswApply
  exact answersOnly_next (State.fswTake_only.after changesOnly_refl)

theorem execSyncLock_only : answersOnly [.qs, .cc] s (execSyncLock s) := by
  unfold execSyncLock
  exact answersOnly_next (when_only changesOnly_refl fun _ => State.raise_only.after (onCc_only.after changesOnly_refl))

theorem execSyncLost_only {outOfRange : Bool} : answersOnly [.qs, .cc] s (execSyncLost outOfRange s) := by
  unfold execSyncLost
  exact answersOnly_next (when_only changesOnly_refl fun _ => State.raise_only.after (onCc_only.after changesOnly_refl))

theorem execLastFaultOffer_only : answersOnly [.flt, .nvm] s (execLastFaultOffer s) := by
  unfold execLastFaultOffer
  exact answersOnly_next (State.lfOffers_only.after changesOnly_refl)

theorem execBatterySwitchRelease_only : answersOnly [.qs, .pp] s (execBatterySwitchRelease s) := by
  unfold execBatterySwitchRelease
  exact answersOnly_settle (when_only changesOnly_refl fun _ => onPp_only.after changesOnly_refl)

theorem execWeirLearn_only {t : TcId} {avg : Nat} : answersOnly [.qs, .pp] s (execWeirLearn t avg s) := by
  unfold execWeirLearn
  exact answersOnly_next (when_only changesOnly_refl fun _ => State.raise_only.after (State.setLearn_only.after changesOnly_refl))

theorem execMpptScanStep_only {v : Nat} {i : Nat} : answersOnly [.qs, .pp] s (execMpptScanStep v i s) := by
  unfold execMpptScanStep
  split
  · exact answersOnly_next (when_only changesOnly_refl fun _ => ite_only (fun _ => State.scanStep_only.after changesOnly_refl)
      (fun _ => onPp_only.after changesOnly_refl))
  · exact answersOnly_next changesOnly_refl

theorem execHandover_only {low : Nat} {dip : Nat} : answersOnly [.qs, .pp] s (execHandover low dip s) := by
  unfold execHandover
  exact answersOnly_settle (when_only changesOnly_refl fun _ => State.raise_only.after (onPp_only.after changesOnly_refl))

theorem execDrainComplete_only {i : Fin 8} : answersOnly [.qs, .fab, .pp] s (execDrainComplete i s) := by
  unfold execDrainComplete
  exact answersOnly_settle (State.drainDone_only.after changesOnly_refl)

theorem execSelectorSettle_only {i : Fin 8} : answersOnly [.sys, .fab, .pp] s (execSelectorSettle i s) := by
  unfold execSelectorSettle
  exact answersOnly_next (State.settleDone_only.after changesOnly_refl)

theorem execSelectorStuck_only {i : Fin 8} : answersOnly [.qs, .pp, .flt] s (execSelectorStuck i s) := by
  unfold execSelectorStuck
  exact answersOnly_settle (State.failNote_only.after changesOnly_refl)

theorem execFplace0_only {c : BitVec 8} {single : Bool} : answersOnly [.qs, .bus, .grd] s (execFplace0 c single s) := by
  unfold execFplace0
  exact answersOnly_next (State.guardPair_only changesOnly_refl fun _ _ => onGrd_only.after changesOnly_refl)

theorem execFplace1_only {c : BitVec 8} {single : Bool} : answersOnly [.qs, .bus, .grd] s (execFplace1 c single s) := by
  unfold execFplace1
  exact answersOnly_next (State.guardPair_only changesOnly_refl fun _ _ => onGrd_only.after changesOnly_refl)

theorem execPhaseRemove_only {p : PortId} : answersOnly [.qs, .fab, .sw, .stk] s (execPhaseRemove p s) := by
  unfold execPhaseRemove
  exact answersOnly_next (State.removePhase_only.after changesOnly_refl)

theorem execTuneMeasurementDone_only {c : Nat} {esr : Nat} {spread : Nat} : answersOnly [.qs, .cc, .pp, .mb] s (execTuneMeasurementDone c esr spread
    s) := by
  unfold execTuneMeasurementDone
  split
  · exact answersOnly_next changesOnly_refl
  · exact answersOnly_ite (fun _ => answersOnly_next changesOnly_refl) (fun _ => answersOnly_ite (fun _ => answersOnly_next
      (State.tuneEnd_only.after changesOnly_refl)) (fun _ => answersOnly_next (onCc_only.after changesOnly_refl)))

theorem execBatterySwitchReconnect_only {n : Nodes} : answersOnly [.sys, .qs, .pp, .nvm] s (execBatterySwitchReconnect n s) := by
  unfold execBatterySwitchReconnect
  exact answersOnly_settle (when_only (State.limpFollow_only.after (State.batHw_only.after (State.seeNodes_only.after changesOnly_refl)))
    fun _ => State.switchFull_only.after changesOnly_refl)

theorem execSupplement_only {n : Nodes} : answersOnly [.sys, .qs, .pp, .nvm] s (execSupplement n s) := by
  unfold execSupplement
  exact answersOnly_settle (when_only (State.limpFollow_only.after (State.batHw_only.after (State.seeNodes_only.after changesOnly_refl)))
    fun _ => State.switchFull_only.after changesOnly_refl)

theorem execNobatCollapse_only : answersOnly [.qs, .pp, .seq, .nvm] s (execNobatCollapse s) := by
  unfold execNobatCollapse
  exact answersOnly_next (when_only changesOnly_refl fun _ => State.downCause_only.after (onPp_only.after changesOnly_refl))

theorem execReplacementTick_only {unit : BitVec 8} : answersOnly [.sys, .qs, .fab, .sw, .flt] s (execReplacementTick unit s) := by
  unfold execReplacementTick
  exact answersOnly_next (when_only changesOnly_refl fun _ => foldl_only changesOnly_refl fun _ _ => State.replaceFor_only.after changesOnly_refl)

theorem execPcAttach_only {n : Nodes} {dcdet : Bool} : answersOnly [.sys, .qs, .cc, .pp, .nvm] s (execPcAttach n dcdet s) := by
  unfold execPcAttach
  exact answersOnly_settle (when_only
    (onPp_only.after (State.limpFollow_only.after (State.batHw_only.after (State.seeNodes_only.after changesOnly_refl))))
    fun _ => State.shipCancel_only.after (State.tuneNext_only.after (onCc_only.after (State.setPresent_only.after changesOnly_refl))))

theorem execFpenSet_only {c : BitVec 8} {single : Bool} : answersOnly [.qs, .bus, .grd, .fab, .tca, .tcb] s (execFpenSet c single s) := by
  unfold execFpenSet
  exact answersOnly_next (State.guardPair_only changesOnly_refl fun _ _ => State.fpenWrite_only.after changesOnly_refl)

theorem execFpenClear_only {c : BitVec 8} {single : Bool} : answersOnly [.qs, .bus, .grd, .fab, .tca, .tcb] s (execFpenClear c single s) := by
  unfold execFpenClear
  exact answersOnly_next (State.guardPair_only changesOnly_refl fun _ _ => State.fpenWrite_only.after changesOnly_refl)

theorem execBatAttach_only : answersOnly [.sys, .qs, .pp, .chg, .ms, .sw, .free] s (execBatAttach s) := by
  unfold execBatAttach
  exact answersOnly_settle (when_only changesOnly_refl
    fun _ => State.autoStart_only.after (State.raise_only.after (State.limpFollow_only.after (State.switchClose_only.after (onPp_only.after changesOnly_refl)))))

theorem execRevCutoff_only {t : TcId} : answersOnly [.sys, .qs, .fab, .cc, .pp, .sw, .mb, .tca, .tcb] s (execRevCutoff t s) := by
  unfold execRevCutoff
  exact answersOnly_settle (when_only changesOnly_refl
    fun _ => State.srcMustEnd_only.after (State.raise_only.after (State.onPath_only.after changesOnly_refl)))

theorem execPcRemoval_only {dcdet : Bool} : answersOnly [.sys, .qs, .fab, .cc, .pp, .sw, .seq, .mb, .nvm, .tca, .tcb] s (execPcRemoval dcdet s) := by
  unfold execPcRemoval
  exact answersOnly_settle (when_only (onPp_only.after changesOnly_refl) fun _ => State.pcGone_only.after changesOnly_refl)

theorem execBatDetach_only : answersOnly [.sys, .qs, .fab, .cc, .pp, .chg, .sw, .mb, .tca, .tcb, .free] s (execBatDetach s) := by
  unfold execBatDetach
  exact answersOnly_settle (when_only changesOnly_refl fun _ => State.batGone_only.after changesOnly_refl)

theorem execFastSwapSignal_only {t : TcId} : answersOnly [.sys, .qs, .fab, .cc, .pp, .sw, .seq, .flt, .mb, .nvm, .tca, .tcb] s (execFastSwapSignal t
    s) := by
  unfold execFastSwapSignal
  exact answersOnly_onPd fun _ => when_only changesOnly_refl fun _ => State.fastSwap_only.after changesOnly_refl

theorem execControlTick_only {m : TickIn} : answersOnly [.sys, .qs, .fab, .cc, .pp, .ms, .sw, .seq, .flt, .mb, .stk, .nvm, .tca, .tcb, .free] s
    (execControlTick m s) := by
  unfold execControlTick
  exact answersOnly_settle (when_only changesOnly_refl fun _ => State.taskRan_only.after (State.tickDomains_only.after (ite_only
    (fun _ => State.tickRun_only.after (State.tickThermal_only.after (State.limpFollow_only.after (State.tickMeasure_only.after changesOnly_refl))))
    (fun _ => State.tickAlways_only.after (State.tickThermal_only.after (State.limpFollow_only.after (State.tickMeasure_only.after changesOnly_refl)))))))

/-! ## Commands that may report a failure of class 4 (R325) -/

theorem execSelectorOverlap_forced {i : Fin 8} (h : s.sys.mode ≠ .dormant) : answersOnly forcedParts s (execSelectorOverlap i s) :=
  answersOnly_settle (State.checkerFail_awake h).1

theorem execSwitchingPeriod_forced {a b : PathSample} {c : PcPeriod} (h : s.sys.mode ≠ .dormant) :
    answersOnly forcedParts s (execSwitchingPeriod a b c s) := by
  unfold execSwitchingPeriod
  refine answersOnly_ite (fun _ => answersOnly_next (onCc_only.after changesOnly_refl)) fun _ => answersOnly_settle ?_
  exact State.injSample_only.after (useFree_only.after (State.sendRef_only.after (State.periodStep_only.after
    (onCc_only.after (onCc_only.after (pathPeriods_forced h))))))

theorem execPhaseShort_forced {i : Fin 8} {ma : Nat} (h : s.sys.mode ≠ .dormant) : answersOnly forcedParts s (execPhaseShort i ma s) :=
  answersOnly_settle (when_checkerFail_forced h)

theorem execQuadOvertemp_forced {q : Fin 2} {t : Int} (h : s.sys.mode ≠ .dormant) :
    answersOnly [.sys, .qs, .bus, .grd, .fab, .cc, .pp, .chg, .ms, .sw, .seq, .flt, .mb, .stk, .nvm, .tca, .tcb, .free] s (execQuadOvertemp q t s) :=
  answersOnly_settle (changesOnly.after (when_checkerFail_forced h) (onMs_only.after changesOnly_refl))

/-! ## The statement -/

/-- Settles O54: the frame of each command. -/
theorem frameFabric : Obligations.FrameFabric :=
  ⟨fun _ => execPeakRecoveryEnd_only, fun _ _ => execSoftStartComplete_only, fun _ _ => execOclHold_only, fun _ => execSyncReacquisition_only,
    fun _ _ => execDiodeEmulationEnd_only, fun _ _ => execWeirProbe_only, fun _ _ _ _ => execTrackerInterval_only, fun _ => execMpptScanStart_only,
    fun _ => execDwellEnd_only, fun _ => execPeakTimeout_only, fun _ => execQuadPowerOff_only, fun _ => execFswApply_only,
    fun _ => execSyncLock_only, fun _ _ => execSyncLost_only, fun _ => execLastFaultOffer_only, fun _ => execBatterySwitchRelease_only,
    fun _ _ _ => execWeirLearn_only, fun _ _ _ => execMpptScanStep_only, fun _ _ _ => execHandover_only, fun _ _ => execDrainComplete_only,
    fun _ _ => execSelectorSettle_only, fun _ _ => execSelectorStuck_only, fun _ _ _ => execFplace0_only, fun _ _ _ => execFplace1_only,
    fun _ _ => execPhaseRemove_only, fun _ _ _ _ => execTuneMeasurementDone_only, fun _ _ => execBatterySwitchReconnect_only,
    fun _ _ => execSupplement_only, fun _ => execNobatCollapse_only, fun _ _ => execReplacementTick_only, fun _ _ _ => execPcAttach_only,
    fun _ _ _ => execFpenSet_only, fun _ _ _ => execFpenClear_only, fun _ => execBatAttach_only, fun _ _ => execRevCutoff_only,
    fun _ _ => execPcRemoval_only, fun _ => execBatDetach_only, fun _ _ => execFastSwapSignal_only, fun _ _ => execControlTick_only,
    fun _ _ _ h => execSelectorOverlap_forced h _, fun _ _ _ _ _ h => execSwitchingPeriod_forced h _, fun _ _ _ _ h => execPhaseShort_forced h _,
    fun _ _ _ _ h => execQuadOvertemp_forced h _⟩

end Sys2Proof.Machine
end

section
/-! PROOFS. What each of the charging, measurement and sweep commands leaves as it was, by the shared operations its meaning is made of. -/
namespace Sys2Proof.Machine

set_option Elab.async false
open Sys2Proof.Safety

variable {s : State}

/-! ## The commands -/

theorem execAutoZero_only : answersOnly [.ms] s (execAutoZero s) := by
  unfold execAutoZero
  exact answersOnly_next (when_only changesOnly_refl fun _ => onMs_only.after changesOnly_refl)

theorem execGradeDecay_only {k : Fin 10} : answersOnly [.sw] s (execGradeDecay k s) := by
  unfold execGradeDecay
  exact answersOnly_next (when_only changesOnly_refl fun _ => State.setGrade_only.after changesOnly_refl)

theorem execCellOv_only {k : Fin 10} : answersOnly [.qs, .flt] s (execCellOv k s) := by
  unfold execCellOv
  exact answersOnly_next (when_only changesOnly_refl fun _ => State.failNote_only.after changesOnly_refl)

theorem execMirrorUpdate_only {m : MirIn} : answersOnly [.ms, .free] s (execMirrorUpdate m s) := by
  unfold execMirrorUpdate
  exact answersOnly_next (when_only changesOnly_refl fun _ => useFree_only.after (onMs_only.after changesOnly_refl))

theorem execRestCorrection_only : answersOnly [.ms, .free] s (execRestCorrection s) := by
  unfold execRestCorrection
  exact answersOnly_next (when_only changesOnly_refl fun _ => onMs_only.after (State.socSeed_only.after changesOnly_refl))

theorem execBalancingFrame_only : answersOnly [.qs, .ms] s (execBalancingFrame s) := by
  unfold execBalancingFrame
  exact answersOnly_ite (fun _ => answersOnly_next changesOnly_refl) (fun _ => answersOnly_ite (fun _ => answersOnly_next
    (State.raise_only.after (onMs_only.after (State.bleedStop_only.after (onMs_only.after changesOnly_refl))))) (fun _ => answersOnly_ite
    (fun _ => answersOnly_next (State.raise_only.after (onMs_only.after (State.bleedStop_only.after (onMs_only.after changesOnly_refl)))))
    (fun _ => answersOnly_next (onMs_only.after (State.bleedStop_only.after (onMs_only.after changesOnly_refl))))))

theorem execBalanceOffTime_only {ups : List Bool} : answersOnly [.qs, .ms] s (execBalanceOffTime ups s) := by
  unfold execBalanceOffTime
  exact answersOnly_ite (fun _ => answersOnly_next changesOnly_refl) (fun _ => answersOnly_next (onMs_only.after (when_only changesOnly_refl
    fun _ => State.balCount_only.after (onMs_only.after changesOnly_refl))))

theorem execSweepBaselineEnd_only {up : Bool} : answersOnly [.sw, .free] s (execSweepBaselineEnd up s) := by
  unfold execSweepBaselineEnd
  exact answersOnly_next (when_only changesOnly_refl fun _ => State.pointBegin_only.after (useFree_only.after (onSw_only.after changesOnly_refl)))

theorem execPrechargeTimer_only : answersOnly [.qs, .pp, .chg] s (execPrechargeTimer s) := by
  unfold execPrechargeTimer
  exact answersOnly_settle (when_only changesOnly_refl fun _ => State.suspend_only.after (onChg_only.after changesOnly_refl))

theorem execFastChargeTimer_only : answersOnly [.qs, .pp, .chg] s (execFastChargeTimer s) := by
  unfold execFastChargeTimer
  exact answersOnly_settle (when_only changesOnly_refl fun _ => State.suspend_only.after (onChg_only.after changesOnly_refl))

theorem execTopoffTimer_only : answersOnly [.qs, .pp, .chg] s (execTopoffTimer s) := by
  unfold execTopoffTimer
  exact answersOnly_settle (when_only changesOnly_refl fun _ => State.chgDone_only.after (onChg_only.after changesOnly_refl))

theorem execReportedCellVoltage_only {cells : List Bool} {vbat : Bool} {ibat : Bool} : answersOnly [.qs, .pp, .ms] s (execReportedCellVoltage cells
    vbat ibat s) := by
  unfold execReportedCellVoltage
  exact answersOnly_settle (when_only changesOnly_refl fun _ => when_only (onMs_only.after changesOnly_refl)
    fun _ => onPp_only.after changesOnly_refl)

theorem execQuickSweepInterval_only : answersOnly [.qs, .ms, .sw] s (execQuickSweepInterval s) := by
  unfold execQuickSweepInterval
  exact answersOnly_next (when_only changesOnly_refl fun _ => State.trigSweep_only.after changesOnly_refl)

theorem execSweepRefusalRetry_only : answersOnly [.qs, .ms, .sw] s (execSweepRefusalRetry s) := by
  unfold execSweepRefusalRetry
  refine answersOnly_ite (fun _ => ?_) (fun _ => ?_)
  · exact answersOnly_next changesOnly_refl
  · split
    · exact answersOnly_next changesOnly_refl
    · exact answersOnly_next (when_only (onSw_only.after changesOnly_refl) fun _ => State.trigSweep_only.after changesOnly_refl)

theorem execModelMismatch_only {k : Fin 10} {meas : Bool} {model : Bool} : answersOnly [.qs, .sw, .free] s (execModelMismatch k meas model s) := by
  unfold execModelMismatch
  exact answersOnly_next (when_only changesOnly_refl
    fun _ => useFree_only.after (State.raise_only.after (onSw_only.after (State.setGrade_only.after changesOnly_refl))))

theorem execSweepPoint_only {ups : List Bool} : answersOnly [.qs, .sw, .mb, .free] s (execSweepPoint ups s) := by
  unfold execSweepPoint
  exact answersOnly_ite (fun _ => answersOnly_next changesOnly_refl) (fun _ => answersOnly_ite (fun _ => answersOnly_next
    (State.sweepAbort_only.after (useFree_only.after (onSw_only.after changesOnly_refl)))) (fun _ => answersOnly_ite (fun _ => answersOnly_next
    (State.pointBegin_only.after (onSw_only.after (useFree_only.after (onSw_only.after changesOnly_refl))))) (fun _ => answersOnly_next
    (State.pointBegin_only.after (onSw_only.after (useFree_only.after (onSw_only.after changesOnly_refl)))))))

theorem execSweepFit_only {fits : List CellFit} : answersOnly [.qs, .sw, .mb, .free] s (execSweepFit fits s) := by
  unfold execSweepFit
  exact answersOnly_ite (fun _ => answersOnly_next changesOnly_refl) (fun _ => answersOnly_ite (fun _ => answersOnly_ite (fun _ => answersOnly_next
    (State.sweepAnswer_only.after (useFree_only.after (onSw_only.after (ite_only (fun _ => onSw_only.after changesOnly_refl)
    (fun _ => State.sweepClose_only.after changesOnly_refl)))))) (fun _ => answersOnly_next
    (State.sweepAnswer_only.after (State.raise_only.after (onSw_only.after (useFree_only.after (onSw_only.after (ite_only
    (fun _ => onSw_only.after changesOnly_refl) (fun _ => State.sweepClose_only.after changesOnly_refl))))))))) (fun _ => answersOnly_next
    (State.sweepAnswer_only.after (State.raise_only.after (onSw_only.after (useFree_only.after (onSw_only.after (ite_only
    (fun _ => onSw_only.after changesOnly_refl) (fun _ => State.sweepClose_only.after changesOnly_refl)))))))))

theorem execSweepAborted_only {code : Fin 16} : answersOnly [.qs, .sw, .mb, .free] s (execSweepAborted code s) := by
  unfold execSweepAborted
  exact answersOnly_next (when_only changesOnly_refl fun _ => State.sweepAbort_only.after changesOnly_refl)

theorem execTimerSuspensionRestart_only {v10s : Nat} : answersOnly [.qs, .pp, .chg, .ms, .sw, .free] s (execTimerSuspensionRestart v10s s) := by
  unfold execTimerSuspensionRestart
  exact answersOnly_settle (when_only changesOnly_refl fun _ => State.autoStart_only.after changesOnly_refl)

theorem execZone_only {z : Zone} {tmin : Int} {tmax : Int} : answersOnly [.qs, .pp, .chg, .sw, .mb, .free] s (execZone z tmin tmax s) := by
  unfold execZone
  exact answersOnly_settle (when_only changesOnly_refl fun _ => when_only (State.zoneTake_only.after changesOnly_refl)
    fun _ => State.sweepAbort_only.after changesOnly_refl)

theorem execNtcFault_only {n : Fin 6} : answersOnly [.qs, .pp, .chg, .sw, .mb, .free] s (execNtcFault n s) := by
  unfold execNtcFault
  exact answersOnly_settle (when_only changesOnly_refl
    fun _ => State.sweepAbort_only.after (State.suspend_only.after (onChg_only.after changesOnly_refl)))

theorem execSampleSet_only {x : SampleSet} : answersOnly [.qs, .pp, .ms, .sw, .flt, .mb, .free] s (execSampleSet x s) := by
  unfold execSampleSet
  exact answersOnly_ite (fun _ => answersOnly_next changesOnly_refl) (fun _ => answersOnly_settle
    (State.sampleTake_only.after (onMs_only.after (State.ccAdd_only.after changesOnly_refl))))

theorem execChemCfg_only {c : BitVec 8} {single : Bool} : answersOnly [.sys, .qs, .bus, .grd, .pp, .chg, .ms, .sw, .mb, .free] s (execChemCfg c
    single s) := by
  unfold execChemCfg
  exact answersOnly_settle (State.guardPair_only changesOnly_refl fun _ _ => State.chemWrite_only.after changesOnly_refl)

theorem execTeaselTick_only {m : TeaselIn} : answersOnly [.sys, .qs, .bus, .pp, .chg, .ms, .sw, .seq, .flt, .mb, .nvm, .tca, .tcb, .free] s
    (execTeaselTick m s) := by
  unfold execTeaselTick
  exact answersOnly_ite (fun _ => answersOnly_next changesOnly_refl) (fun _ => answersOnly_settle
    (State.taskRan_only.after (State.tickEnd_only.after (State.tickCharge_only.after (State.polarTick_only.after (State.modelTake_only.after (State.applyHeld_only.after (when_only (onChg_only.after (onSw_only.after changesOnly_refl)) fun _ => State.bleedStop_only.after changesOnly_refl))))))))

/-! ## The statement -/

/-- Settles O55: the frame of each command. -/
theorem frameChargeMeasure : Obligations.FrameChargeMeasure :=
  ⟨fun _ => execAutoZero_only, fun _ _ => execGradeDecay_only, fun _ _ => execCellOv_only, fun _ _ => execMirrorUpdate_only,
    fun _ => execRestCorrection_only, fun _ => execBalancingFrame_only, fun _ _ => execBalanceOffTime_only, fun _ _ => execSweepBaselineEnd_only,
    fun _ => execPrechargeTimer_only, fun _ => execFastChargeTimer_only, fun _ => execTopoffTimer_only, fun _ _ _ _ => execReportedCellVoltage_only,
    fun _ => execQuickSweepInterval_only, fun _ => execSweepRefusalRetry_only, fun _ _ _ _ => execModelMismatch_only,
    fun _ _ => execSweepPoint_only, fun _ _ => execSweepFit_only, fun _ _ => execSweepAborted_only, fun _ _ => execTimerSuspensionRestart_only,
    fun _ _ _ _ => execZone_only, fun _ _ => execNtcFault_only, fun _ _ => execSampleSet_only, fun _ _ _ => execChemCfg_only,
    fun _ _ => execTeaselTick_only⟩

end Sys2Proof.Machine
end

section
/-! PROOFS. What each of the Type-C and PD commands leaves as it was, by the shared operations its meaning is made of. -/
namespace Sys2Proof.Machine

set_option Elab.async false
open Sys2Proof.Safety

variable {s : State}

/-! ## The commands -/

theorem execCcAttach_only {t : TcId} {src : Bool} : answersOnly [.tca, .tcb] s (execCcAttach t src s) := by
  unfold execCcAttach
  exact answersOnly_ite (fun _ => answersOnly_next changesOnly_refl) (fun _ => answersOnly_ite (fun _ => answersOnly_next
    (State.onTc_only.after changesOnly_refl)) (fun _ => answersOnly_ite (fun _ => answersOnly_next (State.onTc_only.after changesOnly_refl))
    (fun _ => answersOnly_next changesOnly_refl)))

theorem execRpAdvertisementChange_only {t : TcId} {rp : Rp} : answersOnly [.sys, .pp] s (execRpAdvertisementChange t rp s) := by
  unfold execRpAdvertisementChange
  exact answersOnly_next (State.limpFollow_only.after (State.setRp_only.after changesOnly_refl))

theorem execPortDischargeDone_only {t : TcId} : answersOnly [.flt, .tca, .tcb] s (execPortDischargeDone t s) := by
  unfold execPortDischargeDone
  exact answersOnly_next (State.dischargeDone_only.after (State.txClear_only.after changesOnly_refl))

theorem execVconnOc_only {t : TcId} : answersOnly [.qs, .flt, .tca, .tcb] s (execVconnOc t s) := by
  unfold execVconnOc
  exact answersOnly_next (when_only changesOnly_refl fun _ => State.failNote_only.after (State.onTc_only.after changesOnly_refl))

theorem execPdRequest_only {t : TcId} {pos : Nat} {mv : Nat} {ma : Nat} : answersOnly [.qs, .pp, .flt, .tca, .tcb] s (execPdRequest t pos mv ma s) :=
    by
  unfold execPdRequest
  exact answersOnly_onPd fun _ => State.requested_only.after changesOnly_refl

theorem execWaitRetry_only {t : TcId} : answersOnly [.qs, .pp, .flt, .tca, .tcb] s (execWaitRetry t s) := by
  unfold execWaitRetry
  exact answersOnly_onPd fun _ => State.waitRetry_only.after changesOnly_refl

theorem execFallbackRerequest_only {t : TcId} : answersOnly [.qs, .pp, .flt, .tca, .tcb] s (execFallbackRerequest t s) := by
  unfold execFallbackRerequest
  refine answersOnly_onPd fun _ => ?_
  dsimp only
  split
  · exact ite_only (fun _ => State.sendReq_only.after (State.onTc_only.after changesOnly_refl)) (fun _ => changesOnly_refl)
  · exact changesOnly_refl

theorem execPpsRerequest_only {t : TcId} : answersOnly [.qs, .pp, .flt, .tca, .tcb] s (execPpsRerequest t s) := by
  unfold execPpsRerequest
  refine answersOnly_onPd fun _ => ?_
  dsimp only
  split
  · exact ite_only (fun _ => State.sendReq_only.after changesOnly_refl) (fun _ => changesOnly_refl)
  · exact changesOnly_refl

theorem execEprKeepalive_only {t : TcId} : answersOnly [.qs, .pp, .flt, .tca, .tcb] s (execEprKeepalive t s) := by
  unfold execEprKeepalive
  exact answersOnly_onPd fun _ => when_only changesOnly_refl fun _ => State.tx_only.after changesOnly_refl

theorem execCableDiscovery_only {t : TcId} {ans : Option (Bool × Bool)} : answersOnly [.qs, .pp, .flt, .tca, .tcb] s (execCableDiscovery t ans s) :=
    by
  unfold execCableDiscovery
  exact answersOnly_onPd fun _ => State.cableSeen_only.after changesOnly_refl

theorem execSourceCapabilitiesUpdate_only {t : TcId} : answersOnly [.qs, .pp, .flt, .tca, .tcb] s (execSourceCapabilitiesUpdate t s) := by
  unfold execSourceCapabilitiesUpdate
  exact answersOnly_onPd fun _ => State.capsChange_only.after changesOnly_refl

theorem execDrSwapReceived_only {t : TcId} : answersOnly [.qs, .pp, .flt, .tca, .tcb] s (execDrSwapReceived t s) := by
  unfold execDrSwapReceived
  exact answersOnly_onPd fun _ => when_only changesOnly_refl fun _ => State.dataSwap_only.after (State.tx_only.after changesOnly_refl)

theorem execVconnSwapReceived_only {t : TcId} : answersOnly [.qs, .pp, .flt, .tca, .tcb] s (execVconnSwapReceived t s) := by
  unfold execVconnSwapReceived
  exact answersOnly_onPd fun _ => ite_only (fun _ => changesOnly_refl) (fun _ => ite_only (fun _ => ite_only
    (fun _ => State.swapEvent_only.after (State.tx_only.after changesOnly_refl))
    (fun _ => State.swapEvent_only.after (State.onTc_only.after (State.tx_only.after changesOnly_refl)))) (fun _ => when_only
    (State.swapEvent_only.after (State.tx_only.after (State.vconnOn_only.after (State.tx_only.after changesOnly_refl))))
    fun _ => State.discoverCable_only.after changesOnly_refl))

theorem execGetSourceCap_only {t : TcId} : answersOnly [.qs, .pp, .flt, .tca, .tcb] s (execGetSourceCap t s) := by
  unfold execGetSourceCap
  exact answersOnly_onPd fun _ => when_only changesOnly_refl fun _ => ite_only (fun _ => State.sendCaps_only.after changesOnly_refl)
    (fun _ => ite_only (fun _ => State.tx_only.after changesOnly_refl) (fun _ => State.tx_only.after changesOnly_refl))

theorem execGetBatteryCap_only {t : TcId} : answersOnly [.qs, .pp, .flt, .tca, .tcb] s (execGetBatteryCap t s) := by
  unfold execGetBatteryCap
  exact answersOnly_onPd fun _ => when_only changesOnly_refl fun _ => State.tx_only.after changesOnly_refl

theorem execGetBatteryStatus_only {t : TcId} : answersOnly [.qs, .pp, .flt, .tca, .tcb] s (execGetBatteryStatus t s) := by
  unfold execGetBatteryStatus
  exact answersOnly_onPd fun _ => when_only changesOnly_refl fun _ => State.tx_only.after changesOnly_refl

theorem execAlert_only {t : TcId} {ado : BitVec 32} : answersOnly [.qs, .pp, .flt, .tca, .tcb] s (execAlert t ado s) := by
  unfold execAlert
  exact answersOnly_onPd fun _ => when_only changesOnly_refl fun _ => State.tcEvent_only.after (State.tx_only.after changesOnly_refl)

theorem execSoftReset_only {t : TcId} : answersOnly [.qs, .pp, .flt, .tca, .tcb] s (execSoftReset t s) := by
  unfold execSoftReset
  exact answersOnly_onPd fun _ => when_only changesOnly_refl fun _ => ite_only
    (fun _ => State.sendCaps_only.after (State.onTc_only.after (State.tx_only.after changesOnly_refl)))
    (fun _ => State.onTc_only.after (State.tx_only.after changesOnly_refl))

theorem execUnsupportedVdm_only {t : TcId} : answersOnly [.qs, .pp, .flt, .tca, .tcb] s (execUnsupportedVdm t s) := by
  unfold execUnsupportedVdm
  exact answersOnly_onPd fun _ => when_only changesOnly_refl fun _ => State.tx_only.after changesOnly_refl

theorem execBist_only {t : TcId} {carrier : Bool} {mv : Nat} : answersOnly [.qs, .pp, .flt, .tca, .tcb] s (execBist t carrier mv s) := by
  unfold execBist
  exact answersOnly_onPd fun _ => when_only changesOnly_refl fun _ => State.tx_only.after (State.onTc_only.after changesOnly_refl)

theorem execVsafe5vReturn_only {t : TcId} : answersOnly [.qs, .pp, .flt, .tca, .tcb] s (execVsafe5vReturn t s) := by
  unfold execVsafe5vReturn
  exact answersOnly_onPd fun _ => State.vbusBack_only.after changesOnly_refl

theorem execSourceCapabilities_only {t : TcId} {epr : Bool} {rev3 : Bool} {objs : List Pdo} : answersOnly [.qs, .pp, .flt, .tca, .tcb, .free] s
    (execSourceCapabilities t epr rev3 objs s) := by
  unfold execSourceCapabilities
  exact answersOnly_onPd fun _ => State.newOffers_only.after changesOnly_refl

theorem execEprMode_only {t : TcId} {act : BitVec 8} : answersOnly [.qs, .pp, .flt, .tca, .tcb, .free] s (execEprMode t act s) := by
  unfold execEprMode
  exact answersOnly_onPd fun _ => State.eprMsg_only.after changesOnly_refl

theorem execSecurityRequest_only {t : TcId} {kind : BitVec 8} {slot : Nat} {body : List (BitVec 8)} : answersOnly [.qs, .pp, .flt, .tca, .tcb, .free]
    s (execSecurityRequest t kind slot body s) := by
  unfold execSecurityRequest
  exact answersOnly_onPd fun _ => when_only changesOnly_refl fun _ => useFree_only.after (State.tx_only.after changesOnly_refl)

theorem execGetSinkCap_only {t : TcId} : answersOnly [.qs, .pp, .flt, .tca, .tcb, .free] s (execGetSinkCap t s) := by
  unfold execGetSinkCap
  exact answersOnly_onPd fun _ => when_only changesOnly_refl fun _ => useFree_only.after (State.tx_only.after changesOnly_refl)

theorem execGetSourceCapExtended_only {t : TcId} : answersOnly [.qs, .pp, .flt, .tca, .tcb, .free] s (execGetSourceCapExtended t s) := by
  unfold execGetSourceCapExtended
  exact answersOnly_tellData

theorem execGetStatus_only {t : TcId} : answersOnly [.qs, .pp, .flt, .tca, .tcb, .free] s (execGetStatus t s) := by
  unfold execGetStatus
  exact answersOnly_tellData

theorem execGetRevision_only {t : TcId} : answersOnly [.qs, .pp, .flt, .tca, .tcb, .free] s (execGetRevision t s) := by
  unfold execGetRevision
  exact answersOnly_tellData

theorem execGetManufacturerInfo_only {t : TcId} : answersOnly [.qs, .pp, .flt, .tca, .tcb, .free] s (execGetManufacturerInfo t s) := by
  unfold execGetManufacturerInfo
  exact answersOnly_tellData

theorem execDiscoverIdentity_only {t : TcId} : answersOnly [.qs, .pp, .flt, .tca, .tcb, .free] s (execDiscoverIdentity t s) := by
  unfold execDiscoverIdentity
  exact answersOnly_onPd fun _ => when_only changesOnly_refl fun _ => useFree_only.after (State.tx_only.after changesOnly_refl)

theorem execSinkCapabilities_only {t : TcId} {ifrs : BitVec 2} {drp : Bool} : answersOnly [.qs, .fab, .pp, .flt, .tca, .tcb] s (execSinkCapabilities
    t ifrs drp s) := by
  unfold execSinkCapabilities
  exact answersOnly_onPd fun _ => when_only changesOnly_refl fun _ => State.frsEval_only.after (State.onTc_only.after changesOnly_refl)

theorem execAttachDebounceEnd_only {t : TcId} {orient : Bool} {rp : Rp} {vbus : Nat} : answersOnly [.sys, .qs, .fab, .cc, .pp, .sw, .seq, .flt, .tca,
    .tcb] s (execAttachDebounceEnd t orient rp vbus s) := by
  unfold execAttachDebounceEnd
  exact answersOnly_onPd fun _ => State.debounceEnd_only.after changesOnly_refl

theorem execHardResetSourceRestore_only {t : TcId} : answersOnly [.sys, .qs, .fab, .cc, .pp, .sw, .flt, .mb, .tca, .tcb] s
    (execHardResetSourceRestore t s) := by
  unfold execHardResetSourceRestore
  exact answersOnly_onPd fun _ => ite_only (fun _ => ite_only (fun _ => when_only
    (State.vconnOn_only.after (State.startSource_only.after (State.onTc_only.after changesOnly_refl)))
    fun _ => State.sendCaps_only.after changesOnly_refl) (fun _ => State.srcRemove_only.after (State.onTc_only.after changesOnly_refl)))
    (fun _ => changesOnly_refl)

theorem execSecurityResponse_only {t : TcId} {chainOk : Bool} {root : List (BitVec 8)} : answersOnly [.sys, .qs, .fab, .cc, .pp, .sw, .flt, .mb,
    .tca, .tcb, .free] s (execSecurityResponse t chainOk root s) := by
  unfold execSecurityResponse
  exact answersOnly_onPd fun _ => when_only changesOnly_refl fun _ => State.authResult_only.after changesOnly_refl

theorem execPdAccept_only {t : TcId} : answersOnly [.sys, .qs, .fab, .cc, .pp, .sw, .seq, .flt, .mb, .nvm, .tca, .tcb] s (execPdAccept t s) := by
  unfold execPdAccept
  exact answersOnly_onPd fun _ => State.accepted_only.after changesOnly_refl

theorem execPrSwapReceived_only {t : TcId} : answersOnly [.sys, .qs, .fab, .cc, .pp, .sw, .seq, .flt, .mb, .nvm, .tca, .tcb] s (execPrSwapReceived t
    s) := by
  unfold execPrSwapReceived
  exact answersOnly_onPd fun _ => ite_only (fun _ => changesOnly_refl) (fun _ => ite_only
    (fun _ => State.swapOff_only.after (State.tx_only.after changesOnly_refl))
    (fun _ => State.swapEvent_only.after (State.tx_only.after changesOnly_refl)))

theorem execDetach_only {d : DetachIn} : answersOnly [.sys, .qs, .bus, .fab, .cc, .pp, .sw, .seq, .flt, .mb, .nvm, .tca, .tcb] s (execDetach d s) :=
    by
  unfold execDetach
  exact answersOnly_settle (when_only changesOnly_refl fun _ => State.detachPort_only.after changesOnly_refl)

theorem execHardResetReceived_only {t : TcId} : answersOnly [.sys, .qs, .bus, .fab, .cc, .pp, .sw, .seq, .flt, .mb, .nvm, .tca, .tcb] s
    (execHardResetReceived t s) := by
  unfold execHardResetReceived
  exact answersOnly_onPd fun _ => when_only changesOnly_refl fun _ => State.hardReset_only.after (State.onTc_only.after changesOnly_refl)

theorem execSourceCapabilitiesTimeout_only {t : TcId} : answersOnly [.sys, .qs, .bus, .fab, .cc, .pp, .sw, .seq, .flt, .mb, .nvm, .tca, .tcb] s
    (execSourceCapabilitiesTimeout t s) := by
  unfold execSourceCapabilitiesTimeout
  exact answersOnly_onPd fun _ => ite_only (fun _ => ite_only (fun _ => State.onTc_only.after changesOnly_refl)
    (fun _ => State.hardReset_only.after changesOnly_refl)) (fun _ => changesOnly_refl)

theorem execPrSwapNoAnswer_only {t : TcId} : answersOnly [.sys, .qs, .bus, .fab, .cc, .pp, .sw, .seq, .flt, .mb, .nvm, .tca, .tcb] s
    (execPrSwapNoAnswer t s) := by
  unfold execPrSwapNoAnswer
  exact answersOnly_onPd fun _ => State.noAnswer_only.after changesOnly_refl

theorem execPsRdy_only {t : TcId} : answersOnly [.sys, .qs, .bus, .fab, .cc, .pp, .seq, .flt, .mb, .nvm, .tca, .tcb, .free] s (execPsRdy t s) := by
  unfold execPsRdy
  exact answersOnly_onPd fun _ => State.psReady_only.after changesOnly_refl

theorem execPdWait_only {t : TcId} : answersOnly [.sys, .qs, .bus, .fab, .cc, .pp, .sw, .seq, .flt, .mb, .nvm, .tca, .tcb, .free] s (execPdWait t s)
    := by
  unfold execPdWait
  refine answersOnly_onPd fun _ => ?_
  dsimp only
  split
  · exact ite_only (fun _ => State.refused_only.after changesOnly_refl) (fun _ => State.onTc_only.after changesOnly_refl)
  · exact ite_only (fun _ => State.refused_only.after changesOnly_refl) (fun _ => State.onTc_only.after changesOnly_refl)
  · exact ite_only (fun _ => State.refused_only.after changesOnly_refl) (fun _ => State.onTc_only.after changesOnly_refl)
  · exact State.refused_only.after changesOnly_refl
  · exact State.refused_only.after changesOnly_refl
  · exact changesOnly_refl

theorem execPdReject_only {t : TcId} : answersOnly [.sys, .qs, .bus, .fab, .cc, .pp, .sw, .seq, .flt, .mb, .nvm, .tca, .tcb, .free] s (execPdReject t
    s) := by
  unfold execPdReject
  exact answersOnly_onPd fun _ => State.refused_only.after changesOnly_refl

/-! ## The statement -/

/-- Settles O56: the frame of each command. -/
theorem frameTypeC : Obligations.FrameTypeC :=
  ⟨fun _ _ _ => execCcAttach_only, fun _ _ _ => execRpAdvertisementChange_only, fun _ _ => execPortDischargeDone_only, fun _ _ => execVconnOc_only,
    fun _ _ _ _ _ => execPdRequest_only, fun _ _ => execWaitRetry_only, fun _ _ => execFallbackRerequest_only, fun _ _ => execPpsRerequest_only,
    fun _ _ => execEprKeepalive_only, fun _ _ _ => execCableDiscovery_only, fun _ _ => execSourceCapabilitiesUpdate_only,
    fun _ _ => execDrSwapReceived_only, fun _ _ => execVconnSwapReceived_only, fun _ _ => execGetSourceCap_only, fun _ _ => execGetBatteryCap_only,
    fun _ _ => execGetBatteryStatus_only, fun _ _ _ => execAlert_only, fun _ _ => execSoftReset_only, fun _ _ => execUnsupportedVdm_only,
    fun _ _ _ _ => execBist_only, fun _ _ => execVsafe5vReturn_only, fun _ _ _ _ _ => execSourceCapabilities_only, fun _ _ _ => execEprMode_only,
    fun _ _ _ _ _ => execSecurityRequest_only, fun _ _ => execGetSinkCap_only, fun _ _ => execGetSourceCapExtended_only,
    fun _ _ => execGetStatus_only, fun _ _ => execGetRevision_only, fun _ _ => execGetManufacturerInfo_only, fun _ _ => execDiscoverIdentity_only,
    fun _ _ _ _ => execSinkCapabilities_only, fun _ _ _ _ _ => execAttachDebounceEnd_only, fun _ _ => execHardResetSourceRestore_only,
    fun _ _ _ _ => execSecurityResponse_only, fun _ _ => execPdAccept_only, fun _ _ => execPrSwapReceived_only, fun _ _ => execDetach_only,
    fun _ _ => execHardResetReceived_only, fun _ _ => execSourceCapabilitiesTimeout_only, fun _ _ => execPrSwapNoAnswer_only,
    fun _ _ => execPsRdy_only, fun _ _ => execPdWait_only, fun _ _ => execPdReject_only⟩

end Sys2Proof.Machine
end

section
/-! PROOFS. What each of the sequencer and watchdog commands leaves as it was, by the shared operations its meaning is made of. -/
namespace Sys2Proof.Machine

set_option Elab.async false
open Sys2Proof.Safety

variable {s : State}

/-! ## The commands -/

theorem execNrstoRelease_only : answersOnly [.seq] s (execNrstoRelease s) := by
  unfold execNrstoRelease
  exact answersOnly_next (when_only changesOnly_refl fun _ => onSeq_only.after changesOnly_refl)

theorem execNrstoPulseEnd_only : answersOnly [.seq] s (execNrstoPulseEnd s) := by
  unfold execNrstoPulseEnd
  exact answersOnly_next (onSeq_only.after changesOnly_refl)

theorem execWdoPulseEnd_only : answersOnly [.wd] s (execWdoPulseEnd s) := by
  unfold execWdoPulseEnd
  exact answersOnly_next (onWd_only.after changesOnly_refl)

theorem execLogRead_only {n : Fin 4} : answersOnly [.flt, .mb] s (execLogRead n s) := by
  unfold execLogRead
  exact answersOnly_next (State.carry_only changesOnly_refl fun _ => State.finish_only.after changesOnly_refl)

theorem execWdgQuery_only {n : Fin 4} : answersOnly [.flt, .mb] s (execWdgQuery n s) := by
  unfold execWdgQuery
  exact answersOnly_next (State.query_only.after changesOnly_refl)

theorem execRailFault_only {r : Fin 8} : answersOnly [.qs, .seq, .flt] s (execRailFault r s) := by
  unfold execRailFault
  exact answersOnly_next (State.railFell_only.after changesOnly_refl)

theorem execWdgCfg_only {c : BitVec 8} {single : Bool} : answersOnly [.qs, .bus, .grd] s (execWdgCfg c single s) := by
  unfold execWdgCfg
  exact answersOnly_next (State.guardPair_only changesOnly_refl fun _ _ => onGrd_only.after changesOnly_refl)

theorem execWdgPer_only {c : BitVec 8} {single : Bool} : answersOnly [.qs, .bus, .grd] s (execWdgPer c single s) := by
  unfold execWdgPer
  exact answersOnly_next (State.guardPair_only changesOnly_refl fun _ _ => ite_only (fun _ => onGrd_only.after changesOnly_refl)
    (fun _ => State.guardFail_only.after changesOnly_refl))

theorem execEvidGet_only {n : Fin 4} : answersOnly [.flt, .mb, .free] s (execEvidGet n s) := by
  unfold execEvidGet
  exact answersOnly_next (useFree_only.after (State.query_only.after changesOnly_refl))

theorem execWcntClear_only {n : Fin 4} : answersOnly [.flt, .wd, .mb] s (execWcntClear n s) := by
  unfold execWcntClear
  exact answersOnly_next (State.carry_only changesOnly_refl fun _ => State.finish_only.after (onWd_only.after changesOnly_refl))

theorem execNrstPulse_only {n : Fin 4} : answersOnly [.qs, .seq, .flt, .mb] s (execNrstPulse n s) := by
  unfold execNrstPulse
  exact answersOnly_next (State.carry_only changesOnly_refl fun _ => State.finish_only.after (State.nrstoPulse_only.after changesOnly_refl))

theorem execNobatSupplyReturn_only : answersOnly [.qs, .bus, .pp, .seq, .mb, .nvm] s (execNobatSupplyReturn s) := by
  unfold execNobatSupplyReturn
  exact answersOnly_next (when_only changesOnly_refl fun _ => State.upRequest_only.after changesOnly_refl)

theorem execOnDelayExpiry_only : answersOnly [.sys, .qs, .bus, .pp, .seq, .mb, .nvm] s (execOnDelayExpiry s) := by
  unfold execOnDelayExpiry
  refine answersOnly_ite (fun _ => ?_) (fun _ => ?_)
  · dsimp only
    split
    · exact answersOnly_ite (fun _ => answersOnly_next (State.upNext_only.after (onSeq_only.after changesOnly_refl))) (fun _ => answersOnly_next
        (when_only (onSeq_only.after (onSeq_only.after changesOnly_refl)) fun _ => State.upStep_only.after changesOnly_refl))
    · exact answersOnly_next (State.upNext_only.after (onSeq_only.after changesOnly_refl))
  · exact answersOnly_next changesOnly_refl

theorem execRailGood_only {r : Fin 8} : answersOnly [.sys, .qs, .bus, .pp, .seq, .mb, .nvm] s (execRailGood r s) := by
  unfold execRailGood
  exact answersOnly_next (State.railGood_only.after changesOnly_refl)

theorem execUpTimeout_only : answersOnly [.sys, .qs, .bus, .pp, .seq, .flt, .mb, .nvm] s (execUpTimeout s) := by
  unfold execUpTimeout
  exact answersOnly_ite (fun _ => answersOnly_ite (fun _ => answersOnly_next (State.upStep_only.after changesOnly_refl)) (fun _ => answersOnly_next
    (State.failNote_only.after (onSeq_only.after changesOnly_refl)))) (fun _ => answersOnly_next changesOnly_refl)

theorem execAux2MoveDone_only {good : Bool} : answersOnly [.sys, .qs, .bus, .pp, .seq, .flt, .mb, .nvm] s (execAux2MoveDone good s) := by
  unfold execAux2MoveDone
  exact answersOnly_ite (fun _ => answersOnly_next (ite_only (fun _ => State.railGood_only.after (onSeq_only.after changesOnly_refl))
    (fun _ => State.railFell_only.after (onSeq_only.after changesOnly_refl)))) (fun _ => answersOnly_next changesOnly_refl)

theorem execSeqDown_only {n : Fin 4} : answersOnly [.sys, .qs, .bus, .pp, .seq, .flt, .mb, .nvm] s (execSeqDown n s) := by
  unfold execSeqDown
  exact answersOnly_next (State.carry_only changesOnly_refl fun _ => State.seqDownCmd_only.after changesOnly_refl)

theorem execHcwExpiry_only : answersOnly [.sys, .qs, .chg, .seq, .flt, .wd, .stk, .nvm] s (execHcwExpiry s) := by
  unfold execHcwExpiry
  exact answersOnly_next (when_only changesOnly_refl fun _ => State.hcwExpire_only.after changesOnly_refl)

theorem execHcwKick_only {bp : BusPort} {v : BitVec 8} : answersOnly [.sys, .qs, .bus, .chg, .seq, .flt, .wd, .stk, .nvm] s (execHcwKick bp v s) := by
  unfold execHcwKick
  exact answersOnly_next (when_only changesOnly_refl fun _ => State.hcwKick_only.after (State.wrote_only.after changesOnly_refl))

theorem execSeqUp_only {n : Fin 4} : answersOnly [.sys, .qs, .bus, .fab, .pp, .sw, .seq, .flt, .mb, .nvm] s (execSeqUp n s) := by
  unfold execSeqUp
  exact answersOnly_next (State.carry_only changesOnly_refl fun _ => State.seqUpCmd_only.after changesOnly_refl)

/-! ## The statement -/

/-- Settles O57: the frame of each command. -/
theorem frameSequencer : Obligations.FrameSequencer :=
  ⟨fun _ => execNrstoRelease_only, fun _ => execNrstoPulseEnd_only, fun _ => execWdoPulseEnd_only, fun _ _ => execLogRead_only,
    fun _ _ => execWdgQuery_only, fun _ _ => execRailFault_only, fun _ _ _ => execWdgCfg_only, fun _ _ _ => execWdgPer_only,
    fun _ _ => execEvidGet_only, fun _ _ => execWcntClear_only, fun _ _ => execNrstPulse_only, fun _ => execNobatSupplyReturn_only,
    fun _ => execOnDelayExpiry_only, fun _ _ => execRailGood_only, fun _ => execUpTimeout_only, fun _ _ => execAux2MoveDone_only,
    fun _ _ => execSeqDown_only, fun _ => execHcwExpiry_only, fun _ _ _ => execHcwKick_only, fun _ _ => execSeqUp_only⟩

end Sys2Proof.Machine
end

section
/-! PROOFS. What each of the checker and fault commands leaves as it was, by the shared operations its meaning is made of. -/
namespace Sys2Proof.Machine

set_option Elab.async false
open Sys2Proof.Safety

variable {s : State}

/-! ## The commands -/

theorem execGateSupply_only {q : Fin 2} : answersOnly [.qs, .flt] s (execGateSupply q s) := by
  unfold execGateSupply
  exact answersOnly_next (when_only changesOnly_refl fun _ => State.failNote_only.after changesOnly_refl)

theorem execQuadSensor_only {q : Fin 2} : answersOnly [.qs, .flt] s (execQuadSensor q s) := by
  unfold execQuadSensor
  exact answersOnly_next (when_only changesOnly_refl fun _ => State.failNote_only.after changesOnly_refl)

theorem execSampleFault_only {p : PortId} {drop : Bool} : answersOnly [.qs, .flt] s (execSampleFault p drop s) := by
  unfold execSampleFault
  exact answersOnly_next (when_only (when_only changesOnly_refl fun _ => State.drop_only.after changesOnly_refl)
    fun _ => State.failNote_only.after changesOnly_refl)

theorem execVbusSwitch_only {t : TcId} : answersOnly [.qs, .flt] s (execVbusSwitch t s) := by
  unfold execVbusSwitch
  exact answersOnly_next (when_only changesOnly_refl fun _ => State.failNote_only.after changesOnly_refl)

theorem execLockstep_only : answersOnly [.qs, .flt] s (execLockstep s) := by
  unfold execLockstep
  exact answersOnly_next (State.cpuCheck_only.after changesOnly_refl)

theorem execNvmEcc_only : answersOnly [.qs, .flt] s (execNvmEcc s) := by
  unfold execNvmEcc
  exact answersOnly_next (State.cpuCheck_only.after changesOnly_refl)

theorem execSramEcc1_only : answersOnly [.qs, .flt] s (execSramEcc1 s) := by
  unfold execSramEcc1
  exact answersOnly_next (State.cpuCheck_only.after changesOnly_refl)

theorem execSramEcc2_only : answersOnly [.qs, .flt] s (execSramEcc2 s) := by
  unfold execSramEcc2
  exact answersOnly_next (State.cpuCheck_only.after changesOnly_refl)

theorem execRetParity_only {item : Fin 14} : answersOnly [.qs, .flt] s (execRetParity item s) := by
  unfold execRetParity
  exact answersOnly_next (State.failNote_only.after changesOnly_refl)

theorem execFecCapture_only {addr : BitVec 32} {init : BitVec 8} {access : BitVec 8} {cause : BitVec 16} : answersOnly [.qs, .flt] s (execFecCapture
    addr init access cause s) := by
  unfold execFecCapture
  exact answersOnly_next (when_only changesOnly_refl fun _ => State.fecTake_only.after changesOnly_refl)

theorem execFaultQuery_only {n : Fin 4} : answersOnly [.flt, .mb] s (execFaultQuery n s) := by
  unfold execFaultQuery
  exact answersOnly_next (State.query_only.after changesOnly_refl)

theorem execLfGet_only {n : Fin 4} : answersOnly [.flt, .mb] s (execLfGet n s) := by
  unfold execLfGet
  exact answersOnly_next (State.carry_only changesOnly_refl fun _ => State.finish_only.after changesOnly_refl)

theorem execFaultClear_only {n : Fin 4} : answersOnly [.flt, .mb] s (execFaultClear n s) := by
  unfold execFaultClear
  exact answersOnly_next (State.carry_only changesOnly_refl fun _ => ite_only (fun _ => State.finish_only.after changesOnly_refl)
    (fun _ => State.finish_only.after (onFlt_only.after changesOnly_refl)))

theorem execFcntClear_only {n : Fin 4} : answersOnly [.flt, .mb] s (execFcntClear n s) := by
  unfold execFcntClear
  exact answersOnly_next (State.carry_only changesOnly_refl fun _ => State.finish_only.after (onFlt_only.after changesOnly_refl))

theorem execFinj_only {c : BitVec 8} {single : Bool} : answersOnly [.qs, .bus, .grd] s (execFinj c single s) := by
  unfold execFinj
  exact answersOnly_next (State.guardPair_only changesOnly_refl fun _ _ => State.finjWrite_only.after changesOnly_refl)

theorem execTestWordRead_only : answersOnly [.qs, .grd, .flt] s (execTestWordRead s) := by
  unfold execTestWordRead
  exact answersOnly_next (when_only changesOnly_refl fun _ => State.injectedCheck_only.after changesOnly_refl)

theorem execRecGet_only {n : Fin 4} : answersOnly [.flt, .mb, .free] s (execRecGet n s) := by
  unfold execRecGet
  exact answersOnly_next (State.carry_only changesOnly_refl fun _ => useFree_only.after (State.finish_only.after changesOnly_refl))

theorem execFecGet_only {n : Fin 4} : answersOnly [.flt, .mb, .free] s (execFecGet n s) := by
  unfold execFecGet
  refine answersOnly_next ?_
  refine State.carry_only ?_ fun _ => ?_
  · exact changesOnly_refl
  · split
    · exact State.finish_only.after (when_only changesOnly_refl fun _ => onFlt_only.after changesOnly_refl)
    · exact State.finish_only.after (useFree_only.after changesOnly_refl)

theorem execQuietPeriodEnd_only {failing : List (Nat × Nat)} : answersOnly [.sys, .qs, .pp, .chg, .flt] s (execQuietPeriodEnd failing s) := by
  unfold execQuietPeriodEnd
  exact answersOnly_settle (State.quietEnd_only.after changesOnly_refl)

theorem execHoldRel_only {bp : BusPort} {c : BitVec 8} {single : Bool} {failing : List (Nat × Nat)} : answersOnly [.sys, .qs, .bus, .grd, .pp, .chg,
    .flt] s (execHoldRel bp c single failing s) := by
  unfold execHoldRel
  exact answersOnly_settle (State.guardPair_only changesOnly_refl fun _ _ => when_only changesOnly_refl fun _ => ite_only
    (fun _ => State.holdRelease_only.after changesOnly_refl) (fun _ => State.guardFail_only.after (State.holdRelease_only.after changesOnly_refl)))

theorem execRelease_only {n : Fin 4} {failing : List (Nat × Nat)} : answersOnly [.sys, .qs, .grd, .pp, .chg, .flt, .mb] s (execRelease n failing s)
    := by
  unfold execRelease
  exact answersOnly_settle (State.carry_only changesOnly_refl fun _ => State.finish_only.after (State.holdRelease_only.after changesOnly_refl))

theorem execUnfence_only {n : Fin 4} : answersOnly [.sys, .qs, .fab, .pp, .sw, .seq, .flt, .mb] s (execUnfence n s) := by
  unfold execUnfence
  exact answersOnly_settle (State.carry_only changesOnly_refl fun _ => State.finish_only.after (ite_only (fun _ => foldl_only changesOnly_refl
    fun _ _ => State.liftFence_only.after changesOnly_refl) (fun _ => State.liftFence_only.after changesOnly_refl)))

/-! ## Commands that may report a failure of class 4 (R325) -/

theorem execPortOv_forced {p : PortId} {mv : Nat} (h : s.sys.mode ≠ .dormant) : answersOnly forcedParts s (execPortOv p mv s) :=
  answersOnly_settle (when_checkerFail_forced h)

theorem execPcReverse_forced {ma : Nat} (h : s.sys.mode ≠ .dormant) : answersOnly forcedParts s (execPcReverse ma s) :=
  answersOnly_settle (when_checkerFail_forced h)

theorem execBatswOc_forced {ma : Nat} (h : s.sys.mode ≠ .dormant) : answersOnly forcedParts s (execBatswOc ma s) :=
  answersOnly_settle (when_checkerFail_forced h)

/-! ## The statement -/

/-- Settles O58: the frame of each command. -/
theorem frameFaults : Obligations.FrameFaults :=
  ⟨fun _ _ => execGateSupply_only, fun _ _ => execQuadSensor_only, fun _ _ _ => execSampleFault_only, fun _ _ => execVbusSwitch_only,
    fun _ => execLockstep_only, fun _ => execNvmEcc_only, fun _ => execSramEcc1_only, fun _ => execSramEcc2_only, fun _ _ => execRetParity_only,
    fun _ _ _ _ _ => execFecCapture_only, fun _ _ => execFaultQuery_only, fun _ _ => execLfGet_only, fun _ _ => execFaultClear_only,
    fun _ _ => execFcntClear_only, fun _ _ _ => execFinj_only, fun _ => execTestWordRead_only, fun _ _ => execRecGet_only,
    fun _ _ => execFecGet_only, fun _ _ => execQuietPeriodEnd_only, fun _ _ _ _ _ => execHoldRel_only, fun _ _ _ => execRelease_only,
    fun _ _ => execUnfence_only, fun _ _ _ _ h => execPortOv_forced h _, fun _ _ _ h => execPcReverse_forced h _,
    fun _ _ _ h => execBatswOc_forced h _⟩

end Sys2Proof.Machine
end

section
/-! PROOFS. What each of the two-wire, mailbox and non-volatile memory commands leaves as it was, by the shared operations its meaning is made of. -/
namespace Sys2Proof.Machine

set_option Elab.async false
open Sys2Proof.Safety

variable {s : State}

/-! ## The commands -/

theorem execPointerSet_only {bp : BusPort} {a : BitVec 16} : answersOnly [.bus] s (execPointerSet bp a s) := by
  unfold execPointerSet
  exact answersOnly_next (when_only changesOnly_refl fun _ => State.onPort_only.after changesOnly_refl)

theorem execLineSupplied_only {bp : BusPort} : answersOnly [.bus] s (execLineSupplied bp s) := by
  unfold execLineSupplied
  split
  · exact answersOnly_ite (fun _ => answersOnly_next changesOnly_refl) (fun _ => answersOnly_next
      (State.driven_only.after (State.onPort_only.after changesOnly_refl)))
  · exact answersOnly_next changesOnly_refl

theorem execStretchLimit_only {bp : BusPort} : answersOnly [.bus] s (execStretchLimit bp s) := by
  unfold execStretchLimit
  exact answersOnly_next (when_only changesOnly_refl
    fun _ => State.driven_only.after (State.busFlag_only.after (State.onPort_only.after changesOnly_refl)))

theorem execGtsLatch_only {bp : BusPort} : answersOnly [.bus] s (execGtsLatch bp s) := by
  unfold execGtsLatch
  exact answersOnly_next (when_only changesOnly_refl fun _ => State.readGts_only.after changesOnly_refl)

theorem execMirStat_only {bp : BusPort} : answersOnly [.bus] s (execMirStat bp s) := by
  unfold execMirStat
  exact answersOnly_next (when_only changesOnly_refl fun _ => State.readMir_only.after changesOnly_refl)

theorem execBusTimeout_only {bp : BusPort} : answersOnly [.bus] s (execBusTimeout bp s) := by
  unfold execBusTimeout
  exact answersOnly_next (when_only changesOnly_refl fun _ => State.busFlag_only.after (State.onPort_only.after changesOnly_refl))

theorem execFilterApply_only {bp : BusPort} : answersOnly [.bus] s (execFilterApply bp s) := by
  unfold execFilterApply
  exact answersOnly_next (when_only changesOnly_refl fun _ => State.onPort_only.after changesOnly_refl)

theorem execAttentionWrite_only {r : AttnRes} : answersOnly [.bus] s (execAttentionWrite r s) := by
  unfold execAttentionWrite
  exact answersOnly_next (when_only changesOnly_refl fun _ => State.attnTry_only.after (onBus_only.after changesOnly_refl))

theorem execAttentionRetry_only {r : AttnRes} : answersOnly [.bus] s (execAttentionRetry r s) := by
  unfold execAttentionRetry
  exact answersOnly_next (when_only changesOnly_refl fun _ => State.attnTry_only.after changesOnly_refl)

theorem execAttentionRepeat_only {r : AttnRes} : answersOnly [.bus] s (execAttentionRepeat r s) := by
  unfold execAttentionRepeat
  exact answersOnly_next (when_only changesOnly_refl fun _ => State.attnTry_only.after (onBus_only.after changesOnly_refl))

theorem execControlLineRead_only {r : ReadIn} : answersOnly [.qs, .bus] s (execControlLineRead r s) := by
  unfold execControlLineRead
  exact answersOnly_next (when_only changesOnly_refl fun _ => State.readByte_only.after (when_only changesOnly_refl
    fun _ => State.onPort_only.after changesOnly_refl))

theorem execClearOnRead_only {bp : BusPort} {clocked : Bool} : answersOnly [.qs, .bus] s (execClearOnRead bp clocked s) := by
  unfold execClearOnRead
  exact answersOnly_next (when_only changesOnly_refl fun _ => State.readRc_only.after changesOnly_refl)

theorem execGuardedValue_only {bp : BusPort} {g : BitVec 8} {v : BitVec 8} {single : Bool} : answersOnly [.qs, .bus] s (execGuardedValue bp g v
    single s) := by
  unfold execGuardedValue
  exact answersOnly_ite (fun _ => answersOnly_next changesOnly_refl) (fun _ => answersOnly_ite (fun _ => answersOnly_next
    (State.busFlag_only.after (State.wrote_only.after changesOnly_refl))) (fun _ => answersOnly_ite (fun _ => answersOnly_next
    (State.guardFail_only.after (State.wrote_only.after changesOnly_refl))) (fun _ => answersOnly_next
    (State.onPort_only.after (State.wrote_only.after changesOnly_refl)))))

theorem execUpdate_only {bp : BusPort} {mask : BitVec 8} : answersOnly [.qs, .bus] s (execUpdate bp mask s) := by
  unfold execUpdate
  exact answersOnly_ite (fun _ => answersOnly_next changesOnly_refl) (fun _ => answersOnly_ite (fun _ => answersOnly_next
    (State.busFlag_only.after (State.wrote_only.after changesOnly_refl))) (fun _ => answersOnly_ite (fun _ => answersOnly_next
    (State.wrote_only.after changesOnly_refl)) (fun _ => answersOnly_ite (fun _ => answersOnly_next
    (onBus_only.after (State.wrote_only.after changesOnly_refl))) (fun _ => answersOnly_next
    (onBus_only.after (State.wrote_only.after changesOnly_refl))))))

theorem execImm_only {bp : BusPort} {mask : BitVec 8} : answersOnly [.qs, .bus] s (execImm bp mask s) := by
  unfold execImm
  exact answersOnly_ite (fun _ => answersOnly_next changesOnly_refl) (fun _ => answersOnly_ite (fun _ => answersOnly_next
    (State.busFlag_only.after (State.wrote_only.after changesOnly_refl))) (fun _ => answersOnly_next
    (onBus_only.after (State.wrote_only.after changesOnly_refl))))

theorem execCommandCompletion_only {n : Fin 4} : answersOnly [.cc, .mb] s (execCommandCompletion n s) := by
  unfold execCommandCompletion
  exact answersOnly_next (State.postFinal_only.after (State.tuneLate_only.after changesOnly_refl))

theorem execSysStatus_only {n : Fin 4} : answersOnly [.flt, .mb] s (execSysStatus n s) := by
  unfold execSysStatus
  exact answersOnly_next (State.query_only.after changesOnly_refl)

theorem execQueueStat_only {n : Fin 4} : answersOnly [.flt, .mb] s (execQueueStat n s) := by
  unfold execQueueStat
  exact answersOnly_next (State.query_only.after changesOnly_refl)

theorem execMbxReset_only {n : Fin 4} : answersOnly [.flt, .mb] s (execMbxReset n s) := by
  unfold execMbxReset
  exact answersOnly_next (State.carry_only changesOnly_refl fun _ => State.finishAct_only.after changesOnly_refl)

theorem execChgQuery_only {n : Fin 4} : answersOnly [.flt, .mb] s (execChgQuery n s) := by
  unfold execChgQuery
  exact answersOnly_next (State.query_only.after changesOnly_refl)

theorem execZoneGet_only {n : Fin 4} : answersOnly [.flt, .mb] s (execZoneGet n s) := by
  unfold execZoneGet
  exact answersOnly_next (State.query_only.after changesOnly_refl)

theorem execSafeGet_only {n : Fin 4} : answersOnly [.flt, .mb] s (execSafeGet n s) := by
  unfold execSafeGet
  exact answersOnly_next (State.query_only.after changesOnly_refl)

theorem execPlaceQuery_only {n : Fin 4} : answersOnly [.flt, .mb] s (execPlaceQuery n s) := by
  unfold execPlaceQuery
  exact answersOnly_next (State.query_only.after changesOnly_refl)

theorem execBasinQuery_only {n : Fin 4} : answersOnly [.flt, .mb] s (execBasinQuery n s) := by
  unfold execBasinQuery
  exact answersOnly_next (State.query_only.after changesOnly_refl)

theorem execPathQuery_only {n : Fin 4} : answersOnly [.flt, .mb] s (execPathQuery n s) := by
  unfold execPathQuery
  exact answersOnly_next (State.carry_only changesOnly_refl fun _ => State.finish_only.after changesOnly_refl)

theorem execCoefGet_only {n : Fin 4} : answersOnly [.flt, .mb] s (execCoefGet n s) := by
  unfold execCoefGet
  exact answersOnly_next (State.carry_only changesOnly_refl fun _ => State.finish_only.after changesOnly_refl)

theorem execMeasQuery_only {n : Fin 4} : answersOnly [.flt, .mb] s (execMeasQuery n s) := by
  unfold execMeasQuery
  exact answersOnly_next (State.query_only.after changesOnly_refl)

theorem execCcGet_only {n : Fin 4} : answersOnly [.flt, .mb] s (execCcGet n s) := by
  unfold execCcGet
  exact answersOnly_next (State.query_only.after changesOnly_refl)

theorem execPointsGet_only {n : Fin 4} : answersOnly [.flt, .mb] s (execPointsGet n s) := by
  unfold execPointsGet
  exact answersOnly_next (State.carry_only changesOnly_refl fun _ => State.finish_only.after changesOnly_refl)

theorem execPortQuery_only {n : Fin 4} : answersOnly [.flt, .mb] s (execPortQuery n s) := by
  unfold execPortQuery
  exact answersOnly_next (State.carry_only changesOnly_refl fun _ => State.finish_only.after changesOnly_refl)

theorem execNvmStat_only {n : Fin 4} : answersOnly [.flt, .mb] s (execNvmStat n s) := by
  unfold execNvmStat
  exact answersOnly_next (State.query_only.after changesOnly_refl)

theorem execImageAct_only {n : Fin 4} : answersOnly [.flt, .mb] s (execImageAct n s) := by
  unfold execImageAct
  exact answersOnly_next (State.carry_only changesOnly_refl fun _ => ite_only (fun _ => State.finishAct_only.after changesOnly_refl)
    (fun _ => State.finish_only.after changesOnly_refl))

theorem execIdGet_only {n : Fin 4} : answersOnly [.flt, .mb] s (execIdGet n s) := by
  unfold execIdGet
  exact answersOnly_next (State.query_only.after changesOnly_refl)

theorem execCertGet_only {n : Fin 4} : answersOnly [.flt, .mb] s (execCertGet n s) := by
  unfold execCertGet
  exact answersOnly_next (State.carry_only changesOnly_refl fun _ => State.finish_only.after changesOnly_refl)

theorem execFuseBlowDone_only {sensed : BitVec 5} : answersOnly [.qs, .grd] s (execFuseBlowDone sensed s) := by
  unfold execFuseBlowDone
  exact answersOnly_ite (fun _ => answersOnly_next changesOnly_refl) (fun _ => answersOnly_next (when_only (onGrd_only.after changesOnly_refl)
    fun _ => State.raise_only.after changesOnly_refl))

theorem execEventRead_only {n : Fin 4} : answersOnly [.qs, .flt, .mb] s (execEventRead n s) := by
  unfold execEventRead
  exact answersOnly_next (State.carry_only changesOnly_refl fun _ => State.finish_only.after (onQs_only.after changesOnly_refl))

theorem execQueueClear_only {n : Fin 4} : answersOnly [.qs, .flt, .mb] s (execQueueClear n s) := by
  unfold execQueueClear
  exact answersOnly_next (State.carry_only changesOnly_refl fun _ => State.finish_only.after (onQs_only.after changesOnly_refl))

theorem execDormantCfg_only {n : Fin 4} : answersOnly [.sys, .flt, .mb] s (execDormantCfg n s) := by
  unfold execDormantCfg
  exact answersOnly_next (State.carry_only changesOnly_refl fun _ => State.finish_only.after (onSys_only.after changesOnly_refl))

theorem execChgStop_only {n : Fin 4} : answersOnly [.chg, .flt, .mb] s (execChgStop n s) := by
  unfold execChgStop
  exact answersOnly_next (State.carry_only changesOnly_refl fun _ => State.finish_only.after (onChg_only.after changesOnly_refl))

theorem execZoneSet_only {n : Fin 4} : answersOnly [.chg, .flt, .mb] s (execZoneSet n s) := by
  unfold execZoneSet
  exact answersOnly_next (State.carry_only changesOnly_refl fun _ => State.finish_only.after (onChg_only.after changesOnly_refl))

theorem execSafeSetCmd_only {n : Fin 4} : answersOnly [.chg, .flt, .mb] s (execSafeSetCmd n s) := by
  unfold execSafeSetCmd
  exact answersOnly_next (State.carry_only changesOnly_refl fun _ => State.finish_only.after (onChg_only.after changesOnly_refl))

theorem execHostCap_only {n : Fin 4} : answersOnly [.fab, .flt, .mb] s (execHostCap n s) := by
  unfold execHostCap
  exact answersOnly_next (State.carry_only changesOnly_refl fun _ => State.finish_only.after (onFab_only.after changesOnly_refl))

theorem execCoefSet_only {n : Fin 4} : answersOnly [.cc, .flt, .mb] s (execCoefSet n s) := by
  unfold execCoefSet
  exact answersOnly_next (State.carry_only changesOnly_refl fun _ => State.finish_only.after (onCc_only.after changesOnly_refl))

theorem execTune_only {n : Fin 4} : answersOnly [.cc, .flt, .mb] s (execTune n s) := by
  unfold execTune
  exact answersOnly_next (State.carry_only changesOnly_refl fun _ => State.tuneCmd_only.after changesOnly_refl)

theorem execModelGet_only {n : Fin 4} : answersOnly [.flt, .mb, .free] s (execModelGet n s) := by
  unfold execModelGet
  exact answersOnly_next (State.carry_only changesOnly_refl fun _ => useFree_only.after (State.finish_only.after changesOnly_refl))

theorem execLogSign_only {n : Fin 4} : answersOnly [.flt, .mb, .free] s (execLogSign n s) := by
  unfold execLogSign
  exact answersOnly_next (State.carry_only changesOnly_refl
    fun _ => State.finish_only.after (useFree_only.after (State.accept_only.after changesOnly_refl)))

theorem execChemSet_only {n : Fin 4} : answersOnly [.sw, .flt, .mb] s (execChemSet n s) := by
  unfold execChemSet
  exact answersOnly_next (State.carry_only changesOnly_refl fun _ => State.finish_only.after (onSw_only.after changesOnly_refl))

theorem execChemGet_only {n : Fin 4} : answersOnly [.sw, .flt, .mb] s (execChemGet n s) := by
  unfold execChemGet
  exact answersOnly_next (State.carry_only changesOnly_refl fun _ => State.finish_only.after changesOnly_refl)

theorem execRootSet_only {n : Fin 4} : answersOnly [.flt, .mb, .nvm] s (execRootSet n s) := by
  unfold execRootSet
  exact answersOnly_next (State.carry_only changesOnly_refl fun _ => State.finish_only.after (onNvm_only.after changesOnly_refl))

theorem execImageLoad_only {n : Fin 4} : answersOnly [.flt, .mb, .nvm] s (execImageLoad n s) := by
  unfold execImageLoad
  exact answersOnly_next (State.carry_only changesOnly_refl fun _ => ite_only (fun _ => State.finish_only.after changesOnly_refl)
    (fun _ => State.finish_only.after (onNvm_only.after changesOnly_refl)))

theorem execAddrSet_only {n : Fin 4} : answersOnly [.bus, .flt, .mb] s (execAddrSet n s) := by
  unfold execAddrSet
  exact answersOnly_next (State.carry_only changesOnly_refl fun _ => State.finish_only.after (onBus_only.after changesOnly_refl))

theorem execFuse_only {c : BitVec 8} {single : Bool} {n : Nodes} : answersOnly [.qs, .bus, .grd] s (execFuse c single n s) := by
  unfold execFuse
  exact answersOnly_next (State.guardPair_only changesOnly_refl fun _ _ => State.fuseWrite_only.after changesOnly_refl)

theorem execCcSet_only {n : Fin 4} : answersOnly [.chg, .ms, .flt, .mb] s (execCcSet n s) := by
  unfold execCcSet
  exact answersOnly_next (State.carry_only changesOnly_refl fun _ => State.finish_only.after (when_only (when_only changesOnly_refl
    fun _ => State.ccPreset_only.after changesOnly_refl) fun _ => onMs_only.after changesOnly_refl))

theorem execPrSwap_only {n : Fin 4} : answersOnly [.flt, .mb, .tca, .tcb] s (execPrSwap n s) := by
  unfold execPrSwap
  exact answersOnly_next (State.carry_only changesOnly_refl fun _ => State.prSwapCmd_only.after (State.txClear_only.after changesOnly_refl))

theorem execDrSwap_only {n : Fin 4} : answersOnly [.flt, .mb, .tca, .tcb] s (execDrSwap n s) := by
  unfold execDrSwap
  exact answersOnly_next (State.carry_only changesOnly_refl fun _ => State.drSwapCmd_only.after (State.txClear_only.after changesOnly_refl))

theorem execAuth_only {n : Fin 4} : answersOnly [.flt, .mb, .tca, .tcb] s (execAuth n s) := by
  unfold execAuth
  exact answersOnly_next (State.carry_only changesOnly_refl fun _ => State.authCmd_only.after (State.txClear_only.after changesOnly_refl))

theorem execNvmStore_only {n : Fin 4} : answersOnly [.qs, .flt, .mb, .nvm] s (execNvmStore n s) := by
  unfold execNvmStore
  exact answersOnly_next (State.carry_only changesOnly_refl fun _ => State.storeCmd_only.after changesOnly_refl)

theorem execPathSet_only {n : Fin 4} : answersOnly [.fab, .flt, .mb, .tca, .tcb] s (execPathSet n s) := by
  unfold execPathSet
  refine answersOnly_next ?_
  refine State.carry_only ?_ fun _ => ?_
  · exact changesOnly_refl
  · refine State.finish_only.after ?_
    split
    · exact State.eprTry_only.after (State.onPath_only.after changesOnly_refl)
    · exact State.onPath_only.after changesOnly_refl

theorem execSweep_only {n : Fin 4} {x : Unit} : answersOnly [.qs, .ms, .sw, .flt, .mb] s (execSweep n x s) := by
  unfold execSweep
  refine answersOnly_next ?_
  refine State.carry_only ?_ fun _ => ?_
  · exact changesOnly_refl
  · dsimp only
    split
    · exact State.finish_only.after (State.sweepRefuse_only.after changesOnly_refl)
    · exact State.finish_only.after (State.sweepRefuse_only.after changesOnly_refl)
    · exact State.sweepBegin_only.after (State.accept_only.after changesOnly_refl)

theorem execSweepStop_only {n : Fin 4} : answersOnly [.qs, .sw, .flt, .mb, .free] s (execSweepStop n s) := by
  unfold execSweepStop
  exact answersOnly_next (State.carry_only changesOnly_refl fun _ => State.finish_only.after (State.sweepStop_only.after changesOnly_refl))

theorem execChgStart_only {n : Fin 4} : answersOnly [.qs, .pp, .chg, .ms, .sw, .flt, .mb, .free] s (execChgStart n s) := by
  unfold execChgStart
  exact answersOnly_settle (State.carry_only changesOnly_refl fun _ => ite_only (fun _ => State.finish_only.after changesOnly_refl)
    (fun _ => State.finish_only.after (State.chargeStart_only.after changesOnly_refl)))

theorem execDormantEnter_only {n : Fin 4} {load : Nat} : answersOnly [.sys, .qs, .bus, .pp, .seq, .flt, .mb, .nvm, .tca, .tcb] s (execDormantEnter n
    load s) := by
  unfold execDormantEnter
  exact answersOnly_next (State.carry_only changesOnly_refl fun _ => State.dormAsk_only.after changesOnly_refl)

theorem execAddressMatchDormant_only {bp : BusPort} : answersOnly [.clk, .sys, .qs, .bus, .pp, .ms, .seq, .wd, .mb, .stk, .nvm, .tca, .tcb] s
    (execAddressMatchDormant bp s) := by
  unfold execAddressMatchDormant
  exact answersOnly_ite (fun _ => answersOnly_next changesOnly_refl) (fun _ => answersOnly_settle
    (State.wakeFrom_only.after (State.onPort_only.after changesOnly_refl)))

theorem execStkUpdEdge_only : answersOnly [.clk, .sys, .qs, .bus, .pp, .ms, .seq, .wd, .mb, .stk, .nvm, .tca, .tcb] s (execStkUpdEdge s) := by
  unfold execStkUpdEdge
  exact answersOnly_settle (when_only (onBus_only.after changesOnly_refl) fun _ => State.wakeFrom_only.after changesOnly_refl)

theorem execUpdateApply_only : answersOnly [.sys, .qs, .bus, .fab, .cc, .pp, .chg, .ms, .sw, .seq, .flt, .mb, .nvm, .tca, .tcb, .free] s
    (execUpdateApply s) := by
  unfold execUpdateApply
  exact answersOnly_ite (fun _ => answersOnly_next changesOnly_refl) (fun _ => answersOnly_settle (foldl_only (onBus_only.after changesOnly_refl)
    fun _ _ => State.applyBlock_only.after changesOnly_refl))

theorem execImmWriteApply_only : answersOnly [.sys, .qs, .bus, .fab, .cc, .pp, .chg, .ms, .sw, .seq, .flt, .mb, .nvm, .tca, .tcb, .free] s
    (execImmWriteApply s) := by
  unfold execImmWriteApply
  exact answersOnly_ite (fun _ => answersOnly_next changesOnly_refl) (fun _ => answersOnly_settle (foldl_only (foldl_only
    (onBus_only.after changesOnly_refl) fun _ _ => State.applyBlock_only.after changesOnly_refl)
    fun _ _ => State.immWrite_only.after changesOnly_refl))

theorem execStkUpdApply_only : answersOnly [.sys, .qs, .bus, .fab, .cc, .pp, .chg, .ms, .sw, .seq, .flt, .mb, .nvm, .tca, .tcb, .free] s
    (execStkUpdApply s) := by
  unfold execStkUpdApply
  exact answersOnly_ite (fun _ => answersOnly_next changesOnly_refl) (fun _ => answersOnly_settle (foldl_only (onBus_only.after changesOnly_refl)
    fun _ _ => State.applyBlock_only.after changesOnly_refl))

/-- Without a DONE bit nothing is released. -/
theorem doneBits_zero (s : State) : s.doneBits 0 = s := by
  unfold State.doneBits
  simp

theorem execMailboxRing_only {mask : BitVec 4} : answersOnly [.qs, .bus, .pp, .mb] s (execMailboxRing mask s) := by
  unfold execMailboxRing
  refine answersOnly_settle (when_only changesOnly_refl fun u => ?_)
  unfold State.doorbell
  rw [doneBits_zero]
  exact State.takeRings_only.after (State.ringBits_only.after (State.wrote_only.after changesOnly_refl))

/-- A byte of a plain write stays within the bus, the mailboxes and the queues unless it rings the DOORBELL of the host port (R400). -/
theorem execRegisterWrite_only {bp : BusPort} {v : BitVec 8} {single : Bool} (h : bp = .safety ∨ s.bus.hp.ptr ≠ 0x22) :
    answersOnly [.qs, .bus, .mb] s (execRegisterWrite bp v single s) := by
  unfold execRegisterWrite
  refine answersOnly_ite (fun _ => answersOnly_next changesOnly_refl) fun _ => ?_
  have hw : changesOnly [.qs, .bus] s (if (0x00C0 ≤ (s.port bp).ptr && (s.port bp).ptr ≤ 0x00FF && single : Bool) then
      s.onPort bp fun p => { p with ptr := ((s.port bp).ptr + 1) % 4096 } else s.wrote bp (s.port bp).ptr) :=
    ite_only (fun _ => State.onPort_only.after changesOnly_refl) fun _ => State.wrote_only.after changesOnly_refl
  cases bp with
  | safety =>
    refine answersOnly_ite (fun _ => answersOnly_next (hw.after changesOnly_refl)) fun _ => answersOnly_next (State.busFlag_only.after ?_)
    exact ite_only (fun _ => State.wrote_only.after (hw.after changesOnly_refl)) fun _ => hw.after changesOnly_refl
  | host =>
    have hptr : s.bus.hp.ptr ≠ 0x22 := h.resolve_left (by decide)
    refine answersOnly_ite (fun hd => absurd hd hptr) fun _ => answersOnly_next (State.hostWrite_only.after (hw.after changesOnly_refl))

/-! ## The statement -/

/-- Settles O59: the frame of each command. -/
theorem frameBusMailbox : Obligations.FrameBusMailbox :=
  ⟨fun _ _ _ => execPointerSet_only, fun _ _ => execLineSupplied_only, fun _ _ => execStretchLimit_only, fun _ _ => execGtsLatch_only,
    fun _ _ => execMirStat_only, fun _ _ => execBusTimeout_only, fun _ _ => execFilterApply_only, fun _ _ => execAttentionWrite_only,
    fun _ _ => execAttentionRetry_only, fun _ _ => execAttentionRepeat_only, fun _ _ => execControlLineRead_only, fun _ _ _ => execClearOnRead_only,
    fun _ _ _ _ _ => execGuardedValue_only, fun _ _ _ => execUpdate_only, fun _ _ _ => execImm_only, fun _ _ => execCommandCompletion_only,
    fun _ _ => execSysStatus_only, fun _ _ => execQueueStat_only, fun _ _ => execMbxReset_only, fun _ _ => execChgQuery_only,
    fun _ _ => execZoneGet_only, fun _ _ => execSafeGet_only, fun _ _ => execPlaceQuery_only, fun _ _ => execBasinQuery_only,
    fun _ _ => execPathQuery_only, fun _ _ => execCoefGet_only, fun _ _ => execMeasQuery_only, fun _ _ => execCcGet_only,
    fun _ _ => execPointsGet_only, fun _ _ => execPortQuery_only, fun _ _ => execNvmStat_only, fun _ _ => execImageAct_only,
    fun _ _ => execIdGet_only, fun _ _ => execCertGet_only, fun _ _ => execFuseBlowDone_only, fun _ _ => execEventRead_only,
    fun _ _ => execQueueClear_only, fun _ _ => execDormantCfg_only, fun _ _ => execChgStop_only, fun _ _ => execZoneSet_only,
    fun _ _ => execSafeSetCmd_only, fun _ _ => execHostCap_only, fun _ _ => execCoefSet_only, fun _ _ => execTune_only,
    fun _ _ => execModelGet_only, fun _ _ => execLogSign_only, fun _ _ => execChemSet_only, fun _ _ => execChemGet_only,
    fun _ _ => execRootSet_only, fun _ _ => execImageLoad_only, fun _ _ => execAddrSet_only, fun _ _ _ _ => execFuse_only,
    fun _ _ => execCcSet_only, fun _ _ => execPrSwap_only, fun _ _ => execDrSwap_only, fun _ _ => execAuth_only, fun _ _ => execNvmStore_only,
    fun _ _ => execPathSet_only, fun _ m _ => execSweep_only (x := m), fun _ _ => execSweepStop_only, fun _ _ => execChgStart_only,
    fun _ _ _ => execDormantEnter_only, fun _ _ => execAddressMatchDormant_only, fun _ => execStkUpdEdge_only, fun _ => execUpdateApply_only,
    fun _ => execImmWriteApply_only, fun _ => execStkUpdApply_only, fun _ _ => execMailboxRing_only, fun _ _ _ _ t h => execRegisterWrite_only h t⟩

end Sys2Proof.Machine
end

section
/-! PROOFS. What each of the stack commands leaves as it was, by the shared operations its meaning is made of. -/
namespace Sys2Proof.Machine

set_option Elab.async false
open Sys2Proof.Safety

variable {s : State}

/-! ## The commands -/

theorem execScmdNone_only {x : BitVec 16} : answersOnly [] s (execScmdNone x s) := by
  unfold execScmdNone
  exact answersOnly_next changesOnly_refl

theorem execJoinCertificate_only {k : Fin 32} {off : BitVec 16} {data : List (BitVec 8)} : answersOnly [.stk] s (execJoinCertificate k off data s) :=
    by
  unfold execJoinCertificate
  exact answersOnly_next (when_only changesOnly_refl fun _ => onStk_only.after changesOnly_refl)

theorem execTime1_only {arg : BitVec 16} : answersOnly [.stk] s (execTime1 arg s) := by
  unfold execTime1
  exact answersOnly_next (when_only changesOnly_refl fun _ => onStk_only.after changesOnly_refl)

theorem execTime2_only {arg : BitVec 16} : answersOnly [.stk] s (execTime2 arg s) := by
  unfold execTime2
  exact answersOnly_next (when_only changesOnly_refl fun _ => onStk_only.after changesOnly_refl)

theorem execScap_only {arg : BitVec 16} : answersOnly [.stk] s (execScap arg s) := by
  unfold execScap
  exact answersOnly_next (when_only changesOnly_refl fun _ => onStk_only.after changesOnly_refl)

theorem execSafeg_only {arg : BitVec 16} : answersOnly [.stk] s (execSafeg arg s) := by
  unfold execSafeg
  exact answersOnly_next (when_only changesOnly_refl fun _ => onStk_only.after changesOnly_refl)

theorem execExpectLo_only {arg : BitVec 16} : answersOnly [.stk] s (execExpectLo arg s) := by
  unfold execExpectLo
  exact answersOnly_next (when_only changesOnly_refl fun _ => onStk_only.after changesOnly_refl)

theorem execExpectHi_only {arg : BitVec 16} : answersOnly [.stk] s (execExpectHi arg s) := by
  unfold execExpectHi
  exact answersOnly_next (when_only changesOnly_refl fun _ => onStk_only.after changesOnly_refl)

theorem execDelay_only {arg : BitVec 16} : answersOnly [.stk] s (execDelay arg s) := by
  unfold execDelay
  exact answersOnly_next (when_only changesOnly_refl fun _ => onStk_only.after changesOnly_refl)

theorem execTstep_only {arg : BitVec 16} : answersOnly [.stk] s (execTstep arg s) := by
  unfold execTstep
  exact answersOnly_next (when_only changesOnly_refl fun _ => onStk_only.after changesOnly_refl)

theorem execSeqLo_only {arg : BitVec 16} : answersOnly [.stk] s (execSeqLo arg s) := by
  unfold execSeqLo
  exact answersOnly_next (when_only changesOnly_refl fun _ => onStk_only.after changesOnly_refl)

theorem execSeqHi_only {arg : BitVec 16} : answersOnly [.stk] s (execSeqHi arg s) := by
  unfold execSeqHi
  exact answersOnly_next (when_only changesOnly_refl fun _ => onStk_only.after changesOnly_refl)

theorem execSeqGo_only {arg : BitVec 16} : answersOnly [.stk] s (execSeqGo arg s) := by
  unfold execSeqGo
  exact answersOnly_next (when_only changesOnly_refl fun _ => onStk_only.after changesOnly_refl)

theorem execDormant_only {arg : BitVec 16} : answersOnly [.stk] s (execDormant arg s) := by
  unfold execDormant
  exact answersOnly_next (when_only changesOnly_refl fun _ => onStk_only.after changesOnly_refl)

theorem execJstart_only {arg : BitVec 16} : answersOnly [.stk] s (execJstart arg s) := by
  unfold execJstart
  exact answersOnly_next (when_only changesOnly_refl fun _ => onStk_only.after changesOnly_refl)

theorem execJdata_only {arg : BitVec 16} : answersOnly [.stk] s (execJdata arg s) := by
  unfold execJdata
  exact answersOnly_next (when_only changesOnly_refl fun _ => onStk_only.after changesOnly_refl)

theorem execJoinRetry_only : answersOnly [.stk] s (execJoinRetry s) := by
  unfold execJoinRetry
  exact answersOnly_next (when_only changesOnly_refl fun _ => onStk_only.after changesOnly_refl)

theorem execManagerReclaim_only : answersOnly [.stk] s (execManagerReclaim s) := by
  unfold execManagerReclaim
  exact answersOnly_next (when_only changesOnly_refl fun _ => onStk_only.after changesOnly_refl)

theorem execStackStat_only {n : Fin 4} : answersOnly [.flt, .mb] s (execStackStat n s) := by
  unfold execStackStat
  exact answersOnly_next (State.query_only.after changesOnly_refl)

theorem execMgrSilent_only : answersOnly [.qs, .stk] s (execMgrSilent s) := by
  unfold execMgrSilent
  exact answersOnly_next (when_only changesOnly_refl fun _ => when_only (onStk_only.after changesOnly_refl)
    fun _ => State.raise_only.after changesOnly_refl)

theorem execStackDormantTimeout_only : answersOnly [.mb, .stk] s (execStackDormantTimeout s) := by
  unfold execStackDormantTimeout
  exact answersOnly_next (when_only changesOnly_refl fun _ => onStk_only.after (State.finishO_only.after changesOnly_refl))

theorem execStackSet_only {n : Fin 4} : answersOnly [.flt, .mb, .stk] s (execStackSet n s) := by
  unfold execStackSet
  exact answersOnly_next (State.carry_only changesOnly_refl fun _ => ite_only (fun _ => State.finish_only.after (onStk_only.after changesOnly_refl))
    (fun _ => State.finish_only.after changesOnly_refl))

theorem execStackDormant_only {n : Fin 4} : answersOnly [.flt, .mb, .stk] s (execStackDormant n s) := by
  unfold execStackDormant
  exact answersOnly_next (State.carry_only changesOnly_refl fun _ => ite_only (fun _ => State.finish_only.after changesOnly_refl) (fun _ => ite_only
    (fun _ => State.finish_only.after changesOnly_refl) (fun _ => onStk_only.after (State.accept_only.after changesOnly_refl))))

theorem execSlotStart_only {c : CycIn} : answersOnly [.qs, .stk, .free] s (execSlotStart c s) := by
  unfold execSlotStart
  refine answersOnly_next ?_
  refine when_only ?_ fun _ => ?_
  · exact changesOnly_refl
  · split
    · exact when_only changesOnly_refl fun _ => ite_only (fun _ => State.realignFrame_only.after changesOnly_refl)
        (fun _ => useFree_only.after (State.reportFrame_only.after changesOnly_refl))
    · exact State.requestFrame_only.after changesOnly_refl
    · exact State.joinFrame_only.after changesOnly_refl
    · exact changesOnly_refl
    · exact changesOnly_refl

theorem execJoinRequest_only {k : Fin 32} {r : JoinReq} : answersOnly [.qs, .stk, .free] s (execJoinRequest k r s) := by
  unfold execJoinRequest
  exact answersOnly_next (when_only changesOnly_refl fun _ => when_only (onStk_only.after changesOnly_refl)
    fun _ => State.joinAsk_only.after changesOnly_refl)

theorem execSlotListenEnd_only {heard : Bool} : answersOnly [.qs, .stk, .free] s (execSlotListenEnd heard s) := by
  unfold execSlotListenEnd
  exact answersOnly_next (when_only changesOnly_refl fun _ => ite_only (fun _ => State.raise_only.after changesOnly_refl)
    (fun _ => useFree_only.after (onStk_only.after changesOnly_refl)))

theorem execSlotFail_only {k : Fin 32} : answersOnly [.qs, .pp, .flt] s (execSlotFail k s) := by
  unfold execSlotFail
  exact answersOnly_settle (when_only changesOnly_refl fun _ => State.failNote_only.after changesOnly_refl)

theorem execSlot0Collision_only {other : Fin 32} : answersOnly [.qs, .pp, .flt] s (execSlot0Collision other s) := by
  unfold execSlot0Collision
  exact answersOnly_settle (when_only changesOnly_refl fun _ => State.failNote_only.after changesOnly_refl)

theorem execFrameCrc_only : answersOnly [.qs, .pp, .flt] s (execFrameCrc s) := by
  unfold execFrameCrc
  exact answersOnly_settle (when_only changesOnly_refl fun _ => State.failNote_only.after changesOnly_refl)

theorem execStackSeq_only {n : Fin 4} : answersOnly [.qs, .flt, .mb, .stk] s (execStackSeq n s) := by
  unfold execStackSeq
  exact answersOnly_next (State.carry_only changesOnly_refl fun _ => ite_only (fun _ => State.finish_only.after changesOnly_refl) (fun _ => ite_only
    (fun _ => State.finish_only.after changesOnly_refl)
    (fun _ => State.queueScmd_only.after (State.queueScmd_only.after (State.queueScmd_only.after (onStk_only.after (State.accept_only.after changesOnly_refl)))))))

theorem execAlignLost_only : answersOnly [.qs, .pp, .flt, .stk] s (execAlignLost s) := by
  unfold execAlignLost
  exact answersOnly_settle (when_only changesOnly_refl fun _ => State.failNote_only.after (onStk_only.after changesOnly_refl))

theorem execAlignLostLift_only : answersOnly [.sys, .qs, .pp, .flt] s (execAlignLostLift s) := by
  unfold execAlignLostLift
  exact answersOnly_settle (when_only changesOnly_refl fun _ => State.stkLift_only.after changesOnly_refl)

theorem execStkTakeover_only : answersOnly [.sys, .qs, .flt, .stk] s (execStkTakeover s) := by
  unfold execStkTakeover
  exact answersOnly_next (when_only changesOnly_refl fun _ => State.modeFix_only.after (State.raise_only.after (onStk_only.after changesOnly_refl)))

theorem execManagerFrame_only {f : MgrFrame} : answersOnly [.clk, .qs, .grd, .flt, .stk] s (execManagerFrame f s) := by
  unfold execManagerFrame
  exact answersOnly_next (when_only changesOnly_refl fun _ => ite_only (fun _ => State.yieldStart_only.after changesOnly_refl) (fun _ => ite_only
    (fun _ => State.injectedCheck_only.after (State.yieldStart_only.after changesOnly_refl)) (fun _ => when_only
    (State.yieldStart_only.after changesOnly_refl) fun _ => State.slot0Frame_only.after changesOnly_refl)))

theorem execMemberReport_only {r : MemberRep} {fr : Option FaultRep} {late : Nat} : answersOnly [.sys, .qs, .flt, .stk, .free] s (execMemberReport r
    fr late s) := by
  unfold execMemberReport
  exact answersOnly_next (when_only changesOnly_refl fun _ => useFree_only.after (when_only (State.keepReport_only.after changesOnly_refl)
    fun _ => State.reportTake_only.after changesOnly_refl))

theorem execJoinSignature_only {k : Fin 32} {part : BitVec 16} {data : List (BitVec 8)} : answersOnly [.sys, .qs, .flt, .stk, .free] s
    (execJoinSignature k part data s) := by
  unfold execJoinSignature
  exact answersOnly_next (when_only changesOnly_refl fun _ => ite_only (fun _ => onStk_only.after changesOnly_refl) (fun _ => ite_only
    (fun _ => State.joinEnd_only.after (onStk_only.after changesOnly_refl)) (fun _ => changesOnly_refl)))

theorem execJoinTimeout_only : answersOnly [.sys, .qs, .flt, .stk, .free] s (execJoinTimeout s) := by
  unfold execJoinTimeout
  refine answersOnly_next ?_
  refine when_only ?_ fun _ => ?_
  · exact changesOnly_refl
  · refine ite_only (fun _ => ?_) (fun _ => ?_)
    · split
      · exact State.joinEnd_only.after changesOnly_refl
      · exact changesOnly_refl
    · exact when_only changesOnly_refl fun _ => State.joinRefused_only.after changesOnly_refl

theorem execStackFenceLift_only {k : Fin 32} : answersOnly [.sys, .qs, .flt, .stk, .free] s (execStackFenceLift k s) := by
  unfold execStackFenceLift
  exact answersOnly_next (when_only changesOnly_refl fun _ => State.memberLift_only.after changesOnly_refl)

theorem execJresult_only {arg : BitVec 16} : answersOnly [.sys, .qs, .cc, .flt, .stk] s (execJresult arg s) := by
  unfold execJresult
  exact answersOnly_next (when_only changesOnly_refl fun _ => ite_only (fun _ => State.joinDone_only.after changesOnly_refl)
    (fun _ => State.joinRefused_only.after changesOnly_refl))

theorem execCascRefLostLift_only : answersOnly [.sys, .qs, .pp, .flt, .stk] s (execCascRefLostLift s) := by
  unfold execCascRefLostLift
  exact answersOnly_settle (when_only changesOnly_refl fun _ => State.stkLift_only.after (onStk_only.after changesOnly_refl))

theorem execStackElectionClose_only : answersOnly [.qs, .seq, .flt, .stk, .nvm] s (execStackElectionClose s) := by
  unfold execStackElectionClose
  split
  · exact answersOnly_next (when_only changesOnly_refl fun _ => State.electClose_only.after (onStk_only.after changesOnly_refl))
  · exact answersOnly_next changesOnly_refl

theorem execReferenceFrame_only {iunit : BitVec 11} {bsw : Bool} {stop : Bool} {parity : Bool} : answersOnly [.qs, .fab, .cc, .pp, .sw, .stk] s
    (execReferenceFrame iunit bsw stop parity s) := by
  unfold execReferenceFrame
  exact answersOnly_settle (when_only changesOnly_refl fun _ => ite_only (fun _ => when_only (onStk_only.after changesOnly_refl)
    fun _ => State.refTake_only.after changesOnly_refl) (fun _ => State.refMiss_only.after changesOnly_refl))

theorem execCascRefLost_only : answersOnly [.qs, .fab, .pp, .sw, .flt, .stk] s (execCascRefLost s) := by
  unfold execCascRefLost
  exact answersOnly_settle (when_only changesOnly_refl fun _ => State.failNote_only.after (State.refMiss_only.after changesOnly_refl))

theorem execStackCycleStart_only {c : CycIn} : answersOnly [.clk, .sys, .qs, .bus, .fab, .cc, .pp, .chg, .sw, .seq, .flt, .mb, .stk, .nvm, .tca,
    .tcb, .free] s (execStackCycleStart c s) := by
  unfold execStackCycleStart
  exact answersOnly_settle (when_only changesOnly_refl fun _ => State.cycleStart_only.after changesOnly_refl)

/-! ## The statement -/

/-- Settles O60: the frame of each command. -/
theorem frameStack : Obligations.FrameStack :=
  ⟨fun arg _ => execScmdNone_only (x := arg), fun _ _ _ _ => execJoinCertificate_only, fun _ _ => execTime1_only, fun _ _ => execTime2_only,
    fun _ _ => execScap_only, fun _ _ => execSafeg_only, fun _ _ => execExpectLo_only, fun _ _ => execExpectHi_only, fun _ _ => execDelay_only,
    fun _ _ => execTstep_only, fun _ _ => execSeqLo_only, fun _ _ => execSeqHi_only, fun _ _ => execSeqGo_only, fun _ _ => execDormant_only,
    fun _ _ => execJstart_only, fun _ _ => execJdata_only, fun _ => execJoinRetry_only, fun _ => execManagerReclaim_only,
    fun _ _ => execStackStat_only, fun _ => execMgrSilent_only, fun _ => execStackDormantTimeout_only, fun _ _ => execStackSet_only,
    fun _ _ => execStackDormant_only, fun _ _ => execSlotStart_only, fun _ _ _ => execJoinRequest_only, fun _ _ => execSlotListenEnd_only,
    fun _ _ => execSlotFail_only, fun _ _ => execSlot0Collision_only, fun _ => execFrameCrc_only, fun _ _ => execStackSeq_only,
    fun _ => execAlignLost_only, fun _ => execAlignLostLift_only, fun _ => execStkTakeover_only, fun _ _ => execManagerFrame_only,
    fun _ _ _ _ => execMemberReport_only, fun _ _ _ _ => execJoinSignature_only, fun _ => execJoinTimeout_only, fun _ _ => execStackFenceLift_only,
    fun _ _ => execJresult_only, fun _ => execCascRefLostLift_only, fun _ => execStackElectionClose_only, fun _ _ _ _ _ => execReferenceFrame_only,
    fun _ => execCascRefLost_only, fun _ _ => execStackCycleStart_only⟩

end Sys2Proof.Machine
end

section
/-! PROOFS. How time passes (R18, R19), how drops are counted and cleared (R35), and what a buffer reads behind a write. -/
namespace Sys2Proof.Machine

set_option Elab.async false
open Sys2Proof.Safety

variable {s : State}

/-! ## Time (R18, R19) -/

/-- AON counts time (R22). -/
theorem counting (hu : s.sys.mode ≠ .unpowered) (hs : s.sys.mode ≠ .ship) (hc : s.sys.cut = false) :
    ¬ (s.sys.mode == .unpowered || s.sys.mode == .ship || s.sys.cut) = true := by simp [hu, hs, hc]

/-- A cycle within a microsecond moves the fine count alone. -/
theorem idleTick_of_fine (hc : ¬ (s.sys.mode == .unpowered || s.sys.mode == .ship || s.sys.cut) = true) (hm : s.clk.moscRun = true)
    (hf : s.clk.fine.toNat < 127) : s.idleTick = s.onClk fun c => { c with fine := c.fine + 1 } := by
  unfold State.idleTick
  rw [if_neg hc, if_pos hm, if_pos hf]

/-- `k` cycles of MOSC from the start of a microsecond. -/
theorem idleTick_iterate (hc : ¬ (s.sys.mode == .unpowered || s.sys.mode == .ship || s.sys.cut) = true) (hm : s.clk.moscRun = true)
    (hf : s.clk.fine = 0) (k : Nat) (hk : k < 128) :
    (fun t => State.idleTick t)^[k] s = s.onClk fun c => { c with fine := BitVec.ofNat 7 k } := by
  induction k with
  | zero =>
    have hz : { s.clk with fine := s.clk.fine } = s.clk := rfl
    rw [hf] at hz
    exact (congrArg (fun c => { s with clk := c }) hz).symm
  | succ k ih =>
    have hfine : (BitVec.ofNat 7 k).toNat < 127 := by rw [BitVec.toNat_ofNat]; omega
    rw [Function.iterate_succ_apply', ih (by omega), idleTick_of_fine (s := s.onClk fun c => { c with fine := BitVec.ofNat 7 k }) hc hm hfine]
    have hadd : BitVec.ofNat 7 k + 1 = BitVec.ofNat 7 (k + 1) := (BitVec.ofNat_add k 1).symm
    exact congrArg (fun f => s.onClk fun c => { c with fine := f }) hadd

/-- Outside a stack the last cycle of a microsecond advances GTS and starts the next one (R18, R435). -/
theorem idleTick_of_last (hc : ¬ (s.sys.mode == .unpowered || s.sys.mode == .ship || s.sys.cut) = true) (hm : s.clk.moscRun = true)
    (hj : s.stk.joined = false) (hf : ¬ s.clk.fine.toNat < 127) :
    s.idleTick.clk = ((s.onClk fun c => { c with fine := 0 }).gtsAdd 1).clk := by
  have htrim : s.trimHere = false := by unfold State.trimHere; rw [hj, Bool.false_and]
  unfold State.idleTick State.when
  simp only [if_neg hc, if_pos hm, if_neg hf, htrim, Bool.false_and, Bool.false_eq_true, if_false, onWd_clk]

/-- While MOSC is stopped a cycle of AOSC puts the increment on the accumulator, and its carry advances GTS (R19). -/
theorem idleTick_of_aosc (hc : ¬ (s.sys.mode == .unpowered || s.sys.mode == .ship || s.sys.cut) = true) (hm : s.clk.moscRun = false) :
    s.idleTick = (s.onClk fun c => { c with frac := BitVec.ofNat 16 (s.clk.frac.toNat + s.clk.incr.toNat) }).gtsAdd
      ((s.clk.frac.toNat + s.clk.incr.toNat) / 65536) := by
  unfold State.idleTick
  rw [if_neg hc, if_neg (by simp [hm])]

/-- Settles O9: 127 cycles move the fine count, the 128th moves GTS; an AOSC cycle goes through the accumulator. -/
theorem idleAdvancesTime : Obligations.IdleAdvancesTime := by
  refine ⟨fun s hm hj hu hs hcut hf => ?_, fun s hm hu hs hcut => ?_⟩
  · have hc := counting hu hs hcut
    have hit := idleTick_iterate hc hm hf
    have hlast : ((fun t => State.idleTick t)^[128] s).clk
        = ((s.onClk fun c => { c with fine := 0 }).gtsAdd 1).clk := by
      rw [Function.iterate_succ_apply', hit 127 (by decide)]
      exact idleTick_of_last (s := s.onClk fun c => { c with fine := 127 }) hc hm hj (Nat.lt_irrefl 127)
    refine ⟨fun k hk => by rw [hit k hk]; rfl, ?_, ?_⟩
    · rw [hlast, gtsAdd_clk _ 1 (by decide)]; rfl
    · rw [hlast, gtsAdd_clk _ 1 (by decide)]; rfl
  · have hfrac := s.clk.frac.isLt
    have hincr := s.clk.incr.isLt
    rw [idleTick_of_aosc (counting hu hs hcut) hm, gtsAdd_clk _ _ (by omega)]
    exact ⟨BitVec.toNat_ofNat .., rfl⟩

/-! ## Drops (R35) -/

/-- A drop below the last but one value counts, and nothing else. -/
theorem countDrop_below {k : Nat} (h : s.qs.drops.getD k 0 < 0xFFFE) :
    s.countDrop k = (s.onQs fun q => { q with drops := q.drops.set k (q.drops.getD k 0 + 1) }, false) := by
  unfold State.countDrop
  dsimp only
  rw [if_pos (by omega), if_neg (by omega)]
  rfl

/-- The drop that reaches 0xFFFF sets the SAT flag. -/
theorem countDrop_last {k : Nat} (h : s.qs.drops.getD k 0 = 0xFFFE) :
    s.countDrop k = (s.onQs fun q => { q with drops := q.drops.set k 0xFFFF, sat := setBit q.sat k true }, true) := by
  unfold State.countDrop
  dsimp only
  rw [h, if_pos (by decide), if_pos (by decide)]
  rfl

theorem drop_below {k : Nat} (h : s.qs.drops.getD k 0 < 0xFFFE) :
    s.drop k = s.onQs fun q => { q with drops := q.drops.set k (q.drops.getD k 0 + 1) } := by
  unfold State.drop
  rw [countDrop_below h]
  rfl

theorem drop_saturated {k : Nat} (h : s.qs.drops.getD k 0 = 0xFFFF) : s.drop k = s := by
  unfold State.drop
  rw [countDrop_saturated (by omega)]
  rfl

/-- With room in the event queue the drop that reaches 0xFFFF raises QUEUE_SAT. -/
theorem drop_last {k : Nat} (h : s.qs.drops.getD k 0 = 0xFFFE) (hl : s.qs.events.length < 224) :
    s.drop k = (s.onQs fun q => { q with drops := q.drops.set k 0xFFFF, sat := setBit q.sat k true }).pushEvent
      (s.mkEvent Src.vetch Ev.queueSat 0 [BitVec.ofNat 8 k]) := by
  unfold State.drop
  rw [countDrop_last h]
  exact if_pos ((eventFits_iff _ 0).2 hl)

/-- What QUEUE_CLEAR leaves of a counter and a SAT flag that its mask names. -/
theorem cleared_drop (l : List Nat) (m : Nat) {k : Nat} (h : m.testBit k = true) :
    (l.mapIdx fun k v => if m.testBit k then 0 else v).getD k 0 = 0 := by
  rw [List.getD_eq_getElem?_getD, List.getElem?_mapIdx]
  cases l[k]? <;> simp [h]

theorem cleared_sat (x : BitVec 13) (m : Nat) {k : Nat} (hk : k < 13) (h : m.testBit k = true) :
    (x &&& ~~~(BitVec.ofNat 13 m)).getLsbD k = false := by
  simp [BitVec.getLsbD_ofNat, hk, h]

/-- Settles O13: one drop by the value of its counter, and QUEUE_CLEAR bit by bit. -/
theorem dropCounts : Obligations.DropCounts := by
  refine ⟨fun s k _ _ hl => ⟨drop_below, fun h => ?_, drop_saturated⟩, fun s n m hr hm hlt => ?_⟩
  · rw [drop_last h hl]
    exact ⟨rfl, rfl, _, rfl, rfl, rfl⟩
  · have hexec : exec (.queueClear n) s = .next (((begun s n).onQs fun q => { q with
        drops := q.drops.mapIdx fun k v => if m.testBit k then 0 else v, sat := q.sat &&& ~~~(BitVec.ofNat 13 m) }).finish n.val St.ok) := by
      subst hm
      exact congrArg Host.Outcome.next (carry_ready hr rfl (decide_eq_true hlt))
    refine ⟨_, hexec, fun k hk hb => ?_⟩
    rw [finish_qs]
    exact ⟨cleared_drop _ m hb, cleared_sat _ m hk hb⟩

/-! ## Buffers -/

/-- Below every entry a buffer reads as unlisted. -/
theorem memGet_of_below {d : Nat → Byte} {m : List Host.Cell} {lo a : Nat} (h : memOrdered d lo m = true) (ha : a < lo) : memGet d m a = d a := by
  induction m generalizing lo with
  | nil => rfl
  | cons c r ih =>
    obtain ⟨k, v⟩ := c
    simp only [memOrdered, Bool.and_eq_true, decide_eq_true_eq] at h
    obtain ⟨⟨hk, -⟩, hr⟩ := h
    rw [memGet, if_neg (by omega), ih hr (by omega)]

/-- What a buffer whose entries rise reads behind a write. -/
theorem memGet_memPut_of_ordered {d : Nat → Byte} {m : List Host.Cell} {lo : Nat} (a b : Nat) (v : Byte) (h : memOrdered d lo m = true) :
    memGet d (memPut d m a v) b = if b = a then v else memGet d m b := by
  induction m generalizing lo with
  | nil =>
    unfold memPut
    split
    · next hv => by_cases hb : b = a <;> simp [memGet, hb, hv]
    · by_cases hb : b = a
      · simp [memGet, hb]
      · simp [memGet, hb, Ne.symm hb]
  | cons c r ih =>
    obtain ⟨k, w⟩ := c
    simp only [memOrdered, Bool.and_eq_true, decide_eq_true_eq] at h
    obtain ⟨-, hr⟩ := h
    unfold memPut
    rcases Nat.lt_trichotomy a k with hak | rfl | hak
    · rw [if_pos hak]
      have hlow : memGet d ((k, w) :: r) a = d a := by
        rw [memGet, if_neg (by omega)]; exact memGet_of_below hr (by omega)
      split
      · next hv =>
        split
        · next hb => rw [hb, hlow, hv]
        · rfl
      · rw [memGet]; simp only [eq_comm]
    · rw [if_neg (Nat.lt_irrefl a), if_pos rfl]
      have hlow : memGet d r a = d a := memGet_of_below hr (by omega)
      split
      · next hv =>
        split
        · next hb => rw [hb, hlow, hv]
        · next hb => rw [memGet, if_neg (Ne.symm hb)]
      · split
        · next hb => rw [memGet, if_pos hb.symm]
        · next hb => rw [memGet, memGet, if_neg (Ne.symm hb), if_neg (Ne.symm hb)]
    · rw [if_neg (by omega), if_neg (by omega), memGet, memGet, ih hr]
      split
      · next hb => rw [if_neg (by omega)]
      · rfl

theorem memGet_memPut {d : Nat → Byte} {m : List Host.Cell} (h : Memory.wf d m = true) (a b : Nat) (v : Byte) :
    memGet d (memPut d m a v) b = if b = a then v else memGet d m b := memGet_memPut_of_ordered a b v h

/-- Settles O14, by where the address stands among the entries. -/
theorem bufferReadsBack : Obligations.BufferReadsBack := fun _ _ a b v h => ⟨memGet_memPut h a b v, memPut_wf a v h⟩

end Sys2Proof.Machine
end

section
/-! PROOFS. Bytes written and read through the two-wire ports: mailbox bytes (R398), buffered control registers (R383, R384, R390), bytes that
clear as they are read (R385, R386), and the GTS latch (R25, R492). -/
namespace Sys2Proof.Machine

set_option Elab.async false
open Sys2Proof.Safety

variable {s : State}

/-! ## What a failed pair, and a byte written, leave of a port -/

@[simp] theorem raise_port (src : Nat) (code : BitVec 16) (d : List Byte) (c : Nat) (bp : BusPort) :
    (s.raise src code d c).port bp = s.port bp := by
  unfold State.port
  rw [raise_bus]

theorem guardFail_frame (bp : BusPort) : s.guardFail bp = (s.onBus fun _ => (s.guardFail bp).bus).onQs fun _ => (s.guardFail bp).qs := by
  unfold State.guardFail
  rw [raise_frame]
  cases bp <;> rfl

/-- A failed pair of the host port leaves its registers but GUARDF (R388). -/
theorem guardFail_host_bus :
    (s.guardFail .host).bus = { s.bus with hp := { s.bus.hp with pend := none, stat := setBit s.bus.hp.stat 0 true } } := by
  unfold State.guardFail
  rw [raise_bus]
  rfl

theorem wrote_frame (bp : BusPort) (a : Nat) : s.wrote bp a = (s.onBus fun _ => (s.wrote bp a).bus).onQs fun _ => (s.wrote bp a).qs := by
  unfold State.wrote State.when
  dsimp only
  split
  · rw [guardFail_frame]; cases bp <;> rfl
  · cases bp <;> rfl

/-- A byte written through the host port moves its pointer and discards its pending pair, which then fails (R367, R387). -/
theorem wrote_host_bus (a : Nat) : (s.wrote .host a).bus = { s.bus with hp := { s.bus.hp with
    ptr := (a + 1) % 4096, pend := none, stat := if s.bus.hp.pend.isSome then setBit s.bus.hp.stat 0 true else s.bus.hp.stat } } := by
  have hport : (s.port .host).pend = s.bus.hp.pend := rfl
  unfold State.wrote State.when
  dsimp only
  rw [hport]
  cases h : s.bus.hp.pend with
  | some p => rw [Option.isSome_some, if_pos rfl, if_pos rfl, guardFail_host_bus]; rfl
  | none => rw [Option.isSome_none, if_neg Bool.false_ne_true, if_neg Bool.false_ne_true, ← h]; rfl

@[simp] theorem wrote_sys (bp : BusPort) (a : Nat) : (s.wrote bp a).sys = s.sys := by rw [wrote_frame]; rfl
@[simp] theorem wrote_mb (bp : BusPort) (a : Nat) : (s.wrote bp a).mb = s.mb := by rw [wrote_frame]; rfl
@[simp] theorem wrote_pp (bp : BusPort) (a : Nat) : (s.wrote bp a).pp = s.pp := by rw [wrote_frame]; rfl

/-- A plain byte of the host port outside the complements and DOORBELL (R366). -/
theorem execRegisterWrite_host {v : Byte} {single : Bool} (hup : s.busUp .host = true) (hc : s.bus.hp.ptr < 0x00C0 ∨ 0x00FF < s.bus.hp.ptr)
    (hd : s.bus.hp.ptr ≠ 0x22) :
    execRegisterWrite .host v single s = .next ((s.wrote .host s.bus.hp.ptr).hostWrite s.bus.hp.ptr v) := by
  have hcomp : ((0x00C0 ≤ s.bus.hp.ptr && s.bus.hp.ptr ≤ 0x00FF : Bool) && single) = false := by
    rw [Bool.and_eq_false_iff, Bool.and_eq_false_iff, decide_eq_false_iff_not, decide_eq_false_iff_not]
    omega
  unfold execRegisterWrite State.port
  simp only [hup, Bool.not_true, Bool.false_eq_true, if_false, hcomp, if_neg hd]

/-! ## Mailbox bytes (R398) -/

theorem hostWrite_mailbox {a : Nat} (v : Byte) (hlo : 0x0800 ≤ a) (hhi : a < 0x0C00) :
    s.hostWrite a v = if s.mb.lock.getLsbD ((a - 0x0800) / 256) then s
      else s.onMb fun m => { m with inb := memPut zeroByte m.inb (a - 0x0800) v } := by
  unfold State.hostWrite
  rw [if_neg (by omega), if_neg (by omega), if_neg (by omega), if_neg (by omega), if_neg (by omega), if_pos ⟨hlo, hhi⟩]

theorem hostWrite_out {a : Nat} (v : Byte) (h : 0x0C00 ≤ a) : s.hostWrite a v = s := by
  unfold State.hostWrite
  rw [if_neg (by omega), if_neg (by omega), if_neg (by omega), if_neg (by omega), if_neg (by omega), if_neg (by omega)]

theorem busRead_in {a : Nat} (hlo : 0x0800 ≤ a) (hhi : a < 0x0C00) : s.busRead .host a = memGet zeroByte s.mb.inb (a - 0x0800) := by
  unfold State.busRead
  have hm : a % 4096 = a := Nat.mod_eq_of_lt (by omega)
  simp only [hm]
  rw [if_neg (by omega), if_neg (by omega), if_neg (by simp; omega), if_pos hhi]

theorem busRead_out_unready {a : Nat} (hlo : 0x0C00 ≤ a) (hhi : a < 0x1000) (h : s.mb.outrdy.getLsbD ((a - 0x0C00) / 256) = false) :
    s.busRead .host a = 0 := by
  unfold State.busRead
  have hm : a % 4096 = a := Nat.mod_eq_of_lt hhi
  simp only [hm]
  rw [if_neg (by omega), if_neg (by omega), if_neg (by simp; omega), if_neg (by omega), if_neg (by simp [h])]

/-- Settles O15: by the lock of the mailbox addressed; a byte for OUTn, and a port that is down, change no mailbox. -/
theorem mailboxBytes : Obligations.MailboxBytes := by
  refine ⟨fun s v single hinv hup hlo hhi => ?_, fun s v single hlo hhi => ?_, fun s a => busRead_out_unready⟩
  · have hexec : exec (.registerWrite .host v single) s = _ := execRegisterWrite_host hup (.inr (by omega)) (by omega)
    refine ⟨_, hexec, ?_⟩
    rw [hostWrite_mailbox v hlo hhi, wrote_mb]
    cases hlock : s.mb.lock.getLsbD ((s.bus.hp.ptr - 0x0800) / 256) with
    | true =>
      rw [if_pos rfl, wrote_mb]
      refine ⟨rfl, rfl, fun a ha ha' => ?_⟩
      rw [busRead_in ha ha', busRead_in ha ha', wrote_mb, if_neg]
      rintro ⟨rfl, h⟩
      rw [hlock] at h; cases h
    | false =>
      rw [if_neg Bool.false_ne_true, onMb_mb, wrote_mb]
      refine ⟨rfl, rfl, fun a ha ha' => ?_⟩
      obtain ⟨-, -, -, ⟨-, hin, -⟩, -⟩ := hinv
      rw [busRead_in ha ha', busRead_in ha ha', onMb_mb, wrote_mb, memGet_memPut hin]
      by_cases heq : a = s.bus.hp.ptr
      · rw [if_pos (by rw [heq]), if_pos ⟨heq, by rw [heq]; exact hlock⟩]
      · rw [if_neg (by omega), if_neg fun h => heq h.1]
  · by_cases hup : s.busUp .host = true
    · have hexec : exec (.registerWrite .host v single) s = _ := execRegisterWrite_host hup (.inr (by omega)) (by omega)
      exact ⟨_, hexec, by rw [hostWrite_out v hlo, wrote_mb]⟩
    · exact ⟨s, if_pos (by simp [hup]), rfl⟩

/-! ## Buffered control registers (R383, R384, R390) -/

theorem testBit_bitsN (l : List Bool) (k : Nat) : (bitsN l).testBit k = l.getD k false := by
  induction l generalizing k with
  | nil => simp [bitsN]
  | cons b r ih =>
    obtain ⟨hlt, hb⟩ : b2n b < 2 ∧ decide (b2n b = 1) = b := by cases b <;> decide
    unfold bitsN
    cases k with
    | zero => rw [Nat.testBit_zero, show (b2n b + 2 * bitsN r) % 2 = b2n b by omega, hb, List.getD_cons_zero]
    | succ k => rw [Nat.testBit_succ, show (b2n b + 2 * bitsN r) / 2 = bitsN r by omega, ih, List.getD_cons_succ]

/-- A byte formed of bits has them. -/
theorem getLsbD_byteOf (l : List Bool) {k : Nat} (hk : k < 8) : (byteOf l).getLsbD k = l.getD k false := by
  unfold byteOf
  rw [BitVec.getLsbD_ofNat, testBit_bitsN, decide_eq_true hk, Bool.true_and]

theorem blockOf_lt {a k : Nat} (h : blockOf a = some k) : k < 8 := by
  unfold blockOf at h
  repeat' split at h
  all_goals first | (obtain rfl := Option.some.inj h; decide) | cases h

/-- A block with a value written and not yet applied shows in UPD_STAT (R383). -/
theorem updShow_shows {c : Host.Cell} {k : Nat} (hc : c ∈ s.bus.shadow ++ s.bus.immQ) (hk : blockOf c.1 = some k) :
    s.updShow.bus.updStat.getLsbD k = true := by
  have hlt := blockOf_lt hk
  have hany : (s.bus.shadow ++ s.bus.immQ).any (fun c => blockOf c.1 == some k) = true := List.any_eq_true.2 ⟨c, hc, by simp [hk]⟩
  unfold State.updShow
  rw [onBus_bus, getLsbD_byteOf _ hlt, List.getD_eq_getElem?_getD, List.getElem?_map, List.getElem?_range hlt, Option.map_some, Option.getD_some, hany, Bool.true_or, Bool.true_or]

theorem hostWrite_control {a : Nat} (v : Byte) (hlo : 0x0100 ≤ a) (hhi : a < 0x0400) :
    s.hostWrite a v = if !s.sys.fwRun then s.busFlag .host 1 else s.bufferWrite (decodeLine a) v := by
  unfold State.hostWrite
  rw [if_neg (by omega), if_neg (by omega), if_neg (by omega), if_neg (by omega), if_pos ⟨hlo, hhi⟩]

theorem busRead_control {a : Nat} (hlo : 0x0100 ≤ a) (hhi : a < 0x0400) (hfw : s.sys.fwRun = true) (hff : s.bus.hp.allFF = false)
    (hline : s.bus.hp.line = none) : s.busRead .host a = s.controlByte a := by
  unfold State.busRead State.port
  have hm : a % 4096 = a := Nat.mod_eq_of_lt (by omega)
  simp only [hm]
  rw [if_neg (by omega), if_pos hhi, if_neg (by simp [hfw, hff]), hline]

theorem controlByte_buffered {a k : Nat} (h : blockOf (decodeLine a) = some k) : s.controlByte a =
    if decodeLine a = 0x0151 then setBit ((s.pendingAt (decodeLine a)).getD (s.reg (decodeLine a))) 6 s.pp.prioBad
    else (s.pendingAt (decodeLine a)).getD (s.reg (decodeLine a)) := by
  unfold State.controlByte
  simp only [h]

/-- What a shadow page whose addresses rise holds behind a write. -/
theorem shadowAt_shadowPut {l : List Host.Cell} (h : (l.map (·.1)).Pairwise (· < ·)) (a b : Nat) (v : Byte) :
    shadowAt (shadowPut l a v) b = if b = a then some v else shadowAt l b := by
  have hne : v ≠ v + 1 := by simp
  unfold shadowPut shadowAt
  induction l with
  | nil =>
    unfold memPut
    rw [if_neg hne]
    by_cases hb : b = a
    · simp [hb]
    · simp [hb, Ne.symm hb]
  | cons c r ih =>
    obtain ⟨k, w⟩ := c
    rw [List.map_cons, List.pairwise_cons] at h
    obtain ⟨hk, hr⟩ := h
    unfold memPut
    rcases Nat.lt_trichotomy a k with hak | rfl | hak
    · rw [if_pos hak, if_neg hne]
      by_cases hb : b = a
      · simp [hb]
      · simp [hb, Ne.symm hb]
    · rw [if_neg (Nat.lt_irrefl a), if_pos rfl, if_neg hne]
      by_cases hb : b = a
      · simp [hb]
      · simp [hb, Ne.symm hb]
    · rw [if_neg (by omega), if_neg (by omega), List.find?_cons, List.find?_cons]
      by_cases hb : k = b
      · rw [show (k == b) = true by simp [hb], if_neg (by omega)]
      · rw [show (k == b) = false by simp [hb]]
        exact ih hr

/-- A write to a register whose block waits for its update goes into its shadow (R383). -/
theorem bufferWrite_shadow {r k : Nat} (v : Byte) (h : blockOf r = some k) (hi : s.bus.imm.getLsbD k = false) :
    s.bufferWrite r v = (s.onBus fun b => { b with shadow := shadowPut b.shadow r (v &&& wmask r) }).updShow := by
  unfold State.bufferWrite State.onBus
  simp only [h, hi, Bool.false_eq_true, if_false]

/-- A write to a register of a block with IMM set joins the immediate writes (R390). -/
theorem bufferWrite_imm {r k : Nat} (v : Byte) (h : blockOf r = some k) (hi : s.bus.imm.getLsbD k = true) :
    s.bufferWrite r v = (s.onBus fun b => { b with immQ := b.immQ ++ [(r, v &&& wmask r)] }).updShow := by
  unfold State.bufferWrite State.onBus
  simp only [h, hi, if_true]

/-- The value last written is the one pending: where IMM is set, that of the immediate writes (R383, R390). -/
theorem pendingAt_imm {r k : Nat} {v : Byte} (h : blockOf r = some k) (hi : s.bus.imm.getLsbD k = true)
    (hq : shadowAt s.bus.immQ.reverse r = some v) : s.pendingAt r = some v := by
  unfold State.pendingAt
  rw [h, Option.any_some, if_pos hi, hq]
  rfl

theorem pendingAt_shadow {r k : Nat} {v : Byte} (h : blockOf r = some k) (hi : s.bus.imm.getLsbD k = false)
    (hq : shadowAt s.bus.shadow r = some v) : s.pendingAt r = some v := by
  unfold State.pendingAt
  rw [h, Option.any_some, if_neg (by rw [hi]; decide), hq]
  rfl

theorem shadowAt_append_reverse (l : List Host.Cell) (r : Nat) (v : Byte) : shadowAt (l ++ [(r, v)]).reverse r = some v := by
  simp [shadowAt]

/-- An entry found in a shadow page stands in it. -/
theorem mem_of_shadowAt {l : List Host.Cell} {a : Nat} {v : Byte} (h : shadowAt l a = some v) : ∃ c ∈ l, c.1 = a := by
  unfold shadowAt at h
  obtain ⟨c, hc, -⟩ := Option.map_eq_some_iff.1 h
  exact ⟨c, List.mem_of_find?_eq_some hc, by simpa using List.find?_some hc⟩

/-! ## Control writes by the host port -/

/-- A host-port write of a buffered register. -/
theorem execRegisterWrite_buffered {v : Byte} {single : Bool} (hup : s.busUp .host = true) (hfw : s.sys.fwRun = true)
    (hlo : 0x0100 ≤ s.bus.hp.ptr) (hhi : s.bus.hp.ptr < 0x0400) :
    execRegisterWrite .host v single s = .next ((s.wrote .host s.bus.hp.ptr).bufferWrite (decodeLine s.bus.hp.ptr) v) := by
  rw [execRegisterWrite_host hup (.inr (by omega)) (by omega), hostWrite_control v hlo hhi, wrote_sys, hfw]
  rfl

/-- Without firmware a host-port write into the control region sets NOFW (R384). -/
theorem execRegisterWrite_noFirmware {v : Byte} {single : Bool} (hup : s.busUp .host = true) (hfw : s.sys.fwRun = false)
    (hlo : 0x0100 ≤ s.bus.hp.ptr) (hhi : s.bus.hp.ptr < 0x0400) :
    execRegisterWrite .host v single s = .next ((s.wrote .host s.bus.hp.ptr).busFlag .host 1) := by
  rw [execRegisterWrite_host hup (.inr (by omega)) (by omega), hostWrite_control v hlo hhi, wrote_sys, hfw]
  rfl

/-- What a control-region address reads once a value is pending at its register. -/
theorem busRead_pending {a k : Nat} {v : Byte} (hlo : 0x0100 ≤ a) (hhi : a < 0x0400) (hfw : s.sys.fwRun = true) (hff : s.bus.hp.allFF = false)
    (hline : s.bus.hp.line = none) (hk : blockOf (decodeLine a) = some k) (hv : s.pendingAt (decodeLine a) = some v) :
    s.busRead .host a = if decodeLine a = 0x0151 then setBit v 6 s.pp.prioBad else v := by
  rw [busRead_control hlo hhi hfw hff hline, controlByte_buffered hk, hv]
  rfl

/-- SRC_PRIO reads its writable bits beside its read-only bit (R499). -/
theorem srcPrio_masked {r : Nat} {v : Byte} {b : Bool} :
    (if r = 0x0151 then setBit (v &&& wmask r) 6 b else v &&& wmask r) = if r = 0x0151 then setBit (v &&& 0x3F) 6 b else v &&& wmask r := by
  split
  · next h => rw [h]; rfl
  · rfl

/-- Settles O28: by the IMM bit of the block, and by whether firmware runs. -/
theorem controlWriteShadow : Obligations.ControlWriteShadow := by
  refine ⟨fun s v single k hup hfw hline hff hlo hhi hk hsort => ?_, fun s v single hup hfw hlo hhi => ?_⟩
  · have hexec : exec (.registerWrite .host v single) s = _ := execRegisterWrite_buffered hup hfw hlo hhi
    generalize hr : decodeLine s.bus.hp.ptr = r at hk hexec ⊢
    generalize hw : s.wrote .host s.bus.hp.ptr = w at hexec
    have hbus := wrote_host_bus (s := s) s.bus.hp.ptr
    have hsys : w.sys = s.sys := hw ▸ wrote_sys ..
    have hpp : w.pp = s.pp := hw ▸ wrote_pp ..
    rw [hw] at hbus
    have himm : w.bus.imm = s.bus.imm := by rw [hbus]
    have himmQ : w.bus.immQ = s.bus.immQ := by rw [hbus]
    have hshadow : w.bus.shadow = s.bus.shadow := by rw [hbus]
    have hreg : ∀ a, memGet regDefault w.bus.page a = memGet regDefault s.bus.page a := fun a => by rw [hbus]
    have hread : ∀ t : State, t.sys = s.sys → t.pp = s.pp → t.bus.hp = w.bus.hp → t.pendingAt r = some (v &&& wmask r) →
        t.busRead .host s.bus.hp.ptr = if r = 0x0151 then setBit (v &&& 0x3F) 6 s.pp.prioBad else v &&& wmask r := by
      intro t hts htp hth hv
      have hread := busRead_pending (s := t) (k := k) hlo hhi (hts ▸ hfw) (by rw [hth, hbus]; exact hff) (by rw [hth, hbus]; exact hline)
        (hr ▸ hk) (hr ▸ hv)
      rw [hread, hr, htp, srcPrio_masked]
    refine ⟨_, hexec, ?_⟩
    cases hi : s.bus.imm.getLsbD k with
    | true =>
      rw [bufferWrite_imm v hk (himm ▸ hi)]
      refine ⟨hreg, updShow_shows (c := (r, v &&& wmask r)) (by simp) hk, hread _ hsys hpp rfl ?_, fun h => Bool.noConfusion h,
        fun _ => ⟨hshadow, congrArg (· ++ [(r, v &&& wmask r)]) himmQ⟩⟩
      exact pendingAt_imm hk (himm ▸ hi) (shadowAt_append_reverse ..)
    | false =>
      rw [bufferWrite_shadow v hk (himm ▸ hi)]
      have hput : ∀ b, shadowAt (shadowPut w.bus.shadow r (v &&& wmask r)) b = if b = r then some (v &&& wmask r) else shadowAt s.bus.shadow b :=
        fun b => by rw [hshadow, shadowAt_shadowPut hsort]
      have hat : shadowAt (shadowPut w.bus.shadow r (v &&& wmask r)) r = some (v &&& wmask r) := by rw [hput, if_pos rfl]
      obtain ⟨c, hc, hcr⟩ := mem_of_shadowAt hat
      refine ⟨hreg, updShow_shows (List.mem_append_left _ hc) (hcr ▸ hk), hread _ hsys hpp rfl ?_,
        fun _ => ⟨himmQ, hat, fun b hb => (hput b).trans (if_neg hb)⟩, fun h => Bool.noConfusion h⟩
      exact pendingAt_shadow hk (himm ▸ hi) hat
  · have hexec : exec (.registerWrite .host v single) s = _ := execRegisterWrite_noFirmware hup hfw hlo hhi
    have hbus := wrote_host_bus (s := s) s.bus.hp.ptr
    have himmQ : (s.wrote .host s.bus.hp.ptr).bus.immQ = s.bus.immQ := by rw [hbus]
    have hupd : (s.wrote .host s.bus.hp.ptr).bus.updStat = s.bus.updStat := by rw [hbus]
    refine ⟨_, hexec, getLsbD_setBit_true _ (by decide), fun a => ?_, ?_, himmQ, hupd⟩
    · unfold State.reg; rw [busFlag_page, hbus]
    · rw [busFlag_shadow, hbus]

/-! ## Bytes that clear as they are read (R385, R386) -/

/-- A host-port read of an EVT byte returns it and clears what it returned (R386). -/
theorem readRc_host_evt (hlo : 0x0004 ≤ s.bus.hp.ptr) (hhi : s.bus.hp.ptr ≤ 0x0007) :
    s.readRc .host = (s.driven .host (BitVec.ofNat 8 (s.qs.evt.toNat / 256 ^ (s.bus.hp.ptr - 4)))).onQs fun q => { q with
      evt := q.evt &&& ~~~((BitVec.ofNat 8 (s.qs.evt.toNat / 256 ^ (s.bus.hp.ptr - 4))).setWidth 32 <<< (8 * (s.bus.hp.ptr - 4))) } := by
  have hptr : (s.port .host).ptr = s.bus.hp.ptr := rfl
  unfold State.readRc
  rw [hptr, if_neg (by omega), if_pos (by decide), swiftByte_evt hlo hhi]

/-- Clearing the bits of byte `k` that are 1 clears the byte and no other bit. -/
theorem getLsbD_clear_byte (x : BitVec 32) (k i : Nat) :
    (x &&& ~~~((BitVec.ofNat 8 (x.toNat / 256 ^ k)).setWidth 32 <<< (8 * k))).getLsbD i = (x.getLsbD i && decide (i / 8 ≠ k)) := by
  by_cases hi : i < 32
  · have hpow : 256 ^ k = 2 ^ (8 * k) := by rw [pow_mul]; rfl
    have hbit : (x.toNat / 2 ^ (8 * k)).testBit (i - 8 * k) = x.toNat.testBit (i - 8 * k + 8 * k) := Nat.testBit_div_two_pow ..
    rw [hpow]
    simp only [BitVec.getLsbD_and, BitVec.getLsbD_not, BitVec.getLsbD_shiftLeft, BitVec.getLsbD_setWidth, BitVec.getLsbD_ofNat, hbit]
    rcases Nat.lt_or_ge i (8 * k) with hlow | hhigh
    · have hne : i / 8 ≠ k := by omega
      simp [hlow, hne, hi]
    · rw [Nat.sub_add_cancel hhigh]
      by_cases hin : i / 8 = k
      · have hlt : i - 8 * k < 8 := by omega
        have hlt' : i - 8 * k < 32 := by omega
        rw [BitVec.testBit_toNat]
        cases hx : x.getLsbD i <;> simp [hi, hin, hlt, hlt', Nat.not_lt.2 hhigh]
      · have hge : ¬ i - 8 * k < 8 := by omega
        simp [hi, hin, hge]
  · rw [BitVec.getLsbD_of_ge _ _ (by omega), BitVec.getLsbD_of_ge x _ (by omega), Bool.false_and]

/-- Settles O22: an EVT byte and BUS_STAT are read by one read and one clearing. -/
theorem hostClearOnRead : Obligations.HostClearOnRead := by
  refine fun s hup => ⟨fun hlo hhi => ?_, fun hptr => ?_⟩
  · have hexec : exec (.clearOnRead .host true) s = _ := execClearOnRead_of_rc hup ((rcAddr_iff _).2 (.inl ⟨hlo, hhi⟩))
    refine ⟨_, hexec, ?_⟩
    rw [readRc_host_evt hlo hhi]
    exact ⟨rfl, getLsbD_clear_byte _ _, rfl, rfl, rfl⟩
  · have hexec : exec (.clearOnRead .host true) s = _ := execClearOnRead_of_rc hup ((rcAddr_iff _).2 (.inr hptr))
    refine ⟨_, hexec, ?_⟩
    rw [readRc_stat (bp := .host) hptr]
    exact ⟨rfl, BitVec.and_not_self _, rfl, rfl⟩

/-! ## The GTS latch (R25, R492) -/

theorem execGtsLatch_of_up {bp : BusPort} (h : s.busUp bp = true) : execGtsLatch bp s = .next (s.readGts bp) := by
  unfold execGtsLatch State.when
  rw [if_pos h]

/-- The read of 0x000A latches GTS and the epoch for its port and drives the lowest byte. -/
theorem readGts_port_same (bp : BusPort) : (s.readGts bp).port bp =
    { s.port bp with gtsL := s.clk.gts, epL := s.clk.epoch, rd := BitVec.ofNat 8 s.clk.gts.toNat, ptr := 0x000B } := by
  unfold State.readGts
  rw [driven_port_same, onPort_port_same]
  rfl

theorem busRead_swift {bp : BusPort} {a : Nat} (h : a < 0x0100) : s.busRead bp a = s.swiftByte bp a := by
  unfold State.busRead
  have hm : a % 4096 = a := Nat.mod_eq_of_lt (by omega)
  simp only [hm]
  rw [if_pos h]

theorem busRead_gtsLatch {bp : BusPort} {a : Nat} (hlo : 0x000A ≤ a) (hhi : a ≤ 0x000F) :
    s.busRead bp a = BitVec.ofNat 8 ((s.port bp).gtsL.toNat / 256 ^ (a - 0x0A)) := by
  rw [busRead_swift (by omega)]
  unfold State.swiftByte
  dsimp only
  rw [if_neg (by omega), if_pos ⟨hlo, hhi⟩]

theorem busRead_epochLatch (bp : BusPort) : s.busRead bp 0x0010 = (s.port bp).epL := busRead_swift (by decide)

/-- The latched bytes follow what the port latched alone (R492). -/
theorem busRead_latch_congr {t : State} {bp : BusPort} (h : s.port bp = t.port bp) {a : Nat} (hlo : 0x000A ≤ a) (hhi : a ≤ 0x0010) :
    s.busRead bp a = t.busRead bp a := by
  rcases Nat.lt_or_ge 0x000F a with hep | hgts
  · obtain rfl : a = 0x0010 := by omega
    rw [busRead_epochLatch, busRead_epochLatch, h]
  · rw [busRead_gtsLatch hlo hgts, busRead_gtsLatch hlo hgts, h]

/-- Settles O18: the read rewrites its port once; the latched bytes are read from that port. -/
theorem gtsLatchRead : Obligations.GtsLatchRead := by
  intro s bp hup
  have hport := readGts_port_same (s := s) bp
  refine ⟨_, execGtsLatch_of_up hup, State.readGts_only, fun a hlo hhi => ?_, ?_, ?_, ?_, fun q hq => readGts_port_of_ne s hq,
    fun u hu a hlo hhi => busRead_latch_congr hu hlo hhi⟩
  · rw [busRead_gtsLatch hlo hhi, hport]
  · rw [busRead_epochLatch, hport]
  · rw [hport]
  · rw [hport]

end Sys2Proof.Machine
end

section
/-! PROOFS. The mailboxes: a response goes into its own outbound mailbox (R394, R398), and the DOORBELL bits that are ignored (R399). -/
namespace Sys2Proof.Machine

set_option Elab.async false
open Sys2Proof.Safety

variable {s : State}

/-! ## Bytes written in a row, and erased -/

theorem memGet_memPuts_out {d : Nat → Byte} {m : List Host.Cell} {a b : Nat} {l : List Byte} (h : Memory.wf d m = true)
    (hb : b < a ∨ a + l.length ≤ b) : memGet d (memPuts d m a l) b = memGet d m b := by
  induction l generalizing m a with
  | nil => rfl
  | cons v r ih =>
    rw [List.length_cons] at hb
    rw [memPuts, ih (memPut_wf a v h) (by omega), memGet_memPut h, if_neg (by omega)]

theorem memGet_memPuts_in {d : Nat → Byte} {m : List Host.Cell} {a i : Nat} {l : List Byte} (h : Memory.wf d m = true) (hi : i < l.length) :
    memGet d (memPuts d m a l) (a + i) = l[i] := by
  induction l generalizing m a i with
  | nil => exact absurd hi (Nat.not_lt_zero i)
  | cons v r ih =>
    rw [memPuts]
    cases i with
    | zero => rw [memGet_memPuts_out (memPut_wf a v h) (by omega), memGet_memPut h, if_pos (Nat.add_zero a)]; rfl
    | succ i => rw [show a + (i + 1) = a + 1 + i by omega, ih (memPut_wf a v h) (Nat.lt_of_succ_lt_succ hi), List.getElem_cons_succ]

/-- Erasing leaves every address outside the range. -/
theorem memGet_memErase_out {d : Nat → Byte} {a n b : Nat} (m : List Host.Cell) (hb : b < a ∨ a + n ≤ b) :
    memGet d (memErase m a n) b = memGet d m b := by
  unfold memErase
  induction m with
  | nil => rfl
  | cons c r ih =>
    obtain ⟨k, v⟩ := c
    by_cases hk : k = b
    · rw [List.filter_cons_of_pos (by simp only [decide_eq_true_eq, Bool.or_eq_true]; omega), memGet, memGet, if_pos hk, if_pos hk]
    · rw [List.filter_cons]
      split
      · rw [memGet, memGet, if_neg hk, if_neg hk, ih]
      · rw [memGet, if_neg hk, ih]

/-! ## A response frame (R394) -/

theorem length_respFrame (tag status : Byte) (op : BitVec 16) (st : Stamp) (data : List Byte) :
    (respFrame tag status op st data).length = 16 + data.length := by
  simp [respFrame, stampBytes, le]; omega

theorem respFrame_status {tag status : Byte} {op : BitVec 16} {st : Stamp} {data : List Byte}
    (h : 1 < (respFrame tag status op st data).length) : (respFrame tag status op st data)[1] = status := rfl

/-! ## Command records -/

theorem onBox_box_of_ne {n k : Nat} (h : k ≠ n) (f : Box → Box) : (s.onBox n f).box k = s.box k := by
  unfold State.box State.onBox
  simp only [onMb_mb, List.getD_eq_getElem?_getD, List.getElem?_set_ne (Ne.symm h)]

theorem postFrame_box_of_ne {n k : Nat} (h : k ≠ n) (status : Byte) (data : List Byte) : (s.postFrame n status data).box k = s.box k := by
  unfold State.box State.postFrame
  simp only [onMb_mb, List.getD_eq_getElem?_getD, List.getElem?_modify_ne _ _ (Ne.symm h)]

@[simp] theorem onBox_outb (n : Nat) (f : Box → Box) : (s.onBox n f).mb.outb = s.mb.outb := rfl

/-! ## What a response changes (R398) -/

theorem finish_of_taken {n : Nat} (status : Byte) (data : List Byte) (h : (s.box n).st = .taken) :
    s.finish n status data = (s.postFrame n status data).onBox n fun b => { b with st := .final, begun := true, pnr := true } := by
  unfold State.finish
  rw [h]

/-- A command answered ACCEPTED keeps its response, and one not under way has none: only its record changes. -/
theorem finish_of_not_taken {n : Nat} (status : Byte) (data : List Byte) (h : (s.box n).st ≠ .taken) :
    ∃ f, s.finish n status data = s ∨ s.finish n status data = s.onBox n f := by
  unfold State.finish
  split
  · next ht => exact absurd ht h
  · exact ⟨_, .inr rfl⟩
  · exact ⟨_, .inr rfl⟩
  · exact ⟨id, .inl rfl⟩
  · exact ⟨id, .inl rfl⟩

/-- What a response to the command of mailbox `n` leaves of the mailboxes (R398). -/
def ownMailboxOnly (n : Fin 4) (s t : State) : Prop :=
  t.mb.inb = s.mb.inb ∧ t.mb.inuse = s.mb.inuse ∧ t.mb.lock = s.mb.lock
    ∧ (∀ a, a < 256 * n.val ∨ 256 * (n.val + 1) ≤ a → memGet zeroByte t.mb.outb a = memGet zeroByte s.mb.outb a)
    ∧ ∀ k : Fin 4, k ≠ n → t.box k.val = s.box k.val ∧ t.mb.outrdy.getLsbD k.val = s.mb.outrdy.getLsbD k.val

theorem onBox_ownMailboxOnly (n : Fin 4) (f : Box → Box) : ownMailboxOnly n s (s.onBox n.val f) :=
  ⟨rfl, rfl, rfl, fun _ _ => rfl, fun _ hk => ⟨onBox_box_of_ne (Fin.val_ne_of_ne hk) f, rfl⟩⟩

theorem ownMailboxOnly.trans {n : Fin 4} {s t u : State} (h : ownMailboxOnly n s t) (h' : ownMailboxOnly n t u) : ownMailboxOnly n s u := by
  obtain ⟨hin, huse, hlock, hout, hbox⟩ := h
  obtain ⟨hin', huse', hlock', hout', hbox'⟩ := h'
  exact ⟨hin'.trans hin, huse'.trans huse, hlock'.trans hlock, fun a ha => (hout' a ha).trans (hout a ha),
    fun k hk => ⟨(hbox' k hk).1.trans (hbox k hk).1, (hbox' k hk).2.trans (hbox k hk).2⟩⟩

/-- A response overwrites the bytes of its mailbox (R394, R398). -/
theorem postFrame_outb (n : Nat) (status : Byte) (data : List Byte) : (s.postFrame n status data).mb.outb =
    memPuts zeroByte (memErase s.mb.outb (256 * n) 256) (256 * n) (respFrame (s.box n).tag status (s.box n).op s.stamp data) := by
  unfold State.postFrame
  rw [onMb_mb]

/-- The response frame stays within the 256 bytes of its mailbox. -/
theorem postFrame_ownMailboxOnly (n : Fin 4) (status : Byte) (data : List Byte) (hwf : Memory.wf zeroByte s.mb.outb = true)
    (hd : data.length ≤ 240) : ownMailboxOnly n s (s.postFrame n.val status data) := by
  refine ⟨rfl, rfl, rfl, fun a ha => ?_, fun k hk => ⟨postFrame_box_of_ne (Fin.val_ne_of_ne hk) .., ?_⟩⟩
  · rw [postFrame_outb, memGet_memPuts_out (memErase_wf _ _ hwf) (by rw [length_respFrame]; omega), memGet_memErase_out _ (by omega)]
  · have hne : k.val ≠ n.val := Fin.val_ne_of_ne hk
    unfold State.postFrame setBit
    rw [onMb_mb, if_pos rfl, BitVec.getLsbD_or, BitVec.getLsbD_shiftLeft]
    rcases Nat.lt_or_ge k.val n.val with hlt | hge
    · simp [hlt]
    · have hpos : k.val - n.val ≠ 0 := by omega
      simp [Nat.not_lt.2 hge, hpos]

/-- The frame's second byte is the status. -/
theorem postFrame_status (n : Nat) (status : Byte) (data : List Byte) (hwf : Memory.wf zeroByte s.mb.outb = true) :
    memGet zeroByte (s.postFrame n status data).mb.outb (256 * n + 1) = status := by
  have hlen : 1 < (respFrame (s.box n).tag status (s.box n).op s.stamp data).length := by rw [length_respFrame]; omega
  have hget := memGet_memPuts_in (a := 256 * n) (memErase_wf (256 * n) 256 hwf) hlen
  rw [respFrame_status] at hget
  rw [postFrame_outb, hget]

/-- Settles O16, by whether the command has been answered before. -/
theorem answerFrame : Obligations.AnswerFrame := by
  intro s n status data hinv hd
  obtain ⟨-, -, -, ⟨-, -, hwf⟩, -⟩ := hinv
  have hown : ownMailboxOnly n s (s.finish n.val status data) := by
    by_cases ht : (s.box n.val).st = .taken
    · rw [finish_of_taken _ _ ht]
      exact (postFrame_ownMailboxOnly n status data hwf hd).trans (onBox_ownMailboxOnly n _)
    · obtain ⟨f, h | h⟩ := finish_of_not_taken status data ht
      · rw [h]; exact ⟨rfl, rfl, rfl, fun _ _ => rfl, fun _ _ => ⟨rfl, rfl⟩⟩
      · rw [h]; exact onBox_ownMailboxOnly n f
  obtain ⟨hin, huse, hlock, hout, hbox⟩ := hown
  refine ⟨State.finish_only, hin, huse, hlock, hout, hbox, fun ht => ?_⟩
  rw [finish_of_taken _ _ ht]
  refine ⟨getLsbD_setBit_true s.mb.outrdy n.isLt, ?_⟩
  rw [onBox_outb, postFrame_status n.val status data hwf]

/-! ## The DOORBELL (R396 to R400) -/

/-- A bit of a mask that names one mailbox. -/
theorem getLsbD_oneHot (n k : Fin 4) : (BitVec.ofNat 4 (2 ^ n.val)).getLsbD k.val = decide (k = n) := by
  revert n k; decide

/-- The RING bit of one mailbox rings that mailbox. -/
theorem ringBits_oneHot (n : Fin 4) : s.ringBits (BitVec.ofNat 4 (2 ^ n.val)) = s.ringOne n := by
  unfold State.ringBits
  simp only [getLsbD_oneHot, decide_eq_true_eq]
  fin_cases n <;> rfl

/-- The RING bit of a mailbox in flight, with no DONE of it waiting, raises MBX_RING_BUSY (R399). -/
theorem ringOne_busy {n : Fin 4} (hbusy : s.mb.lock.getLsbD n.val = true ∨ s.mb.inuse.getLsbD n.val = true)
    (hheld : s.mb.doneHeld.getLsbD n.val = false ∨ (s.box n.val).st ≠ .final) : s.ringOne n = s.raise (Src.bus .host) Ev.mbxRingBusy := by
  unfold State.ringOne
  rw [if_neg, if_pos]
  · simpa using hbusy
  · rcases hheld with h | h
    · rw [h, Bool.false_and]; decide
    · rw [beq_eq_false_iff_ne.2 h, Bool.and_false]; decide

/-- A DONE bit without a response waiting is ignored (R399). -/
theorem doneBits_idle {n : Fin 4} (h : s.mb.outrdy.getLsbD n.val = false) : s.doneBits (BitVec.ofNat 4 (2 ^ n.val)) = s := by
  have hskip : ∀ k ∈ List.range 4, (!(BitVec.ofNat 4 (2 ^ n.val)).getLsbD k || !s.mb.outrdy.getLsbD k) = true := by
    intro k hk
    have hbit := getLsbD_oneHot n ⟨k, List.mem_range.1 hk⟩
    dsimp only at hbit
    by_cases hkn : k = n.val
    · rw [hkn, h]; simp
    · rw [hbit, decide_eq_false (fun hc => hkn (congrArg Fin.val hc))]; rfl
  unfold State.doneBits
  revert hskip
  induction List.range 4 with
  | nil => exact fun _ => rfl
  | cons k r ih =>
    intro hskip
    rw [List.foldl_cons, if_pos (hskip k List.mem_cons_self)]
    exact ih fun j hj => hskip j (List.mem_cons_of_mem _ hj)

theorem ringBits_zero : s.ringBits 0 = s := by
  unfold State.ringBits
  simp

/-- Rings that are all being carried out, or held for firmware to run, leave nothing to take (R400). -/
theorem takeRings_idle (h : s.sys.fwRun = false ∨ ∀ k ∈ s.mb.ring, (s.box k.val).st ≠ .free) : s.takeRings = s := by
  unfold State.takeRings
  split
  · next hfw =>
    have hbusy := h.resolve_left (by rw [hfw]; decide)
    revert hbusy
    induction s.mb.ring with
    | nil => exact fun _ => rfl
    | cons k r ih =>
      intro hbusy
      have htake : s.takeFrame k.val = s := by
        unfold State.takeFrame
        rw [if_pos (by simpa using hbusy k List.mem_cons_self)]
      rw [List.foldl_cons, htake]
      exact ih fun j hj => hbusy j (List.mem_cons_of_mem _ hj)
  · rfl

theorem execMailboxRing_of_up (mask : BitVec 4) (h : s.busUp .host = true) :
    execMailboxRing mask s = .next (((s.wrote .host 0x22).doorbell mask 0).pathNote s.pathByte) := by
  unfold execMailboxRing settle State.when
  rw [if_pos h]

theorem execMailboxDone_of_up (mask : BitVec 4) (h : s.busUp .host = true) :
    execMailboxDone mask s = .next (((s.wrote .host 0x22).doorbell 0 mask).pathNote s.pathByte) := by
  unfold execMailboxDone settle State.when
  rw [if_pos h]

/-- Without a pair pending a byte written moves the pointer alone. -/
theorem wrote_unpaired {bp : BusPort} (a : Nat) (h : (s.port bp).pend = none) :
    s.wrote bp a = s.onPort bp fun p => { p with ptr := (a + 1) % 4096 } := by
  unfold State.wrote State.when
  rw [h]
  rfl

/-- A DOORBELL write that rings a mailbox in flight (R399). -/
theorem doorbell_busy {n : Fin 4} (hbusy : s.mb.lock.getLsbD n.val = true ∨ s.mb.inuse.getLsbD n.val = true)
    (hheld : s.mb.doneHeld.getLsbD n.val = false ∨ (s.box n.val).st ≠ .final)
    (htaken : s.sys.fwRun = false ∨ ∀ k ∈ s.mb.ring, (s.box k.val).st ≠ .free) :
    s.doorbell (BitVec.ofNat 4 (2 ^ n.val)) 0 = s.raise (Src.bus .host) Ev.mbxRingBusy := by
  unfold State.doorbell
  rw [doneBits_zero, ringBits_oneHot, ringOne_busy hbusy hheld, takeRings_idle]
  unfold State.box
  rw [raise_sys, raise_mb]
  exact htaken

/-- A DOORBELL write whose only bit is a DONE without a response (R399). -/
theorem doorbell_idle {n : Fin 4} (hidle : s.mb.outrdy.getLsbD n.val = false)
    (htaken : s.sys.fwRun = false ∨ ∀ k ∈ s.mb.ring, (s.box k.val).st ≠ .free) :
    s.doorbell 0 (BitVec.ofNat 4 (2 ^ n.val)) = s := by
  unfold State.doorbell
  rw [doneBits_idle hidle, ringBits_zero, takeRings_idle htaken]

/-- Settles O27: the ring in flight raises its event in place of a lock, and the idle DONE bit falls out of the fold. -/
theorem doorbellMisuse : Obligations.DoorbellMisuse := by
  intro s n hup hpend htaken
  have hw := wrote_unpaired (s := s) (bp := .host) 0x22 hpend
  refine ⟨fun hbusy hheld hl => ⟨_, execMailboxRing_of_up _ hup, ?_⟩, fun hidle => ⟨_, execMailboxDone_of_up _ hup, ?_⟩⟩
  · rw [hw, doorbell_busy (s := s.onPort .host _) hbusy hheld htaken]
    refine ⟨raise_mb .., State.raise_only.after (State.onPort_only.after changesOnly_refl), ?_⟩
    exact raise_events_of_fits ((eventFits_iff _ 0).2 hl)
  · rw [hw, doorbell_idle (s := s.onPort .host _) hidle htaken]
    exact ⟨rfl, State.onPort_only⟩

end Sys2Proof.Machine
end

section
/-! PROOFS. Selector failures (R100, R101), check-ins (R347, R349), the SHIP delay (R90), and presses that count (R80, R94). -/
namespace Sys2Proof.Machine

set_option Elab.async false
open Sys2Proof.Safety

variable {s t : State}

/-! ## A part that a frame does not list -/

theorem sys_of_changesOnly {l : List Part} (h : changesOnly l s t) (hl : Part.sys ∉ l) : t.sys = s.sys := by
  obtain ⟨-, -, hsys, -⟩ := h
  exact hsys.resolve_left hl

theorem wd_of_changesOnly {l : List Part} (h : changesOnly l s t) (hl : Part.wd ∉ l) : t.wd = s.wd := by
  obtain ⟨-, -, -, -, -, -, -, -, -, -, -, -, -, -, hwd, -⟩ := h
  exact hwd.resolve_left hl

/-! ## Selector failures (R100, R101) -/

/-- Settles O23: a report that folds into nothing awaits its second evaluation; the class and the fence of SELECTOR_STUCK are those of its row. -/
theorem selectorChecks : Obligations.SelectorChecks := by
  refine ⟨fun s i hfresh => ?_, by decide, by decide, by decide, fun s i => rfl⟩
  show settle s (s.failNote i.val Cause.selectorStuck) = _
  rw [failNote_fresh hfresh]
  rfl

/-! ## Check-ins (R347, R349) -/

@[simp] theorem inboxPut_wd (i : Nat) (x : InboxItem) : (s.inboxPut i x).wd = s.wd := wd_of_changesOnly State.inboxPut_only (by decide)

theorem wdgPeriod_wd : s.wdgPeriod.wd =
    { s.wd with run := .normal, tick := 0, per := s.grd.wdgPer, landed := 0, called := 0, heldm := 0, dupPer := 0 } := by
  unfold State.wdgPeriod
  simp only [List.foldl_cons, List.foldl_nil, inboxPut_wd, onWd_wd]

/-- Duplicates counted leave the period as it runs. -/
theorem wdgDup_period (n : Nat) : (s.wdgDup n).wd.landed = s.wd.landed ∧ (s.wdgDup n).wd.tick = s.wd.tick ∧ (s.wdgDup n).wd.run = s.wd.run := by
  unfold State.wdgDup State.when
  dsimp only
  split
  · unfold State.counterSat
    rw [raise_wd]
    exact ⟨rfl, rfl, rfl⟩
  · exact ⟨rfl, rfl, rfl⟩

/-- A check-in in the open part of the period lands (R347). -/
theorem wdgWrite_open {m : BitVec 6} (hrun : s.wd.run = .normal) (hhalt : s.sys.halted = false) (hm : m ≠ 0)
    (hopen : 500 * s.wd.per ≤ s.wd.tick) (hclose : s.wd.tick < 1000 * s.wd.per) :
    s.wdgWrite m = (let t := (s.wdgDup (pop6 (m &&& s.wd.landed))).onWd fun w => { w with landed := w.landed ||| m }
      if t.wd.landed = 0x3F then t.wdgPeriod else t) := by
  have hearly : ¬ s.wd.tick < s.wdgOpenAt := Nat.not_lt.2 hopen
  unfold State.wdgWrite
  rw [hrun, hhalt, decide_eq_false hm, if_neg (by decide), if_neg hearly, if_pos hclose]

/-- A write in task privilege is a violation of the task's memory protection, which the watchdog does not see (R349). -/
theorem taskFail_first_wd {k : FwTask} {cause : BitVec 16} (honce : s.flt.taskOnce.getLsbD (taskIdx k) = false) :
    (s.taskFail k cause).wd = s.wd := by
  unfold State.taskFail
  dsimp only
  rw [if_neg (by rw [honce]; exact Bool.false_ne_true)]
  rw [wd_of_changesOnly State.failNote_only (by decide), onFlt_wd]

/-- Settles O24: by whether the check-in completes the required set; a task's write reports a failure and leaves the watchdog. -/
theorem checkIns : Obligations.CheckIns := by
  intro s m hrun hhalt hm hopen hclose
  have hexec : exec (.wdgCheckinWrite m none) s = settle s (s.wdgWrite m) := by
    show settle s (if m = 0 then _ else s.wdgWrite m) = _
    rw [if_neg hm]
  obtain ⟨hlanded, htick, hrun'⟩ := wdgDup_period (s := s) (pop6 (m &&& s.wd.landed))
  have hwrite := wdgWrite_open hrun hhalt hm hopen hclose
  dsimp only at hwrite
  rw [onWd_wd, hlanded] at hwrite
  refine ⟨fun hmore => ?_, fun hset => ?_, fun k => ?_⟩
  · rw [if_neg hmore] at hwrite
    refine ⟨s.wdgWrite m, hexec, ?_⟩
    rw [hwrite, onWd_wd]
    exact ⟨by rw [hlanded], htick, hrun'.trans hrun⟩
  · rw [if_pos hset] at hwrite
    refine ⟨s.wdgWrite m, hexec, ?_⟩
    rw [hwrite, wdgPeriod_wd]
    exact ⟨rfl, rfl, rfl⟩
  · refine ⟨_, rfl, fun hfw honce _ => ?_⟩
    rw [pathNote_wd, State.when, if_pos hfw]
    exact taskFail_first_wd (by rw [honce]; exact BitVec.getLsbD_zero)

/-! ## The SHIP entry register (R90) -/

theorem guardFail_sys (bp : BusPort) : (s.guardFail bp).sys = s.sys := by rw [guardFail_frame]; rfl

theorem pairDone_host (g : Nat) :
    pairDone s .host g = s.onBus fun b => { b with hp := { b.hp with ptr := g + 0x81, pend := none } } := rfl

theorem guardFail_host_guardf : (s.guardFail .host).bus.hp.stat.getLsbD 0 = true := by
  rw [guardFail_host_bus]
  simp [setBit]

theorem execShipEnt_ok {c v : Byte} (h : pairOk s .host 0x40 c true v) :
    exec (.shipEnt c true) s = .next ((pairDone s .host 0x40).shipWrite v) := congrArg Host.Outcome.next (guardPair_ok h)

/-- Settles O25: by the branches of the rule of SHIP_ENT. -/
theorem shipDelay : Obligations.ShipDelay := by
  intro s c v hpair
  have hexec := execShipEnt_ok hpair
  unfold State.shipWrite at hexec
  dsimp only at hexec
  have hbar : ((!(pairDone s .host 0x40).runs || (pairDone s .host 0x40).anyPresent || (pairDone s .host 0x40).isWorker) = true)
      ↔ (s.runs = false ∨ s.anyPresent = true ∨ s.isWorker = true) := by
    show (!s.runs || s.anyPresent || s.isWorker) = true ↔ _
    simp [or_assoc]
  refine ⟨fun hlo hhi hruns hpres hwork => ?_, fun hrange => ?_, fun hlo hhi href => ?_⟩
  · rw [if_neg (by omega), if_neg (by rw [hbar, hruns, hpres, hwork]; decide)] at hexec
    exact ⟨_, hexec, by rw [raise_sys]; rfl, by rw [raise_sys]; rfl, by rw [raise_sys]; rfl⟩
  · rw [if_pos hrange] at hexec
    exact ⟨_, hexec, by rw [guardFail_sys]; rfl, guardFail_host_guardf⟩
  · rw [if_neg (by omega), if_pos (hbar.2 href)] at hexec
    exact ⟨_, hexec, by rw [guardFail_sys]; rfl, by rw [guardFail_sys]; rfl, guardFail_host_guardf⟩

/-! ## Presses that count (R80, R94) -/

/-- The button stands as before, and counts as before. -/
def sameButton (s t : State) : Prop := t.sys.btnDown = s.sys.btnDown ∧ t.sys.btnCounts = s.sys.btnCounts

theorem sameButton.trans {u : State} (h : sameButton s t) (h' : sameButton t u) : sameButton s u :=
  ⟨h'.1.trans h.1, h'.2.trans h.2⟩

theorem sameButton_refl : sameButton s s := ⟨rfl, rfl⟩

theorem sameButton_of_sys (h : t.sys = s.sys) : sameButton s t := by unfold sameButton; rw [h]; exact ⟨rfl, rfl⟩

theorem sameButton_foldl {α : Type} {g : State → α → State} (hg : ∀ t x, sameButton t (g t x)) (l : List α) : sameButton s (l.foldl g s) := by
  induction l generalizing s with
  | nil => exact sameButton_refl
  | cons x r ih => exact (hg s x).trans ih

theorem serveDom_sameButton (n : Nat) : sameButton s (serveDom n s) := by
  induction n generalizing s with
  | zero => exact sameButton_refl
  | succ n ih =>
    unfold serveDom
    split
    · dsimp only
      split
      · exact ih (s := s.onSys _)
      · exact ⟨rfl, rfl⟩
    · exact sameButton_refl

theorem bringUp_sameButton (m : BitVec 14) : sameButton s (s.bringUp m) := by
  refine sameButton_foldl (fun t d => ?_) _
  split
  · exact sameButton_refl
  · split
    · unfold State.domOn State.when
      split
      · exact serveDom_sameButton (s := t.onSys _) _
      · exact sameButton_refl
    · exact ⟨rfl, rfl⟩

theorem limpTo_sameButton (src : Option PortId) : sameButton s (s.limpTo src) := by
  have hup : sameButton s (s.when src.isSome fun t => t.bringUp 0x0040) := by
    unfold State.when
    split
    · exact bringUp_sameButton _
    · exact sameButton_refl
  unfold State.limpTo
  dsimp only
  split
  · refine hup.trans ?_
    unfold sameButton
    rw [sys_of_changesOnly State.setVbus_only (by decide)]
    exact ⟨rfl, rfl⟩
  · exact hup.trans ⟨rfl, rfl⟩

theorem romStart_sameButton : sameButton s s.romStart := by
  unfold State.romStart
  split
  · exact sameButton_refl
  · show (State.sys (State.onSys _ _)).btnDown = _ ∧ (State.sys (State.onSys _ _)).btnCounts = _
    rw [onSys_sys, onClk_sys]
    split <;> exact ⟨rfl, rfl⟩

/-- What starts again with the module leaves the button as it stands. -/
theorem restart_sameButton : sameButton s (s.batHw.limpOn).romStart :=
  ((sameButton_of_sys (sys_of_changesOnly State.batHw_only (by decide))).trans (limpTo_sameButton _)).trans romStart_sameButton

/-- A module reset keeps the button, whose press counts no more (R80). -/
theorem moduleReset_button (boot : Byte) (hship : s.sys.mode ≠ .ship) (hpow : s.sys.mode ≠ .unpowered) (hcut : s.sys.cut = false) :
    (s.moduleReset boot).sys.btnDown = s.sys.btnDown ∧ (s.moduleReset boot).sys.btnCounts = false := by
  have hlost : ((s.when s.flt.hold State.quietStart).nvmCutNow).cpuLost.hostLost.sys = s.sys := by
    rw [sys_of_changesOnly State.hostLost_only (by decide), sys_of_changesOnly State.cpuLost_only (by decide), nvmCutNow_sys]
    unfold State.when
    split <;> rfl
  unfold State.moduleReset
  rw [if_neg (by simp [hship, hpow, hcut])]
  extract_lets t0 t1 t2 t3 t4 t5 t6 t7 t8 t9 t10 t11 t12 t13
  have h9 : t9.sys = s.sys := by
    simp only [t9, t8, t7, t6, t5, t4, t3, t2, t1, t0, onNvm_sys, onSeq_sys, onStk_sys, onQs_sys, onMb_sys, onGrd_sys, onPp_sys, onTca_sys,
      onTcb_sys, onFlt_sys, onChg_sys, State.onPhases, onFab_sys, hlost]
  have h10 : t11.sys.btnDown = s.sys.btnDown ∧ t11.sys.btnCounts = false := by
    show t9.sys.btnDown = _ ∧ _
    rw [h9]; exact ⟨rfl, rfl⟩
  have h12 : t12.sys = t11.sys := by
    refine (sys_of_changesOnly State.resetUnfence_only (by decide)).trans ?_
    exact sys_of_changesOnly (when_only changesOnly_refl fun _ => State.raise_only) (by decide)
  have h13 : t13.sys = t12.sys := sys_of_changesOnly (when_only changesOnly_refl fun _ => State.nrstoPulse_only) (by decide)
  obtain ⟨hdown, hcounts⟩ := restart_sameButton (s := t13)
  rw [hdown, hcounts, h13, h12]
  exact h10

/-- Settles O26: a press that does not count fails the condition of its release, of the force-off, of the cut and of the exit of SHIP; a module
reset and an AON power-on keep the button and count its press no more. -/
theorem buttonCounts : Obligations.ButtonCounts := by
  refine ⟨fun s => rfl, fun s hdown hcounts => ⟨fun held => ?_, ?_, ?_, ?_⟩, fun s boot hship hpow hcut => ?_, fun s boot w => ⟨rfl, rfl⟩⟩
  · show execPbtnRelease held s = _
    unfold execPbtnRelease State.when
    rw [hdown, hcounts]
    have hkeep : (s.onSys fun y => { y with btnDown := false, btnCounts := false }) = s.onSys fun y => { y with btnDown := false } := by
      unfold State.onSys
      dsimp only
      rw [hcounts]
    dsimp only
    rw [Bool.and_false, if_neg Bool.false_ne_true, hkeep]
    rfl
  · show execPbtnForceOff s = _
    unfold execPbtnForceOff
    rw [hdown, hcounts]
    rfl
  · show execBatteryCut s = _
    unfold execBatteryCut State.when
    rw [hdown, hcounts]
    rfl
  · show execPbtnShipExit s = _
    unfold execPbtnShipExit State.when
    rw [hcounts, Bool.and_false]
    rfl
  · exact (moduleReset_button boot hship hpow hcut).symm

end Sys2Proof.Machine
end

section
/-! PROOFS. Guarded pairs that fail (R387, R388): the pair itself, and the values that a register's own rule refuses. -/
namespace Sys2Proof.Machine

set_option Elab.async false
open Sys2Proof.Safety

variable {s t u : State} {bp : BusPort} {c v : Byte} {single : Bool} {g : Nat} {f : Byte → State → State}

/-! ## What a failed pair leaves (R388) -/

theorem guardFail_port_same :
    (s.guardFail bp).port bp = { s.port bp with pend := none, stat := setBit (s.port bp).stat 0 true } := by
  unfold State.guardFail
  rw [raise_port]
  cases bp <;> rfl

theorem guardFail_port_of_ne {q : BusPort} (h : q ≠ bp) : (s.guardFail bp).port q = s.port q := by
  unfold State.guardFail
  rw [raise_port, State.busFlag, onPort_port_of_ne _ h, onPort_port_of_ne _ h]

@[simp] theorem guardFail_grd : (s.guardFail bp).grd = s.grd := by rw [guardFail_frame]; rfl

theorem guardFail_events (h : s.qs.events.length < 224) :
    (s.guardFail bp).qs.events = eventPut s.qs.events (s.mkEvent (Src.bus bp) Ev.guardFail 0 []) := by
  unfold State.guardFail
  have hsame : ((s.onPort bp fun p => { p with pend := none }).busFlag bp 0).qs = s.qs
      ∧ ((s.onPort bp fun p => { p with pend := none }).busFlag bp 0).mkEvent = s.mkEvent := by cases bp <;> exact ⟨rfl, rfl⟩
  obtain ⟨hqs, hmk⟩ := hsame
  rw [raise_events_of_fits ((eventFits_iff _ 0).2 (by rw [if_pos rfl, hqs]; exact h)), hqs, hmk]

/-- The guard of state `u`, reached from `s` by changes of port `bp` and of guarded registers, fails. -/
theorem pairFailed_guardFail (honly : changesOnly [.bus, .grd] s u) (hport : ∀ q, q ≠ bp → u.port q = s.port q)
    (hmk : u.mkEvent = s.mkEvent) : pairFailed s bp u.grd (u.guardFail bp) := by
  have hqs : u.qs = s.qs := by
    obtain ⟨-, -, -, hqs, -⟩ := honly
    exact hqs.resolve_left (by decide)
  refine ⟨by rw [guardFail_port_same], by rw [guardFail_port_same]; simp [setBit], guardFail_grd,
    fun q hq => (guardFail_port_of_ne hq).trans (hport q hq), ?_, fun hroom => ?_⟩
  · exact State.guardFail_only.after (changesOnly_trans changesOnly_refl honly (by decide))
  · rw [guardFail_events (by rw [hqs]; exact hroom), hqs, hmk]

/-- A failing pair is discarded (R387, R388). -/
theorem guardPair_bad (hup : s.busUp bp = true) (hbad : pairBad s bp g c single) :
    s.guardPair bp g c single f = (s.onPort bp fun p => { p with ptr := g + 0x81 }).guardFail bp := by
  have hnow : (s.onPort bp fun p => { p with ptr := g + 0x81 }).now = s.now := by cases bp <;> rfl
  unfold State.guardPair
  rw [if_neg (by rw [hup]; decide)]
  dsimp only
  rw [onPort_port_same]
  cases hpend : (s.port bp).pend with
  | none => rfl
  | some p =>
    dsimp only
    refine if_neg ?_
    rw [hnow]
    simp only [Bool.and_eq_true, beq_iff_eq, decide_eq_true_eq]
    rintro ⟨⟨⟨hsingle, haddr⟩, hcomp⟩, htime⟩
    rcases hbad with hlong | hnone | ⟨p', hp', hne⟩
    · rw [hsingle] at hlong; cases hlong
    · rw [hpend] at hnone; cases hnone
    · obtain rfl : p = p' := Option.some.inj (hpend.symm.trans hp')
      rcases hne with hne | hne | hne
      · exact hne haddr
      · exact hne hcomp
      · omega

theorem guardPair_bad_failed (hup : s.busUp bp = true) (hbad : pairBad s bp g c single) :
    pairFailed s bp s.grd (s.guardPair bp g c single f) := by
  rw [guardPair_bad hup hbad]
  have hgrd : (s.onPort bp fun p => { p with ptr := g + 0x81 }).grd = s.grd := by cases bp <;> rfl
  rw [← hgrd]
  refine pairFailed_guardFail ?_ (fun q hq => onPort_port_of_ne _ hq _) (by cases bp <;> rfl)
  exact changesOnly_trans changesOnly_refl State.onPort_only (by decide)

/-! ## Values that the register's own rule refuses -/

theorem pairDone_only : changesOnly [.bus, .grd] s (pairDone s bp g) :=
  changesOnly_trans changesOnly_refl (State.onPort_only.after State.onPort_only) (by decide)

theorem pairDone_port_of_ne {q : BusPort} (h : q ≠ bp) : (pairDone s bp g).port q = s.port q :=
  (onPort_port_of_ne _ h _).trans (onPort_port_of_ne _ h _)

/-- A refused value leaves the guarded registers as they are. -/
theorem pairDone_guardFail : pairFailed s .host s.grd ((pairDone s .host g).guardFail .host) :=
  pairFailed_guardFail (u := pairDone s .host g) pairDone_only (fun _ hq => pairDone_port_of_ne hq) rfl

/-- A refusal that a refusal bit shows leaves the other guarded registers as they are. -/
theorem pairDone_refused_guardFail {k : Guard → Guard} (hmk : ((pairDone s .host g).onGrd k).mkEvent = s.mkEvent) :
    pairFailed s .host (k s.grd) (((pairDone s .host g).onGrd k).guardFail .host) :=
  pairFailed_guardFail (u := (pairDone s .host g).onGrd k) (onGrd_only.after pairDone_only) (fun _ hq => pairDone_port_of_ne hq) hmk

theorem chemWrite_range (h : v.toNat % 4 = 0 ∨ v.toNat / 4 % 16 < 2 ∨ 10 < v.toNat / 4 % 16) : s.chemWrite v = s.guardFail .host := if_pos h

theorem chemWrite_charging (h0 : v.toNat % 4 ≠ 0) (hlo : 2 ≤ v.toNat / 4 % 16) (hhi : v.toNat / 4 % 16 ≤ 10)
    (hch : s.chg.phase.charging = true) : s.chemWrite v = (s.onGrd fun g => { g with chref := true }).guardFail .host := by
  unfold State.chemWrite
  dsimp only
  rw [if_neg (by omega), if_pos hch]

theorem fpenWrite_barred (hv : v.getLsbD 0 = true) (hbar : s.fpenBar = true) :
    s.fpenWrite v = (s.onGrd fun g => { g with fpref := true }).guardFail .host := by
  unfold State.fpenWrite
  rw [if_pos hv, if_pos hbar]

theorem finjWrite_barred (hv : v.getLsbD 7 = true) (hbar : s.finjBar (v.toNat % 16) (v.toNat / 16 % 8) = true) :
    s.finjWrite v = (s.onGrd fun g => { g with injRef := true }).guardFail .host := by
  unfold State.finjWrite
  dsimp only
  rw [if_pos hv, if_pos hbar]

theorem fuseWrite_barred {n : Nodes} (hask : v.setWidth 5 &&& ~~~s.grd.fuse ≠ 0) (hbusy : s.grd.fbusy = false)
    (hbar : s.fuseBar (v.setWidth 5 &&& ~~~s.grd.fuse) n = true) :
    s.fuseWrite v n = (s.guardFail .host).onGrd fun g => { g with fref := true } := by
  unfold State.fuseWrite
  dsimp only
  rw [if_neg (by rw [hbusy]; exact Bool.false_ne_true), if_neg hask, if_pos hbar]

/-- The guarded registers may be rewritten once the pair has failed. -/
theorem pairFailed_onGrd {x : Guard} (h : pairFailed s bp x t) (k : Guard → Guard) : pairFailed s bp (k x) (t.onGrd k) := by
  obtain ⟨hpend, hstat, hgrd, hother, honly, hev⟩ := h
  exact ⟨hpend, hstat, by rw [onGrd_grd, hgrd], hother, onGrd_only.after honly, hev⟩

theorem holdRelease_refused {failing : List (Nat × Nat)}
    (h : s.sys.mode ≠ .hold ∨ s.causesPass failing = false ∨ (s.grd.fuseLive.getLsbD 2 = true ∧ bp = .host)) :
    s.holdRelease bp failing = ((s.onGrd fun g => { g with relref := true }).raise Src.sorrel Ev.holdRefused
      (nameByte Ev.holdRefused (b2n (bp == .safety)) :: le 2 (s.firstFailing failing)), false) := by
  refine if_neg ?_
  simp only [Bool.and_eq_true, Bool.or_eq_true, beq_iff_eq, Bool.not_eq_true']
  rintro ⟨⟨hmode, hpass⟩, hfuse⟩
  rcases h with h | h | ⟨hlive, rfl⟩
  · exact h hmode
  · rw [hpass] at h; cases h
  · rw [hlive] at hfuse
    rcases hfuse with hfuse | hfuse <;> cases hfuse

/-! ## The guarded registers of R497 -/

/-- A failing complement, for each guarded primary that only the host port may write. -/
theorem guarded_complement_fails (hup : s.busUp .host = true) :
    (pairBad s .host 0x40 c single → (∃ t, exec (.shipEnt c single) s = .next t ∧ pairFailed s .host s.grd t))
    ∧ (pairBad s .host 0x44 c single → (∃ t, exec (.chemCfg c single) s = .next (t.pathNote s.pathByte) ∧ pairFailed s .host s.grd t))
    ∧ (pairBad s .host 0x48 c single → (∃ t, exec (.fplace0 c single) s = .next t ∧ pairFailed s .host s.grd t))
    ∧ (pairBad s .host 0x49 c single → (∃ t, exec (.fplace1 c single) s = .next t ∧ pairFailed s .host s.grd t))
    ∧ (pairBad s .host 0x4A c single → (∃ t, exec (.fpenSet c single) s = .next t ∧ pairFailed s .host s.grd t)
        ∧ (∃ t, exec (.fpenClear c single) s = .next t ∧ pairFailed s .host s.grd t))
    ∧ (pairBad s .host 0x4C c single → (∃ t, exec (.finj c single) s = .next t ∧ pairFailed s .host s.grd t))
    ∧ (pairBad s .host 0x50 c single → (∃ t, exec (.wdgCfg c single) s = .next t ∧ pairFailed s .host s.grd t))
    ∧ (pairBad s .host 0x51 c single → (∃ t, exec (.wdgPer c single) s = .next t ∧ pairFailed s .host s.grd t))
    ∧ (pairBad s .host 0x54 c single → ∀ n, (∃ t, exec (.fuse c single n) s = .next t ∧ pairFailed s .host s.grd t)) :=
  ⟨fun h => ⟨_, rfl, guardPair_bad_failed hup h⟩, fun h => ⟨_, rfl, guardPair_bad_failed hup h⟩, fun h => ⟨_, rfl, guardPair_bad_failed hup h⟩,
    fun h => ⟨_, rfl, guardPair_bad_failed hup h⟩, fun h => ⟨⟨_, rfl, guardPair_bad_failed hup h⟩, _, rfl, guardPair_bad_failed hup h⟩,
    fun h => ⟨_, rfl, guardPair_bad_failed hup h⟩, fun h => ⟨_, rfl, guardPair_bad_failed hup h⟩, fun h => ⟨_, rfl, guardPair_bad_failed hup h⟩,
    fun h _ => ⟨_, rfl, guardPair_bad_failed hup h⟩⟩

theorem guardPair_refused (h : pairOk s .host g c single v) (hf : f v (pairDone s .host g) = (pairDone s .host g).guardFail .host) :
    pairFailed s .host s.grd (s.guardPair .host g c single f) := by
  rw [guardPair_ok h, hf]
  exact pairDone_guardFail

theorem guardPair_refused_shown {k : Guard → Guard} (h : pairOk s .host g c single v)
    (hf : f v (pairDone s .host g) = ((pairDone s .host g).onGrd k).guardFail .host)
    (hmk : ((pairDone s .host g).onGrd k).mkEvent = s.mkEvent) : pairFailed s .host (k s.grd) (s.guardPair .host g c single f) := by
  rw [guardPair_ok h, hf]
  exact pairDone_refused_guardFail hmk

/-- A refused HOLD_REL raises both events and fails its pair; the refusal shows in RELREF (R331). -/
theorem holdRel_refused {failing : List (Nat × Nat)} (h : pairOk s bp 0x4E c true v) (hv : v.getLsbD 0 = true)
    (href : s.sys.mode ≠ .hold ∨ s.causesPass failing = false ∨ (s.grd.fuseLive.getLsbD 2 = true ∧ bp = .host)) :
    ∃ t : State, exec (.holdRel bp c true failing) s = .next (t.pathNote s.pathByte) ∧ (t.port bp).pend = none ∧ (t.port bp).stat.getLsbD 0 = true
      ∧ t.grd = { s.grd with relref := true } ∧ changesOnly [.bus, .qs, .grd] s t := by
  have href' : (pairDone s bp 0x4E).sys.mode ≠ .hold ∨ (pairDone s bp 0x4E).causesPass failing = false
      ∨ ((pairDone s bp 0x4E).grd.fuseLive.getLsbD 2 = true ∧ bp = .host) := by cases bp <;> exact href
  have hgrd : (pairDone s bp 0x4E).grd = s.grd := by cases bp <;> rfl
  refine ⟨_, rfl, ?_⟩
  rw [guardPair_ok h, State.when, if_pos hv, holdRelease_refused href']
  dsimp only
  rw [if_neg Bool.false_ne_true, guardFail_port_same]
  refine ⟨rfl, by simp [setBit], by rw [guardFail_grd, raise_grd, onGrd_grd, hgrd], ?_⟩
  exact State.guardFail_only.after (State.raise_only.after (onGrd_only.after (changesOnly_trans changesOnly_refl pairDone_only (by decide))))

/-- Settles O17: a failing complement by the cases of R387, and each refusal by the branch of its register's rule. -/
theorem guardedPairFails : Obligations.GuardedPairFails := by
  refine ⟨fun s c single hup => guarded_complement_fails hup, fun s bp c single failing hup h => ⟨_, rfl, guardPair_bad_failed hup h⟩,
    fun s c v => ⟨fun h hv => ?_, fun h hv => ?_, fun h hv => ?_⟩, fun s c v => ⟨fun h hchem hlo hhi hch => ?_, fun h hv hbar => ?_, fun h hv hbar => ?_, fun n h hask hbusy hbar => ?_⟩,
    fun s bp c v failing => holdRel_refused⟩
  · exact ⟨_, rfl, guardPair_refused h (if_pos hv)⟩
  · exact ⟨_, rfl, guardPair_refused h (chemWrite_range hv)⟩
  · refine ⟨_, rfl, guardPair_refused h ?_⟩
    dsimp only
    rw [if_neg (by omega)]
  · exact ⟨_, rfl, guardPair_refused_shown (k := fun g => { g with chref := true }) h (chemWrite_charging (s := pairDone s .host 0x44) hchem hlo hhi hch) rfl⟩
  · exact ⟨_, rfl, guardPair_refused_shown (k := fun g => { g with fpref := true }) h (fpenWrite_barred (s := pairDone s .host 0x4A) hv hbar) rfl⟩
  · exact ⟨_, rfl, guardPair_refused_shown (k := fun g => { g with injRef := true }) h (finjWrite_barred (s := pairDone s .host 0x4C) hv hbar) rfl⟩
  · refine ⟨_, rfl, ?_⟩
    rw [guardPair_ok h, fuseWrite_barred (s := pairDone s .host 0x54) hask hbusy hbar]
    exact pairFailed_onGrd pairDone_guardFail fun g => { g with fref := true }

end Sys2Proof.Machine
end

section
/-! PROOFS. The frame of a step (log entry 1), the table's words, and what reset leaves (R19, R22, R30, R35, R82, R365, R371, R375). -/
namespace Sys2Proof.Machine

set_option Elab.async false
open Sys2Proof.Safety

/-- Settles O1: `step` takes the command in front by definition. -/
theorem stepFront : Obligations.StepFront := fun _ _ _ => rfl

/-- Settles O2: by the empty queue. -/
theorem stepIdle : Obligations.StepIdle := by
  intro s hq
  unfold step
  rw [hq]

/-- Settles O3: no row of the table has fields, so `decodeTableWord` answers none for every word. -/
theorem tableWords : Obligations.TableWords := fun _ _ _ => ⟨rfl, rfl⟩

/-- A free phase with no weight meets the invariant of phases. -/
theorem phaseOk_free : phaseOk {} := ⟨fun _ => ⟨rfl, rfl⟩, Nat.zero_le _⟩

theorem mem_reset_ph {x : Phase} (h : x ∈ State.reset.fab.ph) : x = {} := (List.mem_replicate.1 h).2

/-- Settles O4: part by part; the lists are empty or of equal elements, the memories hold no byte. -/
theorem invAtReset : Obligations.InvAtReset := by
  have hfab : fabOk State.reset.fab := ⟨rfl, rfl, fun x hx => by rw [mem_reset_ph hx]; exact phaseOk_free⟩
  have hqs : qsOk State.reset.qs := by unfold qsOk; decide
  have hnvm : nvmOk State.reset.nvm := by
    refine ⟨by decide, rfl, rfl, rfl, rfl, ?_, ?_, ?_⟩
    · simp [State.reset]
    · simp [State.reset]
    · simp [State.reset]
  have hsys : sysOk State.reset.sys := by simp [sysOk, State.reset]
  have hflt : fltOk State.reset.flt := by unfold fltOk; decide
  exact ⟨hfab, rfl, hqs, ⟨rfl, rfl, rfl⟩, hnvm, hflt, hsys, rfl⟩

/-- Settles O5: each value is the default of its field. -/
theorem resetValues : Obligations.ResetValues := by
  refine ⟨rfl, rfl, rfl, rfl, rfl, rfl, rfl, rfl, fun k => ?_, rfl, rfl, fun bp => ?_, rfl, rfl, rfl, fun i => ?_, rfl, rfl, rfl⟩
  · exact (List.getD_eq_getElem?_getD ..).trans (List.getElem?_getD_replicate_default_eq ..)
  · cases bp <;> exact ⟨rfl, rfl, rfl, rfl⟩
  · unfold State.phase
    rw [show State.reset.fab.ph.getD i {} = {} from
      (List.getD_eq_getElem?_getD ..).trans (List.getElem?_getD_replicate_default_eq ..)]

end Sys2Proof.Machine
end

section
/-! PROOFS. What a command answers where its condition holds: a trigger that holds, a report that awaits its second evaluation, an accepted
pair, a port that task Cowslip serves. The completion statements below are read off from these. -/
namespace Sys2Proof.Machine

set_option Elab.async false
open Sys2Proof.Safety

variable {s s0 t : State} {c : Bool} {f : State → State}

/-! ## A trigger that holds -/

theorem when_pos (h : c = true) : s.when c f = f s := if_pos h

theorem when_neg (h : c = false) : s.when c f = s := if_neg (by rw [h]; exact Bool.false_ne_true)

/-- A command whose trigger holds does its work. -/
theorem next_when (h : c = true) : (.next (s.when c f) : Out) = .next (f s) := congrArg Host.Outcome.next (when_pos h)

/-- A command whose trigger does not hold leaves the state. -/
theorem next_when_neg (h : c = false) : (.next (s.when c f) : Out) = .next s := congrArg Host.Outcome.next (when_neg h)

/-- A command whose trigger holds does its work; the path of the battery is noted behind it (R196). -/
theorem settle_when (h : c = true) : settle s0 (s.when c f) = .next ((f s).pathNote s0.pathByte) := congrArg (settle s0) (when_pos h)

/-- A command of a port that task Cowslip serves and whose trigger holds. -/
theorem onPd_when {p : TcId} {k : State → Bool} {g : State → State → State} (hlive : s.tcLive p = true) (h : k (s.txClear p) = true) :
    s.onPd p (fun u => u.when (k u) (g u)) = .next ((g (s.txClear p) (s.txClear p)).pathNote s.pathByte) := by
  rw [onPd_live hlive, when_pos h]

/-! ## A report that awaits its second evaluation (R317) -/

section
variable {src d : Nat} {cause : BitVec 16} {item : Option (Fin 14)} {member : Option (Fin 32)} (hfresh : fresh s cause)
include hfresh

theorem settle_failNote :
    settle s0 (s.failNote src cause d false item member) = .next ((awaits s src cause d item member).pathNote s0.pathByte) :=
  congrArg (settle s0) (failNote_fresh hfresh)

theorem next_when_failNote (h : c = true) :
    (.next (s.when c fun u => u.failNote src cause d false item member) : Out) = .next (awaits s src cause d item member) :=
  (next_when h).trans (congrArg Host.Outcome.next (failNote_fresh hfresh))

theorem settle_when_failNote (h : c = true) :
    settle s0 (s.when c fun u => u.failNote src cause d false item member) = .next ((awaits s src cause d item member).pathNote s0.pathByte) :=
  (settle_when h).trans (settle_failNote hfresh)

theorem next_when_checkerFail (hc : causeClass cause ≠ 4) (h : c = true) :
    (.next (s.when c fun u => u.checkerFail src cause d false item member) : Out) = .next (awaits s src cause d item member) :=
  (next_when h).trans (congrArg Host.Outcome.next (checkerFail_fresh hfresh hc))

theorem settle_when_checkerFail (hc : causeClass cause ≠ 4) (h : c = true) :
    settle s0 (s.when c fun u => u.checkerFail src cause d false item member) = .next ((awaits s src cause d item member).pathNote s0.pathByte) :=
  (settle_when h).trans (congrArg (settle s0) (checkerFail_fresh hfresh hc))

end

/-! ## An accepted pair (R387), and a mailbox command that passes its checks (R404) -/

theorem next_guardPair {bp : BusPort} {g : Nat} {b v : Byte} {single : Bool} {k : Byte → State → State} (h : pairOk s bp g b single v) :
    (.next (s.guardPair bp g b single k) : Out) = .next (k v (pairDone s bp g)) := congrArg Host.Outcome.next (guardPair_ok h)

theorem settle_guardPair {bp : BusPort} {g : Nat} {b v : Byte} {single : Bool} {k : Byte → State → State} (h : pairOk s bp g b single v) :
    settle s0 (s.guardPair bp g b single k) = .next ((k v (pairDone s bp g)).pathNote s0.pathByte) := congrArg (settle s0) (guardPair_ok h)

section
variable {n : Fin 4} {op k : Nat} {len : Nat → Bool} {range : Bool} (hready : ready s n op k)
include hready

theorem next_carry (hlen : len k = true) (hrange : range = true) : (.next (s.carry n.val op len none range f) : Out) = .next (f (begun s n)) :=
  congrArg Host.Outcome.next (carry_ready hready hlen hrange)

theorem settle_carry (hlen : len k = true) (hrange : range = true) :
    settle s0 (s.carry n.val op len none range f) = .next ((f (begun s n)).pathNote s0.pathByte) :=
  congrArg (settle s0) (carry_ready hready hlen hrange)

theorem next_carry_guarded {o : Nat} (hlen : len k = true) (hguard : s.fld n.val o 2 = inv16 op) (hrange : range = true) :
    (.next (s.carry n.val op len (some o) range f) : Out) = .next (f (begun s n)) :=
  congrArg Host.Outcome.next (carry_guarded hready hlen hguard hrange)

theorem settle_carry_guarded {o : Nat} (hlen : len k = true) (hguard : s.fld n.val o 2 = inv16 op) (hrange : range = true) :
    settle s0 (s.carry n.val op len (some o) range f) = .next ((f (begun s n)).pathNote s0.pathByte) :=
  congrArg (settle s0) (carry_guarded hready hlen hguard hrange)

end

theorem next_query {n : Fin 4} {op : Nat} {data : State → List Byte} (h : ready s n op 0) :
    (.next (s.query n.val op data) : Out) = .next ((begun s n).finish n.val St.ok (data (begun s n))) := congrArg Host.Outcome.next (query_ready h)

/-! ## Parts that an operation of the command does not list -/

theorem clk_of_changesOnly {l : List Part} (h : changesOnly l s t) (hl : Part.clk ∉ l) : t.clk = s.clk := by
  obtain ⟨-, hclk, -⟩ := h
  exact hclk.resolve_left hl

end Sys2Proof.Machine
end

section
/-! PROOFS. The clock commands (R14 to R23). -/
namespace Sys2Proof.Machine

set_option Elab.async false
open Sys2Proof.Safety

/-! ## MOSC starts (R14, R16, R20) -/

theorem switchOver_lt (s : State) : s.switchOver < 2 ^ 48 := by
  have hfrac := s.clk.frac.isLt
  have hincr := s.clk.incr.isLt
  unfold State.switchOver
  omega

/-- With no domain request waiting the PWM clock of MOSC is switched at once. -/
theorem bringUp_mosc {s : State} (hbusy : s.sys.domBusy = none) (hq : s.sys.domQ = []) : s.bringUp 0x0004 = s.setDom 2 true := by
  simp [State.bringUp, List.range, List.range.loop, State.domFenced, domFence, State.setDom, hbusy, hq]

/-- A request with none before it is served at once, unless the domain is already as asked. -/
theorem domRequest_served {s : State} {r : DomReq} (hbusy : s.sys.domBusy = none) (hq : s.sys.domQ = []) (hon : r.on = true) :
    (s.domRequest r).sys.dom = s.sys.dom
      ∧ (s.sys.dom.getLsbD r.dom.val = false → (s.domRequest r).sys.domBusy = some r) := by
  cases hdom : s.sys.dom.getLsbD r.dom.val <;> simp [-BitVec.getLsbD_eq_getElem, State.domRequest, serveDom, hbusy, hq, hon, hdom]

theorem bringUp_domRequest_clk (s : State) (m : BitVec 14) (r : DomReq) : ((s.bringUp m).domRequest r).clk = s.clk :=
  (clk_of_changesOnly State.domRequest_only (by decide)).trans (clk_of_changesOnly State.bringUp_only (by decide))

theorem execMoscStart_completes (s : State) (hmoscEn : s.clk.moscEn = true) (hmoscRun : s.clk.moscRun = false) :
    ∃ t, execMoscStart s = .next t ∧ t.clk.moscRun = true ∧ t.clk.fine = 0 ∧ t.clk.frac = 0
      ∧ (s.sys.domBusy = none → s.sys.domQ = [] → t.sys.dom = s.sys.dom ||| 0x0004
      ∧ (s.domFenced 13 = false → s.sys.dom.getLsbD 13 = false → t.sys.domBusy = some { dom := 13, on := true }))
      ∧ t.clk.gts = s.clk.gts + BitVec.ofNat 48 s.switchOver := by
  refine ⟨_, if_pos (by rw [hmoscEn, hmoscRun]; rfl), ?_⟩
  rw [bringUp_domRequest_clk, gtsAdd_clk _ _ (switchOver_lt s)]
  refine ⟨rfl, rfl, rfl, fun hbusy hq => ?_, rfl⟩
  rw [bringUp_mosc (by rw [gtsAdd_sys]; exact hbusy) (by rw [gtsAdd_sys]; exact hq)]
  obtain ⟨hdom, hserved⟩ := domRequest_served (s := (((s.onClk fun c => { c with moscRun := true, fine := 0, frac := 0 }).gtsAdd s.switchOver).setDom 2 true))
    (r := { dom := 13, on := true }) (by rw [State.setDom, onSys_sys, gtsAdd_sys]; exact hbusy) (by rw [State.setDom, onSys_sys, gtsAdd_sys]; exact hq) rfl
  rw [hdom]
  simp only [State.setDom, onSys_sys, gtsAdd_sys, onClk_sys, setBit] at hserved ⊢
  exact ⟨rfl, fun _ hoff => hserved (by rw [← hoff]; simp)⟩

theorem execClockLoss_completes (s : State) (hmoscEn : s.clk.moscEn = true) :
    execClockLoss s =
      .next (((s.onClk fun c => { c with moscRun := false, moscEn := false, lossCount := min 3 (s.clk.lossCount + 1), moscStopped := decide (3 ≤ s.clk.lossCount + 1) }).wdgExpire 4 0xFF).pathNote s.pathByte) :=
  if_pos (by simp [hmoscEn])

theorem execAoscFreq_completes (ps : Nat) (s : State) (hmoscRun : s.clk.moscRun = true) (hps : aoscOff ps = true) (hfresh : fresh s Cause.aoscFreq) :
    execAoscFreq ps s = .next (awaits s Src.wdg Cause.aoscFreq ps) := next_when_failNote hfresh (by rw [hmoscRun, hps]; rfl)

theorem execGtsCalibration_completes (count : Nat) (s : State) (hmoscRun : s.clk.moscRun = true) :
    execGtsCalibration count s = .next (s.onClk fun c => { c with incr := BitVec.ofNat 22 (2 * count) }) := next_when (by simp [hmoscRun])

theorem execGtsWrap_completes (s : State) (hcounts : s.counts = true) (hgts : s.clk.gts = 0xFFFFFFFFFFFF) :
    ∃ t, execGtsWrap s = .next t ∧ t.clk.gts = 0 ∧ t.clk.fine = 0 ∧ t.clk.epoch = s.clk.epoch + 1 := by
  refine ⟨_, next_when (by rw [hcounts, hgts]; rfl), ?_⟩
  rw [gtsWrap_clk]
  exact ⟨rfl, rfl, rfl⟩

/-- Settles O29: one lemma per command. -/
theorem clocksComplete : Obligations.ClocksComplete :=
  ⟨execMoscStart_completes, execClockLoss_completes, execAoscFreq_completes, execGtsCalibration_completes, execGtsWrap_completes⟩

end Sys2Proof.Machine
end

section
/-! PROOFS. The commands of the PWM clock, the power domains and the tasks (R10, R11, R17, R39). -/
namespace Sys2Proof.Machine

set_option Elab.async false
open Sys2Proof.Safety

theorem pwmFault_of_busyQuad {s : State} {q : Nat} {cause : BitVec 16} (h : s.busyQuad = some q) :
    s.pwmFault cause = s.checkerFail (Src.quad q) cause := by
  unfold State.pwmFault
  rw [h]

/-- The first failure of a task is reported and its restart marked (R39). -/
theorem taskFail_first {s : State} {k : FwTask} {cause : BitVec 16} (honce : s.flt.taskOnce.getLsbD (taskIdx k) = false) (hfresh : fresh s cause) :
    s.taskFail k cause = awaits (s.onFlt fun f => { f with taskOnce := setBit f.taskOnce (taskIdx k) true }) (Src.task k) cause := by
  unfold State.taskFail
  dsimp only
  rw [if_neg (by rw [honce]; exact Bool.false_ne_true)]
  exact failNote_fresh (s := s.onFlt _) hfresh

theorem execPllLock_completes (q : Nat) (s : State) (hbusyQuad : s.busyQuad = some q) :
    execPllLock s = .next ((s.checkerFail (Src.quad q) Cause.pllLock).pathNote s.pathByte) := congrArg (settle s) (pwmFault_of_busyQuad hbusyQuad)

theorem execDllCal_completes (q : Nat) (s : State) (hbusyQuad : s.busyQuad = some q) :
    execDllCal s = .next ((s.checkerFail (Src.quad q) Cause.dllCal).pathNote s.pathByte) := congrArg (settle s) (pwmFault_of_busyQuad hbusyQuad)

theorem execDomainSwitchRequest_off (d : Fin 14) (s : State) (hd : d ≠ 0) :
    execDomainSwitchRequest d false s = .next (State.isolateServed s (s.domRequest { dom := d, on := false })) :=
  by simp [execDomainSwitchRequest, hd]

theorem execDomainSwitchRequest_on (d : Fin 14) (s : State) (hdomNeeds : (domNeeds d.val).2 = false) (hdomFenced : s.domFenced d.val = false) :
    execDomainSwitchRequest d true s =
      .next (((s.domMissing d.val).foldl (fun t k => t.domRequest { dom := k, on := true }) s).domRequest { dom := d, on := true }) := by
  unfold execDomainSwitchRequest
  dsimp only
  rw [hdomFenced, if_neg (by decide), if_pos rfl, when_neg hdomNeeds]

theorem execDomainPowerUpDone_completes (d : Fin 14) (s : State) (hdomBusy : s.sys.domBusy = some { dom := d, on := true })
    (hdomMissing : s.domMissing d.val = []) (hdomNeeds : (domNeeds d.val).2 = false ∨ s.clk.moscRun = true) :
    execDomainPowerUpDone d s = .next (s.domDone true d.val) := if_pos (by simp [hdomBusy, hdomMissing, hdomNeeds])

theorem execDomainSwitchOffDone_completes (d : Fin 14) (s : State) (hdomBusy : s.sys.domBusy = some { dom := d, on := false }) :
    execDomainSwitchOffDone d s = .next (s.domDone false d.val) := if_pos (by simp [hdomBusy])

theorem execTaskDeadline_completes (k : FwTask) (s : State) (hfw : s.sys.fwRun = true) (honce : s.flt.taskOnce.getLsbD (taskIdx k) = false)
    (hfresh : fresh s Cause.taskDeadline) :
    execTaskDeadline k s =
      .next ((awaits (s.onFlt fun f => { f with taskOnce := setBit f.taskOnce (taskIdx k) true }) (Src.task k) Cause.taskDeadline).pathNote s.pathByte) :=
  (settle_when hfw).trans (congrArg (settle s) (taskFail_first honce hfresh))

theorem execTaskMpu_completes (k : FwTask) (s : State) (hfw : s.sys.fwRun = true) (honce : s.flt.taskOnce.getLsbD (taskIdx k) = false)
    (hfresh : fresh s Cause.taskMpu) :
    execTaskMpu k s =
      .next ((awaits (s.onFlt fun f => { f with taskOnce := setBit f.taskOnce (taskIdx k) true }) (Src.task k) Cause.taskMpu).pathNote s.pathByte) :=
  (settle_when hfw).trans (congrArg (settle s) (taskFail_first honce hfresh))

/-- Settles O30: one lemma per command. -/
theorem domainsComplete : Obligations.DomainsComplete :=
  ⟨execPllLock_completes, execDllCal_completes, execDomainSwitchRequest_off, execDomainSwitchRequest_on, execDomainPowerUpDone_completes,
    execDomainSwitchOffDone_completes, execTaskDeadline_completes, execTaskMpu_completes⟩

end Sys2Proof.Machine
end

section
/-! PROOFS. The commands of the staged start (R52 to R72). -/
namespace Sys2Proof.Machine

set_option Elab.async false
open Sys2Proof.Safety

theorem execAonPowerOn_completes (straps : Straps) (s : State) (hmode : s.sys.mode = .unpowered) (hcut : s.sys.cut = false) :
    ∃ t, execAonPowerOn straps s = .next t ∧ t.sys.straps = straps ∧ t.sys.boot = 0x01 ∧ t.clk.gts = 0 ∧ t.clk.epoch = 0 ∧ t.grd.fuse = s.grd.fuse
      ∧ t.nvm.cfg = s.nvm.cfg := ⟨_, if_pos (by rw [hmode, hcut]; rfl), rfl, rfl, rfl, rfl, rfl, rfl⟩

theorem execAonPowerLoss_completes (s : State) :
    ∃ t, execAonPowerLoss s = .next t ∧ t.sys.mode = .unpowered ∧ t.sys.dom = 0 ∧ t.clk.gts = 0 ∧ t.pp.nodes = {} ∧ t.clk.aoscOn = false := by
  refine ⟨_, rfl, rfl, rfl, rfl, ?_, rfl⟩
  show (s.seeNodes {}).nvmCutNow.pp.nodes = {}
  rw [nvmCutNow_pp]
  rfl

theorem execTier0Ready_completes (n : Nodes) (s : State) (hmode : s.sys.mode = .waking) (htier0 : s.sys.tier0 = false) (hfwUp : s.sys.fwUp = false)
    (hn : 2600 ≤ n.bat) :
    execTier0Ready n s =
      .next (((((fun u : State => State.placeChanges u u.limpOn Why.portOff) (((s.seeNodes n).onPp fun x => { x with batPres := decide (1000 ≤ n.bat) }).onSys fun y => { y with tier0 := true })).switchClose).romStart).pathNote s.pathByte) :=
  if_pos (by simp [hmode, htier0, hfwUp, hn])

theorem execLimpSourceChange_completes (n : Nodes) (p : PortId) (s : State) (hlimpSrc : s.sys.limpSrc = some p) (hlimp : s.sys.limp = true)
    (hnodeV : nodeV n p < (uvlo p).2) :
    execLimpSourceChange n s = .next ((State.sinkEnded s p (((s.seeNodes n).batHw).limpMove (limpPick (s.inputs n) (some p)))).pathNote s.pathByte) := by
  unfold execLimpSourceChange
  dsimp only
  rw [hlimpSrc]
  exact if_pos (by rw [hlimp, decide_eq_true hnodeV]; rfl)

theorem execSoftConnectComplete_completes (s : State) (hsoft : s.pp.soft = .running) :
    execSoftConnectComplete s = .next ((s.onPp fun x => { x with soft := .no, batSw := .full, linRef := 0 }).pathNote s.pathByte) :=
  settle_when (by simp [hsoft])

theorem execSoftConnect_completes (s : State) (hsoft : s.pp.soft = .running) :
    execSoftConnect s = .next ((s.softFail).pathNote s.pathByte) := settle_when (by simp [hsoft])

theorem execSoftConnectRetry_completes (s : State) (hsoft : s.pp.soft = .waiting) :
    execSoftConnectRetry s = .next (((s.onPp fun x => { x with soft := .no }).switchClose).pathNote s.pathByte) := settle_when (by simp [hsoft])

theorem execImageVerification_completes (s : State) (hmode : s.sys.mode = .waking) (hloader : s.sys.loader = .first ∨ s.sys.loader = .second) :
    execImageVerification s = .next s.imageNext := next_when (by simp [hmode, hloader])

theorem execConfigurationLoad_completes (s : State) (hmode : s.sys.mode = .waking) (hloader : s.sys.loader = .done) (hboot : s.sys.boot ≠ 0x09)
    (hmoscRun : s.clk.moscRun = true) (hfwUp : s.sys.fwUp = false) :
    execConfigurationLoad s = .next ((s.tier1).pathNote s.pathByte) := settle_when (by rw [hmode, hloader, bne_iff_ne.2 hboot, hmoscRun, hfwUp]; rfl)

theorem execTakeover_completes (p : PortId) (s : State) (hlimping : s.limping p = true) (htuningV : s.tuningV = false)
    (htuningPc : (p == .pc && s.tuningPc) = false) :
    execTakeover p s = .next ((s.takeOver p).pathNote s.pathByte) := settle_when (by simp [hlimping, htuningV, htuningPc])

theorem execTakeoverDeferralExpiry_completes (p : PortId) (s : State) (hlimping : s.limping p = true) (htuningV : s.tuningV = true)
    (hswitchOn : s.switchOn = true) (htuningPc : (p == .pc && s.tuningPc) = false) :
    execTakeoverDeferralExpiry p s = .next ((s.takeOver p).pathNote s.pathByte) := settle_when (by simp [hlimping, htuningV, hswitchOn, htuningPc])

/-- Settles O31: one lemma per command. -/
theorem startCompletes : Obligations.StartCompletes :=
  ⟨execAonPowerOn_completes, execAonPowerLoss_completes, execTier0Ready_completes, execLimpSourceChange_completes,
    execSoftConnectComplete_completes, execSoftConnect_completes, execSoftConnectRetry_completes, execImageVerification_completes,
    execConfigurationLoad_completes, execTakeover_completes, execTakeoverDeferralExpiry_completes⟩

end Sys2Proof.Machine
end

section
/-! PROOFS. The commands of DORMANT, SHIP, the button and the battery-cut (R83 to R94). -/
namespace Sys2Proof.Machine

set_option Elab.async false
open Sys2Proof.Safety

theorem execDormantIdleExpiry_completes (load : Nat) (s : State) (hidleS : s.sys.idleS ≠ 0) (hdorm : s.sys.dorm = .none)
    (hnone : s.dormCond load none false = true) :
    execDormantIdleExpiry load s = .next ((s.dormBegin).pathNote s.pathByte) := settle_when (by simp [hidleS, hdorm, hnone])

theorem execDormantEntry_completes (count load : Nat) (s : State) (hruns : s.runs = true) :
    execDormantEntry count load s = .next ((s.dormGo count load).pathNote s.pathByte) := settle_when (by simp [hruns])

theorem execDormantWake_completes (mask : BitVec 16) (s : State) :
    execDormantWake mask s = .next ((s.wakeFrom mask).pathNote s.pathByte) := rfl

theorem execWakeTimer_completes (s : State) (hmode : s.sys.mode = .dormant) (hwakeNow : s.sys.wakeNow ≠ 0) :
    execWakeTimer s = .next ((s.wakeFrom 0x0080).pathNote s.pathByte) := settle_when (by simp [hmode, hwakeNow])

theorem execWakeRunReached_completes (s : State) (hmode : s.sys.mode = .waking) (hloader : s.sys.loader = .done) (hboot : s.sys.boot = 0x09)
    (hmoscRun : s.clk.moscRun = true) (hfwUp : s.sys.fwUp = false) :
    execWakeRunReached s = .next ((s.wakeRun).pathNote s.pathByte) := settle_when (by simp [hmode, hloader, hboot, hmoscRun, hfwUp])

theorem execShipEnt_completes (c v : Byte) (single : Bool) (s : State) (hpair : pairOk s .host 0x40 c single v) :
    execShipEnt c single s = .next ((pairDone s .host 0x40).shipWrite v) := next_guardPair hpair

theorem execShipDelayEnd_completes (s : State) (hshipAt : s.sys.shipAt.isSome = true) (hshipShut : s.sys.shipShut = false) (hruns : s.runs = true) :
    execShipDelayEnd s = .next (((s.onSys fun y => { y with shipShut := true }).downRequest 0x06).shipCheck) :=
  if_pos (by simp [hshipAt, hshipShut, hruns])

theorem execShipForceOpen_completes (s : State) (hshipShut : s.sys.shipShut = true) (hruns : s.runs = true) :
    ∃ t, execShipForceOpen s = .next t ∧ t.sys.mode = .ship ∧ t.sys.dom = 0 ∧ t.sys.shipShut = false ∧ t.seq.on = 0 ∧ t.clk.aoscOn = false
      ∧ t.pp.batSw = .off := ⟨_, next_when (by rw [hshipShut, hruns]; rfl), rfl, rfl, rfl, rfl, rfl, rfl⟩

theorem execShipExit_completes (mask : BitVec 16) (s : State) (hmode : s.sys.mode = .ship) (hsource : mask &&& 0x000E ≠ 0) :
    ∃ t, execShipExit mask s = .next t ∧ t.sys.boot = 0x03 ∧ t.sys.wake = mask &&& 0x000F ∧ t.sys.mode = .waking ∧ t.clk.gts = 0 ∧ t.clk.epoch = 0 :=
  ⟨_, next_when (by rw [hmode, bne_iff_ne.2 hsource]; rfl), rfl, rfl, rfl, rfl, rfl⟩

theorem execPbtnShipExit_completes (s : State) (hmode : s.sys.mode = .ship) (hbtnDown : s.sys.btnDown = true) (hbtnCounts : s.sys.btnCounts = true) :
    ∃ t, execPbtnShipExit s = .next t ∧ t.sys.boot = 0x02 ∧ t.sys.wake = 0x0001 ∧ t.sys.mode = .waking ∧ t.clk.gts = 0 ∧ t.clk.epoch = 0 :=
  ⟨_, next_when (by rw [hmode, hbtnDown, hbtnCounts]; rfl), rfl, rfl, rfl, rfl, rfl⟩

theorem execPbtnPress_completes (s : State) (hshipAt : s.sys.shipAt = none) :
    execPbtnPress s = .next (s.onSys fun y => { y with btnDown := true, btnCounts := y.btnCounts || !y.btnDown }) := by
  refine congrArg Host.Outcome.next (if_neg ?_)
  rw [onSys_sys, hshipAt]
  exact Bool.false_ne_true

theorem execPbtnRelease_completes (held : Nat) (s : State) (hbtnDown : s.sys.btnDown = true) (hbtnCounts : s.sys.btnCounts = true) :
    execPbtnRelease held s = .next (((s.onSys fun y => { y with btnDown := false, btnCounts := false }).pressEnd held).pathNote s.pathByte) :=
  settle_when (by simp [hbtnDown, hbtnCounts])

theorem execPbtnForceOff_completes (s : State) (hbtnDown : s.sys.btnDown = true) (hbtnCounts : s.sys.btnCounts = true) (hmode : s.sys.mode = .run) :
    execPbtnForceOff s = .next (((s.raise 0x40 Ev.pbtnForceOff).onSeq fun q => { q with foff := q.foff || s.seqEn }).downCause 0x02 0x40) :=
  if_pos (by simp [hbtnDown, hbtnCounts, hmode])

theorem execBatteryCut_completes (s : State) (hbtnDown : s.sys.btnDown = true) (hbtnCounts : s.sys.btnCounts = true) (hmode : s.sys.mode ≠ .unpowered) :
    ∃ t, execBatteryCut s = .next t ∧ t.sys.mode = .unpowered ∧ t.sys.cut = true ∧ t.sys.dom = 0 ∧ t.sys.btnCounts = true ∧ t.seq.on = 0 :=
  ⟨_, next_when (by rw [hbtnDown, hbtnCounts, bne_iff_ne.2 hmode]; rfl), rfl, rfl, rfl, hbtnCounts, rfl⟩

theorem execBatteryCutEnd_completes (s : State) (hcut : s.sys.cut = true) :
    ∃ t, execBatteryCutEnd s = .next t ∧ t.sys.boot = 0x04 ∧ t.sys.wake = 0 ∧ t.sys.cut = false ∧ t.clk.gts = 0 ∧ t.clk.epoch = 0 :=
  ⟨_, next_when hcut, rfl, rfl, rfl, rfl, rfl⟩

/-- Settles O32: one lemma per command. -/
theorem dormantShipComplete : Obligations.DormantShipComplete :=
  ⟨execDormantIdleExpiry_completes, execDormantEntry_completes, execDormantWake_completes, execWakeTimer_completes,
    execWakeRunReached_completes, execShipEnt_completes, execShipDelayEnd_completes, execShipForceOpen_completes, execShipExit_completes,
    execPbtnShipExit_completes, execPbtnPress_completes, execPbtnRelease_completes, execPbtnForceOff_completes, execBatteryCut_completes,
    execBatteryCutEnd_completes⟩

end Sys2Proof.Machine
end

section
/-! PROOFS. The commands of the phase fabric (R99 to R133). -/
namespace Sys2Proof.Machine

set_option Elab.async false
open Sys2Proof.Safety

theorem execControlTick_completes (m : TickIn) (s : State) (hfw : s.sys.fwRun = true)
    (hruns : (((s.tickMeasure m).limpFollow).tickThermal).runs = true) :
    execControlTick m s = .next (((((((s.tickMeasure m).limpFollow).tickThermal).tickRun m.load).tickDomains).taskRan .campion).pathNote s.pathByte) := by
  refine (settle_when hfw).trans ?_
  dsimp only
  rw [if_pos hruns]

theorem execPeakTimeout_completes (s : State) (hfw : s.sys.fwRun = true) (hpeak : s.fab.peak = .episode) :
    execPeakTimeout s = .next s.peakEnd := next_when (by simp [hfw, hpeak])

theorem execPeakRecoveryEnd_completes (s : State) (hfw : s.sys.fwRun = true) (hpeak : s.fab.peak = .recovery) :
    execPeakRecoveryEnd s = .next (s.onFab fun f => { f with peak := .allowed }) := next_when (by simp [hfw, hpeak])

theorem execPhaseRemove_completes (p : PortId) (s : State) :
    execPhaseRemove p s = .next (s.removePhase p) := rfl

theorem execDrainComplete_completes (i : Fin 8) (s : State) (_hst : (s.phase i.val).st = .draining) :
    execDrainComplete i s = .next ((s.drainDone i.val).pathNote s.pathByte) := rfl

theorem execSelectorSettle_completes (i : Fin 8) (p : PortId) (s : State) (_hst : (s.phase i.val).st = .switching)
    (_hnext : (s.phase i.val).next = some p) :
    execSelectorSettle i s = .next (s.settleDone i.val) := rfl

theorem execSoftStartComplete_completes (i : Fin 8) (s : State) (_hst : (s.phase i.val).st = .starting) :
    execSoftStartComplete i s = .next (s.startDone i.val) := rfl

theorem execSelectorStuck_completes (i : Fin 8) (s : State) (_hfw : s.sys.fwRun = true) (hfresh : fresh s Cause.selectorStuck) :
    execSelectorStuck i s = .next ((awaits s i.val Cause.selectorStuck).pathNote s.pathByte) := settle_failNote hfresh

theorem execSelectorOverlap_completes (i : Fin 8) (s : State) :
    execSelectorOverlap i s = .next ((s.checkerFail i.val Cause.selectorOverlap).pathNote s.pathByte) := rfl

theorem execQuadPowerOff_completes (s : State) (hq1Timer : s.fab.q1Timer = true) (hquadNeeded : s.quadNeeded 1 = false) :
    execQuadPowerOff s = .next ((s.onFab fun f => { f with q1Timer := false }).domRequest { dom := 7, on := false }) :=
  next_when (by simp [hq1Timer, hquadNeeded])

theorem execFastSwapSignal_completes (t : TcId) (s : State) (hlive : s.tcLive t = true) (hfrsArm : ((s.txClear t).tc t).frsArm = true)
    (hruns : s.runs = true) :
    execFastSwapSignal t s = .next (((s.txClear t).fastSwap t).pathNote s.pathByte) := by
  refine onPd_when hlive ?_
  have hruns' : (s.txClear t).runs = true := by rw [txClear_frame]; exact hruns
  rw [hfrsArm, hruns']
  rfl

theorem execFplace0_completes (c v : Byte) (single : Bool) (s : State) (hpair : pairOk s .host 0x48 c single v) :
    execFplace0 c single s = .next ((pairDone s .host 0x48).onGrd fun g => { g with fplace0 := v }) := next_guardPair hpair

theorem execFplace1_completes (c v : Byte) (single : Bool) (s : State) (hpair : pairOk s .host 0x49 c single v) :
    execFplace1 c single s = .next ((pairDone s .host 0x49).onGrd fun g => { g with fplace1 := v }) := next_guardPair hpair

theorem execFpenSet_completes (c v : Byte) (single : Bool) (s : State) (hpair : pairOk s .host 0x4A c single v) :
    execFpenSet c single s = .next ((pairDone s .host 0x4A).fpenWrite v) := next_guardPair hpair

theorem execFpenClear_completes (c v : Byte) (single : Bool) (s : State) (hpair : pairOk s .host 0x4A c single v) :
    execFpenClear c single s = .next ((pairDone s .host 0x4A).fpenWrite v) := next_guardPair hpair

theorem execReplacementTick_completes (unit : Byte) (s : State) (hruns : s.runs = true) (hfpen : s.grd.fpen = false) :
    execReplacementTick unit s = .next ([PortId.pa, .pb].foldl (fun u p => u.replaceFor (unitPhases unit.toNat) p) s) :=
  next_when (by simp [hruns, hfpen])

/-- Settles O33: one lemma per command. -/
theorem fabricCompletes : Obligations.FabricCompletes :=
  ⟨execControlTick_completes, execPeakTimeout_completes, execPeakRecoveryEnd_completes, execPhaseRemove_completes, execDrainComplete_completes,
    execSelectorSettle_completes, execSoftStartComplete_completes, execSelectorStuck_completes, execSelectorOverlap_completes,
    execQuadPowerOff_completes, execFastSwapSignal_completes, execFplace0_completes, execFplace1_completes, execFpenSet_completes,
    execFpenClear_completes, execReplacementTick_completes⟩

end Sys2Proof.Machine
end

section
/-! PROOFS. The commands of the conversion control (R137 to R171). -/
namespace Sys2Proof.Machine

set_option Elab.async false
open Sys2Proof.Safety

theorem execSwitchingPeriod_completes (a b : PathSample) (c : PcPeriod) (s : State) (hmoscRun : s.clk.moscRun = true) (hmeasOn : s.measOn = true) :
    ∃ u : State, execSwitchingPeriod a b c s = .next (((((u.periodStep c.sync).sendRef).useFree 120).injSample).pathNote s.pathByte)
      ∧ u.fab = (((s.pathPeriod .pa a).pathPeriod .pb b).pathPeriod .pc c.path).fab
      ∧ u.cc.comp = (((s.pathPeriod .pa a).pathPeriod .pb b).pathPeriod .pc c.path).cc.comp ∧ u.cc.samp = some [a, b, c.path]
      ∧ u.qs = (((s.pathPeriod .pa a).pathPeriod .pb b).pathPeriod .pc c.path).qs := by
  unfold execSwitchingPeriod
  rw [hmoscRun, hmeasOn, if_neg (by decide)]
  dsimp only [settle]
  exact ⟨_, rfl, by simp only [onCc_fab], by simp only [onCc_cc], by simp only [onCc_cc], by simp only [onCc_qs]⟩

theorem execOclHold_completes (i : Fin 8) (s : State) (hgatesOn : (s.phase i.val).st.gatesOn = true) :
    execOclHold i s = .next (s.raise (Src.phase i.val) Ev.oclHold) := next_when (by simp [hgatesOn])

theorem execPhaseShort_completes (i : Fin 8) (ma : Nat) (s : State) (hma : 24000 ≤ ma) :
    execPhaseShort i ma s = .next ((s.checkerFail i.val Cause.phaseShort).pathNote s.pathByte) := settle_when (by simp [hma])

theorem execQuadOvertemp_completes (q : Fin 2) (t : Int) (s : State) (ht : 1150 ≤ t) :
    execQuadOvertemp q t s =
      .next (((s.onMs fun m => if q.val = 0 then { m with tq0 := t } else { m with tq1 := t }).checkerFail (Src.quad q.val) Cause.quadOvertemp).pathNote s.pathByte) :=
  settle_when (by simp [ht])

theorem execTuneMeasurementDone_pc (c esr spread : Nat) (r : TuneRun) (s : State) (htune : s.cc.tune = some r) (hruns : s.runs = true)
    (hpc : r.pc = true) (hspread : spread ≤ 100) (hc : 30 ≤ c) (hc2 : c ≤ 600) :
    execTuneMeasurementDone c esr spread s = .next (s.tuneEnd r c esr spread true) :=
  by simp [execTuneMeasurementDone, htune, hruns, hpc, hspread, hc, hc2]

theorem execFswApply_completes (s : State) (_hfswPend : s.cc.fswPend = true) :
    execFswApply s = .next s.fswTake := rfl

theorem execSyncLock_completes (s : State) (hregBit : s.regBit 0x0142 0 = true) (hjoined : s.stk.joined = false) (hsync : s.cc.sync = .acquiring)
    (hedgeOk : s.cc.edgeOk = 64) :
    execSyncLock s = .next ((s.onCc fun c => { c with sync := .locked, synced := true, syncBad := false }).raise Src.campion Ev.syncLock) :=
  next_when (by simp [hregBit, hjoined, hsync, hedgeOk])

theorem execSyncLost_completes (out : Bool) (s : State) (hregBit : s.regBit 0x0142 0 = true) (hjoined : s.stk.joined = false)
    (hsync : s.cc.sync = .acquiring ∨ s.cc.sync = .locked) :
    execSyncLost out s =
      .next ((s.onCc fun c => { c with sync := .lost, synced := false, edgeOk := 0, syncBad := c.syncBad || out }).raise Src.campion Ev.syncLost) :=
  next_when (by simp [hregBit, hjoined, hsync])

theorem execSyncReacquisition_completes (s : State) (hregBit : s.regBit 0x0142 0 = true) (hjoined : s.stk.joined = false) (hsync : s.cc.sync = .lost) :
    execSyncReacquisition s = .next (s.onCc fun c => { c with sync := .acquiring, edgeOk := 0, syncBad := false }) :=
  next_when (by simp [hregBit, hjoined, hsync])

theorem execDiodeEmulationEnd_completes (p : PortId) (s : State) (hcontrolled : s.controlled p = true)
    (hvsRef : (s.cc.comp.getD (portIdx p) {}).vsRef = 1000 * s.vTarget p) (habove : 32 ≤ (s.cc.comp.getD (portIdx p) {}).above) :
    execDiodeEmulationEnd p s = .next (s.onCc fun c => { c with comp := c.comp.modify (portIdx p) fun k => { k with diode := false } }) := by
  refine next_when ?_
  rw [hcontrolled, hvsRef, decide_eq_true habove]
  simp

theorem execLastFaultOffer_completes (s : State) :
    execLastFaultOffer s = .next s.lfOffers := rfl

theorem execSyncLock_ignored (s : State) (hjoined : s.stk.joined = true) :
    execSyncLock s = .next s := next_when_neg (by simp [hjoined])

theorem execSyncLost_ignored (out : Bool) (s : State) (hjoined : s.stk.joined = true) :
    execSyncLost out s = .next s := next_when_neg (by simp [hjoined])

theorem execSyncReacquisition_ignored (s : State) (hjoined : s.stk.joined = true) :
    execSyncReacquisition s = .next s := next_when_neg (by simp [hjoined])

theorem execTuneMeasurementDone_pc_repeats (c esr spread : Nat) (r : TuneRun) (s : State) (htune : s.cc.tune = some r) (hruns : s.runs = true)
    (hpc : r.pc = true) (hagain : r.again = false) (hrange : 100 < spread ∨ c < 30 ∨ 600 < c) :
    execTuneMeasurementDone c esr spread s = .next (s.onCc fun k => { k with tune := some { r with again := true, wait := false } }) := by
  have hfails : (spread ≤ 100 && (if r.pc then 30 ≤ c && c ≤ 600 else 150 ≤ c && c ≤ 4200 : Bool)) = false := by
    rw [hpc, if_pos rfl]; simp; omega
  unfold execTuneMeasurementDone
  rw [htune]
  dsimp only
  rw [hfails, hruns, hpc, hagain, if_neg (by simp), if_neg (by decide)]

theorem execTuneMeasurementDone_vsys_repeats (c esr spread : Nat) (r : TuneRun) (s : State) (htune : s.cc.tune = some r) (hruns : s.runs = true)
    (hswitchOn : s.switchOn = false) (hpc : r.pc = false) (hagain : r.again = false) (hrange : 100 < spread ∨ c < 150 ∨ 4200 < c) :
    execTuneMeasurementDone c esr spread s = .next (s.onCc fun k => { k with tune := some { r with again := true, wait := false } }) := by
  have hfails : (spread ≤ 100 && (if r.pc then 30 ≤ c && c ≤ 600 else 150 ≤ c && c ≤ 4200 : Bool)) = false := by
    rw [hpc, if_neg Bool.false_ne_true]; simp; omega
  unfold execTuneMeasurementDone
  rw [htune]
  dsimp only
  rw [hfails, hruns, hswitchOn, hpc, hagain, if_neg (by decide), if_neg (by decide)]

theorem execTuneMeasurementDone_vsys (c esr spread : Nat) (r : TuneRun) (s : State) (htune : s.cc.tune = some r) (hruns : s.runs = true)
    (hswitchOn : s.switchOn = false) (hpc : r.pc = false) (hspread : spread ≤ 100) (hc : 150 ≤ c) (hc2 : c ≤ 4200) :
    execTuneMeasurementDone c esr spread s = .next (s.tuneEnd r c esr spread true) :=
  by simp [execTuneMeasurementDone, htune, hruns, hswitchOn, hpc, hspread, hc, hc2]

/-- Settles O34: one lemma per command. -/
theorem conversionCompletes : Obligations.ConversionCompletes :=
  ⟨execSwitchingPeriod_completes, execOclHold_completes, execPhaseShort_completes, execQuadOvertemp_completes, execTuneMeasurementDone_pc,
    execFswApply_completes, execSyncLock_completes, execSyncLost_completes, execSyncReacquisition_completes,
    execDiodeEmulationEnd_completes, execLastFaultOffer_completes, execSyncLock_ignored, execSyncLost_ignored,
    execSyncReacquisition_ignored, execTuneMeasurementDone_pc_repeats, execTuneMeasurementDone_vsys_repeats, execTuneMeasurementDone_vsys⟩

end Sys2Proof.Machine
end

section
/-! PROOFS. The commands of the power path (R175 to R200). -/
namespace Sys2Proof.Machine

set_option Elab.async false
open Sys2Proof.Safety

theorem execPcAttach_completes (nd : Nodes) (dc : Bool) (s : State) (hfw : s.sys.fwRun = true) (hpresC : s.pp.presC = false)
    (hpc : (uvlo .pc).1 < nd.pc) (hdcdetOk : ((((s.seeNodes nd).batHw).limpFollow).onPp fun x => { x with dcdetLow := dc }).dcdetOk = true)
    (hpc2 : s.portFenced .pc = false) :
    execPcAttach nd dc s =
      .next ((((((((((s.seeNodes nd).batHw).limpFollow).onPp fun x => { x with dcdetLow := dc }).setPresent .pc true).onCc fun c => { c with pcTuneDue := true, pTuned := false, pTune := none }).tuneNext).shipCancel)).pathNote s.pathByte) :=
  settle_when (by simp [hfw, hpresC, hpc, hdcdetOk, hpc2])

theorem execPcRemoval_completes (dc : Bool) (s : State) (hfw : s.sys.fwRun = true) (hpresC : s.pp.presC = true) :
    execPcRemoval dc s = .next (((s.onPp fun x => { x with dcdetLow := dc }).pcGone).pathNote s.pathByte) := settle_when (by simp [hfw, hpresC])

theorem execBatAttach_completes (s : State) (hfw : s.sys.fwRun = true) (hfollower : s.follower = false) (hbatPres : s.pp.batPres = false)
    (hvoltTest : s.batFound s.voltTest = true) :
    execBatAttach s =
      .next (((((((s.onPp fun x => { x with batPres := true }).switchClose).limpFollow).raise Src.batsw Ev.batAttach).autoStart false)).pathNote s.pathByte) :=
  settle_when (by simp [hfw, hfollower, hbatPres, hvoltTest])

theorem execBatDetach_completes (s : State) (hfw : s.sys.fwRun = true) (hfollower : s.follower = false) (hbatPres : s.pp.batPres = true)
    (hfound : s.batFound s.voltTest = false) :
    execBatDetach s = .next ((s.batGone).pathNote s.pathByte) := settle_when (by rw [hfw, hfollower, hbatPres, hfound]; rfl)

theorem execBatterySwitchReconnect_completes (nd : Nodes) (s : State) (hbatSw : (((s.seeNodes nd).batHw).limpFollow).pp.batSw = .diode)
    (hfollower : s.follower = false) (hvsys : nd.vsys + 20 < nd.bat) :
    execBatterySwitchReconnect nd s = .next (((((s.seeNodes nd).batHw).limpFollow).switchFull).pathNote s.pathByte) :=
  settle_when (by simp [hbatSw, hfollower, hvsys])

theorem execSupplement_completes (nd : Nodes) (s : State) (hfollower : s.follower = false)
    (hvsys : nd.vsys + 150 ≤ (((s.seeNodes nd).batHw).limpFollow).vsysRef)
    (hbatSw : (((s.seeNodes nd).batHw).limpFollow).pp.batSw = .diode ∨ ((((s.seeNodes nd).batHw).limpFollow).pp.batSw = .linear ∧ (((s.seeNodes nd).batHw).limpFollow).pp.soft = .no)) :
    execSupplement nd s = .next (((((s.seeNodes nd).batHw).limpFollow).switchFull).pathNote s.pathByte) :=
  settle_when (by simp [hfollower, hvsys, hbatSw])

theorem execBatterySwitchRelease_completes (s : State) (hbatSw : s.pp.batSw = .full) (hfollower : s.follower = false)
    (hcharging : s.chg.phase.charging = false) :
    execBatterySwitchRelease s = .next ((s.onPp fun x => { x with batSw := .diode, linBefore := false }).pathNote s.pathByte) := by
  refine (settle_when (by rw [hbatSw, hfollower]; rfl)).trans ?_
  rw [hcharging, Bool.false_and]
  rfl

theorem execWeirLearn_completes (t : TcId) (avg : Nat) (s : State) (hruns : s.runs = true) (htcPort : s.sinking (tcPort t) = true)
    (htcPort2 : s.controlled (tcPort t) = true) :
    execWeirLearn t avg s = .next ((s.setLearn (tcPort t) (some (max 100 (95 * avg / 100 / 10 * 10)))).raise (Src.port (tcPort t)) Ev.weirLearn) :=
  next_when (by simp [hruns, htcPort, htcPort2])

theorem execWeirProbe_completes (t : TcId) (l : Nat) (s : State) (hlearn : s.learn (tcPort t) = some l) (hruns : s.runs = true) :
    execWeirProbe t s = .next (s.setLearn (tcPort t) (if s.ownLimit (tcPort t) ≤ l + 100 then none else some (l + 100))) := by
  unfold execWeirProbe
  dsimp only
  rw [hlearn]
  exact next_when hruns

theorem execTrackerInterval_completes (v i : Nat) (s : State) (hruns : s.runs = true) (htrack : s.track = true) (hpc : s.sinking .pc = true)
    (hpc2 : s.controlled .pc = true) (hscan : s.pp.scan = none) (hscanDue : s.pp.scanDue = false) :
    execTrackerInterval v i false s =
      .next (s.onPp fun x => { x with vt := s.vtClamp s.pp.vt, trkV := v, trkI := i, pmpp := some (max (quo (v * i) 1000) (s.pp.pmpp.getD 0)) }) := by
  unfold execTrackerInterval
  rw [hruns, htrack, hpc, hpc2, hscan, if_neg (by decide)]
  simp [State.when, hscanDue]

theorem execMpptScanStart_completes (s : State) (hruns : s.runs = true) (hscanDue : s.pp.scanDue = true ∨ s.scanEvery = true) :
    execMpptScanStart s = .next s.scanBegin := next_when (by simp [hruns, hscanDue])

theorem execMpptScanStep_completes (v i : Nat) (k : Scan) (s : State) (hscan : s.pp.scan = some k) (hruns : s.runs = true) (htrack : s.track = true)
    (hpc : s.sinking .pc = true) :
    execMpptScanStep v i s = .next (s.scanStep k v i) := by
  unfold execMpptScanStep
  rw [hscan]
  refine (next_when hruns).trans ?_
  rw [htrack, hpc]
  rfl

theorem execHandover_completes (low dip : Nat) (s : State) (hhandover : s.pp.handover = true) (hswitchOn : s.switchOn = true)
    (hanySink : s.anySink = false) (hdrained : (phaseNos.all fun i => !((s.phase i).st.gatesOn && (s.phase i).dir == .sink)) = true) :
    execHandover low dip s =
      .next (((s.onPp fun x => { x with handover := false, dwell := true }).raise (Src.port (s.pp.lastSink.getD .pc)) Ev.handover (le 2 (quo low 10) ++ le 2 dip ++ [BitVec.ofNat 8 (Src.port (s.pp.lastSink.getD .pc))])).pathNote s.pathByte) :=
  settle_when (by rw [hhandover, hswitchOn, hanySink, hdrained]; rfl)

theorem execDwellEnd_completes (s : State) :
    execDwellEnd s = .next (s.onPp fun x => { x with dwell := false }) := rfl

theorem execNobatCollapse_completes (s : State) (hfw : s.sys.fwRun = true) (hbatPres : s.pp.batPres = false) :
    execNobatCollapse s = .next ((s.onPp fun x => { x with noBatPfw := true }).downCause 0x05 0x40) := next_when (by simp [hfw, hbatPres])

theorem execRevCutoff_completes (t : TcId) (s : State) (hruns : s.runs = true) (hsourcing : s.sourcing (tcPort t) = true)
    (hvbat : s.ms.vbat ≤ s.grd.cells * s.vRcut) (hdischarge : s.anySink = false ∨ s.pp.bat = .discharging ∨ s.pp.bat = .supplementing) :
    execRevCutoff t s =
      .next ((((s.onPath (tcPort t) fun x => { x with grant := 0 }).raise (Src.port (tcPort t)) Ev.revCutoff).srcMustEnd t).pathNote s.pathByte) := by
  have hends : (!s.anySink || s.pp.bat == .discharging || s.pp.bat == .supplementing) = true := by
    rcases hdischarge with h | h | h <;> simp [h]
  exact settle_when (by rw [hruns, hsourcing, decide_eq_true hvbat, hends]; rfl)

/-- Settles O35: one lemma per command. -/
theorem powerPathCompletes : Obligations.PowerPathCompletes :=
  ⟨execPcAttach_completes, execPcRemoval_completes, execBatAttach_completes, execBatDetach_completes, execBatterySwitchReconnect_completes,
    execSupplement_completes, execBatterySwitchRelease_completes, execWeirLearn_completes, execWeirProbe_completes,
    execTrackerInterval_completes, execMpptScanStart_completes, execMpptScanStep_completes, execHandover_completes, execDwellEnd_completes,
    execNobatCollapse_completes, execRevCutoff_completes⟩

end Sys2Proof.Machine
end

section
/-! PROOFS. The commands of the charge control (R204 to R228). -/
namespace Sys2Proof.Machine

set_option Elab.async false
open Sys2Proof.Safety

theorem execChemCfg_completes (c v : Byte) (single : Bool) (s : State) (hpair : pairOk s .host 0x44 c single v) :
    execChemCfg c single s = .next (((pairDone s .host 0x44).chemWrite v).pathNote s.pathByte) := settle_guardPair hpair

theorem execTeaselTick_completes (m : TeaselIn) (s : State) (hfw : s.sys.fwRun = true) :
    execTeaselTick m s =
      .next ((((((((((s.onSw fun w => { w with chem := s.chemAll, chemNext := [] }).onChg fun c => { c with safeUse := c.safe }).when (!s.balOk) State.bleedStop).applyHeld).modelTake).polarTick).tickCharge).tickEnd m).taskRan .teasel).pathNote s.pathByte) :=
  if_neg (by simp [hfw])

theorem execPrechargeTimer_completes (s : State) (hfw : s.sys.fwRun = true) (hcanCharge : s.canCharge = true) (hchg : s.chg.phase = .precharge)
    (hpreLimit : preLimit ≤ s.chg.tPre + 2) :
    execPrechargeTimer s = .next (((s.onChg fun c => { c with tPre := preLimit }).suspend Rsn.timerPrecharge).pathNote s.pathByte) :=
  settle_when (by simp [hfw, hcanCharge, hchg, hpreLimit])

theorem execFastChargeTimer_completes (s : State) (hfw : s.sys.fwRun = true) (hcanCharge : s.canCharge = true)
    (hcharging : s.chg.phase.charging = true) (hfastLimit : s.fastLimit ≤ s.chg.tFast + (if s.chg.half then 1 else 2)) :
    execFastChargeTimer s =
      .next (((s.onChg fun c => { c with tFast := s.fastLimit }).suspend (if s.chg.half then Rsn.timerUnderLimit else Rsn.timerExpired)).pathNote s.pathByte) :=
  settle_when (by simp [hfw, hcanCharge, hcharging, hfastLimit])

theorem execTopoffTimer_completes (s : State) (hfw : s.sys.fwRun = true) (hcanCharge : s.canCharge = true) (hchg : s.chg.phase = .topoff)
    (htopLimit : topLimit ≤ s.chg.tTop + 2) :
    execTopoffTimer s = .next (((s.onChg fun c => { c with tTop := topLimit }).chgDone 1).pathNote s.pathByte) :=
  settle_when (by simp [hfw, hcanCharge, hchg, htopLimit])

theorem execTimerSuspensionRestart_completes (v : Nat) (s : State) (hfw : s.sys.fwRun = true) (hchg : s.chg.phase = .suspended)
    (hshown : s.chg.shown.toNat = Rsn.timerPrecharge ∨ s.chg.shown.toNat = Rsn.timerExpired ∨ s.chg.shown.toNat = Rsn.timerUnderLimit)
    (hsuspGts : s.chg.suspGts + 1800000000 ≤ s.now) (hvolts : v = quo (s.volSum 160000).1 (s.volSum 160000).2) (hv10sLow : s.v10sLow = true) :
    execTimerSuspensionRestart v s = .next ((s.autoStart true).pathNote s.pathByte) := by
  have htimer : (s.chg.shown.toNat == Rsn.timerPrecharge || s.chg.shown.toNat == Rsn.timerExpired || s.chg.shown.toNat == Rsn.timerUnderLimit) = true := by
    rcases hshown with h | h | h <;> simp [h]
  exact settle_when (by rw [hfw, hchg, htimer, decide_eq_true hsuspGts, beq_iff_eq.2 hvolts, hv10sLow]; rfl)

theorem execZone_completes (z : Zone) (tmin tmax : Int) (s : State) (hfw : s.sys.fwRun = true) (hzoneUnknown : s.chg.zoneUnknown = false)
    (hzone : s.chg.zone ≠ z) (hzoneNext : s.chg.zoneNext = z) (hzoneTicks : s.chg.zoneTicks = 100) (htmin : tmin = s.tMin) (htmax : tmax = s.tMax) :
    execZone z tmin tmax s = .next (((s.zoneTake z).when (z == .cold || z == .hot) fun u => u.sweepAbort 6).pathNote s.pathByte) :=
  settle_when (by simp [hfw, hzoneUnknown, hzone, hzoneNext, hzoneTicks, htmin, htmax])

theorem execNtcFault_completes (k : Fin 6) (s : State) (hfw : s.sys.fwRun = true) (hmapped : (s.reg 0x016D).getLsbD k.val = true)
    (hbad : s.ms.ntc.getD k.val .opened = .opened ∨ s.ms.ntc.getD k.val .opened = .shorted) :
    execNtcFault k s = .next ((((s.onChg fun c => { c with zoneUnknown := true, ntcOk := 0 }).suspend Rsn.ntcFault).sweepAbort 6).pathNote s.pathByte) := by
  have hfault : (s.ms.ntc.getD k.val .opened == .opened || s.ms.ntc.getD k.val .opened == .shorted) = true := by
    rcases hbad with h | h <;> rw [h] <;> rfl
  exact settle_when (by rw [hfw, hmapped, hfault]; rfl)

theorem execCellOv_completes (k : Fin 10) (s : State) (hfw : s.sys.fwRun = true) (hcell : k.val < s.grd.cells)
    (hover : 10 * (s.eVchg + 100) < s.ms.cell.getD k.val 0)
    (hreported : (s.flt.fence.getLsbD 16 && s.flt.recs.any fun r => r.sFenced && r.cause == Cause.cellOv && r.source == s.source (Src.cs (k.val + 1))) = false)
    (hfresh : fresh s Cause.cellOv) :
    execCellOv k s = .next (awaits s (Src.cs (k.val + 1)) Cause.cellOv (s.ms.cell.getD k.val 0)) := by
  refine (next_when ?_).trans (congrArg Host.Outcome.next (failNote_fresh hfresh))
  rw [hfw, decide_eq_true hcell, decide_eq_true hover, hreported]
  rfl

/-- Settles O36: one lemma per command. -/
theorem chargingCompletes : Obligations.ChargingCompletes :=
  ⟨execChemCfg_completes, execTeaselTick_completes, execPrechargeTimer_completes, execFastChargeTimer_completes, execTopoffTimer_completes,
    execTimerSuspensionRestart_completes, execZone_completes, execNtcFault_completes, execCellOv_completes⟩

end Sys2Proof.Machine
end

section
/-! PROOFS. The commands of the cell measurement and the sweeps (R229 to R260). -/
namespace Sys2Proof.Machine

set_option Elab.async false
open Sys2Proof.Safety

/-! ## Balancing: what the count of the charge moved leaves -/

/-- What the counts of balancing leave of the frame: the cells chosen, their voltages and the bleed switches. -/
def sameFrame (s t : State) : Prop := t.ms.balNow = s.ms.balNow ∧ t.ms.cell = s.ms.cell ∧ t.ms.bleed = s.ms.bleed

theorem sameFrame.trans {s t u : State} (h : sameFrame s t) (h' : sameFrame t u) : sameFrame s u := by
  obtain ⟨hnow, hcell, hbleed⟩ := h
  obtain ⟨hnow', hcell', hbleed'⟩ := h'
  exact ⟨hnow'.trans hnow, hcell'.trans hcell, hbleed'.trans hbleed⟩

theorem balCount_sameFrame (s : State) (ms : Nat) (l : List Nat) : sameFrame s (s.balCount ms l) := by
  unfold State.balCount
  induction l generalizing s with
  | nil => exact ⟨rfl, rfl, rfl⟩
  | cons k r ih =>
    refine sameFrame.trans ?_ (ih _)
    dsimp only
    unfold State.when State.counterSat
    split <;> simp [sameFrame]

theorem bleedStop_frame (s : State) : s.bleedStop.ms.balNow = s.ms.balNow ∧ s.bleedStop.ms.cell = s.ms.cell := by
  unfold State.bleedStop
  split
  · exact ⟨rfl, rfl⟩
  · obtain ⟨hnow, hcell, -⟩ := balCount_sameFrame (s.onMs fun x => { x with bleed := false }) (min 960 ((s.now - s.ms.balAt) / 1000)) s.ms.balNow
    exact ⟨hnow, hcell⟩

/-! ## The end of a sweep -/

/-- The answer to a sweep clears its request and leaves the sweep. -/
theorem sweepAnswer_sw (s : State) (k : SweepKind) (code : Nat) (part : Bool) (used : Nat) (lowest : Byte) :
    (s.sweepAnswer k code part used lowest).sw = { s.sw with cmd := none } := by
  unfold State.sweepAnswer
  rw [onSw_sw, finishO_sw]

theorem execSampleSet_completes (x : SampleSet) (s : State) (hmeasOn : s.measOn = true) :
    execSampleSet x s =
      .next ((((s.ccAdd x.ibatUa).onMs fun m => { m with hist := (x :: m.hist).take 160000, setAt := (s.now :: m.setAt).take 2, ntc := x.ntc.map s.ntcOf, ibatLast := x.ibatUa, ibatFast := quoQ (5 * x.ibatUa + 3 * m.ibatLast) 8000 }).sampleTake x).pathNote s.pathByte) :=
  if_neg (by simp [hmeasOn])

theorem execReportedCellVoltage_completes (cells : List Bool) (vbat ibat : Bool) (s : State) (hfw : s.sys.fwRun = true) (hmeasOn : s.measOn = true)
    (haccN : s.ms.accN ≠ 0) :
    ∃ t, execReportedCellVoltage cells vbat ibat s = .next t ∧ t.ms.vbat = (meanOf vbat s.ms.accV (1000 * s.ms.accN)).toNat
      ∧ t.ms.ibat = meanOf ibat s.ms.accI (1000 * s.ms.accN) ∧ t.ms.accN = 0 ∧ t.ms.fresh = true
      ∧ t.ms.cell = (List.range 10).map fun k => if s.ms.balNow.contains k then s.ms.balRead.getD k 0 else codeMean (cells.getD k false) (s.ms.accCell.getD k 0) s.ms.accN := by
  refine ⟨_, settle_when (by rw [hfw, hmeasOn, bne_iff_ne.2 haccN]; rfl), ?_⟩
  dsimp only
  simp only [pathNote_ms]
  unfold State.when
  split <;> exact ⟨rfl, rfl, rfl, rfl, rfl⟩

theorem execAutoZero_completes (s : State) (hmeasOn : s.measOn = true) :
    execAutoZero s = .next (s.onMs fun x => { x with azCount := x.azCount + 1 }) := next_when (by simp [hmeasOn])

theorem execMirrorUpdate_completes (m : MirIn) (s : State) (hmeasOn : s.measOn = true) (hmirEn : s.ms.mirEn = true) :
    execMirrorUpdate m s = .next ((s.onMs fun x => { x with mir := s.mirNow m, mirAt := some s.now }).useFree 6) :=
  next_when (by simp [hmeasOn, hmirEn])

theorem execBalancingFrame_completes (s : State) (hfw : s.sys.fwRun = true) :
    ∃ t u : State, execBalancingFrame s = .next t ∧ u = (s.onMs fun x => { x with balRead := s.offRead, cell := s.offRead }) ∧ t.ms.cell = s.offRead
      ∧ t.ms.balPrev = s.ms.balNow ∧ t.ms.balNow = (if u.balOk then u.balChoice else []) ∧ t.ms.bleed = (t.ms.balNow != []) ∧ t.ms.balAt = s.now := by
  unfold execBalancingFrame
  rw [if_neg (by rw [hfw]; decide)]
  extract_lets u l s1 m
  obtain ⟨hnow, hcell⟩ := bleedStop_frame u
  have hframe : s1.ms.cell = s.offRead ∧ s1.ms.balPrev = s.ms.balNow ∧ s1.ms.balNow = (if u.balOk then u.balChoice else [])
      ∧ s1.ms.bleed = (s1.ms.balNow != []) ∧ s1.ms.balAt = s.now := ⟨hcell, hnow, rfl, rfl, rfl⟩
  clear_value s1 m
  split
  · exact ⟨_, u, rfl, rfl, by rw [raise_ms]; exact hframe⟩
  · split
    · exact ⟨_, u, rfl, rfl, by rw [raise_ms]; exact hframe⟩
    · exact ⟨_, u, rfl, rfl, hframe⟩

theorem execBalanceOffTime_completes (rnd : List Bool) (s : State) (hfw : s.sys.fwRun = true) :
    ∃ t, execBalanceOffTime rnd s = .next t ∧ t.ms.bleed = false ∧ t.ms.balUp = rnd ∧ t.ms.cell = s.ms.cell ∧ t.ms.balNow = s.ms.balNow := by
  unfold execBalanceOffTime
  rw [if_neg (by rw [hfw]; decide)]
  refine ⟨_, rfl, ?_⟩
  cases hbleed : s.ms.bleed with
  | true =>
    obtain ⟨hnow, hcell, hoff⟩ := balCount_sameFrame (s.onMs fun x => { x with bleed := false }) 960 s.ms.balNow
    exact ⟨hoff, rfl, hcell, hnow⟩
  | false => exact ⟨hbleed, rfl, rfl, rfl⟩

theorem execQuickSweepInterval_completes (s : State) (hfw : s.sys.fwRun = true) (hautoSwp : s.autoSwp = true) (hchg : s.chg.phase = .shaped)
    (hrun : s.sw.run = .none) (hstage : s.sw.stage ≠ .fitting) (hlastKind : s.sw.lastKind ≠ .none)
    (hlastStamp : stampAt s.sw.lastStamp + 600000000 ≤ s.now) :
    execQuickSweepInterval s = .next (s.sweepSchedule .interval .quick) := by
  have hdue : s.trigHolds .interval = true := by
    unfold State.trigHolds
    rw [hautoSwp, hchg, hrun, bne_iff_ne.2 hstage, bne_iff_ne.2 hlastKind, decide_eq_true hlastStamp]
    rfl
  exact next_when (by rw [hfw, hdue]; rfl)

theorem execSweepRefusalRetry_completes (r : SweepWait) (s : State) (hfw : s.sys.fwRun = true)
    (hsince : (s.sw.retry.find? fun x => decide (x.since + 10000000 ≤ s.now)) = some r)
    (htrig : (s.onSw fun w => { w with retry := w.retry.filter fun x => x.trig != r.trig }).trigHolds r.trig = true) :
    execSweepRefusalRetry s = .next ((s.onSw fun w => { w with retry := w.retry.filter fun x => x.trig != r.trig }).trigSweep r.trig) := by
  unfold execSweepRefusalRetry
  rw [if_neg (by rw [hfw]; decide), hsince]
  exact next_when htrig

theorem execSweepBaselineEnd_completes (up : Bool) (y : SampleSet) (ys : List SampleSet) (s : State) (hfw : s.sys.fwRun = true)
    (hrun : s.sw.run ≠ .none) (hstage : s.sw.stage = .baseline) (hwin : s.sw.win = y :: ys) :
    ∃ u : State, execSweepBaselineEnd up s = .next u.pointBegin ∧ u.sw.stage = .points ∧ u.sw.idx = 0
      ∧ u.sw.idc = meanOf up (sumI (s.sw.win.map (·.ibatUa))) (1000 * s.sw.win.length)
      ∧ u.sw.offs.getD 10 0 = quoQ (sumI (s.sw.win.map (·.ibatUa))) s.sw.win.length := by
  refine ⟨_, next_when (by rw [hfw, bne_iff_ne.2 hrun, hstage]; rfl), rfl, rfl, ?_, ?_⟩
  · simp [State.useFree, hwin]
  · simp [State.useFree, hwin, List.getD_eq_getElem?_getD]

theorem execSweepPoint_completes (rnd : List Bool) (s : State) (hfw : s.sys.fwRun = true) (hrun : s.sw.run ≠ .none) (hstage : s.sw.stage = .points)
    (hpointFreq : winSets s.pointFreq ≤ s.sw.win.length) (hstopping : s.sw.stopping = false) (hdisturbed : s.sw.disturbed = false) :
    execSweepPoint rnd s =
      .next ((((s.onSw fun w => { w with pts := (if w.repeating then w.pts.dropLast else w.pts) ++ [s.pointRec s.sw.win.reverse rnd] }).useFree 20).onSw fun w => { w with repeating := false, idx := w.idx + 1, stage := if w.idx + 1 < w.freqs.length then .points else .fitting }).pointBegin) :=
  by simp [execSweepPoint, hfw, hrun, hstage, hpointFreq, hstopping, hdisturbed]

theorem execSweepFit_completes (fits : List CellFit) (s : State) (hfw : s.sys.fwRun = true) (hstage : s.sw.stage = .fitting) :
    ∃ t, execSweepFit fits s = .next t ∧ t.sw.stage = .idle ∧ t.sw.cmd = none
      ∧ t.sw.lastUsed = usable (if s.sw.run = .none then s.sw.lastPts else s.sw.pts) := by
  unfold execSweepFit
  rw [if_neg (by rw [hfw, hstage]; decide)]
  dsimp only
  by_cases hrun : s.sw.run = .none
  · have hpart : (s.sw.run == .none) = true := beq_iff_eq.2 hrun
    simp only [hpart, if_pos hrun, if_true]
    split <;> exact ⟨_, rfl, by simp [sweepAnswer_sw, State.useFree]⟩
  · have hpart : (s.sw.run == .none) = false := beq_eq_false_iff_ne.2 hrun
    simp only [hpart, if_neg hrun, Bool.false_eq_true, if_false]
    split <;> exact ⟨_, rfl, by simp [sweepAnswer_sw, State.useFree, State.sweepClose]⟩

theorem execSweepAborted_completes (k : Fin 16) (s : State) (hfw : s.sys.fwRun = true) (hrun : s.sw.run ≠ .none)
    (hsweepFault : s.sweepFault k.val = true) :
    execSweepAborted k s = .next (s.sweepAbort k.val) := next_when (by simp [hfw, hrun, hsweepFault])

theorem execRestCorrection_completes (s : State) (hfw : s.sys.fwRun = true) (hbatPres : s.pp.batPres = true) (hprofSet : s.profSet = true) :
    execRestCorrection s = .next ((s.socSeed).onMs fun x => { x with est := false, rested := true }) := next_when (by simp [hfw, hbatPres, hprofSet])

theorem execGradeDecay_completes (k : Fin 10) (s : State) (hfw : s.sys.fwRun = true) (hseeded : s.sw.seeded = true)
    (hcharging : s.chg.phase.charging = true) :
    execGradeDecay k s = .next (s.setGrade k.val Grade.down) := next_when (by simp [hfw, hseeded, hcharging])

theorem execModelMismatch_completes (k : Fin 10) (meas model : Bool) (a : Nat) (s : State) (hfw : s.sys.fwRun = true) (hseeded : s.sw.seeded = true)
    (hnone : s.sw.offAt.getD k.val none = some a) (ha : a + 60000000 ≤ s.now) :
    execModelMismatch k meas model s =
      .next ((((s.setGrade k.val fun _ => .low).onSw fun w => { w with mismatch := true, quickDue := s.autoSwp, offAt := w.offAt.set k.val none }).raise Src.yarrow Ev.modelMismatch (BitVec.ofNat 8 (k.val + 1) :: (polarBytes meas (s.polarOf k.val).1 ++ polarBytes model (s.polarOf k.val).2))).useFree 10) := by
  have hlong : (s.sw.offAt.getD k.val none).any (fun t => decide (t + 60000000 ≤ s.now)) = true := by
    rw [hnone, Option.any_some]
    exact decide_eq_true ha
  exact next_when (by rw [hfw, hseeded, hlong]; rfl)

/-- Settles O37: one lemma per command. -/
theorem measurementCompletes : Obligations.MeasurementCompletes :=
  ⟨execSampleSet_completes, execReportedCellVoltage_completes, execAutoZero_completes, execMirrorUpdate_completes,
    execBalancingFrame_completes, execBalanceOffTime_completes, execQuickSweepInterval_completes, execSweepRefusalRetry_completes,
    execSweepBaselineEnd_completes, execSweepPoint_completes, execSweepFit_completes, execSweepAborted_completes,
    execRestCorrection_completes, execGradeDecay_completes, execModelMismatch_completes⟩

end Sys2Proof.Machine
end

section
/-! PROOFS. The attach and detach commands of a Type-C port. -/
namespace Sys2Proof.Machine

set_option Elab.async false
open Sys2Proof.Safety

theorem execCcAttach_completes (t : TcId) (s : State) (htcs : (s.tc t).tcs = .unattached) (hdischarging : (s.tc t).discharging = false)
    (htcPort : s.portFenced (tcPort t) = false) (hmode : s.sys.mode ≠ .unpowered) (hmode2 : s.sys.mode ≠ .ship) :
    execCcAttach t false s = .next (s.onTc t fun y => { y.present false with tcs := .attachWait }) :=
  by simp [execCcAttach, htcs, hdischarging, htcPort, hmode, hmode2]

theorem execAttachDebounceEnd_completes (t : TcId) (orient : Bool) (rp : Rp) (vbus : Nat) (s : State) (hlive : s.tcLive t = true)
    (htcs : (s.tc t).tcs = .attachWait) (hasSrc : (s.tc t).asSrc = false) :
    execAttachDebounceEnd t orient rp vbus s =
      .next ((((((s.txClear t).liftFence (13 + portIdx (tcPort t))).onTc t fun y => { y with vconnOff := false }).attachSnk t orient rp vbus)).pathNote s.pathByte) :=
  by rw [execAttachDebounceEnd, onPd_live hlive]; simp [htcs, hasSrc, State.debounceEnd]

theorem execDetach_wait (d : DetachIn) (s : State) (hvbus : d.vbus = false ∨ (s.tc d.port).vbusDetach = true) (htcs : (s.tc d.port).tcs = .attachWait) :
    execDetach d s = .next ((s.onTc d.port fun y => { y.present false with tcs := .unattached }).pathNote s.pathByte) := by
  have hgone : (!d.vbus || (s.tc d.port).vbusDetach) = true := by rcases hvbus with h | h <;> simp [h]
  refine (settle_when hgone).trans (congrArg (settle s) ?_)
  unfold State.detachPort
  dsimp only
  rw [htcs]
  rfl

theorem execDetach_sink (d : DetachIn) (s : State) (hvbus : d.vbus = false ∨ (s.tc d.port).vbusDetach = true)
    (htcs : (s.tc d.port).tcs = .attachedSnk) (hlimpSrc : s.sys.limpSrc = none) :
    execDetach d s = .next ((State.detach s (((s.setNode d.port 0).setRp d.port .none).txClear d.port) d.port).pathNote s.pathByte) := by
  have hgone : (!d.vbus || (s.tc d.port).vbusDetach) = true := by rcases hvbus with h | h <;> simp [h]
  have hlimp : (s.setNode d.port 0).sys.limpSrc = none := by
    unfold State.setNode
    split <;> exact hlimpSrc
  refine (settle_when hgone).trans (congrArg (settle s) ?_)
  unfold State.detachPort
  dsimp only
  rw [htcs, hlimp, if_neg (by decide), if_neg (by decide), if_neg (by simp)]

theorem execPortDischargeDone_completes (t : TcId) (s : State) (hdischarging : (s.tc t).discharging = true) (hswap : (s.tc t).swap = .none)
    (hhrst : (s.tc t).hrst = false) :
    ∃ u, execPortDischargeDone t s = .next u ∧ u.tc t = { hrBoot := (s.tc t).hrBoot } :=
  by simp [execPortDischargeDone, hdischarging, hswap, hhrst, State.dischargeDone]

theorem execVsafe5vReturn_completes (t : TcId) (s : State) (hlive : s.tcLive t = true) (htcs : (s.tc t).tcs = .attachedSnk)
    (hsrc : (s.tc t).src = false) (hhrst : (s.tc t).hrst = true) :
    execVsafe5vReturn t s =
      .next (((((s.txClear t).setNode t 5000).setPresent (tcPort t) ((s.txClear t).rp t != .none)).onTc t fun y => { y with hrst := false, offers := [], discharging := false }).pathNote s.pathByte) :=
  by rw [execVsafe5vReturn, onPd_live hlive]; simp [htcs, hsrc, hhrst, State.vbusBack]

theorem execRpAdvertisementChange_completes (t : TcId) (rp : Rp) (s : State) (hlimpSrc : s.sys.limpSrc = none) :
    execRpAdvertisementChange t rp s = .next (s.setRp t rp) := by
  have hlimp : (s.setRp t rp).sys.limpSrc = none := by
    unfold State.setRp
    split <;> exact hlimpSrc
  refine congrArg Host.Outcome.next ?_
  unfold State.limpFollow
  rw [hlimp]

theorem execVconnOc_completes (t : TcId) (s : State) (hlive : s.tcLive t = true) (hvconn : (s.tc t).vconn = true) (hfresh : fresh s Cause.vconnOc) :
    execVconnOc t s = .next (awaits (s.onTc t fun y => { y with vconn := false }) (Src.tc t) Cause.vconnOc) := by
  have hfresh' : fresh (s.onTc t fun y => { y with vconn := false }) Cause.vconnOc := by cases t <;> exact hfresh
  exact (next_when (by rw [hlive, hvconn]; rfl)).trans (congrArg Host.Outcome.next (failNote_fresh hfresh'))

/-- Settles O38: one lemma per command. -/
theorem attachCompletes : Obligations.AttachCompletes :=
  ⟨execCcAttach_completes, execAttachDebounceEnd_completes, execDetach_wait, execDetach_sink, execPortDischargeDone_completes,
    execVsafe5vReturn_completes, execRpAdvertisementChange_completes, execVconnOc_completes⟩

end Sys2Proof.Machine
end

section
/-! PROOFS. The PD messages to a sink (R271 to R283). -/
namespace Sys2Proof.Machine

set_option Elab.async false
open Sys2Proof.Safety

/-- What is under way on a port is so while its answers are cleared. -/
theorem sentNow_txClear (s : State) (t : TcId) : sentNow ((s.txClear t).tc t) = sentNow (s.tc t) := by
  rw [txClear_tc]
  rfl

theorem execSourceCapabilities_completes (t : TcId) (rev3 : Bool) (objs : List Pdo) (s : State) (hlive : s.tcLive t = true)
    (htcs : (s.tc t).tcs = .attachedSnk) (hsrc : (s.tc t).src = false) :
    execSourceCapabilities t false rev3 objs s =
      .next (((((s.txClear t).onTc t fun y => { y with offers := objs, rev3 := rev3, hrTries := 0, nonPd := false, prDrp := (objs.head?.map (·.drp)).getD false, prEpr := (objs.head?.map (·.eprCap)).getD false }).negotiate t).eprTry t).pathNote s.pathByte) :=
  by rw [execSourceCapabilities, onPd_live hlive]; simp [htcs, hsrc, State.newOffers]

theorem execPdAccept_completes (t : TcId) (o : Offer) (s : State) (hlive : s.tcLive t = true) (hswap : (s.tc t).swap = .none)
    (hdrWait : (s.tc t).drWait = false) (hvcWait : (s.tc t).vcWait = false) (hreq : (s.tc t).req = some o) :
    execPdAccept t s = .next (((s.txClear t).onTc t fun y => { y with trans := some o, req := none, waitDue := false, retries := 0 }).pathNote s.pathByte) :=
  by rw [execPdAccept, onPd_live hlive]; simp [hswap, hdrWait, hvcWait, hreq, State.accepted]

theorem execPsRdy_completes (t : TcId) (o : Offer) (s : State) (hlive : s.tcLive t = true) (hswap : (s.tc t).swap = .none)
    (htrans : (s.tc t).trans = some o) :
    execPsRdy t s = .next (((s.txClear t).contractNow t o).pathNote s.pathByte) :=
  by rw [execPsRdy, onPd_live hlive]; simp [hswap, htrans, State.psReady]

theorem execPdWait_completes (t : TcId) (s : State) (hlive : s.tcLive t = true) (hsent : sentNow (s.tc t) = .request)
    (hretries : (s.tc t).retries < 5) :
    execPdWait t s = .next (((s.txClear t).onTc t fun y => { y with waitDue := true }).pathNote s.pathByte) := by
  have hretries' : ¬ 5 ≤ ((s.txClear t).tc t).retries := by rw [txClear_tc]; exact Nat.not_le.2 hretries
  refine (onPd_live hlive).trans ?_
  dsimp only
  rw [sentNow_txClear, hsent]
  dsimp only
  rw [if_neg hretries']

theorem execWaitRetry_completes (t : TcId) (o : Offer) (s : State) (hlive : s.tcLive t = true) (hwaitDue : (s.tc t).waitDue = true)
    (hsent : sentNow (s.tc t) = .request) (hreq : (s.tc t).req = some o) :
    execWaitRetry t s = .next ((((s.txClear t).onTc t fun y => { y with waitDue := false, retries := y.retries + 1 }).sendReq t o).pathNote s.pathByte) := by
  refine (onPd_live hlive).trans ?_
  unfold State.waitRetry
  dsimp only
  rw [sentNow_txClear, hsent, txClear_tc, hwaitDue, hreq]
  rfl

theorem execPdReject_completes (t : TcId) (s : State) (hlive : s.tcLive t = true) (hsent : sentNow (s.tc t) = .request) :
    execPdReject t s = .next ((((s.txClear t).onTc t fun y => { y with waitDue := false }).fallBack t).pathNote s.pathByte) := by
  refine (onPd_live hlive).trans ?_
  unfold State.refused
  rw [sentNow_txClear, hsent]

theorem execFallbackRerequest_completes (t : TcId) (r : Offer) (s : State) (hlive : s.tcLive t = true) (hrefused : (s.tc t).refused = some r)
    (hreWait : (s.tc t).reWait = true) (hreq : (s.tc t).req = none) (htrans : (s.tc t).trans = none) :
    execFallbackRerequest t s =
      .next ((((s.txClear t).onTc t fun y => { y with reWait := false, refused := none, retries := 0 }).sendReq t r).pathNote s.pathByte) :=
  by rw [execFallbackRerequest, onPd_live hlive]; simp [hrefused, hreWait, hreq, htrans]

theorem execPpsRerequest_completes (t : TcId) (o : Offer) (s : State) (hlive : s.tcLive t = true) (hcontract : (s.tc t).contract = some o)
    (hkind : o.kind = 2) (hsrc : (s.tc t).src = false) (hreq : (s.tc t).req = none) (htrans : (s.tc t).trans = none) :
    execPpsRerequest t s = .next (((s.txClear t).sendReq t o).pathNote s.pathByte) :=
  by rw [execPpsRerequest, onPd_live hlive]; simp [hcontract, hkind, hsrc, hreq, htrans]

theorem execEprMode_completes (t : TcId) (s : State) (hlive : s.tcLive t = true) (heprWait : (s.tc t).eprWait = true) :
    execEprMode t 3 s =
      .next (((((s.txClear t).onTc t fun y => { y with eprWait := false, epr := true }).tcEvent t Ev.eprEnter [nameByte Ev.eprEnter 0]).eprLeave t).pathNote s.pathByte) :=
  by rw [execEprMode, onPd_live hlive]; simp [heprWait, State.eprMsg]

theorem execEprKeepalive_completes (t : TcId) (s : State) (hlive : s.tcLive t = true) (hepr : (s.tc t).epr = true) (hsrc : (s.tc t).src = false) :
    execEprKeepalive t s = .next (((s.txClear t).tx t .eprKeepAlive).pathNote s.pathByte) := onPd_when hlive (by simp [hepr, hsrc])

theorem execSourceCapabilitiesTimeout_completes (t : TcId) (s : State) (hlive : s.tcLive t = true) (htcs : (s.tc t).tcs = .attachedSnk)
    (hsrc : (s.tc t).src = false) (hcontract : (s.tc t).contract = none) (hoffers : (s.tc t).offers = []) (hnonPd : (s.tc t).nonPd = false)
    (hhrst : (s.tc t).hrst = false) (hhrTries : (s.tc t).hrTries < 2) :
    execSourceCapabilitiesTimeout t s = .next (((s.txClear t).hardReset t true 0).pathNote s.pathByte) := by
  refine (onPd_live hlive).trans ?_
  dsimp only
  rw [txClear_tc, htcs, hsrc, hcontract, hoffers, hnonPd, hhrst, if_pos (by decide), if_neg (Nat.not_le.2 hhrTries)]

/-- Settles O39: one lemma per command. -/
theorem sinkPdCompletes : Obligations.SinkPdCompletes :=
  ⟨execSourceCapabilities_completes, execPdAccept_completes, execPsRdy_completes, execPdWait_completes, execWaitRetry_completes,
    execPdReject_completes, execFallbackRerequest_completes, execPpsRerequest_completes, execEprMode_completes, execEprKeepalive_completes,
    execSourceCapabilitiesTimeout_completes⟩

end Sys2Proof.Machine
end

section
/-! PROOFS. The PD messages to a source, swaps and resets (R276 to R289). -/
namespace Sys2Proof.Machine

set_option Elab.async false
open Sys2Proof.Safety

theorem execCableDiscovery_completes (t : TcId) (a e : Bool) (s : State) (hlive : s.tcLive t = true) (hcableTry : (s.tc t).cableTry ≠ 0) :
    execCableDiscovery t (some (a, e)) s =
      .next ((((s.txClear t).onTc t fun y => { y with cableTry := 0, cable5A := a, cableEpr := e, cableAns := true }).sendCaps t).pathNote s.pathByte) :=
  by rw [execCableDiscovery, onPd_live hlive]; simp [hcableTry, State.cableSeen]

theorem execSourceCapabilitiesUpdate_completes (t : TcId) (s : State) (hlive : s.tcLive t = true)
    (hownCaps : (s.txClear t).ownCaps t ≠ (s.tc t).srcOffered) (hsrcOffered : (s.tc t).srcOffered ≠ [])
    (hrecent : ((s.tc t).capsAt.any fun a => decide (s.now < a + 1000000)) = false) :
    execSourceCapabilitiesUpdate t s = .next (((s.txClear t).sendCaps t).pathNote s.pathByte) := by
  have hclock : (s.txClear t).now = s.now := by rw [txClear_frame]; rfl
  refine (onPd_live hlive).trans ?_
  unfold State.capsChange
  rw [txClear_tc, hclock]
  exact congrArg (fun u => Host.Outcome.next (State.pathNote s.pathByte u)) (when_pos (by rw [bne_iff_ne.2 hownCaps, bne_iff_ne.2 hsrcOffered, hrecent]; rfl))

theorem execPdRequest_completes (t : TcId) (pos mv ma : Nat) (o : Offer) (s : State) (hlive : s.tcLive t = true) (hsrc : (s.tc t).src = true)
    (htcPort : (s.txClear t).sourcing (tcPort t) = true) (hma : (s.txClear t).askedFor t pos mv ma = some o) :
    execPdRequest t pos mv ma s =
      .next (((((((((s.txClear t).tx t .accept).tx t .psRdy).onTc t fun y => { y with contract := some o, rpOut := 2, hrTries := 0, nonPd := false, frsSrc := false, capsWait := false }).contractEvent t o).tx t .getSinkCap).authMaybe t)).pathNote s.pathByte) :=
  by rw [execPdRequest, onPd_live hlive]; simp [hsrc, htcPort, hma, State.requested]

theorem execSinkCapabilities_completes (t : TcId) (drp : Bool) (s : State) (hlive : s.tcLive t = true) (hattached : s.attached t = true) :
    execSinkCapabilities t 3 drp s = .next ((((s.txClear t).onTc t fun y => { y.closes with prDrp := drp, ifrs := 3000 }).frsEval t).pathNote s.pathByte) :=
  onPd_when hlive (by simp [hattached])

theorem execPrSwapReceived_accepts (t : TcId) (s : State) (hlive : s.tcLive t = true) (hattached : s.attached t = true)
    (hcontract : (s.tc t).contract.isSome = true) (hswap : (s.tc t).swap = .none) (hroleBit : (s.txClear t).roleBit t 5 = true)
    (hsrc : (s.tc t).src = true) :
    execPrSwapReceived t s = .next ((((s.txClear t).tx t .accept).swapOff t).pathNote s.pathByte) :=
  by rw [execPrSwapReceived, onPd_live hlive]; simp [hattached, hcontract, hswap, hroleBit, hsrc]

theorem execDrSwapReceived_completes (t : TcId) (s : State) (hlive : s.tcLive t = true) (hattached : s.attached t = true) :
    execDrSwapReceived t s = .next ((((s.txClear t).tx t .accept).dataSwap t).pathNote s.pathByte) := onPd_when hlive (by simp [hattached])

theorem execVconnSwapReceived_takes_source (t : TcId) (s : State) (hlive : s.tcLive t = true) (hattached : s.attached t = true)
    (hvconnSrc : (s.tc t).vconnSrc = false) (hsrc : (s.tc t).src = true) :
    execVconnSwapReceived t s = .next (((((((s.txClear t).tx t .accept).vconnOn t).tx t .psRdy).swapEvent t 3 0).discoverCable t).pathNote s.pathByte) := by
  refine (onPd_live hlive).trans ?_
  simp [hattached, hvconnSrc, hsrc, State.when]

theorem execVconnSwapReceived_takes_sink (t : TcId) (s : State) (hlive : s.tcLive t = true) (hattached : s.attached t = true)
    (hvconnSrc : (s.tc t).vconnSrc = false) (hsrc : (s.tc t).src = false) :
    execVconnSwapReceived t s = .next ((((((s.txClear t).tx t .accept).vconnOn t).tx t .psRdy).swapEvent t 3 0).pathNote s.pathByte) := by
  refine (onPd_live hlive).trans ?_
  simp [hattached, hvconnSrc, hsrc, State.when]

theorem execVconnSwapReceived_gives (t : TcId) (s : State) (hlive : s.tcLive t = true) (hattached : s.attached t = true)
    (hvconnSrc : (s.tc t).vconnSrc = true) (hsrc : (s.tc t).src = false) (hepr : (s.tc t).epr = false) :
    execVconnSwapReceived t s =
      .next (((((s.txClear t).tx t .accept).onTc t fun y => { y with vconn := false, vconnSrc := false }).swapEvent t 3 0).pathNote s.pathByte) :=
  by rw [execVconnSwapReceived, onPd_live hlive]; simp [hattached, hvconnSrc, hsrc, hepr]

theorem execHardResetReceived_completes (t : TcId) (s : State) (hlive : s.tcLive t = true) (hattached : s.attached t = true) :
    execHardResetReceived t s = .next ((((s.txClear t).onTc t fun y => { y with hrTries := 0 }).hardReset t false 5).pathNote s.pathByte) :=
  onPd_when hlive (by simp [hattached])

theorem execHardResetSourceRestore_removes (t : TcId) (s : State) (hlive : s.tcLive t = true) (hhrst : (s.tc t).hrst = true)
    (hsrc : (s.tc t).src = true) (hdischarging : (s.tc t).discharging = false) (hhold : s.flt.hold = false)
    (htcSourceOk : (s.txClear t).tcSourceOk t = false) :
    execHardResetSourceRestore t s = .next ((((s.txClear t).onTc t fun y => { y with hrst := false }).srcRemove t).pathNote s.pathByte) :=
  by rw [execHardResetSourceRestore, onPd_live hlive]; simp [hhrst, hsrc, hdischarging, hhold, htcSourceOk]

theorem execHardResetSourceRestore_restores (t : TcId) (s : State) (hlive : s.tcLive t = true) (hhrst : (s.tc t).hrst = true)
    (hsrc : (s.tc t).src = true) (hdischarging : (s.tc t).discharging = false) (hhold : s.flt.hold = false)
    (htcSourceOk : (s.txClear t).tcSourceOk t = true) :
    ∃ v, v = (((s.txClear t).onTc t fun y => { y with hrst := false, tcs := .attachedSrc }).startSource t).vconnOn t
      ∧ execHardResetSourceRestore t s = .next ((v.when (!(v.tc t).nonPd) fun w => w.sendCaps t).pathNote s.pathByte) := by
  refine ⟨_, rfl, (onPd_live hlive).trans ?_⟩
  have hhold' : (s.txClear t).flt.hold = false := by rw [txClear_frame]; exact hhold
  dsimp only
  rw [txClear_tc, hhrst, hsrc, hdischarging, hhold', if_pos (by decide), if_pos htcSourceOk]

theorem execPrSwapNoAnswer_completes (t : TcId) (s : State) (hlive : s.tcLive t = true) (hswap : (s.tc t).swap = .prSent)
    (hswapEnd : (s.tc t).swapEnd = true) :
    execPrSwapNoAnswer t s = .next (((s.txClear t).srcRemove t).pathNote s.pathByte) :=
  by rw [execPrSwapNoAnswer, onPd_live hlive]; simp [hswap, hswapEnd, State.noAnswer]

theorem execSecurityResponse_completes (t : TcId) (ok : Bool) (root : List (BitVec 8)) (s : State) (hlive : s.tcLive t = true)
    (hauthBusy : (s.tc t).authBusy = true) :
    execSecurityResponse t ok root s = .next (((s.txClear t).authResult t (ok && s.nvm.roots.contains (some root))).pathNote s.pathByte) := by
  refine (onPd_when hlive (by rw [txClear_tc]; exact hauthBusy)).trans ?_
  rw [txClear_nvm]

theorem execPrSwapReceived_rejects (t : TcId) (s : State) (hlive : s.tcLive t = true) (hattached : s.attached t = true)
    (hbar : (s.tc t).contract = none ∨ (s.tc t).swap ≠ .none ∨ (s.txClear t).roleBit t 5 = false ∨ ((s.tc t).src = false ∧ (s.txClear t).tcSourceOk t = false)) :
    execPrSwapReceived t s = .next ((((s.txClear t).tx t .reject).swapEvent t 0 1).pathNote s.pathByte) := by
  refine (onPd_live hlive).trans ?_
  have hatt : (s.txClear t).attached t = true := by simpa using hattached
  dsimp only
  rw [hatt, if_neg (by decide), if_neg]
  rw [txClear_tc]
  rcases hbar with h | h | h | ⟨h, h'⟩ <;> simp [h]
  simp [h']

theorem execVconnSwapReceived_rejects_current (t : TcId) (s : State) (hlive : s.tcLive t = true) (hattached : s.attached t = true)
    (hvconnSrc : (s.tc t).vconnSrc = true) (hepr : (s.tc t).epr = true) :
    execVconnSwapReceived t s = .next ((((s.txClear t).tx t .reject).swapEvent t 3 1).pathNote s.pathByte) :=
  by rw [execVconnSwapReceived, onPd_live hlive]; simp [hattached, hvconnSrc, hepr]

theorem execVconnSwapReceived_rejects_epr (t : TcId) (o : Offer) (s : State) (hlive : s.tcLive t = true) (hattached : s.attached t = true)
    (hvconnSrc : (s.tc t).vconnSrc = true) (hsrc : (s.tc t).src = true) (hcontract : (s.tc t).contract = some o) (ho : 3000 < o.curr) :
    execVconnSwapReceived t s = .next ((((s.txClear t).tx t .reject).swapEvent t 3 1).pathNote s.pathByte) :=
  by rw [execVconnSwapReceived, onPd_live hlive]; simp [hattached, hvconnSrc, hsrc, hcontract, ho]

theorem execVconnSwapReceived_gives_contract (t : TcId) (o : Offer) (s : State) (hlive : s.tcLive t = true) (hattached : s.attached t = true)
    (hvconnSrc : (s.tc t).vconnSrc = true) (hsrc : (s.tc t).src = true) (hepr : (s.tc t).epr = false) (hcontract : (s.tc t).contract = some o)
    (hcurr : o.curr ≤ 3000) :
    execVconnSwapReceived t s =
      .next (((((s.txClear t).tx t .accept).onTc t fun y => { y with vconn := false, vconnSrc := false }).swapEvent t 3 0).pathNote s.pathByte) := by
  refine (onPd_live hlive).trans ?_
  simp [hattached, hvconnSrc, hsrc, hepr, hcontract, Nat.not_lt.2 hcurr]

/-- Settles O40: one lemma per command. -/
theorem sourcePdCompletes : Obligations.SourcePdCompletes :=
  ⟨execCableDiscovery_completes, execSourceCapabilitiesUpdate_completes, execPdRequest_completes, execSinkCapabilities_completes,
    execPrSwapReceived_accepts, execDrSwapReceived_completes, execVconnSwapReceived_takes_source, execVconnSwapReceived_takes_sink,
    execVconnSwapReceived_gives, execHardResetReceived_completes, execHardResetSourceRestore_removes, execHardResetSourceRestore_restores,
    execPrSwapNoAnswer_completes, execSecurityResponse_completes, execPrSwapReceived_rejects, execVconnSwapReceived_rejects_current,
    execVconnSwapReceived_rejects_epr, execVconnSwapReceived_gives_contract⟩

end Sys2Proof.Machine
end

section
/-! PROOFS. The PD messages that the module answers. -/
namespace Sys2Proof.Machine

set_option Elab.async false
open Sys2Proof.Safety

/-- A message of data whose bytes no rule gives is told to an attached port. -/
theorem tellData_attached {s : State} {t : TcId} {m : List Byte → PdMsg} (hlive : s.tcLive t = true) (hattached : s.attached t = true) :
    s.tellData t m = .next ((((s.txClear t).tx t (m (Config.freeBytes s.free))).useFree 1).pathNote s.pathByte) := by
  have hatt : (s.txClear t).attached t = true := by simpa using hattached
  refine (onPd_when hlive (by exact hatt)).trans ?_
  rw [txClear_free]

theorem execGetSourceCap_completes (t : TcId) (s : State) (hlive : s.tcLive t = true) (hattached : s.attached t = true) (hsrc : (s.tc t).src = true) :
    execGetSourceCap t s = .next (((s.txClear t).sendCaps t).pathNote s.pathByte) := by
  refine (onPd_when hlive (by simpa using hattached)).trans ?_
  rw [txClear_tc, hsrc, if_pos rfl]

theorem execGetSinkCap_completes (t : TcId) (s : State) (hlive : s.tcLive t = true) (hattached : s.attached t = true) :
    execGetSinkCap t s = .next ((((s.txClear t).tx t (.sinkCaps ((s.txClear t).sinkCaps t) 0)).useFree 5).pathNote s.pathByte) :=
  onPd_when hlive (by simp [hattached])

theorem execGetSourceCapExtended_completes (t : TcId) (s : State) (hlive : s.tcLive t = true) (hattached : s.attached t = true) :
    execGetSourceCapExtended t s = .next ((((s.txClear t).tx t (.sourceCapsExt (Config.freeBytes s.free))).useFree 1).pathNote s.pathByte) :=
  tellData_attached hlive hattached

theorem execGetStatus_completes (t : TcId) (s : State) (hlive : s.tcLive t = true) (hattached : s.attached t = true) :
    execGetStatus t s = .next ((((s.txClear t).tx t (.status (Config.freeBytes s.free))).useFree 1).pathNote s.pathByte) :=
  tellData_attached hlive hattached

theorem execGetRevision_completes (t : TcId) (s : State) (hlive : s.tcLive t = true) (hattached : s.attached t = true) :
    execGetRevision t s = .next ((((s.txClear t).tx t (.revision (Config.freeBytes s.free))).useFree 1).pathNote s.pathByte) :=
  tellData_attached hlive hattached

theorem execGetManufacturerInfo_completes (t : TcId) (s : State) (hlive : s.tcLive t = true) (hattached : s.attached t = true) :
    execGetManufacturerInfo t s = .next ((((s.txClear t).tx t (.manufacturer (Config.freeBytes s.free))).useFree 1).pathNote s.pathByte) :=
  tellData_attached hlive hattached

theorem execGetBatteryCap_completes (t : TcId) (s : State) (hlive : s.tcLive t = true) (hattached : s.attached t = true) :
    execGetBatteryCap t s = .next (((s.txClear t).tx t (.batteryCap (s.txClear t).cap)).pathNote s.pathByte) := onPd_when hlive (by simp [hattached])

theorem execGetBatteryStatus_completes (t : TcId) (s : State) (hlive : s.tcLive t = true) (hattached : s.attached t = true) :
    execGetBatteryStatus t s = .next (((s.txClear t).tx t (.batteryStatus (quo ((s.txClear t).cap * (s.txClear t).meanSoc) 10000))).pathNote s.pathByte) :=
  onPd_when hlive (by simp [hattached])

theorem execAlert_completes (t : TcId) (ado : BitVec 32) (s : State) (hlive : s.tcLive t = true) (hattached : s.attached t = true) :
    execAlert t ado s = .next ((((s.txClear t).tx t .getStatus).tcEvent t Ev.pdAlert (le 4 ado.toNat)).pathNote s.pathByte) :=
  onPd_when hlive (by simp [hattached])

theorem execSoftReset_completes (t : TcId) (s : State) (hlive : s.tcLive t = true) (hattached : s.attached t = true) (hsrc : (s.tc t).src = false) :
    execSoftReset t s =
      .next ((((s.txClear t).tx t .accept).onTc t fun y => { y with req := none, trans := none, retries := 0, waitDue := false, offers := [], srcOffered := [], capsWait := false }).pathNote s.pathByte) := by
  refine (onPd_when hlive (by simpa using hattached)).trans ?_
  rw [txClear_tc, hsrc]
  rfl

theorem execDiscoverIdentity_completes (t : TcId) (s : State) (hlive : s.tcLive t = true) (hattached : s.attached t = true) :
    execDiscoverIdentity t s =
      .next ((((s.txClear t).tx t (.vdm [0xFF00A041#32, BitVec.ofNat 32 ((s.txClear t).freeN 0 % 2 ^ 30)])).useFree 1).pathNote s.pathByte) :=
  onPd_when hlive (by simp [hattached])

theorem execUnsupportedVdm_completes (t : TcId) (s : State) (hlive : s.tcLive t = true) (hattached : s.attached t = true) :
    execUnsupportedVdm t s = .next (((s.txClear t).tx t .notSupported).pathNote s.pathByte) := onPd_when hlive (by simp [hattached])

theorem execSecurityRequest_completes (t : TcId) (kind : BitVec 8) (slot : Nat) (body : List (BitVec 8)) (s : State) (hlive : s.tcLive t = true)
    (hattached : s.attached t = true) :
    execSecurityRequest t kind slot body s =
      .next ((((s.txClear t).tx t (.security ((s.txClear t).securityAnswer kind.toNat slot body))).useFree 3).pathNote s.pathByte) :=
  onPd_when hlive (by simp [hattached])

theorem execBist_completes (t : TcId) (carrier : Bool) (mv : Nat) (s : State) (hlive : s.tcLive t = true) (hattached : s.attached t = true)
    (hmv : 4750 ≤ mv) (hmv2 : mv ≤ 5500) :
    execBist t carrier mv s =
      .next ((((s.txClear t).onTc t fun y => { y with bist := true }).tx t (if carrier then .bistCarrier else .bistTest)).pathNote s.pathByte) :=
  onPd_when hlive (by simp [hattached, hmv, hmv2])

/-- Settles O41: one lemma per command. -/
theorem pdAnswersComplete : Obligations.PdAnswersComplete :=
  ⟨execGetSourceCap_completes, execGetSinkCap_completes, execGetSourceCapExtended_completes, execGetStatus_completes,
    execGetRevision_completes, execGetManufacturerInfo_completes, execGetBatteryCap_completes, execGetBatteryStatus_completes,
    execAlert_completes, execSoftReset_completes, execDiscoverIdentity_completes, execUnsupportedVdm_completes,
    execSecurityRequest_completes, execBist_completes⟩

end Sys2Proof.Machine
end

section
/-! PROOFS. The events and commands of the power sequencer. -/
namespace Sys2Proof.Machine

set_option Elab.async false
open Sys2Proof.Safety

theorem execOnDelayExpiry_waits (r : Nat) (s : State) (hst : s.seq.st = .up) (hwaitOn : s.seq.waitOn = true) (hstepRail : s.stepRail = some r)
    (hfenced : s.seq.fenced.getLsbD r = false) (hwait : s.seq.good.getLsbD r = false ∨ (r = 2 ∧ s.seq.aux2Moving = true) ∨ slotPgIgn s.seq.cur = true) :
    execOnDelayExpiry s =
      .next (s.onSeq fun q => { q with waitOn := false, waitGood := true, on := setBit q.on r true, outHigh := if r < 4 then setBit q.outHigh r false else q.outHigh }) := by
  have hgo : (s.seq.good.getLsbD r && !(r == 2 && s.seq.aux2Moving) && !slotPgIgn s.seq.cur) = false := by
    rcases hwait with h | ⟨rfl, h⟩ | h <;> rw [h] <;> simp
  unfold execOnDelayExpiry
  rw [if_pos (by rw [hst, hwaitOn]; rfl), hstepRail]
  dsimp only
  rw [hfenced, if_neg Bool.false_ne_true]
  exact next_when_neg hgo

theorem execOnDelayExpiry_steps (r : Nat) (s : State) (hst : s.seq.st = .up) (hwaitOn : s.seq.waitOn = true) (hstepRail : s.stepRail = some r)
    (hfenced : s.seq.fenced.getLsbD r = false) (hgood : s.seq.good.getLsbD r = true) (hmoving : r = 2 → s.seq.aux2Moving = false)
    (hcur : slotPgIgn s.seq.cur = false) :
    execOnDelayExpiry s =
      .next ((s.onSeq fun q => { q with waitOn := false, waitGood := true, on := setBit q.on r true, outHigh := if r < 4 then setBit q.outHigh r false else q.outHigh }).upStep) := by
  have hmoved : (r == 2 && s.seq.aux2Moving) = false := by
    by_cases h : r = 2
    · rw [hmoving h, Bool.and_false]
    · rw [beq_eq_false_iff_ne.2 h, Bool.false_and]
  unfold execOnDelayExpiry
  rw [if_pos (by rw [hst, hwaitOn]; rfl), hstepRail]
  dsimp only
  rw [hfenced, if_neg Bool.false_ne_true]
  refine next_when ?_
  show (s.seq.good.getLsbD r && !(r == 2 && s.seq.aux2Moving) && !slotPgIgn s.seq.cur) = true
  rw [hgood, hmoved, hcur]
  rfl

theorem execRailGood_completes (r : Fin 8) (s : State) (hon : s.seq.on.getLsbD r.val = true) (haux : r.val ≠ 2) (hst : s.seq.st = .up)
    (hwaitGood : s.seq.waitGood = true) (hslotIs : s.slotIs r.val = true) (hcur : slotPgIgn s.seq.cur = false) :
    execRailGood r s = .next ((s.setGood r.val true).upStep) := by
  refine congrArg Host.Outcome.next ?_
  unfold State.railGood
  rw [if_neg (by rw [hon, beq_eq_false_iff_ne.2 haux, Bool.false_and]; decide)]
  dsimp only
  rw [if_pos (by rw [hst, hwaitGood, hslotIs, hcur]; rfl)]

theorem execUpTimeout_ignored (s : State) (hst : s.seq.st = .up) (hwaitGood : s.seq.waitGood = true) (hcur : slotPgIgn s.seq.cur = true) :
    execUpTimeout s = .next s.upStep := by simp [execUpTimeout, hst, hwaitGood, hcur]

theorem execUpTimeout_fails (s : State) (hst : s.seq.st = .up) (hwaitGood : s.seq.waitGood = true) (hcur : slotPgIgn s.seq.cur = false)
    (hfresh : fresh s Cause.upTimeout) :
    execUpTimeout s = .next (awaits (s.onSeq fun q => { q with waitGood := false, waitRe := true }) s.stepSrc Cause.upTimeout) := by
  unfold execUpTimeout
  rw [if_pos (by rw [hst, hwaitGood]; rfl), hcur, if_neg Bool.false_ne_true]
  exact congrArg Host.Outcome.next (failNote_fresh (s := s.onSeq _) hfresh)

theorem execNobatSupplyReturn_completes (s : State) (hrsn : s.seq.rsn = 5) (hst : s.seq.st = .off) (hregBit : s.regBit 0x01E0 1 = true)
    (hanySink : s.anySink = true) :
    execNobatSupplyReturn s = .next (s.upRequest 0x02) := next_when (by simp [hrsn, hst, hregBit, hanySink])

theorem execRailFault_completes (r : Fin 8) (s : State) (hon : s.seq.on.getLsbD r.val = true) (hrunning : s.seq.running.getLsbD r.val = true)
    (haux : r.val ≠ 2) (hpgIgnored : s.pgIgnored r.val = false) :
    execRailFault r s = .next ((s.setGood r.val false).checkerFail (Src.rail r.val) Cause.railFault) := by
  refine congrArg Host.Outcome.next ?_
  unfold State.railFell
  rw [if_neg (by rw [hon, hrunning, beq_eq_false_iff_ne.2 haux, Bool.false_and]; decide), hpgIgnored, if_neg Bool.false_ne_true, checkerFail_soft (by decide)]

theorem execTpfwExpiry_completes (s : State) (htpfwRun : s.seq.tpfwRun = true) (hst : s.seq.st = .warning) :
    execTpfwExpiry s = .next (((s.onSeq fun q => { q with tpfwRun := false }).startDown s.seq.rsn.toNat).shipCheck) :=
  by simp [execTpfwExpiry, htpfwRun, hst]

theorem execRailFallDone_completes (r : Fin 8) (s : State) (hr : r.val < 4) (hon : s.seq.on.getLsbD r.val = false) (hst : s.seq.st = .down)
    (hwaitFall : s.seq.waitFall = true) (hslotIs : s.slotIs r.val = true) :
    execRailFallDone r s = .next (((s.onSeq fun q => { q with outHigh := setBit q.outHigh r.val false }).downStep).shipCheck) := by
  unfold execRailFallDone
  rw [if_pos (by rw [decide_eq_true hr, hon]; rfl)]
  dsimp only
  rw [if_pos (by rw [hst, hwaitFall, hslotIs]; rfl)]

theorem execFallTimeout_completes (r : Nat) (s : State) (hst : s.seq.st = .down) (hwaitFall : s.seq.waitFall = true) (hstepRail : s.stepRail = some r)
    (houtHigh : s.seq.outHigh.getLsbD r = false) :
    execFallTimeout s = .next ((s.downStep).shipCheck) := by
  unfold execFallTimeout
  rw [if_pos (by rw [hst, hwaitFall]; rfl), hstepRail]
  dsimp only [Option.getD_some]
  rw [when_neg houtHigh]

theorem execOffDelayExpiry_completes (s : State) (hst : s.seq.st = .down) (hwaitOff : s.seq.waitOff = true) :
    execOffDelayExpiry s = .next ((s.downStep).shipCheck) := by simp [execOffDelayExpiry, hst, hwaitOff]

theorem execAux2MoveDone_completes (s : State) (haux2Moving : s.seq.aux2Moving = true) :
    execAux2MoveDone true s = .next ((s.onSeq fun q => { q with aux2Moving := false }).railGood 2) := if_pos (by simp [haux2Moving])

theorem execNrstoRelease_completes (s : State) (hnrstDue : s.seq.nrstDue = true) :
    execNrstoRelease s = .next (s.onSeq fun q => { q with nrstDue := false, nrstSeq := false }) := next_when (by simp [hnrstDue])

theorem execNrstoPulseEnd_completes (s : State) :
    execNrstoPulseEnd s = .next (s.onSeq fun q => { q with nrstPulse := false }) := rfl

theorem execSeqUp_completes (n : Fin 4) (s : State) (hready : ready s n 0x0601 1) (hfld0 : s.fld n.val 0 1 ≤ 1) :
    execSeqUp n s = .next ((begun s n).seqUpCmd n) := next_carry hready (by decide) (by simp [hfld0])

theorem execSeqDown_completes (n : Fin 4) (s : State) (hready : ready s n 0x0602 0) :
    execSeqDown n s = .next ((begun s n).seqDownCmd n) := next_carry hready (by decide) rfl

theorem execNrstPulse_completes (n : Fin 4) (s : State) (hready : ready s n 0x0603 0) :
    execNrstPulse n s = .next (((begun s n).nrstoPulse 0x03).finish n.val St.ok) := next_carry hready (by decide) rfl

theorem execLogRead_completes (n : Fin 4) (s : State) (hready : ready s n 0x0604 5) (hfld4 : 1 ≤ s.fld n.val 4 1) (hfld42 : s.fld n.val 4 1 ≤ 3) :
    execLogRead n s = .next ((begun s n).finish n.val St.ok ((begun s n).logData (s.fld n.val 0 4) (s.fld n.val 4 1))) :=
  next_carry hready (by decide) (by simp [hfld4, hfld42])

/-- Settles O42: one lemma per command. -/
theorem sequencerCompletes : Obligations.SequencerCompletes :=
  ⟨execOnDelayExpiry_waits, execOnDelayExpiry_steps, execRailGood_completes, execUpTimeout_ignored, execUpTimeout_fails,
    execNobatSupplyReturn_completes, execRailFault_completes, execTpfwExpiry_completes, execRailFallDone_completes,
    execFallTimeout_completes, execOffDelayExpiry_completes, execAux2MoveDone_completes, execNrstoRelease_completes,
    execNrstoPulseEnd_completes, execSeqUp_completes, execSeqDown_completes, execNrstPulse_completes, execLogRead_completes⟩

end Sys2Proof.Machine
end

section
/-! PROOFS. The hardware checkers (R317, R325). -/
namespace Sys2Proof.Machine

set_option Elab.async false
open Sys2Proof.Safety

theorem execGateSupply_completes (q : Fin 2) (s : State) (hquadOn : s.quadOn q.val = true) :
    execGateSupply q s = .next (s.checkerFail (Src.quad q.val) Cause.gateSupply) := next_when (by simp [hquadOn])

theorem execQuadSensor_completes (q : Fin 2) (s : State) (hquadOn : s.quadOn q.val = true) (hfresh : fresh s Cause.quadSensor) :
    execQuadSensor q s = .next (awaits s (Src.quad q.val) Cause.quadSensor) := next_when_failNote hfresh (by simp [hquadOn])

theorem execSampleFault_completes (p : PortId) (s : State) (hportFenced : s.portFenced p = false) (hfresh : fresh s Cause.sampleFault) :
    execSampleFault p false s = .next (awaits s (Src.port p) Cause.sampleFault) := next_when_failNote hfresh (by simp [hportFenced])

theorem execVbusSwitch_completes (t : TcId) (s : State) (htcPort : s.portFenced (tcPort t) = false) (hfresh : fresh s Cause.vbusSwitch) :
    execVbusSwitch t s = .next (awaits s (Src.tc t) Cause.vbusSwitch) := next_when_failNote hfresh (by simp [htcPort])

theorem execPortOv_completes (p : PortId) (mv : Nat) (s : State) (hmv : s.portOver p mv = true) :
    execPortOv p mv s = .next ((s.checkerFail (Src.port p) Cause.portOv mv).pathNote s.pathByte) := settle_when (by simp [hmv])

theorem execPcReverse_completes (ma : Nat) (s : State) (hma : 500 < ma) :
    execPcReverse ma s = .next ((s.checkerFail (Src.port .pc) Cause.pcReverse ma).pathNote s.pathByte) := settle_when (by simp [hma])

theorem execBatswOc_completes (ma : Nat) (s : State) (hma : 60000 < ma) :
    execBatswOc ma s = .next ((s.checkerFail Src.batsw Cause.batswOc ma).pathNote s.pathByte) := settle_when (by simp [hma])

theorem execLockstep_completes (s : State) (hcpuOn : s.cpuOn = true) (hfresh : fresh s Cause.lockstep) :
    execLockstep s = .next (awaits s Src.lockstep Cause.lockstep) := next_when_failNote hfresh (by simp [hcpuOn])

theorem execNvmEcc_completes (s : State) (hcpuOn : s.cpuOn = true) (hfresh : fresh s Cause.nvmEcc) :
    execNvmEcc s = .next (awaits s Src.nvm Cause.nvmEcc) := next_when_failNote hfresh (by simp [hcpuOn])

theorem execSramEcc1_completes (s : State) (hcpuOn : s.cpuOn = true) (hfresh : fresh s Cause.sramEcc1) :
    execSramEcc1 s = .next (awaits s Src.sram Cause.sramEcc1) := next_when_failNote hfresh (by simp [hcpuOn])

theorem execSramEcc2_completes (s : State) (hcpuOn : s.cpuOn = true) (hfresh : fresh s Cause.sramEcc2) :
    execSramEcc2 s = .next (awaits s Src.sram Cause.sramEcc2) := next_when_failNote hfresh (by simp [hcpuOn])

theorem execRetParity_completes (item : Fin 14) (s : State) (hfresh : fresh s Cause.retParity) :
    execRetParity item s = .next (awaits s Src.sram Cause.retParity 0xFFFFFFFF (some item)) := congrArg Host.Outcome.next (failNote_fresh hfresh)

/-- Settles O43: one lemma per command. -/
theorem checkersComplete : Obligations.CheckersComplete :=
  ⟨execGateSupply_completes, execQuadSensor_completes, execSampleFault_completes, execVbusSwitch_completes, execPortOv_completes,
    execPcReverse_completes, execBatswOc_completes, execLockstep_completes, execNvmEcc_completes, execSramEcc1_completes,
    execSramEcc2_completes, execRetParity_completes⟩

end Sys2Proof.Machine
end

section
/-! PROOFS. Second evaluation, the ends of HOLD, capture, injection and the fault commands (R317 to R343). -/
namespace Sys2Proof.Machine

set_option Elab.async false
open Sys2Proof.Safety

theorem execSecondEvaluation_completes (source cause : BitVec 16) (passes : Bool) (p : PendFail) (s : State)
    (hpend : (s.flt.pend.find? fun y => y.source == source && y.cause == cause) = some p) :
    execSecondEvaluation source cause passes s = .next (((s.taskRan .sorrel).evaluate p passes).pathNote s.pathByte) := by
  unfold execSecondEvaluation
  rw [hpend]
  rfl

theorem execQuietPeriodEnd_completes (failing : List (Nat × Nat)) (s : State) (hhold : s.flt.hold = true) (hfw : s.sys.fwRun = true)
    (hautoOk : s.autoOk = true) (hquietLen : s.flt.quietAt + 1000 * s.flt.quietLen ≤ s.now) (hpass : s.causesPass failing = true) :
    execQuietPeriodEnd failing s = .next ((s.holdExit 0).pathNote s.pathByte) := by
  refine congrArg (settle s) ?_
  unfold State.quietEnd
  rw [if_neg (by rw [hhold, hfw, hautoOk]; simpa using hquietLen), if_pos hpass]

theorem execHoldRel_completes (bp : BusPort) (c v : Byte) (single : Bool) (failing : List (Nat × Nat)) (s : State)
    (hpair : pairOk s bp 0x4E c single v) (hrel : v.getLsbD 0 = true) :
    execHoldRel bp c single failing s =
      .next ((if ((pairDone s bp 0x4E).holdRelease bp failing).2 then ((pairDone s bp 0x4E).holdRelease bp failing).1 else ((pairDone s bp 0x4E).holdRelease bp failing).1.guardFail bp).pathNote s.pathByte) :=
  (settle_guardPair hpair).trans (congrArg (settle s) (when_pos hrel))

theorem execFecCapture_completes (addr : BitVec 32) (init access : BitVec 8) (cause : BitVec 16) (s : State) (hcpuOn : s.cpuOn = true)
    (hfec : s.flt.fec = none) :
    execFecCapture addr init access cause s =
      .next ((s.onFlt fun x => { x with fec := some { addr := addr, stamp := s.stamp, init := init, access := access &&& 0x1F, cause := cause } }).raise Src.sorrel Ev.fecCapture ([init, access &&& 0x1F] ++ le 2 cause.toNat)) := by
  refine (next_when hcpuOn).trans (congrArg Host.Outcome.next ?_)
  unfold State.fecTake
  rw [hfec]

theorem execFinj_completes (c v : Byte) (single : Bool) (s : State) (hpair : pairOk s .host 0x4C c single v) :
    execFinj c single s = .next ((pairDone s .host 0x4C).finjWrite v) := next_guardPair hpair

theorem execTestWordRead_completes (s : State) (hfw : s.sys.fwRun = true) (hinjArm : s.grd.injArm = true) (hinjRemain : s.grd.injRemain ≠ 0)
    (hinjTarget : s.grd.injTarget ≤ 4) :
    execTestWordRead s = .next (s.injectedCheck (if s.grd.injTarget = 3 then Src.nvm else Src.sram) (injCause s.grd.injTarget)) :=
  next_when (by simp [hfw, hinjArm, hinjRemain, hinjTarget])

theorem execFaultQuery_completes (n : Fin 4) (s : State) (hready : ready s n 0x0701 0) :
    execFaultQuery n s =
      .next ((begun s n).finish n.val St.ok (le 4 s.flt.fence.toNat ++ [BitVec.ofNat 8 s.flt.recs.length] ++ le 2 s.flt.lost ++ le 2 s.flt.lfLost ++ le 2 s.flt.recCnt ++ [BitVec.ofNat 8 (s.nvm.lfRing.filter fun r => !r.torn).length])) :=
  next_query hready

theorem execRecGet_completes (n : Fin 4) (s : State) (hready : ready s n 0x0702 2) (hfld0 : s.fld n.val 0 1 ≤ 23) (hfld1 : 1 ≤ s.fld n.val 1 1)
    (hfld12 : s.fld n.val 1 1 ≤ 7) :
    execRecGet n s =
      .next (((begun s n).finish n.val St.ok (BitVec.ofNat 8 (((s.flt.recs.foldr recByNo []).drop (s.fld n.val 0 1)).take (s.fld n.val 1 1)).length :: (((s.flt.recs.foldr recByNo []).drop (s.fld n.val 0 1)).take (s.fld n.val 1 1)).flatMap fun r => if r.bad then St.nvmFail :: (begun s n).badBytes 32 else 0 :: faultBytes r)).useFree 32) :=
  next_carry hready (by decide) (by simp [hfld0, hfld1, hfld12])

theorem execLfGet_completes (n : Fin 4) (s : State) (hready : ready s n 0x0703 2) (hfld0 : s.fld n.val 0 1 < s.lfList.length)
    (hfld1 : s.fld n.val 1 1 ≤ 1) :
    execLfGet n s =
      .next ((begun s n).finish n.val St.ok ([BitVec.ofNat 8 s.lfList.length, BitVec.ofNat 8 (s.fld n.val 1 1)] ++ ((s.lfList.getD (s.fld n.val 0 1) {}).bytes.drop (128 * s.fld n.val 1 1)).take 128)) :=
  next_carry hready (by decide) (by simp [hfld0, hfld1])

theorem execFaultClear_completes (n : Fin 4) (s : State) (hready : ready s n 0x0704 2) (hguard : s.fld n.val 0 2 = inv16 0x0704)
    (hhold : s.flt.hold = false) :
    execFaultClear n s = .next (((begun s n).onFlt fun f => { f with recs := [], compound := false }).finish n.val St.ok) :=
  (next_carry_guarded hready (by decide) hguard rfl).trans (congrArg Host.Outcome.next (if_neg (by rw [show (begun s n).flt.hold = false from hhold]; decide)))

theorem execRelease_completes (n : Fin 4) (failing : List (Nat × Nat)) (s : State) (hready : ready s n 0x0705 0) (hmode : s.sys.mode = .hold)
    (hpass : (begun s n).causesPass failing = true) (hfuseLive : s.grd.fuseLive.getLsbD 2 = false) :
    execRelease n failing s = .next (((((begun s n).holdExit 1).onGrd fun g => { g with relref := false }).finish n.val St.ok).pathNote s.pathByte) := by
  have hmode' : (begun s n).sys.mode = .hold := by rw [begun_sys]; exact hmode
  have hfuse : (begun s n).grd.fuseLive.getLsbD 2 = false := by rw [begun_grd]; exact hfuseLive
  refine (settle_carry hready (by decide) rfl).trans ?_
  unfold State.holdRelease
  rw [if_pos (by rw [hmode', hpass, hfuse]; rfl)]
  rfl

theorem execUnfence_one (n : Fin 4) (s : State) (hready : ready s n 0x0706 3) (hguard : s.fld n.val 1 2 = inv16 0x0706) (hfld0 : s.fld n.val 0 1 ≤ 25) :
    execUnfence n s = .next ((((begun s n).liftFence (s.fld n.val 0 1)).finish n.val St.ok).pathNote s.pathByte) := by
  refine (settle_carry_guarded hready (by decide) hguard (by rw [decide_eq_true hfld0]; rfl)).trans ?_
  rw [if_neg (by omega)]

theorem execUnfence_all (n : Fin 4) (s : State) (hready : ready s n 0x0706 3) (hguard : s.fld n.val 1 2 = inv16 0x0706)
    (hfld0 : s.fld n.val 0 1 = 0xFF) :
    execUnfence n s = .next ((((List.range 26).foldl State.liftFence (begun s n)).finish n.val St.ok).pathNote s.pathByte) := by
  refine (settle_carry_guarded hready (by decide) hguard (by rw [hfld0]; rfl)).trans ?_
  rw [if_pos hfld0]

theorem execFcntClear_completes (n : Fin 4) (s : State) (hready : ready s n 0x0707 1) (hfld0 : s.fld n.val 0 1 ≤ 7) :
    ∃ t u : State, execFcntClear n s = .next t ∧ t = u.finish n.val St.ok ∧ u.flt.recCnt = (if (s.fld n.val 0 1).testBit 0 then 0 else s.flt.recCnt)
      ∧ u.flt.lost = (if (s.fld n.val 0 1).testBit 1 then 0 else s.flt.lost)
      ∧ u.flt.lfLost = (if (s.fld n.val 0 1).testBit 2 then 0 else s.flt.lfLost) :=
  ⟨_, _, next_carry hready (by decide) (decide_eq_true hfld0), rfl, rfl, rfl, rfl⟩

theorem execFecGet_completes (n : Fin 4) (f : FecRec) (s : State) (hready : ready s n 0x0708 1) (hfld0 : s.fld n.val 0 1 = 1)
    (hfec : s.flt.fec = some f) :
    execFecGet n s = .next (((begun s n).onFlt fun x => { x with fec := none, satf := setBit x.satf 2 false }).finish n.val St.ok (1 :: fecBytes f)) := by
  refine (next_carry hready (by decide) (by rw [hfld0]; rfl)).trans ?_
  rw [show (begun s n).flt.fec = some f from hfec, hfld0]
  rfl

/-- Settles O44: one lemma per command. -/
theorem faultCommandsComplete : Obligations.FaultCommandsComplete :=
  ⟨execSecondEvaluation_completes, execQuietPeriodEnd_completes, execHoldRel_completes, execFecCapture_completes, execFinj_completes,
    execTestWordRead_completes, execFaultQuery_completes, execRecGet_completes, execLfGet_completes, execFaultClear_completes,
    execRelease_completes, execUnfence_one, execUnfence_all, execFcntClear_completes, execFecGet_completes⟩

end Sys2Proof.Machine
end

section
/-! PROOFS. The commands of the watchdogs (R345 to R363). -/
namespace Sys2Proof.Machine

set_option Elab.async false
open Sys2Proof.Safety

theorem execWdgBootPeriodEnd_completes (s : State) (hrun : s.wd.run = .boot) (hhalted : s.sys.halted = false) :
    execWdgBootPeriodEnd s = .next ((s.wdgExpire 3 0xFF).pathNote s.pathByte) := if_pos (by simp [hrun, hhalted])

theorem execWdgCheckinCall_completes (k : FwTask) (s : State) (hrun : s.wd.run = .normal) (hfw : s.sys.fwRun = true)
    (hbeat : (s.qs.inbox.getD (taskIdx k) []).contains .heartbeat = true) (hcalled : s.wd.called.getLsbD (taskIdx k) = false)
    (htick : s.wd.tick < s.wdgOpenAt) :
    execWdgCheckinCall k s =
      .next ((((s.onWd fun w => { w with called := setBit w.called (taskIdx k) true }).onFlt fun f => { f with taskOnce := setBit f.taskOnce (taskIdx k) false }).onQs fun q => { q with inbox := q.inbox.set (taskIdx k) (dropBeat (q.inbox.getD (taskIdx k) [])) }).onWd fun w => { w with heldm := setBit w.heldm (taskIdx k) true }) := by
  unfold execWdgCheckinCall
  dsimp only
  rw [hrun, hfw, hbeat, hcalled, if_neg (by decide), if_neg Bool.false_ne_true, if_pos htick]

theorem execWdgWindowOpen_completes (s : State) (hrun : s.wd.run = .normal) (hhalted : s.sys.halted = false) :
    execWdgWindowOpen s = .next (((s.onWd fun w => { w with tick := max w.tick s.wdgOpenAt, heldm := 0 }).wdgWrite s.wd.heldm).pathNote s.pathByte) :=
  if_pos (by simp [hrun, hhalted])

theorem execWdgCheckinWrite_completes (mask : BitVec 6) (s : State) (hrun : s.wd.run = .normal) (hmask : mask ≠ 0) (hhalted : s.sys.halted = false)
    (hopen : s.wdgOpenAt ≤ s.wd.tick) (hclose : s.wd.tick < 1000 * s.wd.per) (hmore : s.wd.landed ||| mask ≠ 0x3F) :
    execWdgCheckinWrite mask none s =
      .next (((s.wdgDup (pop6 (mask &&& s.wd.landed))).onWd fun w => { w with landed := w.landed ||| mask }).pathNote s.pathByte) := by
  obtain ⟨hlanded, -, -⟩ := wdgDup_period (s := s) (pop6 (mask &&& s.wd.landed))
  refine congrArg (settle s) ((if_neg hmask).trans ?_)
  rw [wdgWrite_open hrun hhalted hmask hopen hclose]
  dsimp only
  rw [onWd_wd, hlanded, if_neg hmore]

theorem execWdgLate_completes (s : State) (hrun : s.wd.run = .normal) (hhalted : s.sys.halted = false) :
    execWdgLate s = .next ((s.wdgExpire 1 0xFF).pathNote s.pathByte) := if_pos (by simp [hrun, hhalted])

theorem execWdoPulseEnd_completes (s : State) :
    execWdoPulseEnd s = .next (s.onWd fun w => { w with wdoPulse := false }) := rfl

theorem execWdgCfg_completes (c v : Byte) (single : Bool) (s : State) (hpair : pairOk s .host 0x50 c single v) :
    execWdgCfg c single s = .next ((pairDone s .host 0x50).onGrd fun g => { g with wdgEn := v.getLsbD 0 }) := next_guardPair hpair

theorem execWdgPer_completes (c v : Byte) (single : Bool) (s : State) (hpair : pairOk s .host 0x51 c single v) (hlow : 5 ≤ v.toNat % 128)
    (hhigh : v.toNat % 128 ≤ 100) :
    execWdgPer c single s = .next ((pairDone s .host 0x51).onGrd fun g => { g with wdgPer := v.toNat % 128 }) :=
  (next_guardPair hpair).trans (congrArg Host.Outcome.next (if_pos ⟨hlow, hhigh⟩))

theorem execHcwKick_completes (bp : BusPort) (v : BitVec 8) (s : State) (hbp : s.busUp bp = true) :
    execHcwKick bp v s = .next ((s.wrote bp 0x24).hcwKick bp v) := next_when (by simp [hbp])

theorem execHcwExpiry_completes (s : State) (hfw : s.sys.fwRun = true) (hhRun : s.wd.hRun = true) (hhExp : s.wd.hExp = false)
    (hhDead : s.wd.hDead ≤ s.now) :
    execHcwExpiry s = .next s.hcwExpire := next_when (by simp [hfw, hhRun, hhExp, hhDead])

theorem execDebugHalt_completes (halt : Bool) (s : State) (hfuse : s.grd.fuse.getLsbD 4 = false) :
    execDebugHalt halt s =
      .next (((if halt then (s.onSys fun y => { y with halted := halt, fwRun := y.fwUp && !halt }).logCut else (s.onSys fun y => { y with halted := halt, fwRun := y.fwUp && !halt }).when (s.sys.fwUp && !halt) State.fwResume)).pathNote s.pathByte) := by
  unfold execDebugHalt
  rw [if_neg (by rw [hfuse]; decide)]
  rfl

theorem execWdgQuery_completes (n : Fin 4) (s : State) (hready : ready s n 0x0A01 0) :
    execWdgQuery n s =
      .next ((begun s n).finish n.val St.ok ([s.wdgStat, BitVec.ofNat 8 s.grd.wdgPer] ++ le 2 s.wd.rst ++ le 2 s.wd.dup ++ [BitVec.ofNat 8 s.wd.evid.length] ++ le 2 s.hcwLeft)) :=
  next_query hready

theorem execEvidGet_completes (n : Fin 4) (s : State) (hready : ready s n 0x0A02 0) :
    execEvidGet n s =
      .next (((begun s n).finish n.val St.ok (BitVec.ofNat 8 s.wd.evid.length :: s.wd.evid.reverse.flatMap fun e => if e.bad then St.nvmFail :: (begun s n).badBytes 16 else 0 :: evidBytes e)).useFree 16) := by
  unfold execEvidGet
  rw [query_ready hready]
  rfl

theorem execWcntClear_completes (n : Fin 4) (s : State) (hready : ready s n 0x0A03 1) (hfld0 : s.fld n.val 0 1 ≤ 3) :
    execWcntClear n s =
      .next (((begun s n).onWd fun w => { w with rst := if (s.fld n.val 0 1).testBit 0 then 0 else w.rst, rstSat := w.rstSat && !(s.fld n.val 0 1).testBit 0, dup := if (s.fld n.val 0 1).testBit 1 then 0 else w.dup, dupSat := w.dupSat && !(s.fld n.val 0 1).testBit 1 }).finish n.val St.ok) :=
  next_carry hready (by decide) (by simp [hfld0])

/-- Settles O45: one lemma per command. -/
theorem watchdogCompletes : Obligations.WatchdogCompletes :=
  ⟨execWdgBootPeriodEnd_completes, execWdgCheckinCall_completes, execWdgWindowOpen_completes, execWdgCheckinWrite_completes,
    execWdgLate_completes, execWdoPulseEnd_completes, execWdgCfg_completes, execWdgPer_completes, execHcwKick_completes,
    execHcwExpiry_completes, execDebugHalt_completes, execWdgQuery_completes, execEvidGet_completes, execWcntClear_completes⟩

end Sys2Proof.Machine
end

section
/-! PROOFS. The commands of the host interface (R365 to R393). -/
namespace Sys2Proof.Machine

set_option Elab.async false
open Sys2Proof.Safety

/-! ## Reads through the ports (R380, R381) -/

section
variable {s : State} {bp : BusPort}

theorem rcAddr_of_ge {a : Nat} (h : 0x0100 ≤ a) : rcAddr a = false := by
  rw [← Bool.not_eq_true, rcAddr_iff]
  omega

/-- A read of the control region is served from the line of the page (R380). -/
theorem readByte_control (hlo : 0x0100 ≤ (s.port bp).ptr) (hhi : (s.port bp).ptr < 0x0400) : s.readByte bp = s.readLine bp := by
  unfold State.readByte
  dsimp only
  rw [rcAddr_of_ge hlo, if_neg Bool.false_ne_true, if_neg (by omega), if_neg (by omega), if_pos ⟨hlo, hhi⟩]

/-- A read above the control region is served at once. -/
theorem readByte_beyond (h : 0x0400 ≤ (s.port bp).ptr) : s.readByte bp = s.driven bp (s.busRead bp (s.port bp).ptr) := by
  unfold State.readByte
  dsimp only
  rw [rcAddr_of_ge (by omega), if_neg Bool.false_ne_true, if_neg (by omega), if_neg (by omega), if_neg (by omega)]

/-- The first byte of a transfer finds no line, and the clock is stretched until one is supplied. -/
theorem readLine_none (hfw : s.sys.fwRun = true) (hff : (s.port bp).allFF = false) (hline : (s.port bp).line = none) :
    s.readLine bp = s.onPort bp fun p => { p with stretch := some ((s.port bp).ptr / 16) } := by
  unfold State.readLine
  rw [hfw, hff, hline]
  rfl

theorem onPort_onPort (f g : PortBus → PortBus) : (s.onPort bp f).onPort bp g = s.onPort bp fun p => g (f p) := by cases bp <;> rfl

theorem onPort_sys (f : PortBus → PortBus) : (s.onPort bp f).sys = s.sys := by cases bp <;> rfl

/-- A further byte of a transfer. -/
theorem execControlLineRead_next (hup : s.busUp bp = true) :
    execControlLineRead { port := bp, first := false } s = .next (s.readByte bp) := next_when hup

end

theorem execAddressMatchDormant_completes (s : State) (hrecog : s.bus.recog = true) (hdom : s.sys.dom.getLsbD 13 = false) :
    execAddressMatchDormant .host s = .next (((s.onPort .host fun p => { p with ackHold := true }).wakeFrom 0x0020).pathNote s.pathByte) := by
  unfold execAddressMatchDormant
  rw [hrecog, hdom, if_neg (by simp)]
  rfl

theorem execPointerSet_completes (bp : BusPort) (a : BitVec 16) (s : State) (hbp : s.busUp bp = true) :
    execPointerSet bp a s = .next (s.onPort bp fun p => { p with ptr := a.toNat % 4096, stretch := none, line := none, allFF := false }) :=
  next_when (by simp [hbp])

theorem execBusTimeout_completes (bp : BusPort) (s : State) (hbp : s.busUp bp = true) :
    execBusTimeout bp s = .next ((s.onPort bp fun p => { p with stretch := none, line := none, allFF := false, ackHold := false }).busFlag bp 4) :=
  next_when (by simp [hbp])

theorem execFilterApply_completes (bp : BusPort) (s : State) (hbp : s.busUp bp = true) :
    execFilterApply bp s = .next (s.onPort bp fun p => { p with filtUse := p.filt &&& 0x1F }) := next_when (by simp [hbp])

theorem execControlLineRead_first (bp : BusPort) (s : State) (hbp : s.busUp bp = true) (hlo : 0x0100 ≤ (s.port bp).ptr)
    (hhi : (s.port bp).ptr < 0x0400) (hfw : s.sys.fwRun = true) :
    execControlLineRead { port := bp, first := true } s =
      .next (s.onPort bp fun p => { p with stretch := some ((s.port bp).ptr / 16), line := none, allFF := false }) := by
  refine (next_when hbp).trans (congrArg Host.Outcome.next ?_)
  dsimp only
  rw [when_pos rfl, readByte_control (by rw [onPort_port_same]; exact hlo) (by rw [onPort_port_same]; exact hhi),
    readLine_none (by rw [onPort_sys]; exact hfw) (by rw [onPort_port_same]) (by rw [onPort_port_same]), onPort_port_same, onPort_onPort]

theorem execLineSupplied_completes (bp : BusPort) (l : Nat) (s : State) (hbp : s.busUp bp = true) (hfw : s.sys.fwRun = true)
    (hstretch : (s.port bp).stretch = some l) :
    execLineSupplied bp s =
      .next ((s.onPort bp fun p => { p with stretch := none, line := some (l, (List.range 16).map fun i => s.controlByte (16 * l + i)) }).driven bp (((List.range 16).map fun i => s.controlByte (16 * l + i)).getD ((s.port bp).ptr % 16) 0)) :=
  by simp [execLineSupplied, hbp, hfw, hstretch]

theorem execStretchLimit_completes (bp : BusPort) (s : State) (hbp : s.busUp bp = true) (hstretch : (s.port bp).stretch.isSome = true) :
    execStretchLimit bp s = .next (((s.onPort bp fun p => { p with stretch := none, line := none, allFF := true }).busFlag bp 2).driven bp 0xFF) :=
  next_when (by simp [hbp, hstretch])

theorem execClearOnRead_completes (bp : BusPort) (s : State) (hbp : s.busUp bp = true) (hptr : (s.port bp).ptr = 0x0026) :
    execClearOnRead bp true s = .next ((s.driven bp (s.swiftByte bp 0x0026)).onPort bp fun p => { p with stat := p.stat &&& ~~~(s.swiftByte bp 0x0026) }) := by
  refine (next_when (by rw [hbp, hptr]; rfl)).trans (congrArg Host.Outcome.next ?_)
  unfold State.readRc
  dsimp only
  rw [hptr, if_pos rfl]

theorem execGtsLatch_completes (bp : BusPort) (s : State) (hbp : s.busUp bp = true) :
    execGtsLatch bp s =
      .next ((s.onPort bp fun p => { p with gtsL := s.clk.gts, epL := s.clk.epoch, ptr := 0x0A }).driven bp (BitVec.ofNat 8 s.clk.gts.toNat)) :=
  next_when (by simp [hbp])

theorem execMirStat_completes (bp : BusPort) (k : Nat) (s : State) (hbp : s.busUp bp = true) (hmirAt : s.ms.mirAt = some k) :
    execMirStat bp s =
      .next ((s.onPort bp fun p => { p with mirL := s.ms.mir, mirStat := byteOf [decide (200 < s.now - k), !(s.measOn && s.ms.mirEn)], ptr := 0x11 }).driven bp (byteOf [decide (200 < s.now - k), !(s.measOn && s.ms.mirEn)])) := by
  refine (next_when hbp).trans (congrArg Host.Outcome.next ?_)
  unfold State.readMir
  rw [hmirAt]

theorem execRegisterWrite_completes (v : BitVec 8) (single : Bool) (s : State) (hhost : s.busUp .host = true) (hlo : 0x0800 ≤ (s.port .host).ptr)
    (_hhi : (s.port .host).ptr < 0x0C00) :
    execRegisterWrite .host v single s = .next ((s.wrote .host (s.port .host).ptr).hostWrite (s.port .host).ptr v) :=
  execRegisterWrite_host hhost (.inr (Nat.lt_of_lt_of_le (by decide) hlo)) (Nat.ne_of_gt (Nat.lt_of_lt_of_le (by decide) hlo))

theorem execGuardedValue_completes (g v : BitVec 8) (s : State) (hhost : s.busUp .host = true) (hg : 0x40 ≤ g.toNat) (hg2 : g.toNat ≤ 0x5F) :
    execGuardedValue .host g v true s =
      .next ((s.wrote .host g.toNat).onPort .host fun p => { p with pend := some { addr := g.toNat, val := v, since := s.now } }) :=
  if_neg (by simp [hhost, hg, hg2])

theorem execAttentionWrite_completes (r : AttnRes) (s : State) (hattnHolds : s.attnHolds = true) (hattnCfg : s.bus.attnCfg.getLsbD 1 = true) :
    execAttentionWrite r s = .next ((s.onBus fun b => { b with attnFails := 0 }).attnTry r) := next_when (by simp [hattnHolds, hattnCfg])

theorem execAttentionRetry_completes (r : AttnRes) (s : State) (hdom : s.sys.dom.getLsbD 13 = true) (hattnDue : s.bus.attnDue = true) :
    execAttentionRetry r s = .next (s.attnTry r) := next_when (by simp [hdom, hattnDue])

theorem execAttentionRepeat_completes (r : AttnRes) (s : State) (hattnHolds : s.attnHolds = true) (hattnCfg : s.bus.attnCfg.getLsbD 1 = true)
    (hattnCfg2 : s.bus.attnCfg.toNat / 4 % 4 ≠ 0) :
    execAttentionRepeat r s = .next ((s.onBus fun b => { b with attnFails := 0 }).attnTry r) := next_when (by simp [hattnHolds, hattnCfg, hattnCfg2])

theorem execUpdate_completes (mask : BitVec 8) (s : State) (hhost : s.busUp .host = true) (hmask : mask ≠ 0) (hjoined : s.stk.joined = false) :
    execUpdate .host mask s = .next ((s.wrote .host 0x20).onBus fun b => { b with updMask := b.updMask ||| mask }) := by
  unfold execUpdate
  rw [hhost, if_neg (by decide)]
  dsimp only
  rw [if_neg (by decide), if_neg hmask, hjoined]
  rfl

theorem execUpdateApply_completes (s : State) (hfw : s.sys.fwRun = true) :
    execUpdateApply s =
      .next (((bitsOf 8 s.bus.updMask).foldl (fun t k => t.applyBlock false (fun _ => true) k) (s.onBus fun b => { b with updMask := 0 })).pathNote s.pathByte) :=
  if_neg (by simp [hfw])

theorem execImm_completes (mask : BitVec 8) (s : State) (hhost : s.busUp .host = true) :
    execImm .host mask s = .next ((s.wrote .host 0x21).onBus fun b => { b with imm := mask, immDue := b.immDue ||| (mask &&& ~~~b.imm) }) :=
  if_neg (by simp [hhost])

theorem execImmWriteApply_completes (s : State) (hfw : s.sys.fwRun = true) :
    execImmWriteApply s =
      .next ((s.bus.immQ.foldl State.immWrite ((bitsOf 8 s.bus.immDue).foldl (fun t k => t.applyBlock true (fun _ => true) k) (s.onBus fun b => { b with immDue := 0, immQ := [] }))).pathNote s.pathByte) :=
  if_neg (by simp [hfw])

theorem execStkUpdEdge_completes (s : State) (hdormant : s.stk.dormant = false) :
    execStkUpdEdge s = .next ((s.onBus fun b => { b with edgeDue := b.edgeDue ||| b.armed }).pathNote s.pathByte) :=
  congrArg (settle s) (when_neg hdormant)

theorem execStkUpdApply_completes (s : State) (hfw : s.sys.fwRun = true) :
    execStkUpdApply s =
      .next (((bitsOf 8 s.bus.edgeDue).foldl (fun t k => t.applyBlock false (fun _ => true) k) (s.onBus fun b => { b with edgeDue := 0, armed := b.armed &&& ~~~s.bus.edgeDue })).pathNote s.pathByte) :=
  if_neg (by simp [hfw])

theorem execControlLineRead_line (bp : BusPort) (l : Nat) (bytes : List (BitVec 8)) (s : State) (hbp : s.busUp bp = true)
    (hlo : 0x0100 ≤ (s.port bp).ptr) (hhi : (s.port bp).ptr < 0x0400) (hfw : s.sys.fwRun = true) (hallFF : (s.port bp).allFF = false)
    (hline : (s.port bp).line = some (l, bytes)) (hl : l = (s.port bp).ptr / 16) :
    execControlLineRead { port := bp, first := false } s = .next (s.driven bp (bytes.getD ((s.port bp).ptr % 16) 0)) := by
  rw [execControlLineRead_next hbp, readByte_control hlo hhi]
  unfold State.readLine
  rw [hfw, hallFF, hline]
  exact congrArg Host.Outcome.next (if_pos hl)

theorem execControlLineRead_allFF (bp : BusPort) (s : State) (hbp : s.busUp bp = true) (hlo : 0x0100 ≤ (s.port bp).ptr)
    (hhi : (s.port bp).ptr < 0x0400) (hfw : s.sys.fwRun = true) (hallFF : (s.port bp).allFF = true) :
    execControlLineRead { port := bp, first := false } s = .next (s.driven bp 0xFF) := by
  rw [execControlLineRead_next hbp, readByte_control hlo hhi]
  unfold State.readLine
  rw [hfw, hallFF]
  rfl

theorem execControlLineRead_beyond (bp : BusPort) (s : State) (hbp : s.busUp bp = true) (hptr : 0x0400 ≤ (s.port bp).ptr) :
    execControlLineRead { port := bp, first := false } s = .next (s.driven bp (s.busRead bp (s.port bp).ptr)) :=
  by rw [execControlLineRead_next hbp, readByte_beyond hptr]

/-- Settles O46: one lemma per command. -/
theorem busCompletes : Obligations.BusCompletes :=
  ⟨execAddressMatchDormant_completes, execPointerSet_completes, execBusTimeout_completes, execFilterApply_completes, execControlLineRead_first,
    execLineSupplied_completes, execStretchLimit_completes, execClearOnRead_completes, execGtsLatch_completes, execMirStat_completes,
    execRegisterWrite_completes, execGuardedValue_completes, execAttentionWrite_completes, execAttentionRetry_completes,
    execAttentionRepeat_completes, execUpdate_completes, execUpdateApply_completes, execImm_completes, execImmWriteApply_completes,
    execStkUpdEdge_completes, execStkUpdApply_completes, execControlLineRead_line, execControlLineRead_allFF, execControlLineRead_beyond⟩

end Sys2Proof.Machine
end

section
/-! PROOFS. The mailbox handshake and the system commands (R394 to R410). -/
namespace Sys2Proof.Machine

set_option Elab.async false
open Sys2Proof.Safety

theorem execMailboxRing_completes (mask : BitVec 4) (s : State) (hhost : s.busUp .host = true) :
    execMailboxRing mask s = .next ((((s.wrote .host 0x22).ringBits mask).takeRings).pathNote s.pathByte) := settle_when (by simp [hhost])

theorem execMailboxDone_completes (mask : BitVec 4) (s : State) (hhost : s.busUp .host = true) :
    execMailboxDone mask s = .next ((((s.wrote .host 0x22).doneBits mask).takeRings).pathNote s.pathByte) := settle_when (by simp [hhost])

theorem execCommandCompletion_completes (n : Fin 4) (f : Final) (s : State) (htune : s.cc.tune = none) (htuneAsk : s.cc.tuneAsk = [])
    (hst : (s.box n.val).st = .working) (hfin : (s.box n.val).fin = some f) :
    execCommandCompletion n s = .next ((s.postFrame n.val f.status f.data).onBox n.val fun x => { x with st := .final, fin := none }) := by
  have hlate : s.tuneLate n = s := by
    unfold State.tuneLate
    rw [htune, htuneAsk]
    rfl
  refine congrArg Host.Outcome.next ?_
  rw [hlate]
  unfold State.postFinal
  dsimp only
  rw [hst, hfin]

theorem execMailboxAutoRelease_completes (n : Fin 4) (s : State) (hst : (s.box n.val).st = .final) (hact : (s.box n.val).act = true)
    (hpostAt : (s.box n.val).postAt + 100000 ≤ s.now) :
    execMailboxAutoRelease n s = .next ((s.release n.val).pathNote s.pathByte) := settle_when (by simp [hst, hact, hpostAt])

theorem execSysStatus_completes (n : Fin 4) (s : State) (hready : ready s n 0x0101 0) :
    execSysStatus n s =
      .next ((begun s n).finish n.val St.ok ([s.modeByte, s.pathByte] ++ le 2 s.sys.dom.toNat ++ [s.sys.boot] ++ le 2 s.sys.wake.toNat ++ [BitVec.ofNat 8 s.sys.image] ++ le 2 s.sys.imageVer.toNat ++ [0xB1])) :=
  next_query hready

theorem execEventRead_completes (n : Fin 4) (s : State) (hready : ready s n 0x0102 1) (hfld0 : 1 ≤ s.fld n.val 0 1) (hfld02 : s.fld n.val 0 1 ≤ 9) :
    execEventRead n s =
      .next (((begun s n).onQs fun q => { q with events := s.qs.events.drop (s.fld n.val 0 1) }).finish n.val St.ok ([BitVec.ofNat 8 (s.qs.events.take (s.fld n.val 0 1)).length, BitVec.ofNat 8 (min 255 (s.qs.events.drop (s.fld n.val 0 1)).length)] ++ le 2 (s.qs.drops.getD 4 0) ++ (s.qs.events.take (s.fld n.val 0 1)).flatMap eventBytes)) :=
  next_carry hready (by decide) (by simp [hfld0, hfld02])

theorem execQueueStat_completes (n : Fin 4) (s : State) (hready : ready s n 0x0103 0) :
    execQueueStat n s = .next ((begun s n).finish n.val St.ok ((List.range 13).flatMap (fun k => le 2 (s.qs.drops.getD k 0)) ++ le 2 s.qs.sat.toNat)) :=
  next_query hready

theorem execQueueClear_completes (n : Fin 4) (s : State) (hready : ready s n 0x0104 2) (hfld0 : s.fld n.val 0 2 < 8192) :
    execQueueClear n s =
      .next (((begun s n).onQs fun q => { q with drops := q.drops.mapIdx fun k v => if (s.fld n.val 0 2).testBit k then 0 else v, sat := q.sat &&& ~~~(BitVec.ofNat 13 (s.fld n.val 0 2)) }).finish n.val St.ok) :=
  next_carry hready (by decide) (by simp [hfld0])

theorem execDormantCfg_completes (n : Fin 4) (s : State) (hready : ready s n 0x0105 4) (hfld0 : s.fld n.val 0 2 ≤ 600)
    (hfld2 : s.fld n.val 2 2 ≤ 3600) :
    execDormantCfg n s =
      .next (((begun s n).onSys fun y => { y with idleS := s.fld n.val 0 2, wakeS := s.fld n.val 2 2, wakeNow := s.fld n.val 2 2 }).finish n.val St.ok) :=
  next_carry hready (by decide) (by simp [hfld0, hfld2])

theorem execDormantEnter_completes (n : Fin 4) (load : Nat) (s : State) (hready : ready s n 0x0106 0)
    (hcond : ((begun s n).accept n.val).dormCond load (some n) false = true) (hdorm : s.sys.dorm = .none) :
    execDormantEnter n load s = .next ((((begun s n).accept n.val).onSys fun y => { y with dormBox := some n }).dormBegin) := by
  have hnone : ((begun s n).accept n.val).sys.dorm = .none := by rw [sys_of_changesOnly State.accept_only (by decide), begun_sys]; exact hdorm
  refine (next_carry hready (by decide) rfl).trans (congrArg Host.Outcome.next ?_)
  unfold State.dormAsk
  dsimp only
  rw [hcond, hnone]
  rfl

theorem execMbxReset_completes (n : Fin 4) (s : State) (hready : ready s n 0x0107 2) (hguard : s.fld n.val 0 2 = inv16 0x0107) :
    execMbxReset n s = .next ((begun s n).finishAct n.val) := next_carry_guarded hready (by decide) hguard rfl

theorem execWithdraw_completes (n k : Fin 4) (s : State) (hready : ready s n 0x0108 1)
    (hfound : ((List.finRange 4).find? fun j => j != n && ((begun s n).box j.val).st != .free && ((begun s n).box j.val).tag == (begun s n).inByte n.val 8) = some k) :
    execWithdraw n s = .next ((((begun s n).withdrawBox k).1.finish n.val St.ok [BitVec.ofNat 8 ((begun s n).withdrawBox k).2]).pathNote s.pathByte) := by
  refine (settle_carry hready (by decide) rfl).trans ?_
  dsimp only
  rw [hfound]

theorem execRegisterWrite_doorbell (v : BitVec 8) (single : Bool) (s : State) (hhost : s.busUp .host = true) (hptr : (s.port .host).ptr = 0x22) :
    execRegisterWrite .host v single s =
      .next (((((s.wrote .host 0x22).doneBits (BitVec.ofNat 4 (v.toNat / 16))).ringBits (v.setWidth 4)).takeRings).pathNote s.pathByte) := by
  unfold execRegisterWrite
  dsimp only
  rw [if_neg (by rw [hhost]; decide), hptr]
  rfl

/-- Settles O47: one lemma per command. -/
theorem mailboxCompletes : Obligations.MailboxCompletes :=
  ⟨execMailboxRing_completes, execMailboxDone_completes, execCommandCompletion_completes, execMailboxAutoRelease_completes,
    execSysStatus_completes, execEventRead_completes, execQueueStat_completes, execQueueClear_completes, execDormantCfg_completes,
    execDormantEnter_completes, execMbxReset_completes, execWithdraw_completes, execRegisterWrite_doorbell⟩

end Sys2Proof.Machine
end

section
/-! PROOFS. The charge, measurement and sweep commands of the mailboxes. -/
namespace Sys2Proof.Machine

set_option Elab.async false
open Sys2Proof.Safety

theorem execChgQuery_completes (n : Fin 4) (s : State) (hready : ready s n 0x0201 0) :
    execChgQuery n s = .next ((begun s n).finish n.val St.ok ((begun s n).chgData)) := next_query hready

theorem execChgStart_completes (n : Fin 4) (s : State) (hready : ready s n 0x0202 0) (hchen : (begun s n).regBit 0x0160 0 = true)
    (hfollower : (begun s n).follower = false) (hstartBlock : (begun s n).startBlock = none) :
    execChgStart n s = .next ((((begun s n).chargeStart true).finish n.val St.ok).pathNote s.pathByte) := by
  refine (settle_carry hready (by decide) rfl).trans ?_
  rw [hchen, hfollower, hstartBlock]
  rfl

theorem execChgStop_completes (n : Fin 4) (s : State) (hready : ready s n 0x0203 0) :
    execChgStop n s = .next (((begun s n).onChg fun c => { c with stopReq := c.phase != .off }).finish n.val St.ok) :=
  next_carry hready (by decide) rfl

theorem execZoneSet_completes (n : Fin 4) (s : State) (hready : ready s n 0x0204 14) (hzoneFld : zoneOk (s.zoneFld n.val) = true) :
    execZoneSet n s = .next (((begun s n).onChg fun c => { c with zoneTabNext := some (s.zoneFld n.val) }).finish n.val St.ok) :=
  next_carry hready (by decide) (by simp [hzoneFld])

theorem execZoneGet_completes (n : Fin 4) (s : State) (hready : ready s n 0x0205 0) :
    execZoneGet n s = .next ((begun s n).finish n.val St.ok (zoneBytes s.chg.zones)) := next_query hready

theorem execSafeSetCmd_completes (n : Fin 4) (s : State) (hready : ready s n 0x0206 11) (hsafeOk : s.safeOk n.val = true) :
    execSafeSetCmd n s = .next (((begun s n).onChg fun c => { c with safeSet := some ((begun s n).safeFld n.val) }).finish n.val St.ok) :=
  next_carry hready (by decide) (by simp [hsafeOk])

theorem execSafeGet_completes (n : Fin 4) (s : State) (hready : ready s n 0x0207 0) :
    execSafeGet n s = .next ((begun s n).finish n.val St.ok (safeBytes (begun s n).safeSetNow ++ [BitVec.ofNat 8 (b2n s.chg.safeSet.isNone)])) :=
  next_query hready

theorem execMeasQuery_completes (n : Fin 4) (s : State) (hready : ready s n 0x0401 0) :
    execMeasQuery n s = .next ((begun s n).finish n.val St.ok ((begun s n).measData)) := next_query hready

theorem execCcGet_completes (n : Fin 4) (s : State) (hready : ready s n 0x0402 0) :
    execCcGet n s =
      .next ((begun s n).finish n.val St.ok (leI 8 s.ms.cc ++ [byteOf [s.ms.ccSat, s.ms.est]] ++ ((List.range 10).flatMap fun k => le 2 (s.ms.balQ.getD k 0)))) :=
  next_query hready

theorem execCcSet_completes (n : Fin 4) (s : State) (hready : ready s n 0x0403 11) (hguard : s.fld n.val 9 2 = inv16 0x0403)
    (hfld0 : s.fld n.val 0 1 = 3) :
    execCcSet n s =
      .next ((((begun s n).ccPreset ((begun s n).fldI n.val 1 8)).onMs fun x => { x with balQ := List.replicate 10 0, balFrac := List.replicate 10 0, balSat := 0 }).finish n.val St.ok) := by
  refine (next_carry_guarded hready (by decide) hguard (by rw [hfld0]; rfl)).trans (congrArg Host.Outcome.next ?_)
  rw [hfld0]
  rfl

theorem execSweep_completes (n : Fin 4) (len : Nat) (s : State) (hready : ready s n 0x0404 len) (hlen : len = 3 + 4 * s.fld n.val 2 1)
    (hsweepRange : s.sweepRange n.val = true) (hbar : (begun s n).sweepBar ((begun s n).fld n.val 1 1 == 1) = none) :
    execSweep n () s =
      .next (((begun s n).accept n.val).sweepBegin (kindOf ((begun s n).fld n.val 0 1)) ((begun s n).fld n.val 1 1 == 1) ((begun s n).sweepFld n.val) (some n)) := by
  refine (next_carry hready (by rw [hlen]; exact beq_self_eq_true _) hsweepRange).trans ?_
  dsimp only
  rw [hbar]

theorem execSweepStop_completes (n : Fin 4) (s : State) (hready : ready s n 0x0405 0) (_hstage : s.sw.stage ≠ .fitting) :
    execSweepStop n s = .next (((begun s n).sweepStop).finish n.val St.ok) := next_carry hready (by decide) rfl

theorem execPointsGet_completes (n : Fin 4) (p : PointRec) (l : List PointRec) (s : State) (hready : ready s n 0x0406 1)
    (hfld0 : s.fld n.val 0 1 ≤ 23) (hfld02 : s.fld n.val 0 1 < s.sw.lastPts.length) (hlastPts : s.sw.lastPts = p :: l) :
    ∃ d : List Byte, execPointsGet n s = .next ((begun s n).finish n.val St.ok ([BitVec.ofNat 8 s.sw.lastPts.length, BitVec.ofNat 8 ((s.sw.lastPts.drop (s.fld n.val 0 1)).take (238 / (12 + 4 * p.z.length))).length] ++ d))
      ∧ d = ((s.sw.lastPts.drop (s.fld n.val 0 1)).take (238 / (12 + 4 * p.z.length))).flatMap pointBytes := by
  have hrange : (decide (s.fld n.val 0 1 ≤ 23) && (s.sw.lastPts.length == 0 || decide (s.fld n.val 0 1 < s.sw.lastPts.length))) = true := by
    rw [decide_eq_true hfld0, decide_eq_true hfld02, Bool.or_true, Bool.and_true]
  refine ⟨_, (next_carry hready (by decide) hrange).trans ?_, rfl⟩
  dsimp only
  rw [begun_sw, hlastPts]

theorem execModelGet_completes (n : Fin 4) (s : State) (hready : ready s n 0x0407 1) (hlow : 1 ≤ s.fld n.val 0 1) (hhigh : s.fld n.val 0 1 ≤ 10)
    (hseeded : s.sw.seeded = false) :
    execModelGet n s =
      .next (((begun s n).finish n.val St.ok (stampBytes s.sw.lastStamp ++ [BitVec.ofNat 8 (sweepCode s.sw.lastKind), byteOf [s.sw.lastPartial], BitVec.ofNat 8 s.sw.lastUsed, 0])).useFree 10) := by
  refine (next_carry hready (by decide) (by rw [decide_eq_true hlow, decide_eq_true hhigh]; rfl)).trans ?_
  dsimp only
  rw [begun_sw, hseeded]
  rfl

theorem execChemSet_completes (n : Fin 4) (s : State) (hready : ready s n 0x0408 24) (hlow : 1 ≤ (s.chemFld n.val).chem)
    (hhigh : (s.chemFld n.val).chem ≤ 3) (htable : (s.chemFld n.val).table = 0) :
    execChemSet n s = .next (((begun s n).onSw fun w => { w with chemNext := chemPut w.chemNext (s.chemFld n.val) }).finish n.val St.ok) := by
  refine next_carry hready (by rw [htable]; rfl) ?_
  rw [decide_eq_true hlow, decide_eq_true hhigh, htable]
  rfl

theorem execChemGet_completes (n : Fin 4) (s : State) (hready : ready s n 0x0409 2) (hfld0 : 1 ≤ s.fld n.val 0 1) (hfld02 : s.fld n.val 0 1 ≤ 3)
    (hfld1 : s.fld n.val 1 1 ≤ 2) :
    execChemGet n s =
      .next ((begun s n).finish n.val St.ok (BitVec.ofNat 8 (s.fld n.val 1 1) :: (((begun s n).onSw fun w => { w with chem := s.chemAll }).chemTab (s.fld n.val 0 1) (s.fld n.val 1 1)).flatMap (le 2))) :=
  next_carry hready (by decide) (by simp [hfld0, hfld02, hfld1])

/-- Settles O48: one lemma per command. -/
theorem chargeCommandsComplete : Obligations.ChargeCommandsComplete :=
  ⟨execChgQuery_completes, execChgStart_completes, execChgStop_completes, execZoneSet_completes, execZoneGet_completes,
    execSafeSetCmd_completes, execSafeGet_completes, execMeasQuery_completes, execCcGet_completes, execCcSet_completes, execSweep_completes,
    execSweepStop_completes, execPointsGet_completes, execModelGet_completes, execChemSet_completes, execChemGet_completes⟩

end Sys2Proof.Machine
end

section
/-! PROOFS. The fabric, port and tuning commands of the mailboxes (R411, R412). -/
namespace Sys2Proof.Machine

set_option Elab.async false
open Sys2Proof.Safety

/-- A tuning that nothing bars and that may wait is accepted. -/
theorem tuneCmd_accepted {s : State} {n : Fin 4} {pc : Bool} (hbar : s.tuneBar pc = false) (hnoWait : s.noWait n.val = false) :
    ∃ b : Bool, s.tuneCmd n pc =
      ((s.accept n.val b).onCc fun c => { c with tuneAsk := c.tuneAsk ++ [{ pc := pc, box := some n, since := s.now }] }).tuneNext := by
  unfold State.tuneCmd
  dsimp only
  rw [hbar, hnoWait, Bool.and_false, if_neg Bool.false_ne_true, if_neg Bool.false_ne_true]
  exact ⟨_, rfl⟩

theorem execPlaceQuery_completes (n : Fin 4) (s : State) (hready : ready s n 0x0301 0) :
    execPlaceQuery n s =
      .next ((begun s n).finish n.val St.ok (phaseNos.flatMap (begun s n).placeEntry ++ [byteOf (phaseNos.map fun i => s.fab.resA.any (·.val == i) || s.fab.resB.any (·.val == i)), BitVec.ofNat 8 (b2n s.grd.fpen)])) :=
  next_query hready

theorem execBasinQuery_completes (n : Fin 4) (s : State) (hready : ready s n 0x0302 0) :
    execBasinQuery n s =
      .next ((begun s n).finish n.val St.ok (le 2 s.fab.basin ++ le 2 (begun s n).rating ++ le 2 s.fab.thCeil ++ le 2 s.stk.grant ++ le 2 s.fab.hostCap ++ [peakCode s.fab.peak] ++ le 2 (begun s n).peakTime ++ [BitVec.ofNat 8 (portCode s.fab.lead)] ++ ports.flatMap (begun s n).basinEntry)) :=
  next_query hready

theorem execPathQuery_completes (n : Fin 4) (s : State) (hready : ready s n 0x0303 1) (hfld0 : s.fld n.val 0 1 ≤ 2) :
    execPathQuery n s = .next ((begun s n).finish n.val St.ok ((begun s n).pathData (portAt (s.fld n.val 0 1)))) :=
  next_carry hready (by decide) (by simp [hfld0])

theorem execPathSet_completes (n : Fin 4) (s : State) (hready : ready s n 0x0304 4) (hfld0 : s.fld n.val 0 1 ≤ 2)
    (hfld1 : s.fld n.val 1 2 ≤ (if s.fld n.val 0 1 = 2 then 8000 else 2400)) (hfld3 : s.fld n.val 3 1 ≤ 7) :
    execPathSet n s =
      .next ((match portTc (portAt (s.fld n.val 0 1)) with | some c => ((begun s n).onPath (portAt (s.fld n.val 0 1)) fun x => { x with limit := s.fld n.val 1 2, prio := s.fld n.val 3 1 }).eprTry c | none => ((begun s n).onPath (portAt (s.fld n.val 0 1)) fun x => { x with limit := s.fld n.val 1 2, prio := s.fld n.val 3 1 })).finish n.val St.ok) :=
  next_carry hready (by decide) (by simp [hfld0, hfld1, hfld3])

theorem execHostCap_completes (n : Fin 4) (s : State) (hready : ready s n 0x0305 2) (hfld0 : 10 ≤ s.fld n.val 0 2) (hfld02 : s.fld n.val 0 2 ≤ 8000) :
    execHostCap n s = .next (((begun s n).onFab fun f => { f with hostCap := s.fld n.val 0 2 }).finish n.val St.ok) :=
  next_carry hready (by decide) (by simp [hfld0, hfld02])

theorem execCoefSet_completes (n : Fin 4) (s : State) (hready : ready s n 0x0306 81) (hfld0 : s.fld n.val 0 1 ≤ 4)
    (hcoefWords : coefOk (s.fld n.val 0 1) (s.coefWords n.val) = true) :
    execCoefSet n s = .next (((begun s n).onCc fun c => { c with coef := c.coef.set (s.fld n.val 0 1) (some (s.coefWords n.val)) }).finish n.val St.ok) :=
  next_carry hready (by decide) (by simp [hfld0, hcoefWords])

theorem execCoefGet_completes (n : Fin 4) (s : State) (hready : ready s n 0x0307 1) (hfld0 : s.fld n.val 0 1 ≤ 4) :
    execCoefGet n s = .next ((begun s n).finish n.val St.ok (((begun s n).coefOf (s.fld n.val 0 1)).flatMap (leI 2))) :=
  next_carry hready (by decide) (by simp [hfld0])

theorem execTune_completes (n : Fin 4) (s : State) (hready : ready s n 0x0308 1) (hfld0 : s.fld n.val 0 1 ≤ 1)
    (hbar : (begun s n).tuneBar (s.fld n.val 0 1 == 1) = false) (hnoWait : (begun s n).noWait n.val = false) :
    ∃ b : Bool, execTune n s =
      .next ((((begun s n).accept n.val b).onCc fun c => { c with tuneAsk := c.tuneAsk ++ [{ pc := s.fld n.val 0 1 == 1, box := some n, since := s.now }] }).tuneNext) := by
  obtain ⟨b, hb⟩ := tuneCmd_accepted hbar hnoWait
  exact ⟨b, (next_carry hready (by decide) (decide_eq_true hfld0)).trans (congrArg Host.Outcome.next hb)⟩

theorem execPortQuery_completes (n : Fin 4) (s : State) (hready : ready s n 0x0501 1) (hfld0 : s.fld n.val 0 1 ≤ 1) :
    execPortQuery n s = .next ((begun s n).finish n.val St.ok ((begun s n).portData (tcOf (s.fld n.val 0 1)))) :=
  next_carry hready (by decide) (by simp [hfld0])

theorem execPrSwap_completes (n : Fin 4) (s : State) (hready : ready s n 0x0502 1) (hfld0 : s.fld n.val 0 1 ≤ 1) :
    execPrSwap n s = .next (((begun s n).txClear (tcOf (s.fld n.val 0 1))).prSwapCmd n (tcOf (s.fld n.val 0 1))) :=
  next_carry hready (by decide) (by simp [hfld0])

theorem execDrSwap_completes (n : Fin 4) (s : State) (hready : ready s n 0x0503 1) (hfld0 : s.fld n.val 0 1 ≤ 1) :
    execDrSwap n s = .next (((begun s n).txClear (tcOf (s.fld n.val 0 1))).drSwapCmd n (tcOf (s.fld n.val 0 1))) :=
  next_carry hready (by decide) (by simp [hfld0])

theorem execAuth_completes (n : Fin 4) (s : State) (hready : ready s n 0x0504 1) (hfld0 : s.fld n.val 0 1 ≤ 1) :
    execAuth n s = .next (((begun s n).txClear (tcOf (s.fld n.val 0 1))).authCmd n (tcOf (s.fld n.val 0 1))) :=
  next_carry hready (by decide) (by simp [hfld0])

theorem execRootSet_completes (n : Fin 4) (s : State) (hready : ready s n 0x0505 33) (hfld0 : s.fld n.val 0 1 ≤ 3) :
    execRootSet n s =
      .next (((begun s n).onNvm fun x => { x with roots := x.roots.set (s.fld n.val 0 1) (some (s.inBytes n.val 9 32)) }).finish n.val St.ok) := by
  obtain ⟨-, hlen⟩ := id hready
  refine (next_carry hready (by decide) (decide_eq_true hfld0)).trans ?_
  dsimp only
  rw [if_pos (by exact hlen)]
  rfl

/-- Settles O49: one lemma per command. -/
theorem fabricCommandsComplete : Obligations.FabricCommandsComplete :=
  ⟨execPlaceQuery_completes, execBasinQuery_completes, execPathQuery_completes, execPathSet_completes, execHostCap_completes,
    execCoefSet_completes, execCoefGet_completes, execTune_completes, execPortQuery_completes, execPrSwap_completes, execDrSwap_completes,
    execAuth_completes, execRootSet_completes⟩

end Sys2Proof.Machine
end

section
/-! PROOFS. The non-volatile memory, the fuses and the identity commands. -/
namespace Sys2Proof.Machine

set_option Elab.async false
open Sys2Proof.Safety

/-- A mailbox command whose operands are out of range is answered so (R404). -/
theorem carry_outOfRange {s : State} {n : Fin 4} {op k : Nat} {len : Nat → Bool} {range : Bool} {f : State → State}
    (hready : ready s n op k) (hlen : len k = true) (hrange : range = false) :
    s.carry n.val op len none range f = (begun s n).finish n.val St.outOfRange := by
  obtain ⟨hcarries, hframe⟩ := hready
  unfold State.carry
  simp [hcarries, hframe, hlen, hrange, begun]

theorem execNvmRequestStart_completes (r : NvmReq) (l : List NvmReq) (s : State) (hnvm : s.nvm.q = r :: l) (hprog : s.nvm.prog = none)
    (hfw : s.sys.fwRun = true) (hnvmFenced : s.nvmFenced = false) (hpfw : s.seq.pfw = false) (hkind : r.kind = .snapshot) (hr : r.box = none) :
    execNvmRequestStart true s = .next ((s.aheadEnd false).onNvm fun x => { x with q := l, prog := some r }) :=
  by simp [execNvmRequestStart, hnvm, hprog, hfw, hnvmFenced, hpfw, hkind, hr]

theorem execNvmProgramDone_completes (again : Bool) (r : NvmReq) (s : State) (hprog : s.nvm.prog = some r) :
    execNvmProgramDone true again s = .next ((((s.writeDone r).lfOffers).shipCheck).pathNote s.pathByte) := by
  unfold execNvmProgramDone
  rw [hprog]
  rfl

theorem execNvmEnergyWaitExpiry_completes (r : NvmReq) (l : List NvmReq) (s : State) (hq : s.nvm.q = r :: l) (hprog : s.nvm.prog = none) :
    execNvmEnergyWaitExpiry s = .next ((((s.onNvm fun x => { x with q := l }).reqGone r St.nvmAbandoned true).shipCheck).pathNote s.pathByte) := by
  unfold execNvmEnergyWaitExpiry
  rw [hq, hprog]
  rfl

theorem execNvmCut_completes (r : NvmReq) (s : State) (hprog : s.nvm.prog = some r) :
    execNvmCut s = .next (((((s.cutProg).finishO r.box St.nvmAbandoned).snapsDrop).shipCheck).pathNote s.pathByte) := by
  unfold execNvmCut
  rw [hprog]
  rfl

theorem execFuse_completes (c v : Byte) (single : Bool) (nd : Nodes) (s : State) (hpair : pairOk s .host 0x54 c single v) :
    execFuse c single nd s = .next ((pairDone s .host 0x54).fuseWrite v nd) := next_guardPair hpair

theorem execFuseBlowDone_completes (sensed : BitVec 5) (s : State) (hfbusy : s.grd.fbusy = true) :
    ∃ t, execFuseBlowDone sensed s = .next t ∧ t.grd.fuse = s.grd.fuse ||| (s.grd.fuseAsk &&& sensed)
      ∧ t.grd.fuseLive = s.grd.fuseLive ||| (s.grd.fuseAsk &&& sensed &&& 0x18) ∧ t.grd.fbusy = false ∧ t.grd.fuseAsk = 0
      ∧ t.grd.fref = (s.grd.fref || s.grd.fuseAsk &&& ~~~sensed != 0) := by
  unfold execFuseBlowDone
  rw [if_neg (by rw [hfbusy]; decide)]
  refine ⟨_, rfl, ?_⟩
  unfold State.when
  split
  · rw [raise_grd]; exact ⟨rfl, rfl, rfl, rfl, rfl⟩
  · exact ⟨rfl, rfl, rfl, rfl, rfl⟩

theorem execNvmStore_completes (n : Fin 4) (s : State) (hready : ready s n 0x0801 3) (hguard : s.fld n.val 1 2 = inv16 0x0801)
    (hfld0 : 1 ≤ s.fld n.val 0 1) (hfld02 : s.fld n.val 0 1 ≤ 3) :
    execNvmStore n s = .next ((begun s n).storeCmd n (s.fld n.val 0 1)) := next_carry_guarded hready (by decide) hguard (by simp [hfld0, hfld02])

theorem execNvmStat_completes (n : Fin 4) (s : State) (hready : ready s n 0x0802 0) :
    execNvmStat n s =
      .next ((begun s n).finish n.val St.ok (((List.range 4).flatMap fun r => le 4 (s.regionErases r)) ++ le 2 (s.verShown 1) ++ le 2 (s.verShown 2) ++ le 2 s.rollbackNow ++ [BitVec.ofNat 8 s.sys.image, byteOf ((List.range 4).map fun r => decide (0xFFFFFFFF ≤ s.regionErases r))])) :=
  next_query hready

theorem execImageLoad_completes (n : Fin 4) (len : Nat) (s : State) (hready : ready s n 0x0803 len) (hlow : 5 ≤ len) (hhigh : len ≤ 244)
    (hend : s.fld n.val 0 4 + (len - 4) ≤ 98304) (himgStoring : (begun s n).imgStoring = false) :
    execImageLoad n s =
      .next (((begun s n).onNvm fun x => { x with stage := memPuts zeroByte x.stage (s.fld n.val 0 4) (s.inBytes n.val 12 (len - 4)), staged := true }).finish n.val St.ok) := by
  have hframe : s.frameLen n.val = len := hready.2
  have hrange : (decide (s.fld n.val 0 4 ≤ 98303) && decide (s.fld n.val 0 4 + (len - 4) ≤ 98304)) = true := by
    rw [decide_eq_true hend, decide_eq_true (by omega)]; rfl
  unfold execImageLoad
  dsimp only
  rw [hframe]
  refine (next_carry hready (by rw [decide_eq_true hlow, decide_eq_true hhigh]; rfl) hrange).trans ?_
  rw [himgStoring]
  rfl

theorem execImageAct_completes (n : Fin 4) (s : State) (hready : ready s n 0x0804 3) (hguard : s.fld n.val 1 2 = inv16 0x0804)
    (hlow : 1 ≤ s.fld n.val 0 1) (hhigh : s.fld n.val 0 1 ≤ 2) :
    execImageAct n s =
      .next (if (begun s n).imgActStatus (s.fld n.val 0 1) = St.ok then (begun s n).finishAct n.val else (begun s n).finish n.val ((begun s n).imgActStatus (s.fld n.val 0 1))) :=
  next_carry_guarded hready (by decide) hguard (by rw [decide_eq_true hlow, decide_eq_true hhigh]; rfl)

theorem execAddrSet_completes (n : Fin 4) (s : State) (hready : ready s n 0x0805 2) (hfld0 : 0x08 ≤ s.fld n.val 0 1) (hfld02 : s.fld n.val 0 1 ≤ 0x77)
    (hfld1 : 0x08 ≤ s.fld n.val 1 1) (hfld12 : s.fld n.val 1 1 ≤ 0x77) :
    execAddrSet n s =
      .next (((begun s n).onBus fun b => { b with cfgAddr := BitVec.ofNat 8 (s.fld n.val 0 1), attnAddr := BitVec.ofNat 8 (s.fld n.val 1 1) }).finish n.val St.ok) :=
  next_carry hready (by decide) (by simp [hfld0, hfld02, hfld1, hfld12])

theorem execIdGet_completes (n : Fin 4) (s : State) (hready : ready s n 0x0806 0) :
    execIdGet n s = .next ((begun s n).finish n.val St.ok (le 8 Config.serial ++ pubKeyBytes ++ ([0, 1, 2].flatMap fun k => le 2 (certOf k).length))) :=
  next_query hready

theorem execCertGet_completes (n : Fin 4) (s : State) (hready : ready s n 0x0807 3) (hfld0 : s.fld n.val 0 1 ≤ 2) :
    execCertGet n s =
      .next (if s.fld n.val 1 2 < (certOf (s.fld n.val 0 1)).length then (begun s n).finish n.val St.ok (le 2 (certOf (s.fld n.val 0 1)).length ++ [BitVec.ofNat 8 (((certOf (s.fld n.val 0 1)).drop (s.fld n.val 1 2)).take 224).length] ++ ((certOf (s.fld n.val 0 1)).drop (s.fld n.val 1 2)).take 224) else (begun s n).finish n.val St.outOfRange) := by
  by_cases hoff : s.fld n.val 1 2 < (certOf (s.fld n.val 0 1)).length
  · rw [if_pos hoff]
    exact next_carry hready (by decide) (by rw [decide_eq_true hfld0, decide_eq_true hoff]; rfl)
  · rw [if_neg hoff]
    exact congrArg Host.Outcome.next (carry_outOfRange hready rfl (by rw [decide_eq_false hoff, Bool.and_false]))

theorem execLogSign_completes (n : Fin 4) (s : State) (hready : ready s n 0x0808 24) (hfld16 : s.fld n.val 16 4 ≤ s.fld n.val 20 4) :
    execLogSign n s = .next ((((begun s n).accept n.val).useFree 1).finish n.val St.ok ((begun s n).signData n.val)) :=
  next_carry hready (by decide) (by simp [hfld16])

/-- Settles O50: one lemma per command. -/
theorem nvmCompletes : Obligations.NvmCompletes :=
  ⟨execNvmRequestStart_completes, execNvmProgramDone_completes, execNvmEnergyWaitExpiry_completes, execNvmCut_completes, execFuse_completes,
    execFuseBlowDone_completes, execNvmStore_completes, execNvmStat_completes, execImageLoad_completes, execImageAct_completes,
    execAddrSet_completes, execIdGet_completes, execCertGet_completes, execLogSign_completes⟩

end Sys2Proof.Machine
end

section
/-! PROOFS. The stack commands, of the mailboxes (R416) and of slot 0. -/
namespace Sys2Proof.Machine

set_option Elab.async false
open Sys2Proof.Safety

theorem execStackStat_completes (n : Fin 4) (s : State) (hready : ready s n 0x0901 0) :
    execStackStat n s =
      .next ((begun s n).finish n.val St.ok ([BitVec.ofNat 8 s.stkRole, BitVec.ofNat 8 s.stkId] ++ le 4 s.stk.members.toNat ++ le 4 s.stk.fencedM.toNat ++ le 4 (if s.isManager then s.stk.sbasin else 0) ++ le 2 s.stk.grant)) :=
  next_query hready

theorem execStackSet_completes (n : Fin 4) (s : State) (hready : ready s n 0x0902 12) (hguard : s.fld n.val 10 2 = inv16 0x0902)
    (hlow : 10 ≤ s.fld n.val 4 4) (hhigh : s.fld n.val 4 4 ≤ 256000) (hsafeg : s.fld n.val 8 2 ≤ 8000) (hcmd : s.stkCmdOk = true) :
    execStackSet n s =
      .next (((begun s n).onStk fun k => { k with setNext := some (BitVec.ofNat 32 (s.fld n.val 0 4), s.fld n.val 4 4, s.fld n.val 8 2) }).finish n.val St.ok) := by
  refine (next_carry_guarded hready (by decide) hguard (by rw [decide_eq_true hlow, decide_eq_true hhigh, decide_eq_true hsafeg]; rfl)).trans ?_
  rw [show (begun s n).stkCmdOk = true from hcmd, if_pos rfl]
  rfl

theorem execStackSeq_completes (n : Fin 4) (s : State) (hready : ready s n 0x0903 5) (hfld4 : s.fld n.val 4 1 = 1) (hcmd : s.stkCmdOk = true)
    (hseqBox : s.stk.seqBox = none) (hstkTx : s.qs.stkTx.length ≤ 9) :
    execStackSeq n s =
      .next ((((((begun s n).accept n.val).onStk fun k => { k with seqBox := some n, seqPend := BitVec.ofNat 32 (s.fld n.val 0 4), seqFail := 0, seqAct := 0 }).queueScmd Scmd.seqLo (s.fld n.val 0 4 % 2 ^ 16)).queueScmd Scmd.seqHi (s.fld n.val 0 4 / 2 ^ 16)).queueScmd Scmd.seqGo 1) := by
  refine (next_carry hready (by decide) (by rw [hfld4]; rfl)).trans ?_
  rw [show (begun s n).stkCmdOk = true from hcmd, begun_stk, hseqBox, begun_qs, hfld4, if_neg (by decide), if_neg]
  simpa using hstkTx

theorem execStackDormant_completes (n : Fin 4) (s : State) (hready : ready s n 0x0904 0) (hcmd : s.stkCmdOk = true) (hdormPh : s.stk.dormPh = 0) :
    execStackDormant n s = .next (((begun s n).accept n.val).onStk fun k => { k with dormBox := some n, dormPh := 1, notReady := 0 }) := by
  refine (next_carry hready (by decide) rfl).trans ?_
  rw [show (begun s n).stkCmdOk = true from hcmd, begun_stk, hdormPh]
  rfl

theorem execScmdNone_completes (arg : BitVec 16) (s : State) :
    execScmdNone arg s = .next s := rfl

theorem execTime1_completes (arg : BitVec 16) (s : State) (hcmd : s.scmdOk = true) :
    execTime1 arg s = .next (s.onStk fun k => { k with cyc := k.cyc / 2 ^ 32 * 2 ^ 32 + arg.toNat * 2 ^ 16 + k.cyc % 2 ^ 16 }) :=
  next_when (by simp [hcmd])

theorem execTime2_completes (arg : BitVec 16) (s : State) (hcmd : s.scmdOk = true) :
    execTime2 arg s = .next (s.onStk fun k => { k with cyc := arg.toNat % 256 * 2 ^ 32 + k.cyc % 2 ^ 32, mgrEpoch := BitVec.ofNat 8 (arg.toNat / 256) }) :=
  next_when (by simp [hcmd])

theorem execScap_completes (arg : BitVec 16) (s : State) (hcmd : s.scmdOk = true) (hisBackup : s.isBackup = true) :
    execScap arg s = .next (s.onStk fun k => { k with scap := 4 * arg.toNat }) := next_when (by simp [hcmd, hisBackup])

theorem execSafeg_completes (arg : BitVec 16) (s : State) (hcmd : s.scmdOk = true) (harg : arg.toNat ≤ 8000) :
    execSafeg arg s = .next (s.onStk fun k => { k with safeg := arg.toNat }) := next_when (by simp [hcmd, harg])

theorem execExpectLo_completes (arg : BitVec 16) (s : State) (hcmd : s.scmdOk = true) (hisBackup : s.isBackup = true) :
    execExpectLo arg s = .next (s.onStk fun k => { k with expect := (k.expect &&& 0xFFFF0000) ||| arg.setWidth 32 }) :=
  next_when (by simp [hcmd, hisBackup])

theorem execExpectHi_completes (arg : BitVec 16) (s : State) (hcmd : s.scmdOk = true) (hisBackup : s.isBackup = true) :
    execExpectHi arg s = .next (s.onStk fun k => { k with expect := (k.expect &&& 0xFFFF) ||| BitVec.ofNat 32 (65536 * arg.toNat) }) :=
  next_when (by simp [hcmd, hisBackup])

theorem execDelay_completes (arg : BitVec 16) (s : State) (hmember : s.memberOk = true) (harg : arg.toNat / 2048 = s.stkId) :
    execDelay arg s = .next (s.onStk fun k => { k with delayNs := arg.toNat % 2048 }) := next_when (by simp [hmember, harg])

theorem execTstep_completes (arg : BitVec 16) (s : State) (hmember : s.memberOk = true) :
    execTstep arg s = .next (s.onStk fun k => { k with tstep := arg.toNat }) := next_when (by simp [hmember])

theorem execSeqLo_completes (arg : BitVec 16) (s : State) (hmember : s.memberOk = true) :
    execSeqLo arg s = .next (s.onStk fun k => { k with seqMask := (k.seqMask &&& 0xFFFF0000) ||| arg.setWidth 32 }) := next_when (by simp [hmember])

theorem execSeqHi_completes (arg : BitVec 16) (s : State) (hmember : s.memberOk = true) :
    execSeqHi arg s = .next (s.onStk fun k => { k with seqMask := (k.seqMask &&& 0xFFFF) ||| BitVec.ofNat 32 (65536 * arg.toNat) }) :=
  next_when (by simp [hmember])

theorem execSeqGo_completes (arg : BitVec 16) (s : State) (hmember : s.memberOk = true) :
    execSeqGo arg s = .next (s.onStk fun k => { k with seqDo := some arg.toNat }) := next_when (by simp [hmember])

theorem execDormant_completes (arg : BitVec 16) (s : State) (hmember : s.memberOk = true) (harg : arg.toNat ≤ 3600) :
    execDormant arg s = .next (s.onStk fun k => { k with dormDo := some arg.toNat }) := next_when (by simp [hmember, harg])

theorem execJstart_completes (arg : BitVec 16) (s : State) (hfw : s.sys.fwRun = true) (hworker : s.isWorker = true)
    (hjoinSt : s.stk.joinSt = .requested) (harg : arg.toNat = s.stkId) :
    execJstart arg s = .next (s.onStk fun k => { k with joinSt := .exchanging, joinData := [], joinSent := 0, joinSig := [] }) :=
  next_when (by simp [hfw, hworker, hjoinSt, harg])

theorem execJdata_completes (arg : BitVec 16) (s : State) (hfw : s.sys.fwRun = true) (hworker : s.isWorker = true)
    (hjoinSt : s.stk.joinSt = .exchanging) :
    execJdata arg s = .next (s.onStk fun k => { k with joinData := k.joinData ++ le 2 arg.toNat }) := next_when (by simp [hfw, hworker, hjoinSt])

theorem execJresult_completes (arg : BitVec 16) (s : State) (hfw : s.sys.fwRun = true) (hworker : s.isWorker = true)
    (hjoinSt : s.stk.joinSt = .exchanging) (hid : arg.toNat / 2048 = s.stkId) (hcode : arg.toNat % 256 = 0) :
    execJresult arg s = .next s.joinDone := by
  refine (next_when (by rw [hfw, hworker, hjoinSt, hid]; simp)).trans ?_
  rw [if_pos hcode]

/-- Settles O51: one lemma per command. -/
theorem stackCommandsComplete : Obligations.StackCommandsComplete :=
  ⟨execStackStat_completes, execStackSet_completes, execStackSeq_completes, execStackDormant_completes, execScmdNone_completes,
    execTime1_completes, execTime2_completes, execScap_completes, execSafeg_completes, execExpectLo_completes, execExpectHi_completes,
    execDelay_completes, execTstep_completes, execSeqLo_completes, execSeqHi_completes, execSeqGo_completes, execDormant_completes,
    execJstart_completes, execJdata_completes, execJresult_completes⟩

end Sys2Proof.Machine
end

section
/-! PROOFS. The events of a stack. -/
namespace Sys2Proof.Machine

set_option Elab.async false
open Sys2Proof.Safety

/-! ## Requests to join (R425, R427) -/

section
variable {s : State} {k : Fin 32} {r : JoinReq}

/-- The state in which the FSW that module `k` reports with its request is noted. -/
def fswHeard (s : State) (k : Fin 32) (r : JoinReq) : State :=
  s.onStk fun x => { x with fsws := x.fsws.filter (fun p => p.1 != k.val) ++ [(k.val, r.fsw.toNat)] }

/-- The FSW that another module reports with its request is noted in any role. -/
theorem execJoinRequest_heard (hfw : s.sys.fwRun = true) (hstack : s.inStack = true) (hid : k.val ≠ s.stkId) :
    execJoinRequest k r s = .next ((fswHeard s k r).when (s.isManager && s.stk.joined) fun u => u.joinAsk k r) :=
  next_when (by rw [hfw, hstack, bne_iff_ne.2 hid]; rfl)

/-- The manager of a joined stack takes the request up. -/
theorem execJoinRequest_asked (hfw : s.sys.fwRun = true) (hstack : s.inStack = true) (hid : k.val ≠ s.stkId) (hmgr : s.isManager = true)
    (hjoined : s.stk.joined = true) : execJoinRequest k r s = .next ((fswHeard s k r).joinAsk k r) :=
  (execJoinRequest_heard hfw hstack hid).trans (next_when (by rw [hmgr, hjoined]; rfl))

theorem joinAsk_served (h : s.stk.joiner = some k) : s.joinAsk k r = s := if_pos (by rw [h]; exact beq_self_eq_true _)

/-- A member that woke is only aligned anew. -/
theorem joinAsk_woken (hjoiner : s.stk.joiner ≠ some k)
    (h : (s.stk.wakeM.getLsbD k.val && s.stk.members.getLsbD k.val && !s.stk.fencedM.getLsbD k.val) = true) :
    s.joinAsk k r = (s.onStk fun x => { x with wakeM := setBit x.wakeM k.val false }).alignWorker k.val r.late (s.joinLeadOf r) := by
  unfold State.joinAsk
  rw [if_neg (by rw [beq_iff_eq]; exact hjoiner), if_pos h]

/-- A request that comes while another module is served waits. -/
theorem joinAsk_waits {j : Fin 32} (hjoiner : s.stk.joiner = some j) (hjk : j ≠ k)
    (h : (s.stk.wakeM.getLsbD k.val && s.stk.members.getLsbD k.val && !s.stk.fencedM.getLsbD k.val) = false) :
    s.joinAsk k r = s.onStk fun x => { x with joinWait := s.joinQueue k r } := by
  unfold State.joinAsk
  rw [if_neg (by rw [hjoiner, beq_iff_eq]; exact fun he => hjk (Option.some.inj he)), h, if_neg Bool.false_ne_true]
  dsimp only
  rw [hjoiner]
  exact if_pos rfl

/-- With no module served the first of the waiting requests is. -/
theorem joinAsk_serves {p : Fin 32 × JoinReq × Int} (hjoiner : s.stk.joiner = none)
    (h : (s.stk.wakeM.getLsbD k.val && s.stk.members.getLsbD k.val && !s.stk.fencedM.getLsbD k.val) = false)
    (hfirst : joinFirst (s.joinQueue k r) = some p) :
    s.joinAsk k r = (s.onStk fun x => { x with joinWait := s.joinQueue k r }).joinServe p.1 p.2.1 p.2.2 := by
  unfold State.joinAsk
  rw [if_neg (by rw [hjoiner, beq_iff_eq]; exact fun he => nomatch he), h, if_neg Bool.false_ne_true]
  dsimp only
  rw [hjoiner, if_neg (by decide), hfirst]

end

/-! ## The slots of a worker (R428) -/

theorem execSlotStart_worker {s : State} {c : CycIn} (hfw : s.sys.fwRun = true) (hworker : s.isWorker = true) :
    execSlotStart c s = .next (match s.stk.joinSt with
      | .idle => s.when s.stk.everJoined fun u => if u.stk.realign && u.stk.wokeAt.isNone then u.realignFrame else (u.reportFrame c).useFree 1
      | .requested => s.requestFrame
      | .exchanging => s.joinFrame
      | .listening | .refused => s) :=
  (next_when (by rw [hfw, hworker]; rfl)).trans rfl

theorem execStackCycleStart_completes (c : CycIn) (s : State) (hfw : s.sys.fwRun = true) (hstack : s.inStack = true) :
    execStackCycleStart c s = .next ((s.cycleStart c).pathNote s.pathByte) := settle_when (by simp [hfw, hstack])

theorem execSlotStart_reports (c : CycIn) (s : State) (hfw : s.sys.fwRun = true) (hworker : s.isWorker = true) (hjoinSt : s.stk.joinSt = .idle)
    (heverJoined : s.stk.everJoined = true) (haligned : (s.stk.realign && s.stk.wokeAt.isNone) = false) :
    execSlotStart c s = .next ((s.reportFrame c).useFree 1) := by
  rw [execSlotStart_worker hfw hworker, hjoinSt]
  refine (next_when heverJoined).trans ?_
  rw [haligned]
  rfl

theorem execSlotStart_requests (c : CycIn) (s : State) (hfw : s.sys.fwRun = true) (hworker : s.isWorker = true) (hjoinSt : s.stk.joinSt = .requested) :
    execSlotStart c s = .next s.requestFrame := by
  rw [execSlotStart_worker hfw hworker, hjoinSt]

theorem execManagerFrame_completes (f : MgrFrame) (s : State) (hfw : s.sys.fwRun = true) (hworker : (s.yieldStart f).isWorker = true)
    (hinjFrame : (s.yieldStart f).injFrame = false) (hframeOk : frameOk f = true) (hstkf : (s.yieldStart f).flt.stkf.getLsbD 6 = false) :
    execManagerFrame f s = .next ((s.yieldStart f).slot0Frame f) := by
  refine (next_when hfw).trans ?_
  dsimp only
  rw [hworker, hinjFrame, if_neg (by decide), if_neg (by decide)]
  exact next_when (by rw [hframeOk, hstkf]; rfl)

theorem execMemberReport_completes (r : MemberRep) (fr : Option FaultRep) (late : Nat) (s : State) (hfw : s.sys.fwRun = true)
    (hstack : s.inStack = true) (hid : r.id < 32) (hid2 : r.id ≠ s.stkId) :
    ∃ t : State, execMemberReport r fr late s = .next (t.useFree 1)
      ∧ t = (s.keepReport r).when (s.isManager && s.stk.joined && s.stk.members.getLsbD r.id) fun u => u.reportTake r fr late :=
  ⟨_, next_when (by simp [hfw, hstack, hid, hid2]), rfl⟩

theorem execJoinRequest_noted (k : Fin 32) (r : JoinReq) (s : State) (hfw : s.sys.fwRun = true) (hstack : s.inStack = true) (hid : k.val ≠ s.stkId)
    (hidle : (s.isManager && s.stk.joined) = false ∨ s.stk.joiner = some k) :
    execJoinRequest k r s = .next (s.onStk fun x => { x with fsws := x.fsws.filter (fun p => p.1 != k.val) ++ [(k.val, r.fsw.toNat)] }) := by
  rw [execJoinRequest_heard hfw hstack hid]
  rcases hidle with h | h
  · exact next_when_neg h
  · cases hrole : (s.isManager && s.stk.joined) with
    | false => exact next_when_neg rfl
    | true => exact (next_when rfl).trans (congrArg Host.Outcome.next (joinAsk_served (s := fswHeard s k r) h))

theorem execJoinRequest_starts (k : Fin 32) (r : JoinReq) (s : State) (hfw : s.sys.fwRun = true) (hstack : s.inStack = true) (hid : k.val ≠ s.stkId)
    (hmgr : s.isManager = true) (hjoined : s.stk.joined = true) (hjoiner : s.stk.joiner = none) (hjoinWait : s.stk.joinWait = [])
    (hwoken : (s.stk.wakeM.getLsbD k.val && s.stk.members.getLsbD k.val && !s.stk.fencedM.getLsbD k.val) = false) :
    ∃ u : State, execJoinRequest k r s = .next ((u.queueScmd Scmd.jstart k.val).useFree 17) ∧ u.stk.joiner = some k ∧ u.stk.joinReq = some r
      ∧ u.stk.nonceW = fixLen 16 r.nonce ∧ u.stk.nonceM = (List.range 16).map (fun i => BitVec.ofNat 8 (s.freeN i)) ∧ u.stk.joinData = []
      ∧ u.stk.joinLead = s.joinLeadOf r ∧ u.stk.joinWait = [] ∧ u.stk.fsws = s.stk.fsws.filter (fun p => p.1 != k.val) ++ [(k.val, r.fsw.toNat)]
      ∧ u.qs = s.qs := by
  have hqueue : s.joinQueue k r = [(k, r, s.joinLeadOf r)] := by
    unfold State.joinQueue
    rw [hjoinWait]
    rfl
  have hfirst : joinFirst (s.joinQueue k r) = some (k, r, s.joinLeadOf r) := by rw [hqueue]; rfl
  rw [execJoinRequest_asked hfw hstack hid hmgr hjoined, joinAsk_serves (s := fswHeard s k r) hjoiner hwoken hfirst]
  refine ⟨_, rfl, rfl, rfl, rfl, rfl, rfl, rfl, ?_, rfl, rfl⟩
  show (s.joinQueue k r).filter (fun p => p.1 != k) = []
  rw [hqueue]
  simp

theorem execJoinCertificate_completes (k : Fin 32) (off : BitVec 16) (data : List (BitVec 8)) (s : State) (hmgr : s.isManager = true)
    (hjoiner : s.stk.joiner = some k) (hoff : off.toNat < 64) :
    execJoinCertificate k off data s =
      .next (s.onStk fun x => { x with joinData := fixLen (32 * off.toNat) x.joinData ++ fixLen 32 data ++ x.joinData.drop (32 * off.toNat + 32) }) :=
  next_when (by simp [hmgr, hjoiner, hoff])

theorem execJoinSignature_completes (k : Fin 32) (data : List (BitVec 8)) (s : State) (hmgr : s.isManager = true) (hjoiner : s.stk.joiner = some k) :
    execJoinSignature k 0 data s = .next (s.onStk fun x => { x with joinSig := fixLen 32 data }) := next_when (by simp [hmgr, hjoiner])

theorem execSlotListenEnd_taken (s : State) (hfw : s.sys.fwRun = true) (hworker : s.isWorker = true) (hjoinSt : s.stk.joinSt = .listening) :
    execSlotListenEnd true s = .next (s.raise Src.stack Ev.stkIdTaken) := next_when (by simp [hfw, hworker, hjoinSt])

theorem execSlotListenEnd_free (s : State) (hfw : s.sys.fwRun = true) (hworker : s.isWorker = true) (hjoinSt : s.stk.joinSt = .listening) :
    execSlotListenEnd false s =
      .next ((s.onStk fun k => { k with joinSt := .requested, nonceW := (List.range 16).map fun i => BitVec.ofNat 8 (s.freeN i) }).useFree 16) :=
  next_when (by simp [hfw, hworker, hjoinSt])

theorem execJoinTimeout_completes (k : Fin 32) (s : State) (hfw : s.sys.fwRun = true) (hmgr : s.isManager = true) (hjoiner : s.stk.joiner = some k) :
    execJoinTimeout s = .next (s.joinEnd k 4) := by
  refine (next_when hfw).trans ?_
  rw [hmgr, if_pos rfl, hjoiner]

theorem execJoinRetry_completes (s : State) (hfw : s.sys.fwRun = true) (hworker : s.isWorker = true) (hjoinSt : s.stk.joinSt = .refused) :
    execJoinRetry s = .next (s.onStk fun k => { k with joinSt := .listening }) := next_when (by simp [hfw, hworker, hjoinSt])

theorem execMgrSilent_completes (s : State) (hfw : s.sys.fwRun = true) (hworker : s.isWorker = true) (hjoined : s.stk.joined = true) :
    execMgrSilent s =
      .next ((s.onStk fun k => { k with joined := false, fall := true, decay := true, joinSt := if k.joinSt == .idle then .listening else k.joinSt }).raise Src.stack Ev.stkLeave (BitVec.ofNat 8 s.stkId :: le 2 Cause.mgrSilent.toNat)) := by
  refine (next_when (by rw [hfw, hworker, hjoined]; rfl)).trans ?_
  exact next_when hjoined

theorem execSlotFail_completes (k : Fin 32) (s : State) (hfw : s.sys.fwRun = true) (hmgr : s.isManager = true)
    (hmembers : s.stk.members.getLsbD k.val = true) (hk : k.val ≠ s.stkId) (hfencedM : s.stk.fencedM.getLsbD k.val = false)
    (hslotCounts : s.slotCounts = true) (hfresh : fresh s Cause.slotFail) :
    execSlotFail k s = .next ((awaits s Src.stack Cause.slotFail k.val none (some k)).pathNote s.pathByte) :=
  settle_when_failNote hfresh (by simp [-BitVec.getLsbD_eq_getElem, hfw, hmgr, hmembers, hk, hfencedM, hslotCounts])

theorem execSlot0Collision_completes (k : Fin 32) (s : State) (hfw : s.sys.fwRun = true) (hmgr : s.isManager = true) (hjoined : s.stk.joined = true)
    (hfresh : fresh s Cause.slot0Collision) :
    execSlot0Collision k s = .next ((awaits s Src.stack Cause.slot0Collision k.val none (some k)).pathNote s.pathByte) :=
  settle_when_failNote hfresh (by simp [hfw, hmgr, hjoined])

theorem execAlignLost_completes (s : State) (hfw : s.sys.fwRun = true) (hworker : s.isWorker = true) (hjoined : s.stk.joined = true)
    (hstkf : s.flt.stkf.getLsbD 3 = false) (hfresh : fresh s Cause.alignLost) :
    execAlignLost s = .next ((awaits (s.onStk fun k => { k with aligned := false, alignRun := 0 }) Src.stack Cause.alignLost).pathNote s.pathByte) := by
  refine (settle_when (by rw [hfw, hworker, hjoined, hstkf]; rfl)).trans (congrArg (settle s) ?_)
  exact failNote_fresh (s := s.onStk _) hfresh

theorem execAlignLostLift_completes (s : State) (hfw : s.sys.fwRun = true) (haligned : s.stk.aligned = true) :
    execAlignLostLift s = .next ((s.stkLift 3).pathNote s.pathByte) := settle_when (by simp [hfw, haligned])

theorem execFrameCrc_completes (s : State) (hfw : s.sys.fwRun = true) (hworker : s.isWorker = true) (hstkf : s.flt.stkf.getLsbD 6 = false)
    (hfresh : fresh s Cause.frameCrc) :
    execFrameCrc s = .next ((awaits s Src.stack Cause.frameCrc).pathNote s.pathByte) :=
  settle_when_failNote hfresh (by simp [-BitVec.getLsbD_eq_getElem, hfw, hworker, hstkf])

theorem execStackFenceLift_completes (k : Fin 32) (s : State) (hfw : s.sys.fwRun = true) (hmgr : s.isManager = true)
    (hfun : (s.stk.fenceRun.any fun p => p.1 == k.val && decide (1000 ≤ p.2)) = true) :
    execStackFenceLift k s = .next (s.memberLift k.val) := next_when (by simp [hfw, hmgr, hfun])

theorem execReferenceFrame_completes (iunit : BitVec 11) (bsw stop parity : Bool) (s : State) (hfw : s.sys.fwRun = true) (hinGroup : s.inGroup = true)
    (hfollower : s.follower = true) (hparity : refParity iunit bsw stop parity = true) :
    execReferenceFrame iunit bsw stop parity s =
      .next (((s.onStk fun k => { k with refGood := min 64 (k.refGood + 1) }).refTake iunit bsw stop).pathNote s.pathByte) := by
  refine (settle_when (by rw [hfw, hinGroup, hfollower]; rfl)).trans ?_
  rw [if_pos hparity]
  exact settle_when (s0 := s) hfollower

theorem execCascRefLost_completes (s : State) (hfw : s.sys.fwRun = true) (hfollower : s.follower = true) (hstkf : s.flt.stkf.getLsbD 4 = false)
    (hrefExcused : s.refExcused = false) :
    execCascRefLost s = .next (((s.refMiss).failNote Src.stack Cause.cascRefLost).pathNote s.pathByte) :=
  settle_when (by rw [hfw, hfollower, hstkf, hrefExcused]; rfl)

theorem execCascRefLostLift_completes (s : State) (hfw : s.sys.fwRun = true) (hinGroup : s.inGroup = true) (hstk : 64 ≤ s.stk.refGood) :
    execCascRefLostLift s = .next (((s.onStk fun k => { k with refLost := false }).stkLift 4).pathNote s.pathByte) :=
  settle_when (by simp [hfw, hinGroup, hstk])

theorem execStackElectionClose_completes (e : Election) (l : List Election) (s : State) (helect : s.stk.elect = e :: l) (hfw : s.sys.fwRun = true)
    (hmgr : s.isManager = true) (helectDue : s.electDue e = true) :
    execStackElectionClose s = .next ((s.onStk fun k => { k with elect := l }).electClose e) := by
  unfold execStackElectionClose
  rw [helect]
  exact next_when (by rw [hfw, hmgr, helectDue]; rfl)

theorem execStkTakeover_completes (s : State) (hfw : s.sys.fwRun = true) (hisBackup : s.isBackup = true) (hacting : s.stk.acting = false) :
    execStkTakeover s =
      .next (((s.onStk fun k => { k with acting := true, takeAt := s.now, delays := [], mgrants := s.heardGrants, safegSet := k.safeg, joinSt := .idle, members := (k.members &&& 0xFFFFFFFE) ||| BitVec.ofNat 32 (2 ^ s.stkId), decay := false, fall := false }).raise Src.stack Ev.stkTakeover).modeFix) :=
  next_when (by simp [hfw, hisBackup, hacting])

theorem execManagerReclaim_completes (s : State) (hfw : s.sys.fwRun = true) (hstkId : s.stkId = 0) (hworker0 : s.stk.worker0 = true) :
    execManagerReclaim s =
      .next (s.onStk fun k => { k with worker0 := false, joinSt := .idle, members := 0, fencedM := 0, decay := false, fall := false }) :=
  next_when (by simp [hfw, hstkId, hworker0])

theorem execStackDormantTimeout_completes (s : State) (hdormPh : s.stk.dormPh = 1) :
    execStackDormantTimeout s =
      .next ((s.finishO s.stk.dormBox St.notPermitted (le 4 s.stk.notReady.toNat)).onStk fun k => { k with dormPh := 0, dormBox := none }) :=
  next_when (by simp [hdormPh])

theorem execJoinRequest_waits (k j : Fin 32) (r : JoinReq) (s : State) (hfw : s.sys.fwRun = true) (hstack : s.inStack = true) (hid : k.val ≠ s.stkId)
    (hmgr : s.isManager = true) (hjoined : s.stk.joined = true) (hjoiner : s.stk.joiner = some j) (hother : j ≠ k)
    (hwoken : (s.stk.wakeM.getLsbD k.val && s.stk.members.getLsbD k.val && !s.stk.fencedM.getLsbD k.val) = false) :
    execJoinRequest k r s =
      .next (s.onStk fun x => { x with fsws := x.fsws.filter (fun p => p.1 != k.val) ++ [(k.val, r.fsw.toNat)], joinWait := s.joinQueue k r }) := by
  rw [execJoinRequest_asked hfw hstack hid hmgr hjoined, joinAsk_waits (s := fswHeard s k r) hjoiner hother hwoken]
  rfl

theorem execJoinRequest_serves (k : Fin 32) (r : JoinReq) (p : Fin 32 × JoinReq × Int) (s : State) (hfw : s.sys.fwRun = true)
    (hstack : s.inStack = true) (hid : k.val ≠ s.stkId) (hmgr : s.isManager = true) (hjoined : s.stk.joined = true) (hjoiner : s.stk.joiner = none)
    (hfirst : joinFirst (s.joinQueue k r) = some p)
    (hwoken : (s.stk.wakeM.getLsbD k.val && s.stk.members.getLsbD k.val && !s.stk.fencedM.getLsbD k.val) = false) :
    execJoinRequest k r s =
      .next ((s.onStk fun x => { x with fsws := x.fsws.filter (fun p => p.1 != k.val) ++ [(k.val, r.fsw.toNat)], joinWait := s.joinQueue k r }).joinServe p.1 p.2.1 p.2.2) := by
  rw [execJoinRequest_asked hfw hstack hid hmgr hjoined, joinAsk_serves (s := fswHeard s k r) hjoiner hwoken hfirst]
  rfl

theorem execSlotStart_realigns (c : CycIn) (s : State) (hfw : s.sys.fwRun = true) (hworker : s.isWorker = true) (hjoinSt : s.stk.joinSt = .idle)
    (heverJoined : s.stk.everJoined = true) (hrealign : s.stk.realign = true) (hwokeAt : s.stk.wokeAt = none) :
    execSlotStart c s = .next s.realignFrame := by
  rw [execSlotStart_worker hfw hworker, hjoinSt]
  refine (next_when heverJoined).trans ?_
  rw [hrealign, hwokeAt]
  rfl

theorem execJoinRequest_realigns (k : Fin 32) (r : JoinReq) (s : State) (hfw : s.sys.fwRun = true) (hstack : s.inStack = true) (hid : k.val ≠ s.stkId)
    (hmgr : s.isManager = true) (hjoined : s.stk.joined = true) (hjoiner : s.stk.joiner = none) (hwakeM : s.stk.wakeM.getLsbD k.val = true)
    (hmembers : s.stk.members.getLsbD k.val = true) (hfencedM : s.stk.fencedM.getLsbD k.val = false) :
    execJoinRequest k r s =
      .next ((s.onStk fun x => { x with fsws := x.fsws.filter (fun p => p.1 != k.val) ++ [(k.val, r.fsw.toNat)], wakeM := setBit x.wakeM k.val false }).alignWorker k.val r.late (s.joinLeadOf r)) := by
  have hrealign : (s.stk.wakeM.getLsbD k.val && s.stk.members.getLsbD k.val && !s.stk.fencedM.getLsbD k.val) = true := by
    rw [hwakeM, hmembers, hfencedM]; rfl
  rw [execJoinRequest_asked hfw hstack hid hmgr hjoined, joinAsk_woken (s := fswHeard s k r) (ne_of_eq_of_ne hjoiner nofun) hrealign]
  rfl

/-- Settles O52: one lemma per command. -/
theorem stackEventsComplete : Obligations.StackEventsComplete :=
  ⟨execStackCycleStart_completes, execSlotStart_reports, execSlotStart_requests, execManagerFrame_completes, execMemberReport_completes,
    execJoinRequest_noted, execJoinRequest_starts, execJoinCertificate_completes, execJoinSignature_completes, execSlotListenEnd_taken,
    execSlotListenEnd_free, execJoinTimeout_completes, execJoinRetry_completes, execMgrSilent_completes, execSlotFail_completes,
    execSlot0Collision_completes, execAlignLost_completes, execAlignLostLift_completes, execFrameCrc_completes,
    execStackFenceLift_completes, execReferenceFrame_completes, execCascRefLost_completes, execCascRefLostLift_completes,
    execStackElectionClose_completes, execStkTakeover_completes, execManagerReclaim_completes, execStackDormantTimeout_completes,
    execJoinRequest_waits, execJoinRequest_serves, execSlotStart_realigns, execJoinRequest_realigns⟩

end Sys2Proof.Machine
end
